-- ==== Sys2Proof/Word.lean ====
section
/-! DEFINITION. The machine's words and their plainest arithmetic: 64- and 128-bit values (R23, R32), bytes, and little-endian order (R8). -/

namespace Sys2Proof

/-- A 64-bit register value (R180). -/
abbrev Word := BitVec 64
/-- A 128-bit vector register, port or stream value (R180). -/
abbrev Quad := BitVec 128
abbrev Byte := BitVec 8

/-- The field `[hi:lo]` of a value as a number (R23). -/
def field {n : Nat} (v : BitVec n) (hi lo : Nat) : Nat := (v.toNat >>> lo) % 2 ^ (hi + 1 - lo)

/-- The low `k` bytes of a number, lowest address first (R8). -/
def bytesLE : Nat → Nat → List Byte
  | 0, _ => []
  | k + 1, v => BitVec.ofNat 8 v :: bytesLE k (v / 256)

/-- The number whose bytes stand lowest address first (R8). -/
def natLE : List Byte → Nat
  | [] => 0
  | b :: bs => b.toNat + 256 * natLE bs

/-- Two's complement of `v` at width `w` as an integer. -/
def signedAt (w v : Nat) : Int := if v % 2 ^ w < 2 ^ (w - 1) then (v % 2 ^ w : Nat) else (v % 2 ^ w : Nat) - (2 ^ w : Nat)

/-- An integer modulo `2^w`. -/
def wrapTo (w : Nat) (i : Int) : Nat := (i % (2 ^ w : Nat)).toNat

end Sys2Proof
end

