-- ==== Sys2Proof/Syntax.lean ====
section
/-! DEFINITION. The syntax of the machine's steps: sources, destinations and guards of a word (R28 to R36), the 144 operations (R47), and Instr, one constructor per row of the opcode table: 210 instruction words and 78 steps that no word encodes. -/

namespace Sys2Proof

/-- Operand and configuration ports, codes 72 to 94 in this order (R32). -/
inductive OPort where
| aluB | mulB | mulC | memD | memQ | vecB | vecC | vecTy | fpuB | fpuC | fpuTy | idxB | idxSh | trkN | trkD | amoB | amoT | synSc | ndD | msgD | tskPr | lk | rngS
  deriving DecidableEq, Repr

/-- Result ports, codes 64 to 89 in this order (R36). -/
inductive RPort where
| aluO | mulO | mulH | memO | memOq | idxO0 | idxO1 | idxO2 | idxO3 | idxO4 | vecO | fpuO | fpuF | sfuO | trkO | trkH | amoO | synO | ndO | cpyO | msgO | msgId | tskO | sysO | rngO | mxO
  deriving DecidableEq, Repr

/-- A source of a word (R35). The immediates carry the bits of their code: `imm5 v` of a short word has the value v − 16 (R28), `imm8 v` of src9 the value v − 128, and `imm15 v` of L = 1 is signed (R30, R35). -/
inductive Source where
  | w (i : Fin 24) | q (i : Fin 16) | str (i : Fin 8) | pw | x (i : Fin 4) | lk | pc
  | port (r : RPort)
  | imm5 (v : BitVec 5)
  | imm8 (v : BitVec 8)
  | imm15 (v : BitVec 15)
  deriving DecidableEq, Repr

/-- A destination of a transport (R31), triggers apart. -/
inductive Dest where
  | w (i : Fin 24) | q (i : Fin 16) | str (i : Fin 8) | p (i : Fin 16)
  | x (i : Fin 4) | xsh (i : Fin 4)
  | port (r : OPort)
  deriving DecidableEq, Repr

/-- The guard of a long word (R29). -/
inductive Guard where
  | always
  | ifTrue (n : Fin 16)
  | ifFalse (n : Fin 16)
  deriving DecidableEq, Repr

/-- The 144 operations, in the order of their numbers (R47). -/
inductive Op where
  | aluAdd | aluSub | aluAnd | aluOr | aluXor | aluShl | aluShr | aluSra 
  | aluSlt | aluSltu | aluSeq | aluMin | aluMax | aluMinu | aluMaxu | aluSxb 
  | aluSxh | aluClz | aluPopc | mulMul | mulMulh | mulMulhu | mulMad | mulDiv 
  | mulDivu | mulRem | mulRemu | memLd8 | memLd8s | memLd16 | memLd16s | memLd32 
  | memLd32s | memLd64 | memLdq | memSt8 | memSt16 | memSt32 | memSt64 | memStq 
  | memLdf | memLdt | memStf | memSte | prdPand | prdPor | prdPxor | prdPandn 
  | ctlJmp | ctlJrel | ctlCall | ctlRet | ctlTrap | idxTix | idxAdr | idxBnd 
  | trkClaim | trkFree | trkSeek | trkStep | trkRds | trkWrs | trkRwd | trkHead 
  | vecAdd | vecSub | vecMul | vecMad | vecMin | vecMax | vecAnd | vecOr 
  | vecXor | vecShl | vecShr | vecSra | vecCeq | vecClt | vecSel | vecShf 
  | vecPak | vecUnp | vecCvt | vecDot | vecSum | vecExt | vecRec | vecRun 
  | fpuAdd | fpuSub | fpuMul | fpuFma | fpuDiv | fpuSqrt | fpuCmp | fpuToi 
  | fpuTof | sfuExp2 | sfuLog2 | sfuRcp | sfuRsq | sfuSin | sfuCos | amoAdd 
  | amoMin | amoMax | amoAnd | amoOr | amoXor | amoLrw | amoScr | synFence 
  | synAcq | synRel | synArrive | synWait | synMask | strBind | strFree | mxRun 
  | mxCnt | mxDrn | mxMrg | mxSt | mxWait | ndWant | ndGive | ndDrop 
  | ndCard | cpyGo | msgSend | msgRecv | msgAny | tskPush | tskPop | tskPark 
  | tskYield | sysCrr | sysCrw | sysEret | sysTlbi | sysMwait | sysHalt | rngNext 
  deriving DecidableEq, Repr

/-- The operation numbered `n` (R46, R47). -/
def Op.list : List Op := [
  .aluAdd, .aluSub, .aluAnd, .aluOr, .aluXor, .aluShl, .aluShr, .aluSra,
  .aluSlt, .aluSltu, .aluSeq, .aluMin, .aluMax, .aluMinu, .aluMaxu, .aluSxb,
  .aluSxh, .aluClz, .aluPopc, .mulMul, .mulMulh, .mulMulhu, .mulMad, .mulDiv,
  .mulDivu, .mulRem, .mulRemu, .memLd8, .memLd8s, .memLd16, .memLd16s, .memLd32,
  .memLd32s, .memLd64, .memLdq, .memSt8, .memSt16, .memSt32, .memSt64, .memStq,
  .memLdf, .memLdt, .memStf, .memSte, .prdPand, .prdPor, .prdPxor, .prdPandn,
  .ctlJmp, .ctlJrel, .ctlCall, .ctlRet, .ctlTrap, .idxTix, .idxAdr, .idxBnd,
  .trkClaim, .trkFree, .trkSeek, .trkStep, .trkRds, .trkWrs, .trkRwd, .trkHead,
  .vecAdd, .vecSub, .vecMul, .vecMad, .vecMin, .vecMax, .vecAnd, .vecOr,
  .vecXor, .vecShl, .vecShr, .vecSra, .vecCeq, .vecClt, .vecSel, .vecShf,
  .vecPak, .vecUnp, .vecCvt, .vecDot, .vecSum, .vecExt, .vecRec, .vecRun,
  .fpuAdd, .fpuSub, .fpuMul, .fpuFma, .fpuDiv, .fpuSqrt, .fpuCmp, .fpuToi,
  .fpuTof, .sfuExp2, .sfuLog2, .sfuRcp, .sfuRsq, .sfuSin, .sfuCos, .amoAdd,
  .amoMin, .amoMax, .amoAnd, .amoOr, .amoXor, .amoLrw, .amoScr, .synFence,
  .synAcq, .synRel, .synArrive, .synWait, .synMask, .strBind, .strFree, .mxRun,
  .mxCnt, .mxDrn, .mxMrg, .mxSt, .mxWait, .ndWant, .ndGive, .ndDrop,
  .ndCard, .cpyGo, .msgSend, .msgRecv, .msgAny, .tskPush, .tskPop, .tskPark,
  .tskYield, .sysCrr, .sysCrw, .sysEret, .sysTlbi, .sysMwait, .sysHalt, .rngNext]

/-- The number of an operation: its trigger code is 128 more (R46). -/
def Op.code (o : Op) : Nat := o.ctorIdx

def Op.ofCode (n : Nat) : Option Op := Op.list[n]?

/-- Posted operations at memory (R93). -/
inductive AmoKind where | add | min | max | and | or | xor
  deriving DecidableEq, Repr

/-- A barrier group of the network (R357): a module-wide group of a launch, or a die group of a team; launch 0 where no
launch is recorded, else one more than its index. -/
structure GroupKey where
  wide : Bool
  grp : Nat
  launch : Nat := 0
  team : Nat := 0
  deriving DecidableEq, Repr

/-- A tile's name within its context (R155). -/
structure TileName where
  cid : Fin 64
  tensor : BitVec 24
  iter : BitVec 16
  tile : BitVec 32
  deriving DecidableEq, Repr

/-- A given tile: its bytes, the indices of its poisoned words (R164), the giver's core, its thread as a source, and Rel (R307). -/
structure Tile where
  data : List Byte
  bad : List Nat
  core : Nat
  src : Nat
  rel : List (Nat × Nat)
  deriving DecidableEq, Repr

/-- Who gave a tile: core number, slot, the give's sequence number, request tag and trigger value (R174). -/
structure Giver where
  core : Nat
  slot : Fin 8
  seq : Nat
  tag : Nat
  va : Word
  deriving DecidableEq, Repr

/-- Where an interest reached a router (R161): a mesh direction, a Psipor port, a cluster router (at the die-level router of
its die, or at an edge router), a die-level router, with the cluster by which the interest left its die, an edge router, or a local
waiter, which names a core of the cluster, the window offset of its destination and its interest record (R173). -/
inductive Face where
  | xPlus | xMinus | yPlus | yMinus
  | psipor (p : Fin 16)
  | cluster (k : Nat)
  | die (d via : Nat)
  | edge (p : Fin 16)
  | waiter (core dest rec : Nat)
  deriving DecidableEq, Repr

/-- Traffic of the tile network (R161, R401). -/
inductive Packet where
  | interest (nm : TileName) (face : Face)
  | tile (nm : TileName) (t : Tile)
  | give (nm : TileName) (t : Tile) (by_ : Giver)
  | empty (nm : TileName) (withdrawn : Bool)
  | withdraw (nm : TileName) (face : Face)
  | retire (cid : Fin 64) (tensor : BitVec 24) (iter : BitVec 16) (producer : Nat)
  | notice (port : Fin 16) (cid : Fin 64)
  deriving DecidableEq, Repr

/-- What a CXL.mem write enables of its line's bytes, and which of the host's writes had completed, as the host knew, when it sent
this one (R394, R395). -/
structure HostEnables where
  bytes : BitVec 64
  known : List Nat
  deriving DecidableEq, Repr

/-- What moves the trace: reference ticks with nothing to record, firmware's setting of a cluster's buffer (its granary address and size in
records), a stop or start of a cluster's clock, and a snapshot of the account of lost time (R391, R392). -/
inductive TraceEvent where
  | ticks (n : Nat)
  | buffer (cluster base size : Nat)
  | clock (cluster : Nat) (on : Bool)
  | snapshot (block : Nat)
  deriving DecidableEq, Repr

/-- An access to a register over CXL.io: BAR0, or BAR1, the window of the machine-check banks, written or read (R393, R398). -/
inductive BarAccess where
  | write0 (off : BitVec 16)
  | read0 (off : BitVec 16)
  | write1 (off : BitVec 24)
  | read1 (off : BitVec 24)
  deriving DecidableEq, Repr

/-- What a request of another agent asks of an ordering point (R295, R142, R96). -/
inductive AgentAct where
  | store (data : List Byte) (full : Bool)
  | amo (k : AmoKind) (b : Word)
  | scr (b : Word) (last : Bool)
  | ldf | ldt
  | ste (d : Word)
  | lrw (grp : GroupKey) (gen tkt : Nat)
  | mwait
  /-- a waiter that is pre-empted or swapped, or whose word differs, waits at no line any more (R88, R378) -/
  | unwait
  deriving DecidableEq, Repr

/-- A hand-off of a B tile: the head command's, to the next unit, or the previous unit's, into the core's latch (R285). -/
inductive Handoff where
  | out
  | inn (k bits : Nat) (tile : List Nat)
  deriving DecidableEq, Repr

/-- A request of a thread of another core that reaches an ordering point, through its own-cluster window or not (R137),
with its thread's floor and, if it is a release write, its scope (R305). -/
structure AgentReq where
  core : Nat
  slot : Fin 8
  own : Bool := false
  loc : Nat
  act : AgentAct
  known : List (Nat × Nat)
  rel : Option (BitVec 42)
  deriving DecidableEq, Repr

/-- A request that reaches its ordering point: the one at position `i` of the paths, or another agent's. -/
inductive Arrival where
  | path (i : Nat)
  | agent (q : AgentReq)
  deriving DecidableEq, Repr

/-- Whose shootdown goes on: a slot's of the observed core, or another core's, which reaches this core and its cluster (R77). -/
inductive Shootdown where
  | own (slot : Fin 8)
  | other (core : Nat) (kind : BitVec 2) (cid : BitVec 6) (va : Word) (scope : BitVec 42)
  deriving DecidableEq, Repr

/-- A line that a slice reads from its tier, with the words that the read cannot correct (R84). -/
structure LineRead where
  line : Nat
  bad : List (Fin 16)
  deriving DecidableEq, Repr

/-- What a message brings: its data and, from another core's thread, that core and the floor and writes of that thread at its issue
(R330). -/
structure Posted where
  data : Quad
  sender : Nat
  known : List (Nat × Nat)
  deriving DecidableEq, Repr

/-- A thread that arrives at a group and, of another core, its floor and writes at the arrival's issue (R308). -/
structure Arriving where
  thread : Nat
  known : List (Nat × Nat)
  deriving DecidableEq, Repr

/-- Why a context dies: firmware lets it die, or a fatal event of a cluster in use, which takes every context that holds a
core of it: a router, a bank, the matrix unit or a core's datapath, with the bank number of the core concerned and the place
that the event logs (R382, R384). -/
inductive Death where
  | context (cid : Fin 64)
  | fatal (cluster : Nat) (part : Fin 4) (core : Fin 8) (ad : Word)
  deriving DecidableEq, Repr

/-- The steps of the machine, one constructor per row of the opcode table. -/
inductive Instr where
  | transportShort (s : Bool) (d : Dest) (c : Source)
  | transportLong (s : Bool) (g : Guard) (d : Dest) (x : Source)
  | aluAddShort (s : Bool) (c : Source)
  | aluAddLong (s : Bool) (g : Guard) (x : Source)
  | aluSubShort (s : Bool) (c : Source)
  | aluSubLong (s : Bool) (g : Guard) (x : Source)
  | aluAndShort (s : Bool) (c : Source)
  | aluAndLong (s : Bool) (g : Guard) (x : Source)
  | aluOrShort (s : Bool) (c : Source)
  | aluOrLong (s : Bool) (g : Guard) (x : Source)
  | aluXorShort (s : Bool) (c : Source)
  | aluXorLong (s : Bool) (g : Guard) (x : Source)
  | aluShlShort (s : Bool) (c : Source)
  | aluShlLong (s : Bool) (g : Guard) (x : Source)
  | aluShrShort (s : Bool) (c : Source)
  | aluShrLong (s : Bool) (g : Guard) (x : Source)
  | aluSraShort (s : Bool) (c : Source)
  | aluSraLong (s : Bool) (g : Guard) (x : Source)
  | aluSltShort (s : Bool) (c : Source)
  | aluSltLong (s : Bool) (g : Guard) (x : Source)
  | aluSltuShort (s : Bool) (c : Source)
  | aluSltuLong (s : Bool) (g : Guard) (x : Source)
  | aluSeqShort (s : Bool) (c : Source)
  | aluSeqLong (s : Bool) (g : Guard) (x : Source)
  | aluMinShort (s : Bool) (c : Source)
  | aluMinLong (s : Bool) (g : Guard) (x : Source)
  | aluMaxShort (s : Bool) (c : Source)
  | aluMaxLong (s : Bool) (g : Guard) (x : Source)
  | aluMinuShort (s : Bool) (c : Source)
  | aluMinuLong (s : Bool) (g : Guard) (x : Source)
  | aluMaxuShort (s : Bool) (c : Source)
  | aluMaxuLong (s : Bool) (g : Guard) (x : Source)
  | aluSxbShort (s : Bool) (c : Source)
  | aluSxbLong (s : Bool) (g : Guard) (x : Source)
  | aluSxhShort (s : Bool) (c : Source)
  | aluSxhLong (s : Bool) (g : Guard) (x : Source)
  | aluClzShort (s : Bool) (c : Source)
  | aluClzLong (s : Bool) (g : Guard) (x : Source)
  | aluPopcShort (s : Bool) (c : Source)
  | aluPopcLong (s : Bool) (g : Guard) (x : Source)
  | mulMulShort (s : Bool) (c : Source)
  | mulMulLong (s : Bool) (g : Guard) (x : Source)
  | mulMulhShort (s : Bool) (c : Source)
  | mulMulhLong (s : Bool) (g : Guard) (x : Source)
  | mulMulhuShort (s : Bool) (c : Source)
  | mulMulhuLong (s : Bool) (g : Guard) (x : Source)
  | mulMadShort (s : Bool) (c : Source)
  | mulMadLong (s : Bool) (g : Guard) (x : Source)
  | mulDivShort (s : Bool) (c : Source)
  | mulDivLong (s : Bool) (g : Guard) (x : Source)
  | mulDivuShort (s : Bool) (c : Source)
  | mulDivuLong (s : Bool) (g : Guard) (x : Source)
  | mulRemShort (s : Bool) (c : Source)
  | mulRemLong (s : Bool) (g : Guard) (x : Source)
  | mulRemuShort (s : Bool) (c : Source)
  | mulRemuLong (s : Bool) (g : Guard) (x : Source)
  | memLd8Short (s : Bool) (c : Source)
  | memLd8Long (s : Bool) (g : Guard) (x : Source)
  | memLd8sShort (s : Bool) (c : Source)
  | memLd8sLong (s : Bool) (g : Guard) (x : Source)
  | memLd16Short (s : Bool) (c : Source)
  | memLd16Long (s : Bool) (g : Guard) (x : Source)
  | memLd16sShort (s : Bool) (c : Source)
  | memLd16sLong (s : Bool) (g : Guard) (x : Source)
  | memLd32Short (s : Bool) (c : Source)
  | memLd32Long (s : Bool) (g : Guard) (x : Source)
  | memLd32sShort (s : Bool) (c : Source)
  | memLd32sLong (s : Bool) (g : Guard) (x : Source)
  | memLd64Short (s : Bool) (c : Source)
  | memLd64Long (s : Bool) (g : Guard) (x : Source)
  | memLdqShort (s : Bool) (c : Source)
  | memLdqLong (s : Bool) (g : Guard) (x : Source)
  | memSt8Short (s : Bool) (c : Source)
  | memSt8Long (s : Bool) (g : Guard) (x : Source)
  | memSt16Short (s : Bool) (c : Source)
  | memSt16Long (s : Bool) (g : Guard) (x : Source)
  | memSt32Short (s : Bool) (c : Source)
  | memSt32Long (s : Bool) (g : Guard) (x : Source)
  | memSt64Short (s : Bool) (c : Source)
  | memSt64Long (s : Bool) (g : Guard) (x : Source)
  | memStqShort (s : Bool) (c : Source)
  | memStqLong (s : Bool) (g : Guard) (x : Source)
  | memLdfShort (s : Bool) (c : Source)
  | memLdfLong (s : Bool) (g : Guard) (x : Source)
  | memLdtShort (s : Bool) (c : Source)
  | memLdtLong (s : Bool) (g : Guard) (x : Source)
  | memStfShort (s : Bool) (c : Source)
  | memStfLong (s : Bool) (g : Guard) (x : Source)
  | memSteShort (s : Bool) (c : Source)
  | memSteLong (s : Bool) (g : Guard) (x : Source)
  | prdPandShort (s : Bool) (c : Source)
  | prdPandLong (s : Bool) (g : Guard) (x : Source)
  | prdPorShort (s : Bool) (c : Source)
  | prdPorLong (s : Bool) (g : Guard) (x : Source)
  | prdPxorShort (s : Bool) (c : Source)
  | prdPxorLong (s : Bool) (g : Guard) (x : Source)
  | prdPandnShort (s : Bool) (c : Source)
  | prdPandnLong (s : Bool) (g : Guard) (x : Source)
  | ctlJmpShort (s : Bool) (c : Source)
  | ctlJmpLong (s : Bool) (g : Guard) (x : Source)
  | ctlJrelShort (s : Bool) (c : Source)
  | ctlJrelLong (s : Bool) (g : Guard) (x : Source)
  | ctlCallShort (s : Bool) (c : Source)
  | ctlCallLong (s : Bool) (g : Guard) (x : Source)
  | ctlRetShort (s : Bool) (c : Source)
  | ctlRetLong (s : Bool) (g : Guard) (x : Source)
  | ctlTrapShort (s : Bool) (c : Source)
  | ctlTrapLong (s : Bool) (g : Guard) (x : Source)
  | idxTixShort (s : Bool) (c : Source)
  | idxTixLong (s : Bool) (g : Guard) (x : Source)
  | idxAdrShort (s : Bool) (c : Source)
  | idxAdrLong (s : Bool) (g : Guard) (x : Source)
  | idxBndShort (s : Bool) (c : Source)
  | idxBndLong (s : Bool) (g : Guard) (x : Source)
  | trkClaimShort (s : Bool) (c : Source)
  | trkClaimLong (s : Bool) (g : Guard) (x : Source)
  | trkFreeShort (s : Bool) (c : Source)
  | trkFreeLong (s : Bool) (g : Guard) (x : Source)
  | trkSeekShort (s : Bool) (c : Source)
  | trkSeekLong (s : Bool) (g : Guard) (x : Source)
  | trkStepShort (s : Bool) (c : Source)
  | trkStepLong (s : Bool) (g : Guard) (x : Source)
  | trkRdsShort (s : Bool) (c : Source)
  | trkRdsLong (s : Bool) (g : Guard) (x : Source)
  | trkWrsShort (s : Bool) (c : Source)
  | trkWrsLong (s : Bool) (g : Guard) (x : Source)
  | trkRwdShort (s : Bool) (c : Source)
  | trkRwdLong (s : Bool) (g : Guard) (x : Source)
  | trkHeadShort (s : Bool) (c : Source)
  | trkHeadLong (s : Bool) (g : Guard) (x : Source)
  | vecAdd (s : Bool) (g : Guard) (x : Source)
  | vecSub (s : Bool) (g : Guard) (x : Source)
  | vecMul (s : Bool) (g : Guard) (x : Source)
  | vecMad (s : Bool) (g : Guard) (x : Source)
  | vecMin (s : Bool) (g : Guard) (x : Source)
  | vecMax (s : Bool) (g : Guard) (x : Source)
  | vecAnd (s : Bool) (g : Guard) (x : Source)
  | vecOr (s : Bool) (g : Guard) (x : Source)
  | vecXor (s : Bool) (g : Guard) (x : Source)
  | vecShl (s : Bool) (g : Guard) (x : Source)
  | vecShr (s : Bool) (g : Guard) (x : Source)
  | vecSra (s : Bool) (g : Guard) (x : Source)
  | vecCeq (s : Bool) (g : Guard) (x : Source)
  | vecClt (s : Bool) (g : Guard) (x : Source)
  | vecSel (s : Bool) (g : Guard) (x : Source)
  | vecShf (s : Bool) (g : Guard) (x : Source)
  | vecPak (s : Bool) (g : Guard) (x : Source)
  | vecUnp (s : Bool) (g : Guard) (x : Source)
  | vecCvt (s : Bool) (g : Guard) (x : Source)
  | vecDot (s : Bool) (g : Guard) (x : Source)
  | vecSum (s : Bool) (g : Guard) (x : Source)
  | vecExt (s : Bool) (g : Guard) (x : Source)
  | vecRec (s : Bool) (g : Guard) (x : Source)
  | vecRun (s : Bool) (g : Guard) (x : Source)
  | fpuAdd (s : Bool) (g : Guard) (x : Source)
  | fpuSub (s : Bool) (g : Guard) (x : Source)
  | fpuMul (s : Bool) (g : Guard) (x : Source)
  | fpuFma (s : Bool) (g : Guard) (x : Source)
  | fpuDiv (s : Bool) (g : Guard) (x : Source)
  | fpuSqrt (s : Bool) (g : Guard) (x : Source)
  | fpuCmp (s : Bool) (g : Guard) (x : Source)
  | fpuToi (s : Bool) (g : Guard) (x : Source)
  | fpuTof (s : Bool) (g : Guard) (x : Source)
  | sfuExp2 (s : Bool) (g : Guard) (x : Source)
  | sfuLog2 (s : Bool) (g : Guard) (x : Source)
  | sfuRcp (s : Bool) (g : Guard) (x : Source)
  | sfuRsq (s : Bool) (g : Guard) (x : Source)
  | sfuSin (s : Bool) (g : Guard) (x : Source)
  | sfuCos (s : Bool) (g : Guard) (x : Source)
  | amoAdd (s : Bool) (g : Guard) (x : Source)
  | amoMin (s : Bool) (g : Guard) (x : Source)
  | amoMax (s : Bool) (g : Guard) (x : Source)
  | amoAnd (s : Bool) (g : Guard) (x : Source)
  | amoOr (s : Bool) (g : Guard) (x : Source)
  | amoXor (s : Bool) (g : Guard) (x : Source)
  | amoLrw (s : Bool) (g : Guard) (x : Source)
  | amoScr (s : Bool) (g : Guard) (x : Source)
  | synFence (s : Bool) (g : Guard) (x : Source)
  | synAcq (s : Bool) (g : Guard) (x : Source)
  | synRel (s : Bool) (g : Guard) (x : Source)
  | synArrive (s : Bool) (g : Guard) (x : Source)
  | synWait (s : Bool) (g : Guard) (x : Source)
  | synMask (s : Bool) (g : Guard) (x : Source)
  | strBind (s : Bool) (g : Guard) (x : Source)
  | strFree (s : Bool) (g : Guard) (x : Source)
  | mxRun (s : Bool) (g : Guard) (x : Source)
  | mxCnt (s : Bool) (g : Guard) (x : Source)
  | mxDrn (s : Bool) (g : Guard) (x : Source)
  | mxMrg (s : Bool) (g : Guard) (x : Source)
  | mxSt (s : Bool) (g : Guard) (x : Source)
  | mxWait (s : Bool) (g : Guard) (x : Source)
  | ndWant (s : Bool) (g : Guard) (x : Source)
  | ndGive (s : Bool) (g : Guard) (x : Source)
  | ndDrop (s : Bool) (g : Guard) (x : Source)
  | ndCard (s : Bool) (g : Guard) (x : Source)
  | cpyGo (s : Bool) (g : Guard) (x : Source)
  | msgSend (s : Bool) (g : Guard) (x : Source)
  | msgRecv (s : Bool) (g : Guard) (x : Source)
  | msgAny (s : Bool) (g : Guard) (x : Source)
  | tskPush (s : Bool) (g : Guard) (x : Source)
  | tskPop (s : Bool) (g : Guard) (x : Source)
  | tskPark (s : Bool) (g : Guard) (x : Source)
  | tskYield (s : Bool) (g : Guard) (x : Source)
  | sysCrr (s : Bool) (g : Guard) (x : Source)
  | sysCrw (s : Bool) (g : Guard) (x : Source)
  | sysEret (s : Bool) (g : Guard) (x : Source)
  | sysTlbi (s : Bool) (g : Guard) (x : Source)
  | sysMwait (s : Bool) (g : Guard) (x : Source)
  | sysHalt (s : Bool) (g : Guard) (x : Source)
  | rngNext (s : Bool) (g : Guard) (x : Source)
  | streamWordHoldRelease (slot : Fin 8)
  | fixedResultDelivery (slot : Fin 8)
  | fencedResultDelivery (slot : Fin 8)
  | switchMarkerRelease (slot : Fin 8)
  | tlbMissWalk (slot : Fin 8) (va : Word)
  | tlbiAcknowledge (by_ : Shootdown)
  | postedStoreDepart (slot : Fin 8) (i : Nat)
  | requestArrive (r : Arrival)
  | homeSliceWrite (i : Nat)
  | sharedCopyInvalidation (die : Fin 16) (line : Nat)
  | writeAcknowledge (i : Nat)
  | lineReadMiss (die : Fin 16) (line : LineRead)
  | lrwRequestArrive (r : Arrival)
  | bankRequestPerform (i : Nat)
  | copyStart (i : Nat)
  | copyChunk (i : Nat)
  | copyComplete (i : Nat)
  | trackCommandPerform (n : Fin 32)
  | trackClear (n : Fin 32) (found : Bool)
  | patternElementRead (n : Fin 8)
  | patternElementWrite (n : Fin 8)
  | vecReplayTransport (slot : Fin 8)
  | mxCommandPerform (own : Bool)
  | mxLatchHandoff (h : Handoff)
  | interestArrive (k : Nat) (nm : TileName) (face : Face)
  | tileArrive (k : Nat) (nm : TileName) (t : Tile)
  | giveArrive (k : Nat) (nm : TileName) (t : Tile) (by_ : Giver)
  | retireNoticeArrive (cid : Fin 64) (tensor : BitVec 24) (iter : BitVec 16) (producer : Nat)
  | iterationClose (k : Nat) (cid : Fin 64) (tensor : BitVec 24) (iter : BitVec 16)
  | settleEmptyNotice (k : Nat) (nm : TileName) (withdrawn : Bool)
  | interestWithdrawal (k : Nat) (nm : TileName) (face : Face)
  | peerWithdrawalNotice (port : Fin 16) (cid : Fin 64)
  | cardTaskPush (id : Fin 32)
  | messageArrive (core : Nat) (id : Word) (data : Posted)
  | barrierNetworkArrival (grp : GroupKey) (thread : Arriving)
  | generationClose (grp : GroupKey)
  | launchSlotTake (cid : Fin 64) (q : Fin 64)
  | placement (launch team x y : Nat)
  | taskBegin (slot : Fin 8)
  | threadEnd (slot : Fin 8)
  | taskDispatch
  | launchCompletion (launch : Nat)
  | quantumExpiry (slot : Fin 8)
  | teamSwapOut
  | teamRestore (x y : Nat)
  | impreciseFaultArrival (slot : Fin 8) (seq : Nat) (cause : Word)
  | trapEntry (slot : Fin 8)
  | userLevelEntry (slot : Fin 8)
  | threadKill (slot : Fin 8)
  | gleaning (cluster : Nat) (failed : Option (Fin 4 × Fin 8 × Word))
  | crossTriggerStop (wide : Bool)
  | crossTriggerRelease
  | watchpointInsert (g : BitVec 42)
  | watchpointClear
  | traceEpochOverflow (ticks : TraceEvent)
  | islandInterval
  | cxlMemRead (hpa : BitVec 52)
  | cxlMemWritePlain (hpa : BitVec 52) (data : BitVec 512) (en : HostEnables)
  | cxlMemWriteFull (hpa : BitVec 52) (data : BitVec 512) (en : HostEnables)
  | snpdata (line : BitVec 52)
  | snpinv (line : BitVec 52) (data : BitVec 1024)
  | cxlCacheResponse (line : BitVec 52) (data : BitVec 1024) (error : Bool)
  | psiporFlitReceive (port : Fin 16) (crcOk : Bool) (k : Nat) (p : Packet)
  | linkRetrainTimeout (port : Fin 16)
  | herrClear
  | mcstClear (cluster : Nat) (bank : Fin 4) (v : Word)
  | negoGo
  | sysint (v : Word)
  | ctxcmd (v : Word)
  | registerWrite (at_ : BarAccess) (v : Word)
  | spdmRequest (block : Fin 5) (nonce : Nat)
  | moduleReset
  | contextDies (why : Death)
  | linkFault (port : Fin 16)
  | linkRetrained (port : Fin 16)
  | thermalOrCurrentLimit (island : Nat) (on : Bool)
  | firmwareTgtWrite (island : Nat) (tgt : BitVec 2)
  | cxlIoUndefinedAccess (off : BitVec 52)
  deriving DecidableEq, Repr

end Sys2Proof
end

