-- ==== Sys2Proof/Config.lean ====
section
/-! DEFINITION. What an implementation or its signed records fix (R397 to R406), and the free values: constants without a body, so that nothing can depend on what they are. -/

namespace Sys2Proof.Config

/-- DEVFEAT: every feature of R399 offered. DESIGN CHOICE (log 8). -/
def devFeat : BitVec 256 := BitVec.ofNat 256 0xF003F
/-- DIEFEAT of every die before negotiation: F0 to F3 present (R398). DESIGN CHOICE (log 8). -/
def dieFeat : BitVec 4 := 15#4
/-- The ceiling CEIL on boosted islands of a die (R404), from the signed records. -/
opaque ceil : Nat → Nat
/-- What the verified start comes to: 0, or the FAIL code of R406, from the signed records. -/
opaque startFail : BitVec 8
/-- The spare cores and tracks that the repair records map out (R405), and what fails the gleaning of the start, by cluster: the part,
the core and the place (R386). -/
opaque spareCores : List Nat
opaque spareTracks : List (Nat × Nat)
opaque gleanFails : List (Nat × Fin 4 × Fin 8 × BitVec 64)
/-- The digests of the firmware's measured blocks (R406), and the signature over a block's digest and a nonce. -/
opaque measured : Nat → BitVec 256
opaque signature : Nat → Nat → Nat → BitVec 512
/-- Which of several permitted writes a view read returns (R297): a free value, drawn by a counter (log 10). -/
opaque viewChoice : Nat → Nat
/-- The areas that firmware allots to a thread (by launch, team, core and slot) and to a core (by launch, team and core) as
values of cr.psave and cr.mbox (R340). -/
opaque psave : Nat → Nat → Nat → Nat → BitVec 64
opaque mbox : Nat → Nat → Nat → BitVec 64
/-- The cluster in which a slice of a die is homed (R84, R86, R382): a place of the floor plan that the spec does not give. -/
opaque sliceCluster : Nat → Nat → Nat
/-- The check bits and syndrome of a word as an event records them (R382): the code is not given. -/
opaque syndrome : Nat → BitVec 64
/-- Contents that the spec leaves undefined (R386), drawn by a counter (log 9). -/
opaque freeQuad : Nat → BitVec 128

end Sys2Proof.Config
end

