-- ==== Sys2Proof/Machine/State.lean ====
section
/-! DEFINITION. The state of the machine as plain data: the eight slots of the observed core, the core's own units, memory and its ordering points, the cluster's shared units, firmware, host registers and links; and the state after module reset. INVENTORY.md names each part's rule. -/

namespace Sys2Proof.Machine

/-- Why the machine itself stops. -/
inductive Fault where
  /-- A page-table root where no tier has an address: the spec gives such a place no contents (R57, R61). Raised by a walk.
  Safe: the machine stops where the hardware does something the spec does not give (log 65). -/
  | reservedPhysical (pa : Nat)
  deriving DecidableEq, Repr

/-- Why an instruction has no meaning. -/
inductive Refusal where
  /-- No meaning is written for this instruction. Raised only by an arm of exec. Safe. -/
  | notModelled (mnemonic : String)
  deriving DecidableEq, Repr

/-- A scope in the layout of syn.sc bits [41:0] (R300). -/
abbrev Scope := BitVec 42

/-- What a release write carries: its scope, its issuing core (none: taken to lie in every scope, R307), the thread whose
work it is, and its Rel. -/
structure Release where
  scope : Scope
  core : Option Nat
  src : Nat
  rel : List (Nat × Nat)
  deriving DecidableEq, Repr

/-- A write performed at its ordering point, newest first in the history (R295, R296): its number, its source, where it
stands, the bytes it replaced, whether it read M(a) at the point, the floor at its issue, and its release if it is one. -/
structure HWrite where
  id : Nat
  src : Nat
  loc : Nat
  old : List Byte
  oldMarks : List (Nat × BitVec 2)
  rmw : Bool
  known : List (Nat × Nat)
  rel : Option Release
  /-- for a write of an engine or of the tile network: the thread whose work it is (R336) -/
  work : Option Nat := none
  deriving DecidableEq, Repr

/-- A value on its way to a result port, with the cause that a read of the port raises if the value is marked, and
whether the mark is a never-produced mark (R140, R167). -/
structure PortVal where
  port : RPort
  val : Quad
  mark : Option (Bool × Word)
  deriving DecidableEq, Repr

/-- A fixed-latency result under way (R22). -/
structure Flight where
  due : Nat
  tag : Nat
  ports : List RPort
  vals : Option (List PortVal)
  /-- for fpu.f: the flags to OR in and whether earlier flags are discarded (R258). -/
  flags : Option (BitVec 6 × Bool)
  deriving DecidableEq, Repr

/-- The read that an owed result still has to make (R297). -/
structure ReadSpec where
  loc : Nat
  va : Word
  bytes : Nat
  ext : Bool
  deriving DecidableEq, Repr

/-- A fenced result owed to a thread (R42, R44), tied to the save area in use at its trigger (R371). -/
structure Owed where
  tag : Nat
  ports : List RPort
  area : Option Word
  /-- the area's owed mark for it stands: a park of R44 awaits it (R377) -/
  marked : Bool
  load : Bool
  read : Option ReadSpec
  vals : Option (List PortVal)
  flags : Option (BitVec 6)
  /-- commands whose writes the delivery counts as returned, and releases that it returns (R307, R330) -/
  work : List Nat
  rels : List Release
  deriving DecidableEq, Repr

/-- The reach of a counted request (R301). -/
inductive Reach where
  | module | everywhere
  | core (n : Nat)
  | cores (l : List Nat)
  | cluster (n : Nat)
  | scope (s : Scope)
  deriving DecidableEq, Repr

/-- A request counted in cr.rsv (R154, R301), by its tag; a refused one stays counted (R367). -/
structure Counted where
  tag : Nat
  reach : Reach
  refused : Bool
  deriving DecidableEq, Repr

/-- What a request of this core asks of its ordering point. -/
inductive ReqKind where
  | store (data : List Byte) (full : Bool)
  | amo (k : AmoKind) (b : Word)
  | scr (b : Word) (last : Bool)
  | ste (d : Word)
  | ldf | ldt
  | lrw (grp : GroupKey) (gen tkt : Nat)
  | load (bytes : Nat) (ext : Bool)
  /-- a message, which departs under the release condition: to a physical core, or to a core of a team (R322, R324) -/
  | msg (phys : Bool) (team core : Nat) (id : Word) (data : Quad)
  /-- an arrival at a barrier group (R308) -/
  | arrive (grp : GroupKey)
  /-- a give on its way to its home router (R174) -/
  | give (nm : TileName) (t : Tile) (by_ : Giver)
  deriving DecidableEq, Repr

/-- A request of a thread of this core, or of another agent (`slot = none`). -/
structure Req where
  slot : Option (Fin 8)
  src : Nat
  tag : Nat
  counted : Bool
  kind : ReqKind
  loc : Nat
  va : Word
  known : List (Nat × Nat)
  rel : Option Release
  /-- counted requests that must be acknowledged before it departs (R298) -/
  waits : List Nat
  /-- its address stood in the own-cluster window (R136) -/
  own : Bool := false
  /-- a store of a save area, which takes none of the posted-store queue's sixteen places (R154; log 15) -/
  saves : Bool := false
  /-- the launch, team and slot of a reservation request whose team is swapped out (R100) -/
  away : Option (Nat × Nat × Fin 8) := none
  deriving DecidableEq, Repr

/-- A window request on its way to its bank (R136): due in a cycle, in the place of R137. -/
structure BankReq where
  due : Nat
  /-- reached through the mesh window (R137, third place) -/
  mesh : Bool
  /-- the bank number of the issuing core (R137, second place) -/
  bank : Nat
  req : Req
  deriving DecidableEq, Repr

/-- A place in the ring of recent remote requests: its number, the address of the issuing word, the request's kind (none: an
element of a store pattern) and target (R364). A refused request keeps its place until the thread's sys.eret (R367), and a
run that ended by fault the iteration and the transport at which it ended (R254). -/
structure RingEntry where
  seq : Nat
  tag : Nat
  pc : Word
  op : Option Op
  target : Word
  refused : Bool := false
  ended : Option (Nat × Nat) := none
  deriving DecidableEq, Repr

/-- A reservation in a slot's record (R97). -/
structure ResRec where
  va : Word
  loc : Nat
  granted : Bool
  deriving DecidableEq, Repr

/-- The destination of a captured vector transport (R250). -/
inductive CapDest where
  | q (i : Fin 16) | str (i : Fin 8) | vecB | vecC | vecTy
  | trig (o : Op)
  deriving DecidableEq, Repr

/-- A captured vector transport: an immediate is captured as its 64-bit value (R250). -/
inductive CapSrc where
  | q (i : Fin 16) | str (i : Fin 8) | vecO | imm (v : Word)
  deriving DecidableEq, Repr

structure Captured where
  src : CapSrc
  dst : CapDest
  deriving DecidableEq, Repr

/-- An active run: passes, pass, next transport, clamp flag gathered, tag and number in the ring (R251, R252). -/
structure Run where
  n : Nat
  it : Nat
  j : Nat
  clamp : Bool
  tag : Nat
  seq : Nat
  /-- cr.fmt as its trigger sampled it (R189, R228) -/
  fmt : Word
  /-- the area in use and the level at its trigger (R255, R371) -/
  area : Option Word
  sup : Bool
  deriving DecidableEq, Repr

/-- The vector sequencer of a slot (R250): words still to capture, the buffer, the active run, and how many handlers have been
entered since the capture began, in which it pauses. -/
structure Sequencer where
  left : Nat
  buf : List Captured
  run : Option Run
  paused : Nat
  deriving DecidableEq, Repr

/-- A trap on its way: trap entry waits for loads in flight (R370). -/
structure Entry where
  cause : Word
  epc : Word
  marker : Bool
  deriving DecidableEq, Repr

/-- Whether a slot holds a thread, and what it waits for (R44, R45, R179, R341, R354, R370, R378, R380). -/
inductive Mode where
  | absent | run | ended | killed
  | marker
  | fence (tags : List Nat)
  | acq (tags : List Nat)
  | mwait
  | dispatch
  | taskEnd
  | ending
  | entering (e : Entry)
  | userEntering
  | ereting
  | migrate (want : Word)
  /-- its area could not be written: the kill of R371 follows at its next cycle -/
  | dying
  deriving DecidableEq, Repr

/-- How far a thread of a chosen team is on its way to its stop point: not yet, seen at supervisor level since the team was
chosen, or stopped (R344). -/
inductive Stop where
  | no | sup | yes
  deriving DecidableEq, Repr

/-- What kind of cycle the slot's turn was, for the account of lost time (R390). -/
inductive Turn where
  | vac | iss | mem | msg
  deriving DecidableEq, Repr

/-- A held word: the streams that it pops and pushes, where it waits for them, and the row of R390 that its cycles count in. -/
structure Hold where
  pop : Option (Fin 8)
  push : Option (Fin 8)
  why : Turn
  deriving DecidableEq, Repr

/-- What an mx.wait reports of the commands since the one before it (R289): the last number, the first fault code, F, CL,
and the completed commands. -/
structure MxBatch where
  seq : Nat
  code : Byte
  fail : Bool
  clamp : Bool
  done : List Nat
  deriving DecidableEq, Repr

/-- A walk-cache entry: cluster, context, level, address prefix, next table (R69). -/
structure WalkEntry where
  cluster : Nat
  cid : BitVec 6
  level : Nat
  key : Nat
  table : Nat
  deriving DecidableEq, Repr

/-- How a walk ends (R63): `seen` are the non-leaf entries that it read. -/
inductive Walk where
  | leaf (pa size : Nat) (attr : BitVec 5) (seen : List WalkEntry)
  | bad (kind lev : Nat)
  | poisoned (pa : Nat)
  | reserved (pa : Nat)
  deriving DecidableEq, Repr

/-- A translation that the slot's next word waits for, and its walk's result once the walk has ended (R67, R71). -/
structure TlbMiss where
  va : Nat
  result : Option Walk
  deriving DecidableEq, Repr

/-- One thread slot (R180). -/
structure Thread where
  mode : Mode
  w : Vector Word 24
  q : Vector Quad 16
  /-- p15 to p0; bit 0 reads true (R180) -/
  p : BitVec 16
  x : Vector Word 4
  pc : Word
  /-- codes 72 to 94; lk stands at its code 93 (R32) -/
  op : Vector Quad 23
  /-- codes 64 to 89 (R36) -/
  rp : Vector Quad 26
  fence : BitVec 26
  poison : BitVec 26
  np : BitVec 26
  /-- saved causes of mem.o, mem.oq, trk.o, amo.o (R182, entries 50 and 51) -/
  cause4 : Vector Word 4
  /-- what a read of trk.h raises where the value it was owed is lost: of the port (none), and of the trk.h entry of an area (R130) -/
  headLost : List (Option Word × Word)
  /-- control registers by index (R184); derived ones (cr.rsv, cr.trkown) and per-core fields are read elsewhere -/
  cr : Vector Word 25
  flight : List Flight
  owed : List Owed
  psq : List Req
  counted : List Counted
  ring : List RingEntry
  resv : List ResRec
  floor : List (Nat × Nat)
  /-- tags of reads not yet returned, and releases that returned reads carried (R306) -/
  relReads : List Release
  relMark : Option Scope
  /-- the generation of the latest arrival at each group in this launch (R309) -/
  arrivals : List (GroupKey × Nat)
  seqr : Sequencer
  faults : List (Nat × Word)
  sysint : Option Byte
  msgint : Option (BitVec 4)
  expiry : Option Bool
  /-- pending user-level interrupts by save area: area, status word, sequence number (R110, R111) -/
  uints : List (Option Word × Word × Word)
  /-- the completion that the running user-level handler took (R372) -/
  ucur : Option (Word × Word)
  shadow : Vector Word 4
  areaUse : Option Word
  /-- areas that cr.psave named before while the present one is in use: deliveries tied to them still reach the ports (R183, R371) -/
  areaOld : List Word
  /-- tags of results, copies and runs tied to an area that cr.psave has been made to name while another is in use: that area is
  not read yet, and their deliveries go into it until a sys.eret reads it (R371, R377) -/
  late : List Nat
  wordPc : Word
  /-- words already counted that issue again, by the area in use (R342) -/
  reissue : List (Option Word × Word)
  /-- the parked word carried S, and R44 applies when its own park ends -/
  sAfter : Bool
  /-- a word held under R39 -/
  held : Option Hold
  /-- the translation that its next word misses (R67) -/
  miss : Option TlbMiss
  stop : Stop
  task : Nat
  ntask : Nat
  stride : Nat
  dispatched : Bool
  /-- the commands since the last mx.wait, and each mx.wait not yet delivered with its own (R289) -/
  mxOpen : MxBatch
  mxWaits : List (Nat × MxBatch)
  rot : Nat
  lost : Vector (BitVec 48) 4
  deriving DecidableEq, Repr

/-- A command queued on a track with its thread's slot (R118, R125). A read names the result it owes; a copy side names its
copy. -/
inductive TrkCmd where
  | shift (target : Nat) (slot : Fin 8)
  | read (pos step : Int) (slot : Fin 8) (tag : Nat)
  | write (pos step : Int) (d : Quad) (slot : Fin 8)
  | rewind (slot : Fin 8)
  | head (h : Nat) (slot : Fin 8) (tag : Nat)
  | release (slot : Fin 8)
  | copy (tag : Nat)
  deriving DecidableEq, Repr

/-- One shift track (R116, R117, R120, R130). -/
structure Track where
  cells : List (Nat × Quad)
  /-- cells whose check code reports one (false) or two (true) errors (R129) -/
  bad : List (Nat × Bool)
  h : Nat
  phys : Int
  slip : Int
  marker : Bool
  owner : Option (Fin 8 × BitVec 6)
  poisoned : Bool
  /-- the owner has not yet taken 0x0B kind 1 for it (R130) -/
  lost : Bool
  retired : Bool
  clearing : Bool
  queue : List TrkCmd
  deriving DecidableEq, Repr

/-- A stream's binding (R191, R192): a queue between two slots, or a pattern of the binding slot with the context register
sampled at its bind (R189). -/
inductive Binding where
  | queue (producer consumer : Fin 8)
  | pattern (slot : Fin 8) (user store wide : Bool) (base : Word) (counts : Vector Nat 4) (strides : Vector Int 4)
      (next : Nat) (popped : Nat) (ctx : Word)
  deriving DecidableEq, Repr

/-- A stream entry: its value, or the marked value whose pop faults (R195). -/
structure StrEntry where
  val : Quad
  fault : Option Word
  deriving DecidableEq, Repr

structure Stream where
  bind : Option Binding
  q : List StrEntry
  /-- pushed elements of a freed or bound store pattern that the unit has still to send (R196, R197) -/
  out : List Req
  deriving DecidableEq, Repr

/-- A cached translation: the cluster whose TLB it stands in or whose core's, context, virtual base, size, physical base,
attributes e[6:2] (R63, R69), and whether its parity fails (R382). -/
structure TlbEntry where
  cluster : Nat
  cid : BitVec 6
  va : Nat
  size : Nat
  pa : Nat
  attr : BitVec 5
  flaw : Bool := false
  deriving DecidableEq, Repr

/-- A message (R317) with its arrival number, and the release write that it is (R330). -/
structure Message where
  id : Word
  data : Quad
  num : BitVec 32
  rel : Option Release
  deriving DecidableEq, Repr

/-- A waiting receive (R326, R327): of an identity or of a mailbox mask. -/
structure Receive where
  slot : Fin 8
  tag : Nat
  ident : Option Word
  mask : BitVec 16
  deriving DecidableEq, Repr

/-- A ready-queue entry (R346). -/
structure Ready where
  entry : Word
  hint : Word
  tagw : Word
  args : Vector Word 4
  prio : BitVec 2
  card : Option (Fin 32)
  byp : Nat
  deriving DecidableEq, Repr

/-- A card record in use (R176, R177). -/
structure Card where
  id : Fin 32
  slot : Fin 8
  pending : Nat
  task : Ready
  tag : Nat
  deriving DecidableEq, Repr

/-- An interest record of the core (R172, R173). -/
structure Interest where
  num : Nat
  slot : Fin 8
  nm : TileName
  dest : Nat
  card : Option (Fin 32)
  tag : Nat
  area : Option Word
  deriving DecidableEq, Repr

/-- A retirement that waits for the thread's earlier gives to be accepted (R166). -/
structure Retire where
  slot : Fin 8
  cid : Fin 64
  tensor : BitVec 24
  iter : BitVec 16
  waits : List Nat
  deriving DecidableEq, Repr

/-- A copy in its core's queue (R105): its sampled operands, progress and notice. -/
structure Copy where
  slot : Fin 8
  tag : Nat
  seq : Nat
  area : Option Word
  ctl : Word
  xs : Vector Word 4
  sup : Bool
  ctx : Word
  /-- the head of each track side when the copy issued (R131) -/
  heads : List (Fin 32 × Nat)
  done : Nat
  started : Bool
  /-- ST, and the cause of an end by fault (R108) -/
  ended : Option (Byte × Word)
  /-- the fold of a digest copy so far, and whether it is written (R115) -/
  sum : Nat
  summed : Bool
  /-- the thread's floor, and its floor and writes, at the copy's start (R297, R307) -/
  floor : List (Nat × Nat)
  rel : List (Nat × Nat)
  deriving DecidableEq, Repr

/-- A matrix command in the core's queue, with the values sampled at its trigger (R272, R277). -/
structure MxCmd where
  op : Op
  slot : Fin 8
  tag : Nat
  seq : Nat
  a : Word
  xs : Vector Word 4
  fmt : Word
  scale : Word
  known : List (Nat × Nat)
  /-- the thread's floor and writes at its trigger (R307) -/
  rel : List (Nat × Nat)
  /-- the cycle of its trigger, and for mx.st the words written and whether one clamped (R287, R288) -/
  born : Nat
  written : Nat
  clamp : Bool
  deriving DecidableEq, Repr

/-- A B latch (R270): empty, or one tile with its K and element size in bits. -/
structure Latch where
  full : Bool
  k : Nat
  bits : Nat
  tile : List Nat
  deriving DecidableEq, Repr

/-- Matrix state of the core (R270); `hand` is a command's tile waiting for the next unit's latch (R285). -/
structure MxState where
  c : Vector (BitVec 32) 64
  bank : Vector (List (Nat × Int)) 2
  latch : Latch
  next : Latch
  hand : Option Latch
  queue : List MxCmd
  /-- how often the residue check of the next command will fail (R381) -/
  flaw : Nat
  deriving DecidableEq, Repr

/-- The core's units and shared registers (R180, R184). -/
structure Core where
  x : BitVec 10
  y : BitVec 10
  bar : Word
  mboxBase : BitVec 40
  mboxSz : BitVec 4
  tracks : Vector Track 32
  streams : Vector Stream 8
  l1 : List Nat
  /-- L1 lines whose parity fails (R84, R146) -/
  l1bad : List Nat
  /-- how often the check of the next covered operation of the core will fail (R381) -/
  flaw : Nat
  /-- how often the latch check of the next work of the core's engines will fail (R381, R382) -/
  engFlaw : Nat
  /-- lines of the instruction cache with their bytes; stores do not update them (R148) -/
  icache : List (Nat × List Byte)
  tlb1 : List TlbEntry
  shapes : List (BitVec 6 × Nat × List Word)
  /-- decode table t at 256t + c, magnitude table t at 1024 + 8t + i; +0 where not listed (R226) -/
  tables : List (Nat × BitVec 19)
  mail : List Message
  /-- spilled messages with their record numbers (R320) -/
  spill : List (Nat × Message)
  /-- messages that wait because the spill buffer lies outside its tiers, with the error logged (R319) -/
  spillTold : List (Word × Quad)
  arrivals : BitVec 32
  receives : List Receive
  ready : List Ready
  cards : List Card
  ncard : Nat
  interests : List Interest
  nrec : Nat
  /-- gives not yet acknowledged: slot and tag (R166, R174) -/
  gives : List (Fin 8 × Nat)
  retires : List Retire
  copies : List Copy
  mx : MxState
  filter : BitVec 4096
  hist : Vector (BitVec 48) 9
  realigned : BitVec 48
  /-- slots that issued in the current rotation -/
  issuedNow : Nat
  stopped : Bool
  freezing : Bool
  deriving DecidableEq, Repr

/-- An L2 line that some slice holds (R80, R86). `flaws` marks the dies whose copy, Clean or Shared, fails its parity. -/
structure Line where
  pa : Nat
  home : Bool
  dirty : Bool
  tag : BitVec 16
  sharers : BitVec 16
  shared : BitVec 16
  flaws : BitVec 16
  /-- the host has granted the module the line for writing (R396) -/
  own : Bool
  deriving DecidableEq, Repr

/-- An acknowledgement under way, with the dies whose Shared copies still have to go (R82). -/
structure Ack where
  slot : Option (Fin 8)
  tag : Nat
  loc : Nat
  amo : Bool
  va : Word
  seqTag : BitVec 16
  await : BitVec 16
  deriving DecidableEq, Repr

/-- Who waits at an ordering point: a slot's owed result, a slot's ste, or another agent. -/
structure Waiter where
  req : Req
  deriving DecidableEq, Repr

/-- A monitor entry: one line and one waiter, a slot of the observed core or of another (R87). -/
structure Monitor where
  line : Nat
  core : Nat
  slot : Fin 8
  deriving DecidableEq, Repr

/-- A reservation entry (R96): its word, group and generation, next ticket, the holder's ticket and source, and the waiting requests. -/
structure Resv where
  loc : Nat
  grp : GroupKey
  gen : Nat
  next : Nat
  held : Option Nat
  /-- the source number of the holder, whose kill frees its ticket (R100) -/
  holder : Option Nat := none
  waiters : List (Nat × Req)
  deriving DecidableEq, Repr

/-- A shootdown (R77): held until the slot's counted requests are gone, then sent. -/
structure Tlbi where
  slot : Fin 8
  tag : Nat
  kind : BitVec 2
  cid : BitVec 6
  va : Word
  scope : Scope
  sent : Bool
  /-- requests of the core that had issued when its entries went: it acknowledges once they are ordered -/
  waits : List Nat
  deriving DecidableEq, Repr

/-- A barrier group of the resident launch (R308, R357). -/
structure Group where
  key : GroupKey
  rect : BitVec 40
  mask : Byte
  need : Nat
  arrived : List (Nat × Release)
  gone : List Nat
  /-- waits of this core's threads: slot, tag, generation awaited (R309) -/
  waits : List (Fin 8 × Nat × Nat)
  gen : Nat
  pending : Option (BitVec 40 × Byte)
  /-- syn.mask has set its members, so that a team placed later adds those that it has (R310, R359) -/
  masked : Bool := false
  /-- Rel of the arrivals of closed generations (R309) -/
  past : List (Nat × List Release)
  deriving DecidableEq, Repr

/-- A tensor record as placement reads it, and the launch that it belongs to (R157, R158). -/
structure Tensor where
  launch : Nat := 0
  cid : Fin 64
  index : Nat
  w0 : Word
  w1 : Word
  w2 : Word
  w3 : Word
  w4 : Word
  w5 : Word
  deriving DecidableEq, Repr

/-- An entry of a pending-interest table: a name, the faces that want it, and where its interest went on to: a router and the face
there, or the port by which it left the module (R161, R162, R175); and whether it fails its parity (R382). -/
structure PitEntry where
  nm : TileName
  faces : List Face
  up : Option (Nat × Face)
  flaw : Bool
  deriving DecidableEq, Repr

/-- A router of a cluster, of a die or of an edge: pending interests with their faces, and the crib (R162), with the tiles of it that fail their
parity (R382). -/
structure Router where
  cluster : Nat
  pit : List PitEntry
  crib : List (TileName × Tile)
  flaws : List TileName
  deriving DecidableEq, Repr

/-- A steward's open or closed iteration (R166). -/
structure Iter where
  cid : Fin 64
  tensor : BitVec 24
  iter : BitVec 16
  /-- the launch of the record that counts its producers -/
  launch : Nat
  retired : List Nat
  closed : Bool
  deriving DecidableEq, Repr

/-- A launch that firmware serves (R334): its record, the queue's vector and context, teams placed, and its status. -/
structure Launch where
  cid : Fin 64
  q : Fin 64
  words : Vector Word 16
  kvec : Word
  ctx : Word
  /-- what the image block gives: cr.shape, tables, local items by window offset, track items by track and position
  (R337, R338) -/
  shape : Word
  tables : List (Nat × BitVec 19)
  items : List (Nat × List Byte)
  cells : List (Nat × Nat × Quad)
  /-- the digest regions by REG: address and length (R115, R157) -/
  regions : List (Nat × Nat)
  /-- team index and lowest corner, as a core number, of each placed team -/
  placed : List (Nat × Nat)
  /-- the corner of its placement, for each team that has been restored elsewhere (R344) -/
  homes : List (Nat × Nat) := []
  flt : Bool
  st : Byte
  deriving DecidableEq, Repr

/-- A launch queue that firmware serves (R332, R400). -/
structure Queue where
  cid : Fin 64
  q : Fin 64
  base : Word
  n : Nat
  head : Word
  kvec : Word
  taken : Nat
  deriving DecidableEq, Repr

/-- One machine-check bank (R382), kept per cluster and bank. -/
structure McBank where
  cluster : Nat
  bank : Fin 4
  st : Word
  ad : Word
  sy : Word
  th : Word
  deriving DecidableEq, Repr

/-- A trace record (R391): DELTA, TYPE and word 0 [39:0], word 1. -/
structure TraceRec where
  delta : Nat
  type : Nat
  low : BitVec 40
  hi : Word
  deriving DecidableEq, Repr

/-- An island's entry (R403, R404). -/
structure Island where
  perm : Nat
  cur : BitVec 2
  tgt : BitVec 2
  trip : Bool
  idle : Nat
  deriving DecidableEq, Repr

/-- What a home slice asks of the host for a host line (R393, R396). -/
inductive CacheOp where
  | rdShared | rdOwn | dirtyEvict | cleanEvict
  deriving DecidableEq, Repr

/-- A request of a home slice to the host: the line, with a Dirty line its data and whether a word of it is poisoned, and with a read
the writes that stood in its bytes. -/
structure HostAsk where
  op : CacheOp
  pa : Nat
  data : Option (BitVec 1024 × Bool)
  before : List Nat
  deriving DecidableEq, Repr

/-- What the host saw last: the data and poison of a CXL.mem read and of a line's data snoop (R394, R396), whether the last access
got UR, how often each MSI-X vector was raised (R397), the attestation answer: block, digest, signature (R406), the value of the last
register read (R398), and the requests of home slices for host lines, in order (R396). -/
structure HostOut where
  data : BitVec 512
  poison : Bool
  snoop : BitVec 1024
  snoopPoison : Bool
  ur : Bool
  msix0 : Nat
  msix1 : Nat
  spdm : Option (Nat × BitVec 256 × BitVec 512)
  value : Word
  asks : List HostAsk
  deriving DecidableEq, Repr

/-- BAR0 and the module's other host-side state (R398 to R406). -/
structure HostRegs where
  devFeat : BitVec 256
  drvAcc : BitVec 256
  featEn : BitVec 256
  done : Bool
  /-- NEGO.GO (R399) -/
  go : Bool
  devStat : Word
  sysint : Word
  dieFeat : Vector (BitVec 4) 16
  ctxTab : Word
  qTab : Word
  ctxCmd : Word
  herr : Word
  /-- entries of PMAP that are not 0 -/
  pmap : List (Nat × Word)
  /-- islands whose entry differs from its reset (R403) -/
  islands : List (Nat × Island)
  /-- ports whose link is down and retraining -/
  down : List (Fin 16)
  out : HostOut
  /-- 1 GiB granules of the granary that firmware's signed policy does not grant to the host (R397, R406) -/
  ungranted : List Nat
  measured : Option (BitVec 256)
  /-- the base of the HDM decoder (R394) -/
  hdmBase : BitVec 52
  deriving DecidableEq, Repr

/-- Firmware's tables (R332 to R345, R384, R400). -/
structure Firmware where
  contexts : List (Fin 64 × Word)
  queues : List Queue
  launches : List Launch
  /-- index of the launch whose team stands on the core, the team, and its lowest corner -/
  resident : Option (Nat × Nat × Nat × Nat)
  /-- firmware has chosen that team to be swapped out (R344) -/
  chosen : Bool
  retired : List Nat
  /-- the spare cores, and the spare tracks by core, that the repair records map out (R405) -/
  spareCores : List Nat
  spareTracks : List (Nat × Nat)
  /-- of each core from which the observed team has moved, the marker and the retirement of its tracks (R116, R130) -/
  trackHw : List (Nat × List (Bool × Bool))
  deriving DecidableEq, Repr

/-- A cluster's trace buffer: its records, the time of the last one, where firmware has set it in the granary, with its size in
records, and how many records have been written there (R391, R392). -/
structure TraceBuf where
  cluster : Nat
  records : List TraceRec
  last : Nat
  place : Option (Nat × Nat)
  out : Nat
  deriving DecidableEq, Repr

/-- The debug module (R387, R391, R392): the buffers in use, the reference time, and the observed cluster's ratio. -/
structure Debug where
  bufs : List TraceBuf
  now : Nat
  /-- cycles since the last reference tick, times 4 (R392) -/
  phase : Nat
  ratio : Nat
  /-- intervals of R404 that have passed -/
  interval : Nat
  /-- clusters whose clock is stopped (R391, R392) -/
  off : List Nat
  /-- a cross-trigger stop of every cluster is not released yet (R387, R391) -/
  wide : Bool
  deriving DecidableEq, Repr

/-- Memory and its ordering points. -/
structure Store where
  mem : List Host.Cell
  full : List Nat
  /-- 1 poisoned, 2 never produced, 3 producers withdrawn (R84, R139, R167) -/
  marks : List (Nat × BitVec 2)
  /-- words whose SEC-DED code reports one (false) or two (true) errors: of banks, of Dirty lines, and of lines that the granary
  holds (R80, R83, R135) -/
  ecc : List (Nat × Bool)
  /-- poisoned words of which a copy fetched before is sound: that of the core's L1 (none), or of a die's slice (R81, R84) -/
  sound : List (Option Nat × Nat)
  hist : List HWrite
  lines : List Line
  paths : List Req
  queue : List Req
  bankq : List BankReq
  acks : List Ack
  waiters : List Waiter
  /-- synchronising requests that wait for an entry of their point's waiter lists, in order of arrival (R144) -/
  waitq : List Req
  monitors : List Monitor
  resvs : List Resv
  resvWait : List Req
  tlb2 : List TlbEntry
  walkc : List WalkEntry
  tlbis : List Tlbi
  deriving DecidableEq, Repr

/-- The tile network and the barrier groups of every launch. -/
structure Net where
  tensors : List Tensor
  routers : List Router
  iters : List Iter
  /-- the accepted gives by name, as the release that a delivery of the tile is (R174, R307) -/
  given : List (TileName × Release)
  packets : List (Nat × Packet)
  /-- packets that left the module by a Psipor port (R161, R402) -/
  left : List (Fin 16 × Packet)
  /-- messages placed at other cores (R324) -/
  sent : List (Nat × Word × Quad)
  groups : List Group
  /-- numbers of the threads that retired every iteration (R166) -/
  gone : List Nat
  /-- notices received: port and peer context (R402) -/
  withdrawn : List (Fin 16 × Nat)
  deriving DecidableEq, Repr

/-- What became of a reservation request while its team was out: a grant with its value and what the read adds to the floor,
or a refusal of a kind (R98, R100). -/
structure Settled where
  req : Req
  slot : Fin 8
  val : Option PortVal
  gain : List (Nat × Nat)
  kind : Nat
  deriving DecidableEq, Repr

/-- What firmware writes out when it swaps the team (R344): the threads and the core, and of the banks of its clusters the bytes,
full/empty bits, marks, history and reservations. -/
structure Image where
  slots : Vector Thread 8
  core : Core
  bank : List Host.Cell
  full : List Nat
  marks : List (Nat × BitVec 2)
  ecc : List (Nat × Bool)
  hist : List HWrite
  resvs : List Resv
  /-- reservation requests that waited for a free entry of one of those banks (R96, R100) -/
  resvWait : List Req
  /-- shootdowns that still waited for their thread's requests -/
  tlbis : List Tlbi
  /-- what the source numbers of its threads have been raised by while it is out (R311) -/
  exile : Nat
  launch : Nat × Nat × Nat × Nat
  /-- waiting full/empty requests, and waits of groups: key, slot, tag, generation (R145, R309) -/
  reqs : List Req
  /-- the stop records of the team's copies (R112) -/
  stops : List (List Byte)
  /-- grants and refusals of reservation requests meanwhile (R100) -/
  settled : List Settled
  waits : List (GroupKey × Fin 8 × Nat × Nat)
  /-- the barrier writes that fell meanwhile: group, core within the team, and the word (R360) -/
  barriers : List (GroupKey × Nat × Nat)
  deriving DecidableEq, Repr

/-- The machine. -/
structure State where
  slots : Vector Thread 8
  /-- the slot that the current cycle belongs to (R179) -/
  cur : Fin 8
  cycle : Nat
  /-- the slot has had its turn of the last cycle and a step of the units may come before the next (log 2) -/
  gap : Bool
  /-- an engine or the barrier network has written since the slot's last turn, the model's own field: no second agent's write
  reaches a word in the same cycle (R137; log 2) -/
  wrote : Bool
  core : Core
  st : Store
  net : Net
  fw : Firmware
  host : HostRegs
  mc : List McBank
  dbg : Debug
  /-- the teams that are swapped out, in the order of their going (R344, R345) -/
  images : List Image
  /-- what the current slot's turn has been so far (R390) -/
  turn : Turn
  /-- fresh numbers for tags and writes -/
  nextId : Nat
  /-- the model's own counter of free values (log 9) -/
  freeCtr : Nat
  /-- the agents' steps to come, the model's own field (log 2) -/
  schedule : List Instr
  deriving DecidableEq, Repr

/-- A slot with no thread, its registers at the values of R34 and R341 and its control registers at their Reset column. (DESIGN CHOICE, log 3.) -/
def Thread.reset : Thread where
  mode := .absent
  w := Vector.replicate 24 0#64
  q := Vector.replicate 16 0#128
  p := 1#16
  x := Vector.replicate 4 0#64
  pc := 0#64
  op := Vector.replicate 23 0#128
  rp := Vector.replicate 26 0#128
  fence := 0#26
  poison := 0#26
  np := 0#26
  cause4 := Vector.replicate 4 0#64
  headLost := []
  cr := (((Vector.replicate 25 0#64).set 0 6#64).set 10 0x3FC0000000000#64).set 11 0x1000000000000000#64
  flight := []
  owed := []
  psq := []
  counted := []
  ring := []
  resv := []
  floor := []
  relReads := []
  relMark := none
  arrivals := []
  seqr := { left := 0, buf := [], run := none, paused := 0 }
  faults := []
  sysint := none
  msgint := none
  expiry := none
  uints := []
  ucur := none
  shadow := Vector.replicate 4 0#64
  areaUse := none
  areaOld := []
  late := []
  wordPc := 0#64
  reissue := []
  sAfter := false
  held := none
  miss := none
  stop := .no
  task := 0
  ntask := 0
  stride := 1
  dispatched := false
  mxOpen := { seq := 0, code := 0#8, fail := false, clamp := false, done := [] }
  mxWaits := []
  rot := 0
  lost := Vector.replicate 4 0#48

/-- A track as placement leaves it (R117). -/
def Track.clean : Track where
  cells := []
  bad := []
  h := 0
  phys := 0
  slip := 0
  marker := true
  owner := none
  poisoned := false
  lost := false
  retired := false
  clearing := false
  queue := []

def Latch.empty : Latch := { full := false, k := 0, bits := 0, tile := [] }

def MxState.zero : MxState where
  c := Vector.replicate 64 0#32
  bank := Vector.replicate 2 []
  latch := Latch.empty
  next := Latch.empty
  hand := none
  queue := []
  flaw := 0

def Core.reset : Core where
  x := 0#10
  y := 0#10
  bar := 0#64
  mboxBase := 0#40
  mboxSz := 0#4
  tracks := Vector.replicate 32 Track.clean
  streams := Vector.replicate 8 { bind := none, q := [], out := [] }
  l1 := []
  l1bad := []
  flaw := 0
  engFlaw := 0
  icache := []
  tlb1 := []
  shapes := []
  tables := []
  mail := []
  spill := []
  spillTold := []
  arrivals := 0#32
  receives := []
  ready := []
  cards := []
  ncard := 0
  interests := []
  nrec := 0
  gives := []
  retires := []
  copies := []
  mx := MxState.zero
  filter := 0#4096
  hist := Vector.replicate 9 0#48
  realigned := 0#48
  issuedNow := 0
  stopped := false
  freezing := false

def Store.reset : Store where
  mem := []
  full := []
  marks := []
  ecc := []
  sound := []
  hist := []
  lines := []
  paths := []
  queue := []
  bankq := []
  acks := []
  waiters := []
  waitq := []
  monitors := []
  resvs := []
  resvWait := []
  tlb2 := []
  walkc := []
  tlbis := []

def Island.reset : Island := { perm := 64, cur := 0, tgt := 0, trip := false, idle := 0 }

/-- BAR0 at its Reset column (R397 to R406). (DESIGN CHOICE, log 8.) -/
def HostRegs.reset : HostRegs where
  devFeat := Config.devFeat
  drvAcc := 0
  featEn := 0
  done := false
  go := false
  devStat := 0
  sysint := 0
  dieFeat := Vector.replicate 16 Config.dieFeat
  ctxTab := 0
  qTab := 0
  ctxCmd := 0
  herr := 0
  pmap := []
  islands := []
  down := []
  out := { data := 0, poison := false, snoop := 0, snoopPoison := false, ur := false, msix0 := 0, msix1 := 0, spdm := none, value := 0, asks := [] }
  ungranted := []
  measured := none
  hdmBase := 0

/-- The machine right after module reset: no thread anywhere, every unit empty (R10, R65, R398). -/
def State.reset : State where
  slots := Vector.replicate 8 Thread.reset
  cur := 0
  cycle := 0
  gap := false
  wrote := false
  core := Core.reset
  st := Store.reset
  net := { tensors := [], routers := [], iters := [], given := [], packets := [], left := [], sent := [], groups := [], gone := [], withdrawn := [] }
  fw := { contexts := [], queues := [], launches := [], resident := none, chosen := false, retired := [], spareCores := [], spareTracks := [], trackHw := [] }
  host := HostRegs.reset
  mc := []
  dbg := { bufs := [], now := 0, phase := 0, ratio := 100, interval := 0, off := [], wide := false }
  images := []
  turn := .vac
  nextId := 1
  freeCtr := 0
  schedule := []

end Sys2Proof.Machine
end

