-- ==== Sys2Proof/Machine/Memory.lean ====
section
/-! DEFINITION. Memory: cells in canonical form, full/empty bits and marks by word, the classes of a virtual address (R53 to R55), the physical map (R57), and where banks stand (R2, R135). -/

namespace Sys2Proof.Machine

/-- A cell that no entry names reads 0. DESIGN CHOICE (log 7). -/
def Mem.unlisted : Byte := 0#8

def Mem.get : List Host.Cell → Nat → Byte
  | [], _ => Mem.unlisted
  | (x, v) :: r, a => if x = a then v else Mem.get r a

/-- Writes one byte and keeps the canonical form. -/
def Mem.put : List Host.Cell → Nat → Byte → List Host.Cell
  | [], a, b => if b = Mem.unlisted then [] else [(a, b)]
  | (x, v) :: r, a, b =>
    if x < a then (x, v) :: Mem.put r a b
    else if x = a then (if b = Mem.unlisted then r else (a, b) :: r)
    else if b = Mem.unlisted then (x, v) :: r else (a, b) :: (x, v) :: r

def Mem.write : List Host.Cell → Nat → List Byte → List Host.Cell
  | m, _, [] => m
  | m, a, b :: bs => Mem.write (Mem.put m a b) (a + 1) bs

def Mem.read (m : List Host.Cell) (a : Nat) : Nat → List Byte
  | 0 => []
  | n + 1 => Mem.get m a :: Mem.read m (a + 1) n

/-- Every address is above `lo` and below the next, and no entry holds what an unlisted address reads as. -/
def Mem.wfFrom : Nat → List Host.Cell → Bool
  | _, [] => true
  | lo, (x, v) :: r => decide (lo ≤ x) && (v != Mem.unlisted) && Mem.wfFrom (x + 1) r

/-- The canonical form: addresses strictly rising, no entry equal to an unlisted byte. -/
def Mem.wf (m : List Host.Cell) : Bool := Mem.wfFrom 0 m

/-- Membership, insertion and removal in a rising list without repeats. -/
def setMem (l : List Nat) (a : Nat) : Bool := l.contains a

def setIns : List Nat → Nat → List Nat
  | [], a => [a]
  | x :: r, a => if x < a then x :: setIns r a else if x = a then x :: r else a :: x :: r

def setDel (l : List Nat) (a : Nat) : List Nat := l.filter (· != a)

/-- The mark of a word: 0 none, 1 poisoned, 2 iteration closed, 3 producers withdrawn (R139, R167). -/
def markOf (l : List (Nat × BitVec 2)) (w : Nat) : BitVec 2 :=
  match l.find? (fun p => p.1 == w) with
  | some p => p.2
  | none => 0#2

def markSet (l : List (Nat × BitVec 2)) (w : Nat) (k : BitVec 2) : List (Nat × BitVec 2) :=
  let r := l.filter (fun p => p.1 != w)
  if k = 0#2 then r else (w, k) :: r

/-- Core number of (x, y), and back. -/
def coreNum (x y : Nat) : Nat := y * 1024 + x
def coreX (c : Nat) : Nat := c % 1024
def coreY (c : Nat) : Nat := c / 1024
/-- The cluster of a core (R1). -/
def clusterOf (c : Nat) : Nat := (coreY c / 2) * 256 + coreX c / 4
/-- The die of a core (R1). -/
def dieOf (c : Nat) : Nat := (coreY c / 256) * 4 + coreX c / 256
/-- The bank number of a core within its cluster (R2). -/
def bankNo (c : Nat) : Nat := (coreY c % 2) * 4 + coreX c % 4
/-- The core with bank `b` in cluster `k`. -/
def clusterCore (k b : Nat) : Nat := coreNum ((k % 256) * 4 + b % 4) ((k / 256) * 2 + b / 4)

/-- Where banks start in the model's numbering of places: physical addresses come first. -/
def bankBase : Nat := 2 ^ 52
def bankLoc (core off : Nat) : Nat := bankBase + core * 0x4000 + off
def isBank (loc : Nat) : Bool := bankBase ≤ loc
def bankCore (loc : Nat) : Nat := (loc - bankBase) / 0x4000
/-- The 128-byte line of a place. -/
def lineOf (loc : Nat) : Nat := loc / 128 * 128

/-- Tiers of physical memory (R57). -/
def inGranary (pa : Nat) : Bool := pa < 0x10000000000
def inBarn (pa : Nat) : Bool := 0x20000000000 ≤ pa && pa < 0x40000000000
def inHost (pa : Nat) : Bool := 0x8000000000000 ≤ pa && pa < 0x10000000000000
def inTier (tier pa : Nat) : Bool :=
  match tier with | 0 => inGranary pa | 1 => inBarn pa | 2 => inHost pa | _ => false
def exists? (pa : Nat) : Bool := inGranary pa || inBarn pa || inHost pa
/-- Home die of a line (R57). -/
def homeDie (pa : Nat) : Nat := if inGranary pa then pa / 2 ^ 36 % 16 else pa / 2 ^ 7 % 16
/-- Slice of a line (R79). -/
def sliceOf (pa : Nat) : Nat := if inGranary pa then pa / 2 ^ 7 % 64 else pa / 2 ^ 11 % 64
/-- The set of a line in its slice (R79). -/
def setOf (pa : Nat) : Nat := if inGranary pa then pa / 2 ^ 13 % 1024 else pa / 2 ^ 17 % 1024
/-- The cluster in which a die's slice of a line is homed (R84, R382). -/
def sliceAt (die pa : Nat) : Nat := Config.sliceCluster die (sliceOf pa) % 131072
/-- The same for the line's home slice. -/
def sliceHome (pa : Nat) : Nat := sliceAt (homeDie pa) pa
/-- The ordering point of a place (R58, R142): a home slice, or a bank after all the slices. -/
def pointOf (loc : Nat) : Nat := if isBank loc then 1024 + bankCore loc else homeDie loc * 64 + sliceOf loc

/-- The class of a value used as a virtual address (R53). -/
inductive VaClass where
  | nonCanon
  | hole
  | own (off : Nat)
  | mesh (core off : Nat)
  | paged
  deriving DecidableEq, Repr

def classify (va : Word) : VaClass :=
  if field va 63 48 ≠ 0 then .nonCanon
  else if field va 47 40 = 0xFE then (if field va 39 17 ≠ 0 then .hole else .own (field va 16 0))
  else if field va 47 40 = 0xFF then
    (if field va 19 14 ≠ 0 then .hole else .mesh (coreNum (field va 29 20) (field va 39 30)) (field va 13 0))
  else .paged

/-- The bank place of an offset of the window of a core's cluster (R54). -/
def ownLoc (core off : Nat) : Nat := bankLoc (clusterCore (clusterOf core) (off / 0x4000)) (off % 0x4000)

/-- cr.cause for 0x07 and 0x08 (R68), and for 0x06, 0x0C, 0x0F, 0x11 and 0x14, which share its places (R151, R168, R99, R389). -/
def causeVa (code kind mid : Nat) (va : Word) : Word :=
  BitVec.ofNat 64 (code + mid * 2 ^ 8 + kind * 2 ^ 12 + field va 47 0 * 2 ^ 16)

/-- cr.cause with DETAIL (R369). -/
def causeOf (code : Nat) (detail : Nat := 0) : Word := BitVec.ofNat 64 (code + detail * 2 ^ 8)

/-- cr.cause for 0x0A, 0x0B and a track's 0x11 (R131). -/
def trackCause (code kind : Nat) (n : Fin 32) (h : Nat) : Word :=
  BitVec.ofNat 64 (code + kind * 2 ^ 12 + n.val * 2 ^ 16 + h * 2 ^ 21)

/-- Reserved port, 0x02 (R33). -/
def reservedPort : Word := causeOf 2

end Sys2Proof.Machine
end

