-- ==== Sys2Proof/Machine/Regs.lean ====
section
/-! DEFINITION. Registers: the current slot, ports, control registers with what each level may write (R184 to R189), tags and the ring of remote requests (R364), results under way (R22, R41). -/

namespace Sys2Proof

def OPort.fin (p : OPort) : Fin 23 := ⟨p.ctorIdx, by cases p <;> decide⟩

def RPort.fin (p : RPort) : Fin 26 := ⟨p.ctorIdx, by cases p <;> decide⟩

/-- Ports of 128 bits (R32, R36). -/
def OPort.wide : OPort → Bool
  | .memQ | .vecB | .vecC | .trkD | .msgD => true
  | _ => false

def RPort.wide : RPort → Bool
  | .memOq | .vecO | .trkO | .msgO => true
  | _ => false

/-- Which of the four saved causes a port has (R140, R182). -/
def RPort.mark? : RPort → Option (Fin 4)
  | .memO => some 0
  | .memOq => some 1
  | .trkO => some 2
  | .amoO => some 3
  | _ => none

end Sys2Proof

namespace Sys2Proof.Machine

/-- The thread of the slot that the current cycle belongs to (R179). -/
def State.thr (s : State) : Thread := s.slots[s.cur]

def State.setSlot (s : State) (i : Fin 8) (t : Thread) : State := { s with slots := s.slots.set i t }

def State.setThr (s : State) (t : Thread) : State := s.setSlot s.cur t

def State.onThr (s : State) (f : Thread → Thread) : State := s.setThr (f s.thr)

def State.onSlot (s : State) (i : Fin 8) (f : Thread → Thread) : State := s.setSlot i (f s.slots[i])

def State.onCore (s : State) (f : Core → Core) : State := { s with core := f s.core }

def State.onSt (s : State) (f : Store → Store) : State := { s with st := f s.st }

/-- The number of the observed core. -/
def State.coreId (s : State) : Nat := coreNum s.core.x.toNat s.core.y.toNat

-- ## Places as programs and records name them (R5, R344)

/-- A record's team shape and counts (R312, R314). -/
def Launch.w (l : Launch) : Nat := field l.words[1] 9 0 + 1
def Launch.h (l : Launch) : Nat := field l.words[1] 19 10 + 1
def Launch.s (l : Launch) : Nat := field l.words[1] 22 20 + 1
def Launch.teams (l : Launch) : Nat := max 1 (field l.words[1] 51 32)
def Launch.nt (l : Launch) : Nat := if field l.words[2] 31 0 = 0 then l.w * l.h * l.s else field l.words[2] 31 0

/-- A core lies in a rectangle with a given corner. -/
def coreIn (corner w h core : Nat) : Bool :=
  decide (coreX corner ≤ coreX core) && decide (coreX core < coreX corner + w) && decide (coreY corner ≤ coreY core) && decide (coreY core < coreY corner + h)

/-- The core of a rectangle at corner `to_` that stands where `core` does in the one at corner `from_`. -/
def shiftCore (from_ to_ core : Nat) : Nat := coreNum (coreX core + coreX to_ - coreX from_) (coreY core + coreY to_ - coreY from_)

/-- The corner at which placement put a team that stands at `corner` now. -/
def Launch.homeCorner (l : Launch) (team corner : Nat) : Nat := ((l.homes.find? (fun p => p.1 == team)).map (·.2)).getD corner

/-- The launch of the resident team, with the team's corners now and at its placement. -/
def State.team? (s : State) : Option (Launch × Nat × Nat × Nat) :=
  s.fw.resident.bind (fun r => (s.fw.launches[r.1]?).map (fun l => (l, r.2.1, coreNum r.2.2.1 r.2.2.2, l.homeCorner r.2.1 (coreNum r.2.2.1 r.2.2.2))))

/-- The number by which programs and records know the observed core: that of its place when its team was placed, so that a value is
the same as without a swap (R5, R344). (DEDUCED, log 60.) -/
def State.home (s : State) : Nat :=
  match s.team? with
  | some (_, _, now, home) => shiftCore now home s.coreId
  | none => s.coreId

/-- The core that a program of a context means by a core number: where the core of one of its teams that was placed there stands now;
else the core of that number (R5, R55, R344). -/
def State.nowAt (s : State) (cid core : Nat) : Nat :=
  let mine := s.team?.bind (fun r => if r.1.cid.val = cid ∧ coreIn r.2.2.2 r.1.w r.1.h core = true then some (shiftCore r.2.2.2 r.2.2.1 core) else none)
  let ls := s.fw.launches.filter (fun l => l.cid.val == cid)
  let moved := ls.findSome? (fun l => (l.placed.find? (fun p => coreIn (l.homeCorner p.1 p.2) l.w l.h core)).map (fun p => shiftCore (l.homeCorner p.1 p.2) p.2 core))
  mine.getD (if ls.any (fun l => l.placed.any (fun p => coreIn p.2 l.w l.h core)) then core else moved.getD core)

/-- Banks that a team had beside its cores' own, where it was placed, stand apart once it has moved. -/
def apartBank (core : Nat) : Nat := 2 ^ 20 + core

/-- The core whose bank has number `b` in the window of the observed core's cluster: of the cluster in which its team was placed (R54,
R344). (DEDUCED, log 60.) -/
def State.windowCore (s : State) (b : Nat) : Nat :=
  let c := clusterCore (clusterOf s.home) b
  match s.team? with
  | some (l, team, now, home) =>
    if now = home then c
    else if coreIn home l.w l.h c then shiftCore home now c
    else ((l.placed.find? (fun p => p.1 != team && coreIn (l.homeCorner p.1 p.2) l.w l.h c)).map (fun p => shiftCore (l.homeCorner p.1 p.2) p.2 c)).getD (apartBank c)
  | none => c

/-- The place of an offset of the own-cluster window (R54). -/
def winLoc (s : State) (off : Nat) : Nat := bankLoc (s.windowCore (off / 0x4000)) (off % 0x4000)

-- ## The state of the start (R405, R406)

/-- DEVSTAT's STATE. -/
def devState (s : State) : Nat := field s.host.devStat 7 0

/-- In recovery, CXL.mem and CXL.cache are not enabled, BAR0 answers UR, and no launch runs. -/
def recovery (s : State) : Bool := devState s == 0x80

/-- Firmware, verified and past negotiation, serves launches: the module is running (R399, R405). -/
def serving (s : State) : Bool := s.host.done && devState s == 4

/-- A value at a port's width (R38). -/
def low64 (v : Quad) : Word := v.setWidth 64
def quad (v : Word) : Quad := v.setWidth 128

def Thread.opq (t : Thread) (p : OPort) : Quad := t.op[p.fin]
def Thread.opw (t : Thread) (p : OPort) : Word := low64 (t.opq p)
def Thread.setOp (t : Thread) (p : OPort) (v : Quad) : Thread :=
  { t with op := t.op.set p.fin (if p.wide then v else quad (low64 v)) }
def Thread.rpq (t : Thread) (p : RPort) : Quad := t.rp[p.fin]
def Thread.lk (t : Thread) : Word := t.opw .lk

/-- A loss of trk.h's value, in the port or in an area, or none (R130). -/
def setLost (l : List (Option Word × Word)) (area : Option Word) (m : Option Word) : List (Option Word × Word) :=
  let r := l.filter (fun e => e.1 != area)
  match m with
  | some c => (area, c) :: r
  | none => r

/-- What a read of trk.h raises, in the port (none) or once an area is restored. -/
def Thread.lostHead (t : Thread) (area : Option Word) : Option Word := (t.headLost.find? (fun e => e.1 == area)).map (·.2)

/-- A delivered value replaces the port's value and its mark (R40, R140). -/
def Thread.deliver (t : Thread) (v : PortVal) : Thread :=
  let i := v.port.fin
  let t1 := { t with
    rp := t.rp.set i (if v.port.wide then v.val else quad (low64 v.val))
    poison := t.poison &&& ~~~(1#26 <<< i.val)
    np := t.np &&& ~~~(1#26 <<< i.val) }
  match v.port.mark?, v.mark with
  | some k, some (never, c) =>
    { t1 with
      cause4 := t1.cause4.set k c
      poison := if never then t1.poison else t1.poison ||| (1#26 <<< i.val)
      np := if never then t1.np ||| (1#26 <<< i.val) else t1.np }
  | some k, none => { t1 with cause4 := t1.cause4.set k 0#64 }
  | none, m => if v.port = .trkH then { t1 with headLost := setLost t1.headLost none (m.map (·.2)) } else t1

def Thread.fenced (t : Thread) (p : RPort) : Bool := t.fence.getLsbD p.fin.val
def Thread.setFence (t : Thread) (ps : List RPort) : Thread :=
  { t with fence := ps.foldl (fun f p => f ||| (1#26 <<< p.fin.val)) t.fence }

-- Indices of the control registers (R184).
def crStatus : Fin 25 := 0
def crTid : Fin 25 := 1
def crFeat : Fin 25 := 2
def crCause : Fin 25 := 3
def crEpc : Fin 25 := 4
def crKvec : Fin 25 := 5
def crQuant : Fin 25 := 6
def crQleft : Fin 25 := 7
def crUvec : Fin 25 := 8
def crUepc : Fin 25 := 9
def crFmt : Fin 25 := 10
def crScale : Fin 25 := 11
def crTens : Fin 25 := 12
def crShape : Fin 25 := 13
def crMon : Fin 25 := 14
def crShift : Fin 25 := 15
def crSeq : Fin 25 := 16
def crRsv : Fin 25 := 17
def crCtx : Fin 25 := 18
def crRng : Fin 25 := 19
def crBar : Fin 25 := 20
def crMbox : Fin 25 := 21
def crTrkown : Fin 25 := 22
def crWp : Fin 25 := 23
def crPsave : Fin 25 := 24

def Thread.setCr (t : Thread) (i : Fin 25) (v : Word) : Thread := { t with cr := t.cr.set i v }
def Thread.sup (t : Thread) : Bool := t.cr[crStatus].getLsbD 0
def Thread.ie (t : Thread) : Bool := t.cr[crStatus].getLsbD 1
def Thread.uie (t : Thread) : Bool := t.cr[crStatus].getLsbD 2
def Thread.uh (t : Thread) : Bool := t.cr[crStatus].getLsbD 3
/-- cr.status with its four low fields replaced (R185). -/
def Thread.setStatus (t : Thread) (sup ie uie uh : Bool) : Thread :=
  t.setCr crStatus ((t.cr[crStatus] &&& ~~~(15#64)) ||| BitVec.ofNat 64
    (sup.toNat + 2 * ie.toNat + 4 * uie.toNat + 8 * uh.toNat))
def Thread.cid (t : Thread) : Fin 64 := ⟨field t.cr[crCtx] 5 0, by simp only [field]; exact Nat.mod_lt _ (by decide)⟩
def Thread.team (t : Thread) : Nat := field t.cr[crTid] 59 40
def Thread.tcore (t : Thread) : Nat := field t.cr[crTid] 39 20
def Thread.tslot (t : Thread) : Nat := field t.cr[crTid] 2 0
/-- The save area that cr.psave names (R183). -/
def Thread.psave (t : Thread) : Word := BitVec.ofNat 64 (field t.cr[crPsave] 47 10 * 1024)

/-- The bits of a control register that a write changes at supervisor and at user level (R9, R184). -/
def crMask (i : Fin 25) (sup : Bool) : Word :=
  match i.val with
  | 0 => 7#64
  | 3 => 0xFFFFFFFFFFFFFFFF#64
  | 4 => 0x000FFFFFFFFFFFFE#64
  | 5 => 0x0000FFFFFFFFFFFE#64
  | 6 | 7 => 0xFFFFFFFF#64
  | 8 => 0x0000FFFFFFFFFFFE#64
  | 9 => 0x0001FFFFFFFFFFFE#64
  | 10 => 0x0007FFFF0000FFF0#64
  | 11 => if sup then 0xF00000030FFF0FFF#64 else 0x000000030FFF0FFF#64
  | 12 => 0x1FFFFFFFFFFFFFC0#64
  | 13 => 0x1FFFFFFFFFFFFF80#64
  | 15 => 0x0000FFFFFFFFFFFF#64
  | 18 => 0x000FFFFFFFFFF03F#64
  | 19 => 0xFFFFFFFFFFFFFFFF#64
  | 20 => 0x00000000007FFFF8#64
  | 21 => 0xFFFFFFFFFFF0FFFF#64
  | 23 => 0x0000FFFFFFFFFFCF#64
  | 24 => 0x0000FFFFFFFFFC00#64
  | _ => 0#64

/-- Whether user level may read, and write, a control register (R184). (DEDUCED, log 23.) -/
def crUser (i : Fin 25) : Bool × Bool :=
  match i.val with
  | 1 | 2 | 16 | 22 => (true, true)
  | 8 | 9 | 10 | 11 | 15 | 19 => (true, true)
  | _ => (false, false)

/-- cr.trkown: the tracks that the slot's thread owns (R121). -/
def trkown (s : State) (i : Fin 8) : Word :=
  let me := (i, BitVec.ofNat 6 s.slots[i].cid.val)
  BitVec.ofNat 64 ((List.finRange 32).foldl (fun n k => if s.core.tracks[k].owner = some me then n + 2 ^ k.val else n) 0)

/-- A shootdown that has not been sent (R77). -/
def State.heldTlbi (s : State) (tag : Nat) : Bool := s.st.tlbis.any (fun e => e.tag == tag && !e.sent)

/-- What a read of a control register gives (R189): derived and per-core registers read through their own state; cr.rsv
does not count a shootdown that is still held (R77). (DEDUCED, log 19.) -/
def crRead (s : State) (i : Fin 25) : Word :=
  let t := s.thr
  match i.val with
  | 17 => BitVec.ofNat 64 (t.counted.filter (fun c => !s.heldTlbi c.tag)).length
  | 20 => s.core.bar
  | 21 => BitVec.ofNat 64 (s.core.mboxBase.toNat * 2 ^ 24 + s.core.mboxSz.toNat * 2 ^ 20 + field t.cr[crMbox] 15 0)
  | 22 => trkown s s.cur
  | 23 => t.cr[crWp] &&& ~~~(0x30#64)
  | _ => t.cr[i]

/-- The three filter bits of a granule (R389). -/
def bloomBits (g : Nat) : List Nat :=
  [0xA4D35B197C2E6F01, 0xD1E84A7B3C950F27, 0xB7C62E59D4A18E35].map (fun k => g * k % 2 ^ 64 / 2 ^ 52)

def bloomInsert (f : BitVec 4096) (g : Nat) : BitVec 4096 := (bloomBits g).foldl (fun f b => f ||| (1#4096 <<< b)) f

def bloomHit (f : BitVec 4096) (g : Nat) : Bool := (bloomBits g).all (fun b => f.getLsbD b)

/-- An area is in use, or none is named: a trigger's delivery tied to it reaches the ports (R371). -/
def Thread.inUse (t : Thread) (a : Option Word) : Bool := a == t.areaUse || a.any t.areaOld.contains

/-- A delivery reaches the ports: its area is in use, and was so at its trigger or has been read since (R371, R377). -/
def Thread.reaches (t : Thread) (tag : Nat) (a : Option Word) : Bool := t.inUse a && !t.late.contains tag

/-- The tags of what the current slot's thread awaits tied to an area: results, copies and a run. -/
def tiedTo (s : State) (a : Word) : List Nat :=
  (s.thr.owed.filter (fun o => o.area == some a)).map (·.tag) ++
  (s.core.copies.filter (fun c => c.slot == s.cur && c.area == some a)).map (·.tag) ++
  ((s.thr.seqr.run.filter (fun r => r.area == some a)).map (·.tag)).toList

/-- What sys.crw does: the fields writable at this level take the value's bits (R189), with the effects of cr.shape's
COUNT and of the shape cache (R204, R208), of the fields held once per core (R184) and of CMD of cr.wp (R388). A LEFT of 0
under a quantum makes the expiry pending (R343), also where the write sets QUANT over a LEFT of 0, and no later write of LEFT
withdraws it. (DESIGN CHOICE, log 87.) Triggers after a write of cr.psave are tied to the area that it then names (R183); what was
tied to that area before still goes into it until a sys.eret reads it (R371, R374, R377). (DEDUCED, log 12.) -/
def crWrite (s : State) (i : Fin 25) (v : Word) : State :=
  let t := s.thr
  let m := crMask i t.sup
  let new := (t.cr[i] &&& ~~~m) ||| (v &&& m)
  match i.val with
  | 13 =>
    let c := min (field new 60 48) 4096
    (s.setThr (t.setCr i (BitVec.ofNat 64 (field new 47 0 + c * 2 ^ 48)))).onCore (fun k => { k with shapes := [] })
  | 20 => s.onCore (fun c => { c with bar := v &&& m })
  | 21 =>
    let s1 := s.onCore (fun c => { c with mboxBase := BitVec.ofNat 40 (field v 63 24), mboxSz := BitVec.ofNat 4 (field v 23 20) })
    s1.setThr (t.setCr i (v &&& 0xFFFF#64))
  | 23 =>
    let s1 := s.setThr (t.setCr i (new &&& ~~~(0x30#64)))
    match field v 5 4 with
    | 1 => s1.onCore (fun c => { c with filter := bloomInsert c.filter (field v 47 6) })
    | 2 => s1.onCore (fun c => { c with filter := 0 })
    | _ => s1
  | 6 | 7 =>
    let t1 := t.setCr i new
    s.setThr (if field t1.cr[crQuant] 31 0 ≠ 0 ∧ field t1.cr[crQleft] 31 0 = 0 ∧ t1.expiry = none then { t1 with expiry := some false } else t1)
  | 24 =>
    let t1 := t.setCr i new
    s.setThr (match t.areaUse with
      | some a => { t1 with
          areaUse := some t1.psave, areaOld := if t1.psave = a then t.areaOld else a :: t.areaOld
          late := if t.inUse (some t1.psave) then t.late else tiedTo s t1.psave ++ t.late }
      | none => t1)
  | _ => s.setThr (t.setCr i new)

/-- A fresh number. -/
def State.fresh (s : State) : Nat := s.nextId
def State.bump (s : State) : State := { s with nextId := s.nextId + 1 }

/-- The next free value (log 9). -/
def State.draw (s : State) : Nat × State := (s.freeCtr, { s with freeCtr := s.freeCtr + 1 })

/-- A remote request takes a sequence number and a place in the ring (R363, R364). -/
def Thread.ringTake (t : Thread) (tag : Nat) (op : Option Op) (target : Word) : Thread :=
  let n := (field t.cr[crSeq] 47 0 + 1) % 2 ^ 48
  { t.setCr crSeq (BitVec.ofNat 64 n) with ring := t.ring ++ [{ seq := n, tag, pc := t.pc, op, target }] }

def Thread.ringFull (t : Thread) : Bool := 16 ≤ t.ring.length

/-- A request's place in the ring frees when the request has ended; a refused one keeps its place (R364, R367). -/
def Thread.ringFree (t : Thread) (tag : Nat) : Thread := { t with ring := t.ring.filter (fun e => e.tag != tag || e.refused) }

/-- A request is refused: its place stays until the thread's sys.eret (R367). -/
def Thread.ringRefuse (t : Thread) (tag : Nat) : Thread :=
  { t with ring := t.ring.map (fun e => if e.tag = tag then { e with refused := true } else e) }

/-- A run ends by fault in an iteration at a transport: its place records them, and stays until the thread's next sys.eret (R254). (DESIGN
CHOICE, log 102.) -/
def Thread.ringEnd (t : Thread) (tag it j : Nat) : Thread :=
  { t with ring := t.ring.map (fun e => if e.tag = tag then { e with refused := true, ended := some (it, j) } else e) }

/-- The sys.eret frees the places of refused requests. -/
def Thread.ringEret (t : Thread) : Thread := { t with ring := t.ring.filter (fun e => !e.refused) }

/-- The sequence number of a request, from its ring entry. -/
def Thread.seqOf (t : Thread) (tag : Nat) : Nat :=
  match t.ring.find? (fun e => e.tag == tag) with
  | some e => e.seq
  | none => 0

/-- Places a fixed-latency result of `lat` rotations under way (R22). -/
def Thread.send (t : Thread) (tag lat : Nat) (ports : List RPort) (vals : Option (List PortVal))
    (flags : Option (BitVec 6 × Bool)) : Thread :=
  { t with flight := t.flight ++ [{ due := t.rot + lat, tag, ports, vals, flags }] }

/-- Whether a trigger of latency `lat` to these ports is held under R41: an earlier result would fall later, or its
moment is not known yet. -/
def Thread.orderHold (t : Thread) (lat : Nat) (ports : List RPort) : Bool :=
  t.flight.any (fun f => decide (t.rot + lat < f.due) && f.ports.any ports.contains) ||
  t.owed.any (fun o => t.reaches o.tag o.area && o.ports.any ports.contains)

/-- The area to which a trigger's delivery is tied: the one in use, none inside a handler (R371). -/
def Thread.tie (t : Thread) : Option Word := t.areaUse

/-- Sets the fence bits and owes a fenced result (R42). -/
def Thread.owe (t : Thread) (tag : Nat) (ports : List RPort) (load : Bool) (read : Option ReadSpec) : Thread :=
  { t.setFence ports with owed := t.owed ++ [{ tag, ports, area := t.tie, marked := true, load, read, vals := none, flags := none, work := [], rels := [] }] }

/-- Gives an owed result its value, with what its delivery counts as returned; its delivery is a step of its own (R42). -/
def Thread.fill (t : Thread) (tag : Nat) (vs : List PortVal) (flags : Option (BitVec 6)) (work : List Nat := [])
    (rels : List Release := []) : Thread :=
  { t with owed := t.owed.map (fun o => if o.tag = tag then { o with vals := some vs, flags, work, rels } else o) }

/-- A refused result is owed no longer, and its port keeps its value (R44). -/
def Thread.unowe (t : Thread) (tag : Nat) : Thread := { t with owed := t.owed.filter (fun o => o.tag != tag) }

/-- Feature F0 to F3 of a die: present and enabled, and accepted in negotiation (R49, R398, R399). (DEDUCED, log 48.) -/
def featOn (s : State) (die b : Nat) : Bool := (s.host.dieFeat[Fin.ofNat 16 die]).getLsbD b && s.host.featEn.getLsbD (16 + b)

/-- The source number of a thread of the observed core: (core, slot, CID) (R120, R294). (DESIGN CHOICE, log 1.) -/
def srcOf (core : Nat) (slot : Fin 8) (cid : Nat) : Nat := (core * 64 + cid) * 8 + slot.val
def State.src (s : State) (i : Fin 8) : Nat := srcOf s.coreId i s.slots[i].cid.val
/-- The source of an engine command, one for each, and of the network, the host and firmware (R294). -/
def srcCmd (tag : Nat) : Nat := 2 ^ 40 + tag
def srcNet : Nat := 2 ^ 41
def srcHost : Nat := 2 ^ 41 + 1
def srcFirm : Nat := 2 ^ 41 + 2

/-- Adds an imprecise fault with its sequence number, in ascending order (R365). -/
def insFault : List (Nat × Word) → Nat × Word → List (Nat × Word)
  | [], f => [f]
  | g :: r, f => if g.1 ≤ f.1 then g :: insFault r f else f :: g :: r

def Thread.addFault (t : Thread) (seq : Nat) (c : Word) : Thread := { t with faults := insFault t.faults (seq, c) }

/-- The address of a slot's thread in MCTH (R382). -/
def Thread.mcth (t : Thread) (slot : Fin 8) : Word :=
  BitVec.ofNat 64 (t.team * 2 ^ 40 + t.tcore * 2 ^ 20 + t.cid.val * 2 ^ 14 + slot.val)

/-- An event for a machine-check bank. -/
structure McEvent where
  cluster : Nat
  bank : Fin 4
  cls : Nat
  src : Nat
  core : Nat
  cause : Nat
  ad : Word
  sy : Word
  th : Word
  deriving DecidableEq, Repr

def McBank.zero (cluster : Nat) (bank : Fin 4) : McBank := { cluster, bank, st := 0, ad := 0, sy := 0, th := 0 }

/-- A bank records an event (R383): corrected events count first, and a higher class replaces a lower. -/
def McBank.record (b : McBank) (e : McEvent) : McBank :=
  let cnt := if e.cls = 1 then min (field b.st 47 32 + 1) 0xFFFF else field b.st 47 32
  let full := 2 ^ 63 + e.cls * 2 ^ 60 + cnt * 2 ^ 32 + e.src * 2 ^ 24 + e.core * 2 ^ 16 + e.cause
  if field b.st 63 63 = 0 then
    { b with st := BitVec.ofNat 64 full, ad := e.ad, sy := e.sy, th := e.th }
  else if field b.st 61 60 < e.cls then
    { b with st := BitVec.ofNat 64 (full + 2 ^ 62), ad := e.ad, sy := e.sy, th := e.th }
  else
    { b with st := BitVec.ofNat 64 (field b.st 31 0 + cnt * 2 ^ 32 + field b.st 61 60 * 2 ^ 60 + 3 * 2 ^ 62) }

def mcFind (l : List McBank) (c : Nat) (k : Fin 4) : McBank :=
  match l.find? (fun b => b.cluster == c && b.bank == k) with
  | some b => b
  | none => McBank.zero c k

def mcPut (l : List McBank) (b : McBank) : List McBank :=
  b :: l.filter (fun x => !(x.cluster == b.cluster && x.bank == b.bank))

/-- Logs an event; one of class 2 or 3 raises MSI-X vector 0 (R383, R397). -/
def State.mcLog (s : State) (e : McEvent) : State :=
  let o := s.host.out
  { s with
    mc := mcPut s.mc ((mcFind s.mc e.cluster e.bank).record e)
    host := { s.host with out := { o with msix0 := if e.cls ≥ 2 then o.msix0 + 1 else o.msix0 } } }

def epochRec (ratio delta time : Nat) : TraceRec := { delta, type := 1, low := BitVec.ofNat 40 ratio, hi := BitVec.ofNat 64 time }

/-- Epoch records where the time since the last record exceeds what DELTA holds, by fuel (R392). -/
def TraceBuf.catchUp (b : TraceBuf) (now ratio : Nat) : Nat → TraceBuf
  | 0 => b
  | n + 1 =>
    if now - b.last ≤ 0xFFFF then b
    else TraceBuf.catchUp { b with records := b.records ++ [epochRec ratio 0xFFFF (b.last + 0xFFFF)], last := b.last + 0xFFFF } now ratio n

/-- The buffer ready for a record: its first epoch record, or the epochs that the time since its last record needs. -/
def TraceBuf.ready (b : TraceBuf) (now ratio : Nat) : TraceBuf :=
  if b.records.isEmpty then { b with records := [epochRec ratio 0 now], last := now } else b.catchUp now ratio (now - b.last)

/-- Appends a trace record (R391, R392). -/
def TraceBuf.put (b : TraceBuf) (now ratio type : Nat) (low : BitVec 40) (hi : Word) : TraceBuf :=
  let e := b.ready now ratio
  { e with records := e.records ++ [{ delta := now - e.last, type, low, hi }], last := now }

/-- The cluster's clock changes: an epoch record ends at the change, where the buffer is in use (R392). -/
def TraceBuf.change (b : TraceBuf) (now old new : Nat) : TraceBuf :=
  if old = new then b
  else
    let e := b.ready now old
    { e with records := e.records ++ [epochRec new (now - e.last) now], last := now }

def Debug.buf (d : Debug) (k : Nat) : TraceBuf := (d.bufs.find? (fun b => b.cluster == k)).getD { cluster := k, records := [], last := 0, place := none, out := 0 }

def islandAt (s : State) (i : Nat) : Island :=
  match s.host.islands.find? (fun e => e.1 == i) with
  | some e => e.2
  | none => Island.reset

/-- The island of a core, die by die and row by row in a die (R1, R403). (DEDUCED, log 51.) -/
def islandOf (core : Nat) : Nat := dieOf core * 128 + coreY core % 256 / 8 * 4 + coreX core % 256 / 64

/-- RATIO at a step (R392). -/
def stepRatio (cur : BitVec 2) : Nat := 100 + 10 * cur.toNat

/-- RATIO of a cluster's clock. -/
def clusterRatio (s : State) (k : Nat) : Nat := stepRatio (islandAt s (islandOf (clusterCore k 0))).cur

/-- RATIO as a cluster's trace gives it: 0 while its clock is stopped (R391). -/
def traceRatio (s : State) (k : Nat) : Nat := if s.dbg.off.contains k then 0 else clusterRatio s k

/-- Puts a buffer back, or a new one. -/
def Debug.setBuf (d : Debug) (b : TraceBuf) : Debug := { d with bufs := b :: d.bufs.filter (fun x => x.cluster != b.cluster) }

/-- Appends a trace record to a cluster's buffer. (DESIGN CHOICE, log 25.) -/
def State.traceAt (s : State) (k type low : Nat) (hi : Word) : State :=
  { s with dbg := s.dbg.setBuf ((s.dbg.buf k).put s.dbg.now (traceRatio s k) type (BitVec.ofNat 40 low) hi) }

/-- A change of clusters' clocks, or of the cluster observed: each buffer in use takes an epoch record at its cluster's change, and the
reference counter goes on at the observed cluster's ratio (R392). -/
def State.reclock (s : State) (old : State) : State :=
  { s with dbg := { s.dbg with
      bufs := s.dbg.bufs.map (fun b => b.change s.dbg.now (traceRatio old b.cluster) (traceRatio s b.cluster))
      ratio := clusterRatio s (clusterOf s.coreId) } }

def State.trace (s : State) (type : Nat) (low : Nat) (hi : Word) : State := s.traceAt (clusterOf s.coreId) type low hi

/-- The address that MCAD gives for a place: physical, or its cluster-window address for a bank's word (R382). (DESIGN CHOICE, log 67.) -/
def mcAddr (loc : Nat) : Word :=
  if isBank loc then BitVec.ofNat 64 (0xFE0000000000 + bankNo (bankCore loc) * 0x4000 + (loc - bankBase) % 0x4000) else BitVec.ofNat 64 loc

end Sys2Proof.Machine
end

