-- ==== Sys2Proof/Machine/Slice.lean ====
section
/-! DEFINITION. L2 lines at their slices: what a die's slice holds, replacement and what a line carries with it, reads of a line and the checks of its words (R80 to R84, R86, R382). -/

namespace Sys2Proof.Machine

def read64 (st : Store) (loc : Nat) : Nat := natLE (Mem.read st.mem loc 8)

/-- The 64-bit words that `n` bytes at `loc` touch, and those they cover whole. -/
def touchedWords (loc n : Nat) : List Nat := if n = 0 then [] else (List.range ((loc + n - 1) / 8 - loc / 8 + 1)).map (· + loc / 8)
def coveredWords (loc n : Nat) : List Nat := (touchedWords loc n).filter (fun w => decide (loc ≤ 8 * w) && decide (8 * w + 8 ≤ loc + n))

def lineFind (l : List Line) (pa : Nat) : Line :=
  match l.find? (fun x => x.pa == pa) with
  | some x => x
  | none => { pa, home := false, dirty := false, tag := 0, sharers := 0, shared := 0, flaws := 0, own := false }

def linePut (l : List Line) (x : Line) : List Line := x :: l.filter (fun y => y.pa != x.pa)

/-- A die's bit in a mask. -/
def dieBit (d : Nat) : BitVec 16 := 1#16 <<< d

/-- A die's slice holds a line: at its home, or Shared (R80). -/
def Line.heldAt (l : Line) (d : Nat) : Bool := if homeDie l.pa = d then l.home else l.shared.getLsbD d

/-- The event of a poisoned word: a paged one in the bank of its slice's cluster, a bank's in its cluster's (R84, R139, R382). -/
def poisonEvent (loc src : Nat) : McEvent :=
  if isBank loc then
    { cluster := clusterOf (bankCore loc), bank := 0, cls := 2, src, core := bankNo (bankCore loc), cause := 0, ad := mcAddr loc, sy := Config.syndrome loc, th := 0 }
  else { cluster := sliceHome loc, bank := 3, cls := 2, src, core := 0xFF, cause := 0, ad := mcAddr loc, sy := Config.syndrome loc, th := 0 }

/-- A corrected event of a line's copy in a die's slice, in the bank of that slice's cluster (R84, R382). -/
def lineEvent (d pa src : Nat) : McEvent :=
  { cluster := sliceAt d pa, bank := 3, cls := 1, src, core := 0xFF, cause := 0, ad := BitVec.ofNat 64 pa, sy := Config.syndrome pa, th := 0 }

-- ## Floors (R294, R297)

def HWrite.covers (w : HWrite) (b : Nat) : Bool := decide (w.loc ≤ b) && decide (b < w.loc + w.old.length)

/-- The number of the write that stands in a byte: M(a), 0 for the initial write (R294). -/
def newestId (h : List HWrite) (b : Nat) : Nat :=
  match h.find? (fun w => w.covers b) with
  | some w => w.id
  | none => 0

/-- The union of two floors. -/
def floorAdd (f g : List (Nat × Nat)) : List (Nat × Nat) := g.foldl (fun f x => if x.2 = 0 ∨ f.contains x then f else x :: f) f

/-- The release writes among those that a read returned (R306). -/
def momentRels (h : List HWrite) (g : List (Nat × Nat)) : List Release :=
  (h.filter (fun w => g.any (fun p => p.2 == w.id))).filterMap (·.rel)

/-- A read by or for a slot's thread returned these writes (R297, R306). -/
def readGains (s : State) (slot : Fin 8) (g : List (Nat × Nat)) : State :=
  s.onSlot slot (fun t => { t with floor := floorAdd t.floor g, relReads := momentRels s.st.hist g ++ t.relReads })

/-- A walker's read of `n` bytes at their ordering point, for the threads of some slots (R71, R72, R297). -/
def walkGains (s : State) (slots : List (Fin 8)) (loc n : Nat) : State :=
  let g := ((List.range n).map (fun k => (loc + k, newestId s.st.hist (loc + k)))).filter (fun p => p.2 != 0)
  slots.foldl (fun s i => readGains s i g) s

-- ## SEC-DED at banks and Dirty lines (R84, R135, R139)

/-- A word of a paged line is marked poisoned: the copies of its line that the observed core's L1 and the other dies' slices hold
were fetched before, and are sound (R81, R84). -/
def poisonWord (s : State) (w : Nat) : State :=
  let pa := lineOf (8 * w)
  let l := lineFind s.st.lines pa
  let l1 : List (Option Nat × Nat) := if s.core.l1.contains pa then [(none, w)] else []
  let dies : List (Option Nat × Nat) := ((List.range 16).filter (fun d => l.shared.getLsbD d)).map (fun d => (some d, w))
  s.onSt (fun st => { st with
    marks := markSet st.marks w 1#2
    sound := l1 ++ dies ++ st.sound.filter (fun e => e.2 != w) })

/-- A word of a bank or of a Dirty line is read whose code reports errors: one is corrected in place, two poison the word, and the
event is logged. The codes of a line that its slice does not hold Dirty stand in its tier, and are met when it enters (R83). -/
def scrubWord (s : State) (w : Nat) : State :=
  match s.st.ecc.find? (fun e => e.1 == w) with
  | none => s
  | some (_, two) =>
    let loc := 8 * w
    let s1 := s.onSt (fun st => { st with ecc := st.ecc.filter (fun e => e.1 != w) })
    let e := poisonEvent loc (if isBank loc then (if two then 4 else 3) else if two then 0x32 else 0x31)
    if !isBank loc && !(lineFind s.st.lines (lineOf loc)).dirty then s
    else if two then (if isBank loc then (s1.mcLog e).onSt (fun st => { st with marks := markSet st.marks w 1#2 }) else poisonWord (s1.mcLog e) w)
    else s1.mcLog { e with cls := 1 }

/-- The words that `n` bytes touch are read. -/
def scrub (s : State) (loc n : Nat) : State := (touchedWords loc n).foldl scrubWord s

-- ## Requests to the host (R396)

def State.onOut (s : State) (f : HostOut → HostOut) : State := { s with host := { s.host with out := f s.host.out } }

/-- The bytes of a line, and whether a word of it is poisoned. -/
def lineData (s : State) (pa : Nat) : BitVec 1024 × Bool :=
  (BitVec.ofNat 1024 (natLE (Mem.read s.st.mem pa 128)), (List.range 16).any (fun k => markOf s.st.marks (pa / 8 + k) == 1#2))

/-- A home slice asks the host for one of its lines, or hands it back; lines of the other tiers need no request (R396). -/
def hostAsk (s : State) (op : CacheOp) (pa : Nat) : State :=
  if inHost pa then
    let before := match op with | .rdShared | .rdOwn => (List.range 128).map (fun i => newestId s.st.hist (pa + i)) | _ => []
    s.onOut (fun o => { o with asks := o.asks ++ [{ op, pa, data := if op = .dirtyEvict then some (lineData s pa) else none, before }] })
  else s

/-- Before the first write to a host line that it holds, the home slice asks for it (R396). -/
def hostOwn (s : State) (pa : Nat) : State :=
  let l := lineFind s.st.lines pa
  if inHost pa && !l.own then (hostAsk s .rdOwn pa).onSt (fun st => { st with lines := linePut st.lines { l with own := true } }) else s

-- ## Replacement (R83)

/-- A line is replaced in a die's slice: from its home, after its Shared copies; a Shared copy silently (R80, R83). -/
def Line.replace (l : Line) (d : Nat) : Line :=
  if homeDie l.pa = d then { l with home := false, dirty := false, sharers := 0, shared := 0, flaws := 0, own := false }
  else { l with shared := l.shared &&& ~~~(dieBit d), flaws := l.flaws &&& ~~~(dieBit d) }

/-- A line leaves a die's slice. A Dirty one is written back: to the granary with the codes of its words in the ECC spare
bits, so that their errors stand there; elsewhere its words are checked as they leave (R83, R84), and the host is told of its line (R396).
Memory holds the bytes either way. (DEDUCED, log 83.) -/
def lineEvict (s : State) (d pa : Nat) : State :=
  let l := lineFind s.st.lines pa
  let s1 := if homeDie pa = d ∧ l.dirty = true ∧ inGranary pa = false then scrub s pa 128 else s
  let s2 := if homeDie pa = d ∧ l.home = true then hostAsk s1 (if l.dirty then .dirtyEvict else .cleanEvict) pa else s1
  s2.onSt (fun st => { st with lines := st.lines.map (fun x => if x.pa = pa then x.replace d else x) })

/-- Makes room for a line in its set of a die's slice: of sixteen other lines there, the one that came or was written
longest ago is replaced (R79, R83). (DESIGN CHOICE, log 17.) -/
def lineRoom (s : State) (d pa : Nat) : State :=
  let here := s.st.lines.filter (fun l => l.pa != pa && l.heldAt d && sliceOf l.pa == sliceOf pa && setOf l.pa == setOf pa)
  match here.getLast? with
  | some v => if 16 ≤ here.length then lineEvict s d v.pa else s
  | none => s

/-- A line comes from its tier: of the codes that it carried there, one error is corrected by the tier's read, and two are
uncorrectable: the word enters the slice poisoned (R83, R84). (DEDUCED, log 83.) -/
def lineCarried (s : State) (pa : Nat) : State :=
  let here (w : Nat) : Bool := lineOf (8 * w) == pa
  let bad := (s.st.ecc.filter (fun e => here e.1 && e.2)).map (·.1)
  bad.foldl (fun s w => poisonWord (s.mcLog (poisonEvent (8 * w) 0x34)) w)
    (s.onSt (fun st => { st with ecc := st.ecc.filter (fun e => !here e.1) }))

/-- A line that its home slice does not hold enters it, with tag 0; one that left it before emits a tag restart to the trace
of the slice's cluster (R81, R86). -/
def lineEnter (s : State) (pa : Nat) : State :=
  let l := lineFind s.st.lines pa
  if l.home then s
  else
    let back := s.st.lines.any (fun x => x.pa == pa)
    let s1 := (hostAsk (lineRoom s (homeDie pa) pa) .rdShared pa).onSt (fun st => { st with
      lines := linePut st.lines { l with home := true, dirty := false, tag := 0, sharers := 0, shared := 0, flaws := 0, own := false } })
    let s2 := lineCarried s1 pa
    if back then s2.traceAt (sliceHome pa) 3 0 (BitVec.ofNat 64 pa) else s2

/-- A copy of a line whose parity fails is dropped, to be fetched again (R84). A home copy that is fetched again in its place has not left
the slice: its sequence tag goes on, and no tag restart is traced. (DESIGN CHOICE, log 107.) -/
def lineFlawed (s : State) (d pa : Nat) : State :=
  let l := lineFind s.st.lines pa
  (s.onSt (fun st => { st with lines := linePut st.lines { l with flaws := l.flaws &&& ~~~(dieBit d) } })).mcLog (lineEvent d pa 0x30)

/-- The home slice's own copy of a line is used: a miss fetches it from its tier, and a Clean copy whose parity fails is fetched again
(R80, R81, R84). -/
def lineHome (s : State) (pa : Nat) : State :=
  let l := lineFind s.st.lines pa
  if l.home then (if l.flaws.getLsbD (homeDie pa) && !l.dirty then lineFlawed s (homeDie pa) pa else s) else lineEnter s pa

/-- A die's slice takes a copy as its home slice sends it, whose words are checked as they are read (R81, R84). -/
def lineFetch (s : State) (d pa : Nat) : State :=
  (scrub (lineHome s pa) pa 128).onSt (fun st => { st with sound := st.sound.filter (fun e => e.1 != some d || lineOf (8 * e.2) != pa) })

/-- A die's slice reads a line: its home slice from its own copy, whose words are checked; another from a Shared copy, which is fetched
again where its parity fails; a miss fetches the line, and sets the die's sharer bit (R80, R81, R84). -/
def lineRead (s : State) (d pa : Nat) : State :=
  if homeDie pa = d then scrub (lineHome s pa) pa 128
  else
    let l := lineFind s.st.lines pa
    if l.shared.getLsbD d then (if l.flaws.getLsbD d then lineFetch (lineFlawed s d pa) d pa else s)
    else
      let s2 := lineRoom (lineFetch s d pa) d pa
      let l1 := lineFind s2.st.lines pa
      s2.onSt (fun st => { st with
        lines := linePut st.lines { l1 with sharers := l1.sharers ||| dieBit d, shared := l1.shared ||| dieBit d, flaws := l1.flaws &&& ~~~(dieBit d) } })

/-- `n` bytes within one line are read at their ordering point: a paged line stands in its home slice, and the words' codes
are checked (R81, R84, R139). -/
def pointScrub (s : State) (loc n : Nat) : State := scrub (if isBank loc then s else lineHome s (lineOf loc)) loc n

/-- The marks as a reader meets them through a copy: an L1's (none) or a die's slice's. What was found in the home copy since leaves it
sound (R81, R84). -/
def soundMarks (st : Store) (via : Option Nat) : List (Nat × BitVec 2) :=
  st.marks.filter (fun m => m.2 != 1#2 || !st.sound.contains (via, m.1))

/-- The L1 takes a line from its die's slice, with that copy's words (R81, R146). -/
def soundFill (st : Store) (d pa : Nat) : List (Option Nat × Nat) :=
  (st.sound.filter (fun e => e.1 == some d && lineOf (8 * e.2) == pa)).map (fun e => (none, e.2)) ++
  st.sound.filter (fun e => e.1.isSome || lineOf (8 * e.2) != pa)

end Sys2Proof.Machine
end

