-- ==== Sys2Proof/Machine/Translate.lean ====
section
/-! DEFINITION. Translation: the walk of R61 to R63, the checks of R64, the TLBs and the walk cache (R69 to R74). -/

namespace Sys2Proof.Machine

/-- An access that a translation serves (R64). -/
structure Acc where
  user : Bool
  fetch : Bool
  write : Bool
  sync : Bool
  deriving DecidableEq, Repr

/-- The first failing row of R64, by its kind. Attributes are e[6:2]: W, X, U, SYNC, DIG. -/
def attrFault (a : Acc) (attr : BitVec 5) : Option Nat :=
  if a.user && !attr.getLsbD 2 then some 8
  else if a.fetch && !attr.getLsbD 1 then some 7
  else if a.write && !attr.getLsbD 0 then some 6
  else if a.sync && !attr.getLsbD 3 then some 9
  else none

/-- The lowest address bit of the index at a level (R61). -/
def levelShift (lev : Nat) : Nat := match lev with | 1 => 39 | 2 => 30 | 3 => 21 | _ => 16
def levelIndex (lev va : Nat) : Nat := va / 2 ^ levelShift lev % (if lev = 4 then 32 else 512)

/-- Tiers that negotiation has accepted: the granary always, the barn under bit 2 and the host tier under bit 0 of FEATEN
(R398, R399). -/
def State.tierOn (s : State) (tier : Nat) : Bool :=
  match tier with
  | 0 => true
  | 1 => s.host.featEn.getLsbD 2
  | _ => s.host.featEn.getLsbD 0

/-- A walk of a cluster's walker from a level on, `n` levels to go; a non-leaf entry of its walk cache serves in place of
memory (R69, R70). Each entry is read at its home slice, with the checks of its line and word, and what it returns adds to the floor of
each thread for which the walk is made (R72, R81, R84, R297). A table is
read wherever the granary, the barn or the host range has an address, whatever negotiation accepted: only the leaf's tier is
checked. (DESIGN CHOICE, log 65.) -/
def walkFrom (cluster : Nat) (cid : BitVec 6) (slots : List (Fin 8)) (va : Nat) : Nat → Nat → List WalkEntry → State → Walk × State
  | 0, _, _, s => (.bad 4 4, s)
  | n + 1, table, seen, s0 =>
    let lev := 4 - n
    let key := va / 2 ^ levelShift lev
    match s0.st.walkc.find? (fun e => e.cluster == cluster && e.cid == cid && e.level == lev && e.key == key) with
    | some e => walkFrom cluster cid slots va n e.table seen s0
    | none =>
      let pa := table + levelIndex lev va * 8
      if !exists? pa then (.reserved pa, s0)
      else
        let s := walkGains (pointScrub s0 pa 8) slots pa 8
        if markOf s.st.marks (pa / 8) ≠ 0#2 then (.poisoned pa, s)
        else
          let e := BitVec.ofNat 64 (read64 s.st pa)
          if field e 0 0 = 0 then (.bad 3 lev, s)
          else if field e 63 52 ≠ 0 ∨ field e 11 9 ≠ 0 then (.bad 4 lev, s)
          else
            let base := field e 51 12 * 4096
            if field e 1 1 = 0 then
              if lev = 4 ∨ field e 8 2 ≠ 0 then (.bad 4 lev, s)
              else if !(inGranary base || inBarn base) then (.bad 4 lev, s)
              else walkFrom cluster cid slots va n base ({ cluster, cid, level := lev, key, table := base } :: seen) s
            else if lev = 1 then (.bad 4 1, s)
            else
              let size := 2 ^ levelShift lev
              let tier := field e 8 7
              if base % size ≠ 0 then (.bad 4 lev, s)
              else if tier = 3 ∨ (field e 5 5 = 1 ∧ tier ≠ 0) then (.bad 4 lev, s)
              else if !s.tierOn tier || !inTier tier (base + va % size) then (.bad 5 lev, s)
              else (.leaf base size (BitVec.ofNat 5 (field e 6 2)) seen, s)

/-- What translating one access gives: a place, a precise fault with its cause, or a stop. -/
inductive Trans where
  | ok (loc : Nat) (attr : BitVec 5) (s : State)
  | bad (cause : Word) (s : State)
  | stop (f : Fault)
  deriving Repr

/-- Who translates: context, root, level, whether through a core's first-level TLB (R67) or an engine's path (R73), the
cluster whose TLB and walker serve it (none: the observed core's), and the miss that the slot's word waits for. -/
structure Walker where
  cid : Nat
  root : Nat
  user : Bool
  l1 : Bool
  cluster : Option Nat := none
  miss : Option TlbMiss := none
  /-- the one thread that a fault of the walk affects, for MCTH (R383) -/
  th : Word := 0#64
  /-- the cr.cause code that a thread takes where an entry is poisoned, or 0 where none takes one (R63, R382) -/
  cause : Nat := 0x11
  /-- the slots for whose threads it walks (R71, R297) -/
  slots : List (Fin 8) := []
  deriving DecidableEq, Repr

def Thread.walker (t : Thread) : Walker :=
  { cid := t.cid.val, root := field t.cr[crCtx] 51 12 * 4096, user := !t.sup, l1 := true, miss := t.miss }

def Walker.place (w : Walker) (s : State) : Nat := w.cluster.getD (clusterOf s.coreId)

def TlbEntry.hits (e : TlbEntry) (cluster cid : Nat) (va : Nat) : Bool :=
  e.cluster == cluster && e.cid.toNat == cid && decide (e.va ≤ va) && decide (va < e.va + e.size)

/-- Keeps the newest `n` entries of a cluster. -/
def keepNewest (n cluster : Nat) (f : α → Nat) (l : List α) : List α :=
  ((l.filter (fun e => f e == cluster)).take n) ++ l.filter (fun e => f e != cluster)

/-- A TLB entry that fails its parity is dropped, and the event logged; the walk is then made again (R382). -/
def tlbScrub (s : State) (w : Walker) (va : Nat) : State :=
  let k := w.place s
  let bad (e : TlbEntry) : Bool := e.flaw && e.hits k w.cid va
  if (w.l1 && s.core.tlb1.any bad) || s.st.tlb2.any bad then
    ((s.onCore (fun c => { c with tlb1 := if w.l1 then c.tlb1.filter (fun e => !bad e) else c.tlb1 })).onSt
      (fun st => { st with tlb2 := st.tlb2.filter (fun e => !bad e) })).mcLog
      { cluster := k, bank := 0, cls := 1, src := 6, core := bankNo s.coreId, cause := 0, ad := 0, sy := Config.syndrome va, th := 0 }
  else s

def install1 (s : State) (e : TlbEntry) : State := s.onCore (fun c => { c with tlb1 := (e :: c.tlb1).take 512 })

/-- The event of a poisoned page-table entry, in the bank of the walker's cluster, with the code that a thread takes (R63, R382). -/
def walkEvent (cluster pa cause : Nat) (th : Word) : McEvent :=
  { cluster, bank := 3, cls := 2, src := 0x32, core := 0xFF, cause, ad := mcAddr pa, sy := Config.syndrome pa, th }

/-- A walk, made whole: a leaf is installed with the entries that the walk read, a fault installs nothing, and a poisoned
entry is logged (R63, R70, R72). (DESIGN CHOICE, log 18.) -/
def walkNow (s0 : State) (w : Walker) (va : Nat) : Walk × State :=
  let k := w.place s0
  match walkFrom k (BitVec.ofNat 6 w.cid) w.slots va 4 w.root [] s0 with
  | (.leaf pa size attr seen, s) =>
    let e : TlbEntry := { cluster := k, cid := BitVec.ofNat 6 w.cid, va := va / size * size, size, pa, attr }
    let s1 := s.onSt (fun st => { st with
      tlb2 := keepNewest 8192 k TlbEntry.cluster (e :: st.tlb2)
      walkc := keepNewest 64 k WalkEntry.cluster (seen ++ st.walkc) })
    (.leaf pa size attr [], if w.l1 then install1 s1 e else s1)
  | (.poisoned pa, s) => (.poisoned pa, s.mcLog (walkEvent k pa w.cause w.th))
  | r => r

/-- Requests of one cluster for one context and 64 KiB region share a walk (R71). -/
def TlbMiss.serves (m : TlbMiss) (va : Nat) : Bool := m.va / 65536 == va / 65536

/-- Looks an address up in the TLBs (R71); where both miss, the result of the walk that the word has waited for serves it,
and otherwise the walk is made here. -/
def lookup (s0 : State) (w : Walker) (va : Nat) : Walk × State :=
  let s := tlbScrub s0 w va
  let k := w.place s
  match (if w.l1 then s.core.tlb1.find? (fun e => e.hits k w.cid va) else none) with
  | some e => (.leaf e.pa e.size e.attr [], s)
  | none =>
    match s.st.tlb2.find? (fun e => e.hits k w.cid va) with
    | some e => (.leaf e.pa e.size e.attr [], if w.l1 then install1 s e else s)
    | none =>
      match (w.miss.filter (fun m => m.serves va)).bind TlbMiss.result with
      | some r => (r, s)
      | none => walkNow s w va

/-- A paged access of the slot's word misses both TLBs and no walk has served it: the word is held for its walk (R67, R71).
(DEDUCED, log 68.) -/
def walkNeeded (s : State) (w : Walker) (va : Word) : Option Nat :=
  let a := field va 47 0
  let k := w.place s
  let hit (e : TlbEntry) : Bool := !e.flaw && e.hits k w.cid a
  if s.core.tlb1.any hit || s.st.tlb2.any hit || ((w.miss.filter (fun m => m.serves a)).bind TlbMiss.result).isSome then none else some a

/-- The same for a data address: windows need no walk, and an address that faults before translation none (R53). -/
def dataWalk (s : State) (w : Walker) (va : Word) : Option Nat :=
  match classify va with
  | .paged => walkNeeded s w va
  | _ => none

/-- Translates a paged address and checks its attributes (R63, R64). -/
def translatePaged (s : State) (w : Walker) (a : Acc) (va : Word) : Trans :=
  match lookup s w (field va 47 0) with
  | (.leaf pa size attr _, s1) =>
    match attrFault a attr with
    | some k => .bad (causeVa 8 k 0 va) s1
    | none => .ok (pa + field va 47 0 % size) attr s1
  | (.bad kind lev, s1) => .bad (causeVa 7 kind lev va) s1
  | (.poisoned _, s1) => .bad (causeVa 0x11 3 0 va) s1
  | (.reserved pa, _) => .stop (.reservedPhysical pa)

/-- Translates a data address of any class (R53 to R55, R63, R64). Windows carry no protection (R54, R135). -/
def translate (s : State) (w : Walker) (a : Acc) (va : Word) : Trans :=
  match classify va with
  | .nonCanon => .bad (causeVa 7 1 0 va) s
  | .hole => .bad (causeVa 7 2 0 va) s
  | .own off => .ok (winLoc s off) 0b01111#5 s
  | .mesh core off => .ok (bankLoc (s.nowAt w.cid core) off) 0b01111#5 s
  | .paged => translatePaged s w a va

/-- Translates the fetch of a halfword (R27, R56). -/
def translateFetch (s : State) (w : Walker) (va : Word) : Trans :=
  if field va 63 48 ≠ 0 then .bad (causeVa 7 1 0 va) s
  else if field va 47 41 = 0x7F then .bad (causeVa 8 7 0 va) s
  else translatePaged s w { user := w.user, fetch := true, write := false, sync := false } va

end Sys2Proof.Machine
end

