-- ==== Sys2Proof/Machine/Order.lean ====
section
/-! DEFINITION. The ordering machine: write pools and their order (R295, R296), point and view reads (R297), the parts that a request passes (R298), home slices and banks as ordering points (R82, R86, R88, R136), the full/empty service (R142), reservations (R96, R98). -/

namespace Sys2Proof.Machine

/-- The marker's wait: a result owed in the area in use whose owed mark stands (R44, R371, R377). -/
def Thread.pending (t : Thread) : Bool := t.owed.any (fun o => o.marked && t.reaches o.tag o.area)

/-- Parks after a switch marker, or clears the fence bits where nothing is owed (R44). -/
def Thread.enterMarker (t : Thread) : Thread :=
  if t.pending then { t with mode := .marker, sAfter := false } else { t with mode := .run, fence := 0, sAfter := false }

/-- Ends a park; R44 applies where the parked word carried S. -/
def Thread.unpark (t : Thread) : Thread := if t.sAfter then t.enterMarker else { t with mode := .run }

def isOwn (va : Word) : Bool := match classify va with | .own _ => true | _ => false
def isPaged (va : Word) : Bool := match classify va with | .paged => true | _ => false

/-- The L1 drops a line when its core's write issues (R82, R146). -/
def l1Drop (s : State) (loc : Nat) : State :=
  if isBank loc then s else s.onCore (fun c => { c with l1 := c.l1.filter (· != lineOf loc), l1bad := c.l1bad.filter (· != lineOf loc) })

/-- The writes of a byte that precede write `f` in the order of R296. The list is newest first; `st` holds, once `f` is
met, the sources, the known writes and whether any of the writes found reads M(a) at the point. -/
def predsFrom (b f : Nat) : List HWrite → Option (List Nat × List Nat × Bool) → List Nat
  | [], _ => []
  | w :: r, st =>
    if !w.covers b then predsFrom b f r st
    else
      let mine := (w.known.filter (fun k => k.1 == b)).map (·.2)
      match st with
      | none => predsFrom b f r (if w.id = f then some ([w.src], mine, w.rmw) else none)
      | some (srcs, known, rmw) =>
        if rmw || srcs.contains w.src || known.contains w.id then
          w.id :: predsFrom b f r (some (w.src :: srcs, mine ++ known, rmw || w.rmw))
        else predsFrom b f r st

/-- Whether `w` precedes `f` on a byte; the initial write (0) precedes every performed write (R296). -/
def precedes (h : List HWrite) (b w f : Nat) : Bool :=
  h.any (fun x => x.id == f && x.covers b) && (w == 0 || (predsFrom b f h none).contains w)

/-- A moment of the perform order as a reader sees it: bytes, marks, and the writes that stand there. -/
structure Moment where
  bytes : List Byte
  marks : List (Nat × BitVec 2)
  ids : List Nat
  deriving DecidableEq, Repr

/-- Replaces bytes of `cur` at `loc` by those of an overlapping `old` at `at`. -/
def overlay (loc : Nat) (cur : List Byte) (at' : Nat) (old : List Byte) : List Byte :=
  cur.zipIdx.map (fun p => if at' ≤ loc + p.2 then (old[loc + p.2 - at']?).getD p.1 else p.1)

/-- Every distinct moment of the bytes at `loc`, newest first. Between the parts of one write, whose number was met `last`, there is
none: its bytes are performed together (R295). -/
def momentsFrom (loc : Nat) : List HWrite → List Byte → List (Nat × BitVec 2) → Bool → Nat → List Moment
  | [], cur, marks, fresh, _ => if fresh then [{ bytes := cur, marks, ids := cur.map (fun _ => 0) }] else []
  | w :: r, cur, marks, fresh, last =>
    let offer := fresh && w.id != last
    let here : List Moment :=
      if offer then [{ bytes := cur, marks, ids := (List.range cur.length).map (fun i => newestId (w :: r) (loc + i)) }] else []
    if decide (w.loc < loc + cur.length) && decide (loc < w.loc + w.old.length) then
      here ++ momentsFrom loc r (overlay loc cur w.loc w.old) (w.oldMarks.foldl (fun m p => markSet m p.1 p.2) marks) true w.id
    else here ++ momentsFrom loc r cur marks (fresh && !offer) w.id

/-- Whether a view read of a thread may return, on byte `b`, write `w`: nothing in the floor follows it, and no write of
the thread in the floor was performed after it (R297). -/
def mayReturn (h : List HWrite) (floor : List (Nat × Nat)) (src b w : Nat) : Bool :=
  let fl := (floor.filter (fun f => f.1 == b)).map (·.2)
  fl.all (fun f => !precedes h b w f) &&
  !(h.takeWhile (fun x => !(x.id == w && x.covers b))).any (fun x => x.covers b && x.src == src && fl.contains x.id)

/-- The moments that a view read may return; bytes that are forwarded from the thread's own writes are excepted (R297). (DEDUCED, log 26.) -/
def viewMoments (st : Store) (floor : List (Nat × Nat)) (src : Nat) (skip : Nat → Bool) (loc n : Nat) : List Moment :=
  (momentsFrom loc st.hist (Mem.read st.mem loc n) st.marks true 0).filter
    (fun m => m.ids.zipIdx.all (fun p => skip (loc + p.2) || mayReturn st.hist floor src (loc + p.2) p.1))

/-- A read's result: the newest permitted moment where there is one only, else a free choice (log 10). The newest moment
is always permitted, so the list is never empty for a thread that reads what the machine can give. -/
def viewPick (s : State) (ms : List Moment) : Option Moment × State :=
  match ms with
  | [] => (none, s)
  | [m] => (some m, s)
  | m :: r => (((m :: r)[Config.viewChoice s.freeCtr % (m :: r).length]?).or (some m), { s with freeCtr := s.freeCtr + 1 })

def pointMoment (st : Store) (loc n : Nat) : Moment :=
  { bytes := Mem.read st.mem loc n, marks := st.marks, ids := (List.range n).map (fun i => newestId st.hist (loc + i)) }

/-- The marks of the words that a read of `n` bytes covers; the first decides. -/
def firstMark (marks : List (Nat × BitVec 2)) (loc n : Nat) : Option (Nat × BitVec 2) :=
  ((List.range ((loc % 8 + n + 7) / 8)).map (fun i => (loc / 8 + i, markOf marks (loc / 8 + i)))).find? (fun p => p.2 != 0#2)

/-- The cause that a marked word's read raises (R140, R151, R167, R168): poison by the word's class, never-produced by its mark. -/
def markCause (loc n : Nat) (va : Word) (m : Nat × BitVec 2) : Bool × Word :=
  let wva : Word := va + BitVec.ofNat 64 (m.1 * 8) - BitVec.ofNat 64 (if n < 8 then loc / 8 * 8 + loc % 8 else loc)
  if m.2 = 1#2 then (false, causeVa 0x11 (if isBank loc then 1 else 2) 0 wva)
  else (true, causeVa 0x0C (if m.2 = 2#2 then 1 else 2) 0 wva)

/-- Adds a request in the order of issue. -/
def insReq : List Req → Req → List Req
  | [], r => [r]
  | x :: l, r => if x.tag < r.tag then x :: insReq l r else r :: x :: l

/-- The requests of a slot that hold writes not yet performed, oldest first: on their way, in the posted-store queue, or
pushed into a store pattern (R147, R196, R298). -/
def pendingReqs (s : State) (slot : Fin 8) : List Req :=
  ((s.st.bankq.map (·.req) ++ s.st.queue ++ s.st.paths ++ s.slots[slot].psq ++ s.core.streams.toList.flatMap (·.out)).filter
    (fun r => r.slot == some slot)).foldl insReq []

/-- Whether a request goes to an ordering point of memory. -/
def Req.toMemory (r : Req) : Bool :=
  match r.kind with
  | .msg _ _ _ _ _ | .arrive _ | .give _ _ _ => false
  | _ => true

/-- The writes of the thread's words in its posted-store queue: not the stores of a save area, nor the arrivals, messages and gives
that wait there for their release condition (R154, R298; log 15). -/
def Thread.queuedStores (t : Thread) : Nat := (t.psq.filter (fun r => r.toMemory && !r.saves)).length

/-- A slot's thread has a request on its way to the ordering point of a place (R85, R294). -/
def ownPending (s : State) (slot : Fin 8) (loc : Nat) : Bool :=
  (pendingReqs s slot).any (fun r => r.toMemory && pointOf r.loc == pointOf loc)

/-- The bytes that a request will store, for forwarding: stores, stf and amo.scr (R147). -/
def Req.stores? (r : Req) : Option (List Byte) :=
  match r.kind with
  | .store d _ => some d
  | .scr b _ => some (bytesLE 8 b.toNat)
  | _ => none

/-- Forwards the youngest own write not yet performed on each byte of a read (R147, R297). -/
def forwardOwn (s : State) (slot : Fin 8) (tag loc : Nat) (bytes : List Byte) : List Byte :=
  ((pendingReqs s slot).filter (fun r => decide (r.tag < tag))).foldl
    (fun (acc : List Byte) r =>
      match r.stores? with
      | some d => if decide (r.loc < loc + bytes.length) && decide (loc < r.loc + d.length) then overlay loc acc r.loc d else acc
      | none => acc) bytes

/-- A byte of a thread's read is forwarded from its own write. -/
def forwarded (s : State) (slot : Fin 8) (tag b : Nat) : Bool :=
  (pendingReqs s slot).any (fun r => decide (r.tag < tag) && (match r.stores? with
    | some d => decide (r.loc ≤ b) && decide (b < r.loc + d.length)
    | none => false))

/-- The writes that a moment's bytes return, but for those bytes that take another (R297). -/
def momentGains (skip : Nat → Bool) (loc : Nat) (m : Moment) : List (Nat × Nat) :=
  (m.ids.zipIdx.map (fun p => (loc + p.2, p.1))).filter (fun p => p.2 != 0 && !skip p.1)

/-- A read by or for a thread returns a moment, on the bytes that were not forwarded from the thread's own writes (R297, R306). -/
def gains (s : State) (slot : Fin 8) (tag loc : Nat) (m : Moment) : State := readGains s slot (momentGains (forwarded s slot tag) loc m)

/-- The marks as a thread's own read meets them: a word that an own write not yet performed covers whole carries none
(R139, R147). -/
def ownMarks (s : State) (slot : Fin 8) (tag : Nat) (marks : List (Nat × BitVec 2)) : List (Nat × BitVec 2) :=
  let ws := ((pendingReqs s slot).filter (fun r => decide (r.tag < tag))).flatMap (fun r =>
    match r.stores? with
    | some d => coveredWords r.loc d.length
    | none => [])
  marks.filter (fun m => !ws.contains m.1)

/-- A load that overlaps a posted atomic of its thread not yet acknowledged is held (R147). -/
def amoPending (s : State) (slot : Fin 8) (loc n : Nat) : Bool :=
  (pendingReqs s slot).any (fun r => match r.kind with
    | .amo _ _ => decide (r.loc < loc + n) && decide (loc < r.loc + 8)
    | _ => false) ||
  s.st.acks.any (fun a => a.slot == some slot && a.amo && decide (a.loc < loc + n) && decide (loc < a.loc + 8))

/-- A write at its ordering point. -/
structure PWrite where
  id : Nat
  src : Nat
  loc : Nat
  data : List Byte
  fe : Option Bool
  rmw : Bool
  known : List (Nat × Nat)
  rel : Option Release
  work : Option Nat := none
  deriving DecidableEq, Repr


/-- Performs a write on memory: bytes together, marks of whole words cleared, FE as the write says, the pool extended
(R139, R141, R152, R295). A word written whole loses its mark, also where only its full/empty bit changes. (DESIGN CHOICE, log 69.) -/
def Store.put (st : Store) (p : PWrite) : Store :=
  let n := p.data.length
  let ws := touchedWords p.loc n
  let marks0 := ws.map (fun w => (w, markOf st.marks w))
  let e : HWrite := { id := p.id, src := p.src, loc := p.loc, old := Mem.read st.mem p.loc n, oldMarks := marks0, rmw := p.rmw, known := p.known, rel := p.rel, work := p.work }
  { st with
    mem := Mem.write st.mem p.loc p.data
    hist := e :: st.hist
    marks := (coveredWords p.loc n).foldl (fun m w => markSet m w 0#2) st.marks
    ecc := st.ecc.filter (fun e => !(coveredWords p.loc n).contains e.1)
    full := match p.fe with
      | some true => ws.foldl setIns st.full
      | some false => ws.foldl setDel st.full
      | none => st.full }

/-- Wakes a slot that waits in sys.mwait with a reason, which sys.o takes as the slot wakes: the first word after the park reads it
(R36, R88, R189, R378). (DEDUCED, log 70.) -/
def wakeSlot (s : State) (slot : Fin 8) (reason : Nat) : State :=
  let t := s.slots[slot]
  if t.mode = .mwait then
    s.setSlot slot ((t.deliver { port := .sysO, val := BitVec.ofNat 128 reason, mark := none }).setCr crMon (t.cr[crMon] &&& ~~~(1#64))).unpark
  else s

/-- The waiter of a monitor entry wakes, where it is a slot of the observed core. -/
def wakeEntry (s : State) (m : Monitor) (reason : Nat) : State := if m.core = s.coreId then wakeSlot s m.slot reason else s

def wakeLine (s : State) (line : Nat) : State :=
  let ms := s.st.monitors.filter (fun m => m.line == line)
  let s1 := s.onSt (fun st => { st with monitors := st.monitors.filter (fun m => m.line != line) })
  ms.foldl (fun s m => wakeEntry s m 1) s1

/-- A slot of the observed core waits at no line any more. -/
def State.unmonitor (s : State) (slot : Fin 8) : State :=
  s.onSt (fun st => { st with monitors := st.monitors.filter (fun m => !(m.core == s.coreId && m.slot == slot)) })

/-- Installs a monitor: it takes the place of the waiter's earlier one, and in a full table of 64 entries that of the one
installed longest ago, whose waiter wakes with reason 2 (R87, R88). -/
def monitorPut (s : State) (m : Monitor) : State :=
  let old := s.st.monitors.filter (fun x => !(x.core == m.core && x.slot == m.slot))
  let here := old.filter (fun x => pointOf x.line == pointOf m.line)
  match here.head? with
  | some v =>
    if 64 ≤ here.length then wakeEntry (s.onSt (fun st => { st with monitors := old.erase v ++ [m] })) v 2
    else s.onSt (fun st => { st with monitors := old ++ [m] })
  | none => s.onSt (fun st => { st with monitors := old ++ [m] })

/-- A write performed on a line at its home slice: the line becomes Dirty and takes the next tag, Shared copies are
invalidated, and monitors wake (R82, R86, R88); a host line is asked for first (R396). Gives the tag and the dies whose confirmation is awaited. -/
def touchLine (s : State) (loc : Nat) : State × BitVec 16 × BitVec 16 :=
  let s1 := hostOwn (lineHome s (lineOf loc)) (lineOf loc)
  let l := lineFind s1.st.lines (lineOf loc)
  let tag := l.tag + 1
  let s2 := s1.onSt (fun st => { st with lines := linePut st.lines { l with dirty := true, tag, sharers := 0 } })
  (wakeLine s2 l.pa, tag, l.sharers)

/-- Performs a write at its ordering point: a bank, or a home slice. -/
def perform (s : State) (p : PWrite) : State × BitVec 16 × BitVec 16 :=
  if isBank p.loc then (s.onSt (fun st => st.put p), 0, 0)
  else touchLine ((hostOwn (lineHome s (lineOf p.loc)) (lineOf p.loc)).onSt (fun st => st.put p)) p.loc

/-- An acknowledgement sets out: it carries a paged write's tag to the core of its thread (R82, R86, R298); that of another
source's write matters only while Shared copies have still to go. -/
def sendAck (s : State) (r : Req) (seqTag await : BitVec 16) : State :=
  let amo := match r.kind with | .amo _ _ => true | _ => false
  if r.counted || (r.slot.isSome && !isBank r.loc) then
    s.onSt (fun st => { st with acks := st.acks ++ [{ slot := r.slot, tag := r.tag, loc := r.loc, amo, va := r.va, seqTag, await }] })
  else if await ≠ 0 then
    s.onSt (fun st => { st with acks := st.acks ++ [{ slot := none, tag := r.tag, loc := r.loc, amo := false, va := r.va, seqTag, await }] })
  else s

/-- Performs a write that nothing counts, whose Shared copies are invalidated all the same (R82). `tag` names the command
that waits for them (R106). A paged write of an engine's command is no acknowledged write of the core in the trace. (DESIGN CHOICE,
log 107.) -/
def performFree (s : State) (p : PWrite) (tag : Nat) : State :=
  let (s1, seqTag, await) := perform s p
  if await ≠ 0 then
    s1.onSt (fun st => { st with acks := st.acks ++ [{ slot := none, tag, loc := p.loc, amo := false, va := 0, seqTag, await }] })
  else s1

/-- The core reads `n` bytes: a bank checks the words' codes, and paged lines come into its die's slice (R81, R139). -/
def coreRead (s : State) (loc n : Nat) : State :=
  if isBank loc then scrub s loc n
  else (List.range ((loc % 128 + n + 127) / 128)).foldl (fun s k => lineRead s (dieOf s.coreId) (lineOf loc + 128 * k)) s

/-- A read of `n` bytes for a slot's thread: from the windows M(a), from paged memory a moment that a view read permits, through the
L1 or a die's slice (`via`). Gives its bytes, with the thread's own pending writes before `tag` forwarded, and the mark that decides;
the floor gains what it returned (R81, R139, R147, R297). -/
def threadRead (s0 : State) (slot : Fin 8) (via : Option Nat) (tag loc n : Nat) : (List Byte × Option (Nat × BitVec 2)) × State :=
  let s := if isBank loc then scrub s0 loc n else s0
  let st := { s.st with marks := soundMarks s.st via }
  let (m, s1) := if isBank loc then (none, s) else viewPick s (viewMoments st s.slots[slot].floor (s.src slot) (forwarded s slot tag) loc n)
  let m1 := m.getD (pointMoment s1.st loc n)
  ((forwardOwn s1 slot tag loc m1.bytes, firstMark (ownMarks s1 slot tag m1.marks) loc n), gains s1 slot tag loc m1)

/-- A read of a slot's thread at the ordering point: M(a), with the thread's own pending writes forwarded, and the mark that decides
(R147, R297). -/
def homeRead (s0 : State) (slot : Fin 8) (tag loc n : Nat) : (List Byte × Option (Nat × BitVec 2)) × State :=
  let s := pointScrub s0 loc n
  let m := pointMoment s.st loc n
  ((forwardOwn s slot tag loc m.bytes, firstMark (ownMarks s slot tag m.marks) loc n), gains s slot tag loc m)

/-- The read inside a posted atomic or a served ste returns M(a) to its thread (R297, R306). -/
def rmwGains (s : State) (r : Req) : State :=
  match r.slot with
  | some i => gains s i r.tag r.loc (pointMoment s.st r.loc 8)
  | none => s

/-- Adds a write to the floor of the thread that made it (R297). -/
def floorOwn (s : State) (slot : Option (Fin 8)) (loc n id : Nat) : State :=
  match slot with
  | some i => s.onSlot i (fun t => { t with floor := floorAdd t.floor ((List.range n).map (fun k => (loc + k, id))) })
  | none => s

/-- A request's thread takes an imprecise fault; a result it owed is owed no longer. With `stays`, its count and its ring
entry stay until the thread's sys.eret; else both end (R44, R364, R365, R367). -/
def Thread.refuse (t : Thread) (tag : Nat) (cause : Nat → Word) (stays : Bool) : Thread :=
  let n := t.seqOf tag
  let t1 := (t.addFault n (cause n)).unowe tag
  if stays then { t1.ringRefuse tag with counted := t1.counted.map (fun c => if c.tag = tag then { c with refused := true } else c) }
  else { t1.ringFree tag with counted := t1.counted.filter (fun c => c.tag != tag) }

def refuse (s : State) (slot : Option (Fin 8)) (tag : Nat) (cause : Nat → Word) (stays : Bool) : State :=
  match slot with
  | none => s
  | some i => s.onSlot i (fun t => t.refuse tag cause stays)

/-- A thread of a team that is out, in its image (R344). -/
def onImage (s : State) (a : Nat × Nat × Fin 8) (f : Thread → Thread) : State :=
  { s with images := s.images.map (fun i =>
      if i.launch.1 = a.1 ∧ i.launch.2.1 = a.2.1 then { i with slots := i.slots.set a.2.2 (f i.slots[a.2.2]) } else i) }

/-- cr.cause of a remote refusal (R366). -/
def refusal (kind seq : Nat) : Word := BitVec.ofNat 64 (9 + kind * 2 ^ 12 + seq % 2 ^ 32 * 2 ^ 32)

/-- What a point read by a thread returns: its value at the port, and what it adds to the floor (R142, R297). -/
def pointRead (s : State) (i : Fin 8) (r : Req) (port : RPort) (n : Nat) (ext : Bool) : PortVal × State :=
  let m := pointMoment s.st r.loc n
  let v := natLE (forwardOwn s i r.tag r.loc m.bytes)
  let val : Quad := if ext then quad (BitVec.ofInt 64 (signedAt (8 * n) v)) else BitVec.ofNat 128 v
  ({ port, val, mark := (firstMark (ownMarks s i r.tag m.marks) r.loc n).map (markCause r.loc n r.va) }, gains s i r.tag r.loc m)

/-- Gives the value that a point read returned to its waiting result (R142, R297). -/
def answer (s0 : State) (r : Req) (port : RPort) (n : Nat) (ext : Bool) : State :=
  let s := pointScrub s0 r.loc n
  match r.slot with
  | none => s
  | some i =>
    let (pv, s1) := pointRead s i r port n ext
    s1.onSlot i (fun t =>
      let t1 := t.fill r.tag [pv] none
      { t1 with flight := t1.flight.map (fun f => if f.tag = r.tag then { f with vals := some [pv] } else f) })

/-- A waiting request is served: an ldf or ldt reads, an ldt empties, an ste writes, and the word's code is checked as it is read
(R139, R142, R153, R296). -/
def serve (s : State) (r : Req) : State :=
  match r.kind with
  | .ldf => answer s r .memO 8 false
  | .ldt =>
    let s1 := answer s r .memO 8 false
    let (s2, tag, await) := perform s1 { id := r.tag, src := r.src, loc := r.loc, data := Mem.read s1.st.mem r.loc 8, fe := some false, rmw := true, known := r.known, rel := none }
    sendAck (floorOwn s2 r.slot r.loc 8 r.tag) r tag await
  | .ste d =>
    let (s1, tag, await) := perform (rmwGains (pointScrub s r.loc 8) r) { id := r.tag, src := r.src, loc := r.loc, data := bytesLE 8 d.toNat, fe := some true, rmw := true, known := r.known, rel := r.rel }
    sendAck (floorOwn s1 r.slot r.loc 8 r.tag) r tag await
  | _ => s

def isFull (s : State) (loc : Nat) : Bool := s.st.full.contains (loc / 8)

/-- Serves the loads of a full word in arrival order, up to the first ldt. -/
def serveLoads (s : State) : List Req → State
  | [] => s
  | r :: rest =>
    let s1 := (serve s r).onSt (fun st => { st with waiters := st.waiters.filter (fun w => w.req.tag != r.tag) })
    match r.kind with
    | .ldt => s1
    | _ => serveLoads s1 rest

/-- The service of R142, by fuel: one round serves every load that a full word allows and one ste of an empty one. -/
def serviceLoop (s : State) (loc : Nat) : Nat → State
  | 0 => s
  | n + 1 =>
    let at_ (s : State) : List Req := (s.st.waiters.map (·.req)).filter (fun r => r.loc / 8 == loc / 8)
    let s1 := if isFull s loc then
        serveLoads s ((at_ s).filter (fun r => match r.kind with | .ldf => true | .ldt => true | _ => false))
      else s
    match (if isFull s1 loc then none else (at_ s1).find? (fun r => match r.kind with | .ste _ => true | _ => false)) with
    | some r =>
      serviceLoop ((serve s1 r).onSt (fun st => { st with waiters := st.waiters.filter (fun w => w.req.tag != r.tag) })) loc n
    | none => s1

/-- The waiter entries of a place's ordering point are all in use: a bank's 32, or a home slice's 128 (R144). -/
def waitersFull (st : Store) (loc : Nat) : Bool :=
  decide ((if isBank loc then 32 else 128) ≤ (st.waiters.filter (fun w => pointOf w.req.loc == pointOf loc)).length)

/-- A synchronising request is appended to its word's list and the service runs. One that this does not serve takes an entry, or
waits for one behind the earlier such requests of its point (R142, R144). -/
def enlist (s : State) (r : Req) : State :=
  let s1 := serviceLoop (s.onSt (fun st => { st with waiters := st.waiters ++ [{ req := r }] })) r.loc (s.st.waiters.length + 2)
  if waitersFull s.st r.loc && s1.st.waiters.any (fun w => w.req.tag == r.tag) then
    s1.onSt (fun st => { st with waiters := st.waiters.filter (fun w => w.req.tag != r.tag), waitq := st.waitq ++ [r] })
  else s1

/-- While an entry is free, the earliest request that waits for one of its point arrives (R144), by fuel. -/
def waitRetry (s : State) : Nat → State
  | 0 => s
  | n + 1 =>
    match s.st.waitq.find? (fun r => !waitersFull s.st r.loc) with
    | none => s
    | some r => waitRetry (enlist (s.onSt (fun st => { st with waitq := st.waitq.filter (fun x => x.tag != r.tag) })) r) n

/-- Entries that have become free are taken (R144). -/
def refillWaiters (s : State) : State := waitRetry s s.st.waitq.length

/-- The service of R142 at a word, and what its free entries then bring (R144). -/
def service (s : State) (loc : Nat) : State := refillWaiters (serviceLoop s loc (s.st.waiters.length + 1))

/-- The synchronising requests that wait at an ordering point, in a list or for an entry. -/
def Store.waiting (st : Store) : List Req := st.waiters.map (·.req) ++ st.waitq

/-- Waiting requests leave their lists, and those that wait for an entry take the free ones (R144, R145). -/
def dropWaiting (s : State) (gone : Req → Bool) : State :=
  refillWaiters (s.onSt (fun st => { st with waiters := st.waiters.filter (fun w => !gone w.req), waitq := st.waitq.filter (fun r => !gone r) }))

/-- The posted operations (R93). -/
def amoOp (k : AmoKind) (m b : Word) : Word :=
  match k with
  | .add => m + b
  | .min => if b.slt m then b else m
  | .max => if m.slt b then b else m
  | .and => m &&& b
  | .or => m ||| b
  | .xor => m ^^^ b

-- ## The port save area (R182)

/-- Whether a context holds a core: of the observed cluster where its team is the resident one (with no team recorded, where it has no
launch), and of the clusters that its teams touch (R54, R339). -/
def holdsCore (s : State) (cid core : Nat) : Bool :=
  (clusterOf core == clusterOf s.coreId &&
    (match s.team? with | some r => r.1.cid.val == cid | none => s.fw.launches.all (fun l => l.cid.val != cid))) ||
  s.fw.launches.any (fun l => l.cid.val == cid && l.placed.any (fun p =>
    decide (coreX p.2 / 4 ≤ coreX core / 4) && decide (coreX core / 4 ≤ (coreX p.2 + l.w - 1) / 4) &&
    decide (coreY p.2 / 2 ≤ coreY core / 2) && decide (coreY core / 2 ≤ (coreY p.2 + l.h - 1) / 2)))

/-- An access through the mesh window is refused at a core that the context does not hold (R55). -/
def meshRefused (s : State) (cid : Nat) (va : Word) (loc : Nat) : Bool :=
  match classify va with
  | .mesh _ _ => !holdsCore s cid (bankCore loc)
  | _ => false

/-- The clusters that a rectangle touches. -/
def rectClusters (x y w h : Nat) : List Nat :=
  (List.range ((y + h - 1) / 2 - y / 2 + 1)).flatMap (fun j => (List.range ((x + w - 1) / 4 - x / 4 + 1)).map (fun i => (y / 2 + j) * 256 + x / 4 + i))

/-- A core's bank goes with a team that stands at a corner: where it was placed, that of a core of its clusters which no other team of
the launch has; elsewhere its cores' banks and those that stand apart (R339, R344). (DEDUCED, log 60.) -/
def teamBank (l : Launch) (team corner core : Nat) : Bool :=
  if l.homeCorner team corner = corner then
    (rectClusters (coreX corner) (coreY corner) l.w l.h).contains (clusterOf core) && decide (core < 2 ^ 20) &&
    !l.placed.any (fun p => p.1 != team && coreIn p.2 l.w l.h core)
  else coreIn corner l.w l.h core || decide (2 ^ 20 ≤ core)

/-- The place of an offset of the window of a core, as its team's image keeps the banks. -/
def Image.windowLoc (img : Image) (l : Launch) (me off : Nat) : Nat :=
  let now := coreNum img.launch.2.2.1 img.launch.2.2.2
  let home := l.homeCorner img.launch.2.1 now
  let c := clusterCore (clusterOf (shiftCore now home me)) (off / 0x4000)
  bankLoc (if coreIn home l.w l.h c then shiftCore home now c else if now = home then c else apartBank c) (off % 0x4000)

/-- One entry of 16 bytes. -/
def entry16 (lo hi : Nat) : List Byte := bytesLE 8 lo ++ bytesLE 8 hi

/-- Where an area stands, with supervisor rights (R183). A fault there kills the thread, which takes no cause (R370, R377, R382). -/
def areaPlace (s : State) (slot : Fin 8) (area : Word) (write : Bool) : Trans :=
  let w := { s.slots[slot].walker with user := false, th := s.slots[slot].mcth slot, cause := 0, slots := [slot] }
  match translate s w { user := false, fetch := false, write, sync := false } area with
  | .ok loc attr s1 =>
    if meshRefused s s.slots[slot].cid.val area loc then .bad (refusal 1 0) s1 else .ok loc attr s1
  | r => r

/-- The reach of a request at an address: its core or cluster as the program names it (R301). -/
def reachOf (s : State) (va : Word) : Reach :=
  match classify va with
  | .own _ => .cluster (clusterOf s.home)
  | .mesh core _ => .core core
  | _ => .module

/-- Counts a request of the current slot in cr.rsv (R154). -/
def Thread.count (t : Thread) (tag : Nat) (r : Reach) : Thread := { t with counted := t.counted ++ [{ tag, reach := r, refused := false }] }

/-- A store of a save area by its thread with supervisor rights: it stands behind the thread's requests that are on their way
to its ordering point, and is performed at once where there are none (R85, R147, R182, R183, R298). It is counted like any
store of the thread, and takes no place in the ring and none of the queue's sixteen. (DEDUCED, log 15.) -/
def areaStore (s : State) (slot : Fin 8) (va : Word) (loc : Nat) (data : List Byte) : State :=
  let own := isOwn va
  let id := s.nextId
  let t := s.slots[slot]
  let r : Req := { slot := some slot, src := s.src slot, tag := id, counted := !own, kind := .store data false, loc, va, known := t.floor, rel := none, waits := [], own, saves := true }
  let s1 := floorOwn (l1Drop (s.bump.onSlot slot (fun t => if own then t else t.count id (reachOf s va))) loc) (some slot) loc data.length id
  if ownPending s slot loc then s1.onSlot slot (fun t => { t with psq := t.psq ++ [r] })
  else
    let (s2, tag, await) := perform s1 { id, src := r.src, loc, data, fe := none, rmw := false, known := r.known, rel := none }
    sendAck s2 r tag await

/-- Bytes of a save area as its thread's own accesses meet them (R147, R377). -/
def areaRead (s : State) (slot : Fin 8) (loc n : Nat) : List Byte := forwardOwn s slot s.nextId loc (Mem.read s.st.mem loc n)

/-- A thread's record entry becomes granted or goes, where it stands: in the area that its request is tied to while that is
out of use, else in the slot (R96, R97, R371). A write of the area that faults kills the thread. (DEDUCED, log 16.) -/
def resvSettle (s : State) (slot : Fin 8) (r : Req) (grant : Bool) : State :=
  let t := s.slots[slot]
  match (t.owed.find? (fun o => o.tag == r.tag)).bind (fun o => if t.reaches o.tag o.area then none else o.area) with
  | none =>
    let settled (e : ResRec) : ResRec := if e.loc = r.loc then { e with granted := true } else e
    s.onSlot slot (fun t => { t with resv := if grant then t.resv.map settled else t.resv.filter (fun e => e.loc != r.loc) })
  | some a =>
    let va := r.va &&& ~~~(7#64)
    match areaPlace s slot a true with
    | .ok loc _ s0 =>
      let s1 := coreRead s0 (loc + 16 * 57) 64
      match ((List.range 4).map (fun i => 16 * (57 + i))).find? (fun o => natLE (areaRead s1 slot (loc + o) 8) == va.toNat) with
      | some o => areaStore s1 slot (a + BitVec.ofNat 64 o) (loc + o) (if grant then entry16 va.toNat 1 else entry16 0 0)
      | none => s1
    | .bad _ s1 => s1.onSlot slot (fun t => { t with mode := .dying })
    | .stop _ => s

/-- cr.cause for 0x0F (R99). -/
def strand (kind : Nat) (va : Word) : Nat → Word := fun _ => causeVa 0x0F kind 0 (va &&& ~~~(1#64))

/-- The place of `o` bytes into the save area to which an owed result of a thread that is out is tied, as its image's core names it;
none where that is not mapped (R182, R183). -/
def awayPlace (s : State) (img : Image) (l : Launch) (slot : Fin 8) (tag o : Nat) : Option Nat :=
  let t := img.slots[slot]
  let me := coreNum img.core.x.toNat img.core.y.toNat
  let corner := coreNum img.launch.2.2.1 img.launch.2.2.2
  let home := l.homeCorner img.launch.2.1 corner
  let area := ((t.owed.find? (fun x => x.tag == tag)).bind Owed.area).getD t.psave + BitVec.ofNat 64 o
  match classify area with
  | .own off => some (img.windowLoc l me off)
  | .mesh core off => some (bankLoc (if coreIn home l.w l.h core then shiftCore home corner core else core) off)
  | .paged =>
    match translatePaged s { t.walker with user := false, l1 := false, cluster := some (clusterOf me) } { user := false, fetch := false, write := true, sync := false } area with
    | .ok loc _ _ => some loc
    | _ => none
  | _ => none

/-- A grant's value is written to the amo.o entry of the save area of a thread that is out: where the area stands in a bank that
went with the team, in the image, else in memory (R100). -/
def awayGrant (s : State) (img : Image) (l : Launch) (slot : Fin 8) (tag : Nat) (v : Quad) : State :=
  match awayPlace s img l slot tag (16 * (24 + RPort.amoO.fin.val)) with
  | none => s
  | some loc =>
    if isBank loc && teamBank l img.launch.2.1 (coreNum img.launch.2.2.1 img.launch.2.2.2) (bankCore loc) then
      { s with images := s.images.map (fun i => if i.launch = img.launch then { i with bank := Mem.write i.bank loc (bytesLE 16 v.toNat) } else i) }
    else performFree s.bump { id := s.nextId, src := srcFirm, loc, data := bytesLE 16 v.toNat, fe := none, rmw := false, known := [], rel := none } s.nextId

/-- What became of a request whose team is out: noted in the team's image, and a grant in the thread's save area (R98, R100). -/
def settleAway (s : State) (a : Nat × Nat × Fin 8) (x : Settled) : State :=
  match s.images.find? (fun i => i.launch.1 == a.1 && i.launch.2.1 == a.2.1), s.fw.launches[a.1]? with
  | some img, some l =>
    let s1 := { s with images := s.images.map (fun i => if i.launch = img.launch then { i with settled := i.settled ++ [x] } else i) }
    match x.val with
    | some v => awayGrant s1 img l x.slot x.req.tag v.val
    | none => s1
  | _, _ => s

/-- A refused reservation request: an imprecise fault, its result owed no longer, its record entry gone (R96, R98). -/
def refuseLrw (s : State) (r : Req) (kind : Nat) : State :=
  match r.away, r.slot with
  | some a, _ => settleAway s a { req := r, slot := a.2.2, val := none, gain := [], kind }
  | none, some i => refuse (resvSettle s i r false) r.slot r.tag (strand kind r.va) false
  | none, none => s

/-- A grant: the word goes to the holder's amo.o, or to its image while its team is out (R96, R100). -/
def giveGrant (s0 : State) (r : Req) : State :=
  match r.away, r.slot with
  | some a, _ =>
    let s := pointScrub s0 r.loc 8
    let m := pointMoment s.st r.loc 8
    let pv : PortVal := { port := .amoO, val := BitVec.ofNat 128 (natLE m.bytes), mark := (firstMark m.marks r.loc 8).map (markCause r.loc 8 r.va) }
    settleAway s a { req := r, slot := a.2.2, val := some pv, gain := m.ids.zipIdx.map (fun p => (r.loc + p.2, p.1)), kind := 0 }
  | none, some i => answer (resvSettle s0 i r true) r .amoO 8 false
  | none, none => pointScrub s0 r.loc 8

/-- The source number of a request's thread, as it is raised while its team is out (R294, R311). -/
def srcNow (s : State) (r : Req) : Nat :=
  r.src + ((r.away.bind (fun a => s.images.find? (fun i => i.launch.1 == a.1 && i.launch.2.1 == a.2.1))).map (·.exile)).getD 0

/-- Grants the waiter whose ticket is next (R96). -/
def grantNext (s : State) (e : Resv) : State :=
  let put (s : State) (e : Resv) : State := s.onSt (fun st => { st with resvs := st.resvs.map (fun x => if x.loc = e.loc then e else x) })
  if e.held.isSome then put s e
  else
    match e.waiters.find? (fun w => w.1 == e.next) with
    | none => put s e
    | some w => giveGrant (put s { e with held := some w.1, holder := some (srcNow s w.2), waiters := e.waiters.filter (fun x => x.1 != w.1) }) w.2

/-- The table of an ordering point is full (R91, R96). -/
def resvFull (st : Store) (loc : Nat) : Bool :=
  decide ((if isBank loc then 4 else 64) ≤ (st.resvs.filter (fun e => pointOf e.loc == pointOf loc)).length)

/-- The generation of a group to which a reservation request is bound has closed. -/
def genClosed (s : State) (grp : GroupKey) (gen : Nat) : Bool := s.net.groups.any (fun g => g.key == grp && decide (gen < g.gen))

/-- A reservation request reaches its ordering point (R96). One whose generation has closed while it was on its way is stranded
like those that the close found waiting: no ticket of that generation can be granted any more (R98). (DEDUCED, log 104.) -/
def lrwArrive (s : State) (r : Req) (grp : GroupKey) (gen tkt : Nat) : State :=
  if genClosed s grp gen then refuseLrw s r 1
  else
  match s.st.resvs.find? (fun e => e.loc == r.loc) with
  | some e =>
    if e.grp ≠ grp ∨ e.gen ≠ gen ∨ tkt < e.next ∨ e.held = some tkt ∨ e.waiters.any (fun w => w.1 == tkt) = true then refuseLrw s r 3
    else grantNext s { e with waiters := e.waiters ++ [(tkt, r)] }
  | none =>
    if resvFull s.st r.loc then s.onSt (fun st => { st with resvWait := st.resvWait ++ [r] })
    else
      let e : Resv := { loc := r.loc, grp, gen, next := 0, held := none, waiters := [(tkt, r)] }
      grantNext (s.onSt (fun st => { st with resvs := st.resvs ++ [e] })) e

/-- Requests that wait for a free entry of a table, in arrival order, while one is free (R96). -/
def resvRetry (s : State) : Nat → State
  | 0 => s
  | n + 1 =>
    match s.st.resvWait.find? (fun r => !resvFull s.st r.loc || s.st.resvs.any (fun e => e.loc == r.loc)) with
    | none => s
    | some r =>
      let s1 := s.onSt (fun st => { st with resvWait := st.resvWait.filter (fun x => x.tag != r.tag) })
      match r.kind with
      | .lrw grp gen tkt => resvRetry (lrwArrive s1 r grp gen tkt) n
      | _ => resvRetry s1 n

/-- A reservation is handed on, or freed with its waiters refused (R98). -/
def resvPass (s : State) (loc : Nat) (last : Bool) : State :=
  match s.st.resvs.find? (fun e => e.loc == loc) with
  | none => s
  | some e =>
    if last then
      let s1 := s.onSt (fun st => { st with resvs := st.resvs.filter (fun x => x.loc != loc) })
      let s2 := e.waiters.foldl (fun s w => refuseLrw s w.2 3) s1
      resvRetry s2 s2.st.resvWait.length
    else grantNext s { e with next := e.next + 1, held := none, holder := none }

/-- A narrower write, a posted atomic or an amo.scr meets a poisoned word: it is not performed, and its writer takes 0x11
kind 5, imprecise (R84, R139). At a home slice the address is logged (R84); a bank logged it when it found the error. The
request stays counted as a refused one (R367). (DEDUCED, log 71.) -/
def poisonRefuse (s : State) (r : Req) : State :=
  let s1 := if isBank r.loc then s
    else
      let th : Word := match r.slot with | some i => s.slots[i].mcth i | none => 0
      s.mcLog { poisonEvent r.loc 0x32 with cause := 0x11, th }
  refuse s1 r.slot r.tag (fun _ => causeVa 0x11 5 0 (r.va &&& ~~~(7#64))) true

/-- The bytes of a request. -/
def Req.width (r : Req) : Nat :=
  match r.kind with
  | .store d _ => d.length
  | .load n _ => n
  | _ => 8

/-- Performs one request at its ordering point (R82, R93, R98, R136, R142). A full-word write needs no check of the word
that it replaces. -/
def performReq (s0 : State) (r : Req) : State :=
  let whole := match r.kind with | .store d _ => decide (8 ≤ d.length) | .ste _ | .lrw _ _ _ | .ldf | .ldt => true | _ => false
  let s := if whole then s0 else pointScrub s0 r.loc r.width
  let poisoned := (firstMark s.st.marks r.loc 1).any (fun m => m.2 == 1#2)
  match r.kind with
  | .store d full =>
    if poisoned && decide (d.length < 8) then poisonRefuse s r
    else
      let (s1, tag, await) := perform s { id := r.tag, src := r.src, loc := r.loc, data := d, fe := if full then some true else none, rmw := false, known := r.known, rel := r.rel }
      let s2 := sendAck s1 r tag await
      if full then service s2 r.loc else s2
  | .amo k b =>
    if poisoned then poisonRefuse s r
    else
      let m := BitVec.ofNat 64 (read64 s.st r.loc)
      let (s1, tag, await) := perform (rmwGains s r) { id := r.tag, src := r.src, loc := r.loc, data := bytesLE 8 (amoOp k m b).toNat, fe := none, rmw := true, known := r.known, rel := r.rel }
      sendAck s1 r tag await
  | .scr b last =>
    let s1 := if poisoned then poisonRefuse s r
      else
        let (s1, tag, await) := perform s { id := r.tag, src := r.src, loc := r.loc, data := bytesLE 8 b.toNat, fe := none, rmw := false, known := r.known, rel := r.rel }
        sendAck s1 r tag await
    resvPass s1 r.loc last
  | .ste _ | .ldf | .ldt => refillWaiters (enlist s r)
  | .lrw grp gen tkt => lrwArrive s r grp gen tkt
  | .load n ext => answer s r (if n = 16 then .memOq else .memO) n ext
  | .msg _ _ _ _ _ | .arrive _ | .give _ _ _ => s

/-- What a release of the current slot's thread that issues now must wait for: everything counted in cr.rsv, which a
shootdown that is still held is not (R77, R298). -/
def State.waitAll (s : State) : List Nat := (s.thr.counted.filter (fun c => !s.heldTlbi c.tag)).map (·.tag)

/-- Whether a request's release condition holds (R298): nothing it waits for is still counted. -/
def Thread.released (t : Thread) (r : Req) : Bool := r.waits.all (fun g => !t.counted.any (fun c => c.tag == g))

/-- A place lies in a bank of the own-cluster window (R54). -/
def isOwnBank (s : State) (loc : Nat) : Bool := isBank loc && (List.range 8).any (fun b => s.windowCore b == bankCore loc)

end Sys2Proof.Machine
end

