-- ==== Sys2Proof/Machine/Net.lean ====
section
/-! DEFINITION. The tile network's geometry: tensor records (R157), home routers and stewards (R159), the way of an interest (R161), routers' tables, and the withdrawal of a face (R175). -/

namespace Sys2Proof.Machine

def Tensor.mod (t : Tensor) : Nat := field t.w2 47 40
def Tensor.size (t : Tensor) : Nat := 128 * (field t.w1 36 32 + 1)
def Tensor.tiles (t : Tensor) : Nat := field t.w1 31 0
def Tensor.keep (t : Tensor) : Nat := field t.w1 43 40 + 1
def Tensor.back (t : Tensor) : Nat := field t.w4 47 0
/-- The producer rectangle, in the layout of a scope (R157). -/
def Tensor.rect (t : Tensor) : BitVec 40 := t.w2.setWidth 40
def Tensor.hasCore (t : Tensor) (core : Nat) : Bool :=
  decide (field t.w2 9 0 ≤ coreX core) && decide (coreX core ≤ field t.w2 29 20) &&
  decide (field t.w2 19 10 ≤ coreY core) && decide (coreY core ≤ field t.w2 39 30)

/-- Where the teams of launch `n` stand or, swapped out, last stood: team and lowest corner (R339, R344). -/
def State.corners (s : State) (n : Nat) : List (Nat × Nat) :=
  (match s.fw.launches[n]? with | some l => l.placed | none => []) ++
  (s.images.filter (fun i => i.launch.1 == n)).map (fun i => (i.launch.2.1, coreNum i.launch.2.2.1 i.launch.2.2.2))

/-- Whether a team of launch `n` touches cluster `k`. -/
def State.touches (s : State) (n k : Nat) : Bool :=
  match s.fw.launches[n]? with
  | some l => (s.corners n).any (fun p =>
      decide (coreX p.2 / 4 ≤ k % 256) && decide (k % 256 ≤ (coreX p.2 + l.w - 1) / 4) &&
      decide (coreY p.2 / 2 ≤ k / 256) && decide (k / 256 ≤ (coreY p.2 + l.h - 1) / 2))
  | none => false

/-- The record of a context's tensor index in the table of router `k`: that of the launch whose team touches its cluster,
else any launch's of the context (R158). -/
def tensorAt (s : State) (k : Nat) (cid : Fin 64) (index : Nat) : Option Tensor :=
  let l := s.net.tensors.filter (fun t => t.cid == cid && t.index == index)
  (l.find? (fun t => s.touches t.launch k)).or l.head?

/-- The record by which a router handles a name: among those of the context with the name's TENSOR, that of the launch whose
team touches its cluster, else the newest (R155, R158). (DEDUCED, log 43.) -/
def tensorOf (s : State) (k : Nat) (cid : Fin 64) (tensor : BitVec 24) : Option Tensor :=
  let l := s.net.tensors.filter (fun t => t.cid == cid && t.index == tensor.toNat % 4096 && field t.w0 23 0 == tensor.toNat)
  (l.find? (fun t => s.touches t.launch k)).or l.head?

/-- The home router of a tile: cluster number t mod C of the rectangle, row by row (R159). -/
def Tensor.home (t : Tensor) (tile : Nat) : Nat :=
  let nx := field t.w2 29 20 / 4 + 1 - field t.w2 9 0 / 4
  let ny := field t.w2 39 30 / 2 + 1 - field t.w2 19 10 / 2
  let n := tile % (nx * ny)
  (field t.w2 19 10 / 2 + n / nx) * 256 + field t.w2 9 0 / 4 + n % nx

/-- The numbers of the die-level routers and of the routers at the Psipor ports, after the cluster routers (R161, R162). -/
def dieRouter (d : Nat) : Nat := 131072 + d
def edgeRouter (p : Fin 16) : Nat := 131088 + p.val
def clusterDie (k : Nat) : Nat := dieOf (clusterCore k 0)

/-- The next cluster on the way to a home cluster, along x first. -/
def clusterStep (k h : Nat) : Option (Nat × Face) :=
  if k % 256 < h % 256 then some (k + 1, .xMinus)
  else if h % 256 < k % 256 then some (k - 1, .xPlus)
  else if k / 256 < h / 256 then some (k + 256, .yMinus)
  else if h / 256 < k / 256 then some (k - 256, .yPlus)
  else none

/-- The next die on the way to a home die, along x first. -/
def dieStep (d h : Nat) : Nat :=
  if d % 4 < h % 4 then d + 1 else if h % 4 < d % 4 then d - 1 else if d / 4 < h / 4 then d + 4 else d - 4

/-- The cluster at which the way of a port enters its die: the lowest corner of die p. (PRESUMED, log 35.) -/
def edgeCluster (p : Fin 16) : Nat := p.val / 4 * 128 * 256 + p.val % 4 * 64

/-- Where the way to cluster `h` enters its die `d` from die `a`: at the border, in the row of the cluster `via` at which it left the first
die, or in the column of `h` once its leg along y has brought it. -/
def dieEntry (a d via h : Nat) : Nat :=
  let row (y : Nat) : Nat := y * 256
  if a % 4 < d % 4 then row (via / 256) + d % 4 * 64
  else if d % 4 < a % 4 then row (via / 256) + d % 4 * 64 + 63
  else if a / 4 < d / 4 then row (d / 4 * 128) + h % 256
  else row (d / 4 * 128 + 127) + h % 256

/-- The next router on the way to cluster `h` from router `k`, where the interest came by a face, and the face on which it is
reached: along x to the column of `h`, then along y; a die on the way is passed by its die-level router alone, also where the way turns
(R161). (DEDUCED, log 79.) -/
def hop (k h : Nat) (f : Face) : Option (Nat × Face) :=
  let hd := clusterDie h
  if k < 131072 then
    match clusterStep k h with
    | none => none
    | some (k', g) => if clusterDie k = clusterDie k' then some (k', g) else some (dieRouter (clusterDie k), .cluster k)
  else if k < 131088 then
    let d := k - 131072
    match f with
    | .die a via => if d = hd then some (dieEntry a d via h, .die d via) else some (dieRouter (dieStep d hd), .die d via)
    | .cluster c => if d = hd then none else some (dieRouter (dieStep d hd), .die d c)
    | _ => none
  else some (edgeCluster (Fin.ofNat 16 k), .edge (Fin.ofNat 16 k))

/-- PMAP entry m (R401). (PRESUMED, log 35.) -/
def pmapAt (s : State) (m : Nat) : Word :=
  match s.host.pmap.find? (fun e => e.1 == m) with
  | some e => e.2
  | none => 0#64
def pmPort (w : Word) : Fin 16 := Fin.ofNat 16 (field w 3 0)
def pmValid (w : Word) : Bool := w.getLsbD 7
def pmPcid (w : Word) : Nat := field w 15 10

def pushPacket (s : State) (k : Nat) (p : Packet) : State := { s with net := { s.net with packets := s.net.packets ++ [(k, p)] } }

def leaveBy (s : State) (p : Fin 16) (k : Packet) : State := { s with net := { s.net with left := s.net.left ++ [(p, k)] } }

/-- Takes one packet out of the network, where it is there. -/
def takePacket (s : State) (k : Nat) (p : Packet) : State := { s with net := { s.net with packets := s.net.packets.erase (k, p) } }

/-- The name whose entry a packet concerns. -/
def Packet.name? : Packet → Option TileName
  | .interest nm _ => some nm
  | .tile nm _ => some nm
  | .give nm _ _ => some nm
  | .empty nm _ => some nm
  | .withdraw nm _ => some nm
  | .retire _ _ _ _ => none
  | .notice _ _ => none

/-- Whether a packet is the next that router `k` takes: those of a router are taken in the order in which they set out for it, but for
retire notices, which travel by the barrier network (R85, R166, R401). (DESIGN CHOICE, log 79.) -/
def inOrder (s : State) (k : Nat) (p : Packet) : Bool :=
  let mine (x : Nat × Packet) : Bool := x.1 == k && (match x.2 with | .retire _ _ _ _ => false | _ => true)
  !s.net.packets.contains (k, p) || s.net.packets.find? mine == some (k, p)

/-- Where an interest of a name that came to router `k` by a face goes on to: toward its home router, or by the edge router of its
module's port out of the module; nowhere from its home (R161). -/
def upstream (s : State) (k : Nat) (nm : TileName) (f : Face) : Option (Nat × Face) :=
  match tensorOf s k nm.cid nm.tensor with
  | none => none
  | some t =>
    if t.mod ≠ 0 then
      let p := pmPort (pmapAt s t.mod)
      if k = edgeRouter p then some (k, .psipor p)
      else if k = edgeCluster p then some (edgeRouter p, .cluster k)
      else hop k (edgeCluster p) f
    else hop k (t.home nm.tile.toNat) f

/-- Sends a packet of a name on to where its interest goes: to the next router, or out by a port. -/
def sendUp (s : State) (up : Option (Nat × Face)) (pk : Face → Packet) : State :=
  match up with
  | some (_, .psipor p) => leaveBy s p (pk (.psipor p))
  | some (k, f) => pushPacket s k (pk f)
  | none => s

def routerAt (s : State) (k : Nat) : Router :=
  match s.net.routers.find? (fun r => r.cluster == k) with
  | some r => r
  | none => { cluster := k, pit := [], crib := [], flaws := [] }

def putRouter (s : State) (r : Router) : State :=
  let rest := s.net.routers.filter (fun x => x.cluster != r.cluster)
  { s with net := { s.net with routers := if r.pit.isEmpty && r.crib.isEmpty then rest else r :: rest } }

def pitEntry (r : Router) (nm : TileName) : Option PitEntry := r.pit.find? (fun e => e.nm == nm)
def pitFind (r : Router) (nm : TileName) : Option (List Face) := (pitEntry r nm).map (·.faces)
def pitDel (r : Router) (nm : TileName) : Router := { r with pit := r.pit.filter (fun e => e.nm != nm) }
def pitSet (r : Router) (nm : TileName) (fs : List Face) : Router :=
  { r with pit := r.pit.map (fun e => if e.nm = nm then { e with faces := fs } else e) }
def cribFind (r : Router) (nm : TileName) : Option Tile := (r.crib.find? (fun e => e.1 == nm)).map (·.2)
/-- A crib drops nothing for room, so that an interest in an iteration whose backing slot a later one has reused is served from it (R158,
R163). (DESIGN CHOICE, log 36.) -/
def cribPut (r : Router) (nm : TileName) (t : Tile) : Router := { r with crib := (nm, t) :: r.crib.filter (fun e => e.1 != nm) }

/-- The event of a crib's or an interest table's parity (R382). -/
def netParity (k : Nat) : McEvent := { cluster := k, bank := 2, cls := 1, src := 0x22, core := 0xFF, cause := 0, ad := 0, sy := Config.syndrome k, th := 0 }

/-- The tile of a name in a router's crib; one that fails its parity is dropped, and fetched again (R382). -/
def cribRead (s : State) (k : Nat) (nm : TileName) : Option Tile × State :=
  let r := routerAt s k
  if r.flaws.contains nm && decide (k < 131072) then
    (none, (putRouter s { r with crib := r.crib.filter (fun e => e.1 != nm), flaws := r.flaws.filter (· != nm) }).mcLog
      (netParity k))
  else (cribFind r nm, s)

/-- The entry that a packet concerns, checked: one that fails its parity is fetched again, with nothing lost (R382). -/
def pitScrub (s : State) (k : Nat) (nm : Option TileName) : State :=
  let r := routerAt s k
  match nm.bind (pitEntry r) with
  | some e =>
    if e.flaw && decide (k < 131072) then
      (putRouter s { r with pit := r.pit.map (fun x => if x.nm = e.nm then { x with flaw := false } else x) }).mcLog (netParity k)
    else s
  | none => s

/-- Removes a face from an entry; an entry left with none is withdrawn, the way that its interest went (R175). -/
def dropFace (s : State) (k : Nat) (nm : TileName) (f : Face) : State :=
  let r := routerAt s k
  match pitEntry r nm with
  | none => s
  | some e =>
    if !e.faces.contains f then s
    else
      match e.faces.erase f with
      | [] => sendUp (putRouter s (pitDel r nm)) e.up (fun g => .withdraw nm g)
      | g :: gs => putRouter s (pitSet r nm (g :: gs))

/-- Withdraws an interest record of the observed core: its waiter, on its way or at its router, and the record. -/
def dropInterest (s : State) (i : Interest) : State :=
  let me := s.coreId
  let k := clusterOf me
  let f : Face := .waiter me i.dest i.num
  let s1 := if s.net.packets.contains (k, .interest i.nm f) then takePacket s k (.interest i.nm f) else dropFace s k i.nm f
  s1.onCore (fun c => { c with interests := c.interests.filter (fun x => x.num != i.num) })

end Sys2Proof.Machine
end

