-- ==== Sys2Proof/Machine/Ops.lean ====
section
/-! DEFINITION. The named operations shared by the meanings: save areas (R182), the kill of a thread (R385), TAKING AN EXCEPTION (R368, R370, R372) and returning from one (R377), sending requests (R298, R364), and deliveries (R371). -/

namespace Sys2Proof.Machine

abbrev Out := Host.Outcome State Fault Refusal

/-- Goes on from a next state. -/
def andThen (o : Out) (f : State → Out) : Out :=
  match o with
  | .next s => f s
  | .fault e => .fault e
  | .refused r => .refused r

/-- The launch whose team stands on the core (R312). -/
def State.launch? (s : State) : Option Launch :=
  match s.fw.resident with
  | some r => s.fw.launches[r.1]?
  | none => none

-- ## Threads by their logical position (R313)

/-- A thread's number: its launch (0 where none is recorded, else one more than its index), TEAM, CORE and SLOT. (DEDUCED, log 43.) -/
def threadNum (launch team core slot : Nat) : Nat := ((launch * 2 ^ 20 + team) * 2 ^ 20 + core) * 8 + slot

/-- The number of the thread in a slot of the observed core. -/
def State.threadNo (s : State) (slot : Fin 8) : Nat :=
  match s.fw.resident with
  | some (n, team, x, y) =>
    let w := match s.fw.launches[n]? with | some l => l.w | none => 1
    threadNum (n + 1) team ((s.core.y.toNat - y) * w + (s.core.x.toNat - x)) slot.val
  | none => threadNum 0 0 s.coreId slot.val

/-- The core on which a thread stands. -/
def State.coreOf (s : State) (num : Nat) : Option Nat :=
  let c := num / 8 % 2 ^ 20
  match num / 2 ^ 43 with
  | 0 => some c
  | n + 1 =>
    match s.fw.launches[n]?, (s.corners n).find? (fun p => p.1 == num / 2 ^ 23 % 2 ^ 20) with
    | some l, some p => if c < l.w * l.h then some (coreNum (coreX p.2 + c % l.w) (coreY p.2 + c / l.w)) else none
    | _, _ => none

/-- The core on which its team's placement put a thread: the one by which records and rectangles name it (R344). -/
def State.homeOf (s : State) (num : Nat) : Option Nat :=
  let c := num / 8 % 2 ^ 20
  match num / 2 ^ 43 with
  | 0 => some c
  | n + 1 =>
    match s.fw.launches[n]?, (s.corners n).find? (fun p => p.1 == num / 2 ^ 23 % 2 ^ 20) with
    | some l, some p =>
      let h := l.homeCorner p.1 p.2
      if c < l.w * l.h then some (coreNum (coreX h + c % l.w) (coreY h + c / l.w)) else none
    | _, _ => none

/-- The network group that a selector of the resident team names (R357). -/
def groupKey (s : State) (wide : Bool) (grp : Nat) : GroupKey :=
  match s.fw.resident with
  | some (n, team, _) => { wide, grp, launch := n + 1, team := if wide then 0 else team }
  | none => { wide, grp, launch := 0, team := 0 }


/-- The reservation record and the pending user-level interrupt as entries 57 to 61. -/
def resvEntry (t : Thread) (i : Nat) : List Byte :=
  match t.resv[i]? with
  | some r => entry16 r.va.toNat r.granted.toNat
  | none => entry16 0 0

def OPort.saved : List OPort := [.aluB, .mulB, .mulC, .memD, .memQ, .vecB, .vecC, .vecTy, .fpuB, .fpuC, .fpuTy, .idxB, .idxSh,
  .trkN, .trkD, .amoB, .amoT, .synSc, .ndD, .msgD, .tskPr, .rngS]

def RPort.all : List RPort := [.aluO, .mulO, .mulH, .memO, .memOq, .idxO0, .idxO1, .idxO2, .idxO3, .idxO4, .vecO, .fpuO, .fpuF,
  .sfuO, .trkO, .trkH, .amoO, .synO, .ndO, .cpyO, .msgO, .msgId, .tskO, .sysO, .rngO, .mxO]

/-- The owed marks of the ports that the area in use still awaits. -/
def Thread.owedMarks (t : Thread) : Nat :=
  ((t.owed.filter (fun o => o.area == t.areaUse)).flatMap (·.ports)).foldl (fun m p => m ||| 2 ^ p.fin.val) 0

/-- The 64 entries of a thread's area; `u` is the pending user-level interrupt (R182). -/
def areaImage (t : Thread) (u : Option (Word × Word)) : List (List Byte) :=
  OPort.saved.map (fun p => bytesLE 16 (t.opq p).toNat) ++ [entry16 0 0, entry16 0 0] ++
  RPort.all.map (fun p => bytesLE 16 (t.rpq p).toNat) ++
  [entry16 t.cause4[(0 : Fin 4)].toNat t.cause4[(1 : Fin 4)].toNat, entry16 t.cause4[(2 : Fin 4)].toNat t.cause4[(3 : Fin 4)].toNat] ++
  List.replicate 4 (entry16 0 0) ++
  [bytesLE 4 t.fence.toNat ++ bytesLE 4 t.poison.toNat ++ bytesLE 4 t.np.toNat ++ bytesLE 4 t.owedMarks] ++
  (List.range 4).map (resvEntry t) ++
  [match u with | some p => entry16 p.1.toNat p.2.toNat | none => entry16 0 0] ++
  List.replicate 2 (entry16 0 0)

def storeEntries (s : State) (slot : Fin 8) (va : Word) (loc : Nat) : List (List Byte) → State
  | [] => s
  | e :: r => storeEntries (areaStore s slot va loc e) slot (va + 16#64) (loc + 16) r

-- ## Killing a thread (R385)

/-- A thread that ends or is killed counts as arrived at its groups, and retires every iteration (R166, R308). -/
def Group.hasCore (g : Group) (core : Nat) : Bool :=
  decide (field g.rect 9 0 ≤ coreX core) && decide (coreX core ≤ field g.rect 29 20) &&
  decide (field g.rect 19 10 ≤ coreY core) && decide (coreY core ≤ field g.rect 39 30)
/-- A thread is a member of a group: of its launch, of its team for a die group, and in its slot mask and rectangle (R310, R357). -/
def State.isMember (s : State) (g : Group) (num : Nat) : Bool :=
  num / 2 ^ 43 == g.key.launch && (g.key.wide || num / 2 ^ 23 % 2 ^ 20 == g.key.team) && g.mask.getLsbD (num % 8) && (s.homeOf num).any g.hasCore

def leaveThread (s : State) (n : Nat) : State :=
  { s with net := { s.net with
      gone := n :: s.net.gone.filter (· != n)
      groups := s.net.groups.map (fun g =>
        if s.isMember g n && !g.gone.contains n then { g with gone := n :: g.gone } else g) } }

def leaveAll (s : State) (slot : Fin 8) : State := leaveThread s (s.threadNo slot)

/-- Streams that a slot's thread binds are freed, with queue entries discarded; pushed elements of a store pattern are
still written (R197, R385). -/
def Stream.drop (st : Stream) (slot : Fin 8) : Stream :=
  match st.bind with
  | some (.queue p c) => if p = slot ∨ c = slot then { st with bind := none, q := [] } else st
  | some (.pattern o _ _ _ _ _ _ _ _ _) => if o = slot then { st with bind := none, q := [] } else st
  | none => st

/-- Claims released with contents and heads kept; a poisoned track is cleared (R120, R130, R385). -/
def Track.drop (k : Track) (slot : Fin 8) : Track :=
  match k.owner with
  | some o => if o.1 = slot then { k with owner := none, clearing := k.poisoned } else k
  | none => k

/-- Whether a slot's thread issued a track command; a copy's side is the copy's. -/
def TrkCmd.isOf (q : TrkCmd) (slot : Fin 8) (copies : List Copy) : Bool :=
  match q with
  | .shift _ i => i == slot
  | .read _ _ i _ => i == slot
  | .write _ _ _ i => i == slot
  | .rewind i => i == slot
  | .head _ i _ => i == slot
  | .release i => i == slot
  | .copy t => copies.any (fun x => x.tag == t && x.slot == slot)

/-- A killed thread that holds a reservation frees its ticket, unless its amo.scr is on its way, which is performed; the word keeps its
value, and no later ticket is granted before the generation closes (R98, R100). -/
def freeHeld (s : State) (slot : Fin 8) (e : Resv) : Resv :=
  let handsOn := (s.st.bankq.map (·.req) ++ s.st.queue ++ s.st.paths).any (fun r =>
    r.slot == some slot && r.loc == e.loc && (match r.kind with | .scr _ _ => true | _ => false))
  if e.holder = some (s.src slot) ∧ handsOn = false then { e with held := none, holder := none } else e

/-- What a kill does to the units: claims, streams, receives, interests and cards, track commands, copies and matrix commands of
the slot's thread go, and its requests at ordering points (R112, R133, R145, R178, R292, R331, R385). -/
def killUnits (s0 : State) (slot : Fin 8) : State :=
  let s := (s0.core.interests.filter (fun i => i.slot == slot)).foldl dropInterest s0
  let c := s.core
  let c1 := { c with
    tracks := c.tracks.map (fun k =>
      let k1 := k.drop slot
      { k1 with queue := k1.queue.filter (fun q => !q.isOf slot c.copies) })
    streams := c.streams.map (fun k => k.drop slot)
    receives := c.receives.filter (fun r => r.slot != slot)
    cards := c.cards.filter (fun r => r.slot != slot)
    gives := c.gives.filter (fun g => g.1 != slot)
    retires := c.retires.filter (fun r => r.slot != slot)
    copies := c.copies.filter (fun k => k.slot != slot)
    mx := { c.mx with queue := (c.mx.queue.zipIdx.filter (fun k =>
      k.1.slot != slot || (k.2 == 0 && (c.mx.hand.isSome || decide (0 < k.1.written))))).map (·.1) } }
  let mine (r : Req) : Bool := r.slot == some slot
  let reads (r : Req) : Bool := mine r && (match r.kind with | .ldf | .ldt | .load _ _ | .lrw _ _ _ => true | _ => false)
  let st := s.st
  dropWaiting (gone := mine) { s with
    core := c1
    st := { st with
      bankq := st.bankq.filter (fun b => !reads b.req)
      paths := st.paths.filter (fun r => !reads r)
      queue := st.queue.filter (fun r => !reads r)
      monitors := st.monitors.filter (fun m => !(m.core == s.coreId && m.slot == slot))
      resvWait := st.resvWait.filter (fun r => !mine r)
      resvs := st.resvs.map (fun e => { freeHeld s slot e with waiters := e.waiters.filter (fun w => !mine w.2) }) } }

/-- The kill of R385: issue stops, departed writes are performed and the others discarded, the thread's state is set to
0, its units are released, and the event is logged and traced. -/
def killThread (s : State) (slot : Fin 8) : State :=
  let t := s.slots[slot]
  let th := t.mcth slot
  let s1 := leaveAll (killUnits s slot) slot
  let s2 := s1.setSlot slot { Thread.reset with mode := .killed, cr := Vector.replicate 25 0#64, rot := t.rot, lost := t.lost }
  let bank := bankNo s.coreId
  let ev : McEvent := { cluster := clusterOf s.coreId, bank := 0, cls := 2, src := 7, core := bank, cause := 0, ad := 0, sy := 0, th }
  (s2.mcLog ev).trace 5 (bank * 2 ^ 32 + slot.val * 2 ^ 16) th

-- ## Taking an exception (R370)

/-- The value of cr.epc (R362). -/
def epcWord (pc : Word) (psup pie uhf mk : Bool) : Word :=
  BitVec.ofNat 64 (field pc 47 1 * 2 + psup.toNat * 2 ^ 48 + pie.toNat * 2 ^ 49 + uhf.toNat * 2 ^ 50 + mk.toNat * 2 ^ 51)

/-- Whether trap entry must still wait: a fixed-latency result is in flight, or a load of operations 27 to 34 (R370). -/
def Thread.draining (t : Thread) : Bool := !t.flight.isEmpty || t.owed.any (·.load)

/-- A trap or user-level entry, or a return, awaits the accesses of a mesh-window area: none of them overtakes a request of the
thread on its way to that bank (R85, R183). -/
def areaFenced (s : State) (slot : Fin 8) : Bool :=
  match classify s.slots[slot].psave with
  | .mesh core off => ownPending s slot (bankLoc (s.nowAt s.slots[slot].cid.val core) off)
  | _ => false

/-- Whether an entry must still wait (R183, R370). -/
def entryWaits (s : State) (slot : Fin 8) : Bool := s.slots[slot].draining || areaFenced s slot

/-- Whether a return must still wait: for the results and the run of the handler's own triggers, for a mesh-window area, and for the posted
atomics of the thread on the area's bytes (R147, R183, R377). -/
def returnWaits (s : State) (slot : Fin 8) : Bool :=
  let t := s.slots[slot]
  t.pending || !t.flight.isEmpty || t.seqr.run.any (fun r => r.area.isNone) || areaFenced s slot ||
  (match areaPlace s slot t.psave false with | .ok loc _ _ => amoPending s slot loc 1024 | _ => false)

/-- A pending user-level interrupt is the area's, or that of a copy which a handler issued: tied to no area, it always reaches
the thread (R110, R371). -/
def uintFor (area : Option Word) (u : Option Word × Word × Word) : Bool := u.1.isNone || u.1 == area

/-- The first pending user-level interrupt where an area is in use. -/
def Thread.uintOf (t : Thread) (area : Option Word) : Option (Word × Word) := (t.uints.find? (uintFor area)).map (·.2)

/-- Pending user-level interrupts stand in the order of their copies' issue (R110). -/
def insUint : List (Option Word × Word × Word) → Option Word × Word × Word → List (Option Word × Word × Word)
  | [], u => [u]
  | v :: r, u => if v.2.2.toNat ≤ u.2.2.toNat then v :: insUint r u else u :: v :: r

def dropUint (l : List (Option Word × Word × Word)) (area : Option Word) : List (Option Word × Word × Word) :=
  match l with
  | [] => []
  | u :: r => if uintFor area u then r else u :: dropUint r area

/-- Writes the slot's area and takes it out of use; a fault met by the writes kills the thread (R183, R370, R371). (DEDUCED, log 15.) -/
def saveArea (s : State) (slot : Fin 8) (u : Option (Word × Word)) : Trans :=
  let t := s.slots[slot]
  match areaPlace s slot t.psave true with
  | .ok loc attr s1 => .ok loc attr ((storeEntries s1 slot t.psave loc (areaImage t u)).onSlot slot (fun t =>
      { t with areaUse := none, areaOld := [], late := [], headLost := setLost t.headLost (some t.psave) (t.lostHead none) }))
  | r => r

/-- cr.cause as entry writes it: MORE of a refusal says whether another imprecise fault is pending then (R366). -/
def Thread.causeNow (t : Thread) (c : Word) : Word := if field c 7 0 = 9 ∧ t.faults ≠ [] then c ||| 0x100#64 else c

/-- The last steps of trap entry: the control registers, the level, and the next word at KVEC (R370). -/
def enterVector (s : State) (slot : Fin 8) (e : Entry) (uhf : Bool) : State :=
  s.onSlot slot (fun t =>
    let epc := epcWord e.epc t.sup t.ie uhf e.marker
    let t1 := (t.setCr crEpc epc).setCr crCause (t.causeNow e.cause)
    let t2 := t1.setStatus true false t.uie false
    { t2 with
      pc := BitVec.ofNat 64 (field t.cr[crKvec] 47 1 * 2)
      mode := .run, held := none, miss := none, sAfter := false, relMark := none
      seqr := { t.seqr with paused := t.seqr.paused + (if t.seqr.left = 0 ∨ uhf = true then 0 else 1) } })

/-- w20 to w23 exchanged with the shadow copies (R372). -/
def Thread.swapShadow (t : Thread) : Thread :=
  { t with
    shadow := #v[t.w[(20 : Fin 24)], t.w[(21 : Fin 24)], t.w[(22 : Fin 24)], t.w[(23 : Fin 24)]]
    w := (((t.w.set 20 t.shadow[(0 : Fin 4)]).set 21 t.shadow[(1 : Fin 4)]).set 22 t.shadow[(2 : Fin 4)]).set 23 t.shadow[(3 : Fin 4)] }

/-- TAKING AN EXCEPTION, the one operation for every cause: the fixed-latency results and loads drain; the ports go to
the area of cr.psave (or, inside a user-level handler, the handler ends and its completion returns to the area); cr.epc,
cr.cause and cr.status are written and the next word stands at KVEC (R370, R372). Out of such a handler a precise fault resumes at UEPC
(R372), and ctl.trap, which is no fault, after its own word (R218). (DEDUCED, log 94.) -/
def takeException (s : State) (slot : Fin 8) (e : Entry) : Out :=
  let t := s.slots[slot]
  if entryWaits s slot then .next (s.onSlot slot (fun t => { t with mode := .entering e, held := none }))
  else if t.uh then
    let back : Entry :=
      if field e.cause 7 0 = 0x13 then e
      else { e with epc := BitVec.ofNat 64 (field t.cr[crUepc] 47 1 * 2), marker := t.cr[crUepc].getLsbD 48 }
    match areaPlace s slot t.psave true with
    | .stop f => .fault f
    | .bad _ s1 => .next (killThread s1 slot)
    | .ok loc _ s0 =>
      let s1 := coreRead s0 (loc + 16 * 61) 16
      let u0 := natLE (areaRead s1 slot (loc + 16 * 61) 8)
      let u1 := natLE (areaRead s1 slot (loc + 16 * 61 + 8) 8)
      let s2 := match t.ucur with
        | some u =>
          (areaStore s1 slot (t.psave + 976#64) (loc + 16 * 61) (entry16 u.1.toNat u.2.toNat)).onSlot slot (fun t =>
            if u0 = 0 ∧ u1 = 0 then t else { t with uints := insUint t.uints (some t.psave, BitVec.ofNat 64 u0, BitVec.ofNat 64 u1) })
        | none => s1
      let s3 := s2.onSlot slot (fun t => { t.swapShadow with ucur := none })
      .next (enterVector s3 slot back true)
  else
    match saveArea s slot (t.uintOf t.areaUse) with
    | .stop f => .fault f
    | .bad _ s1 => .next (killThread s1 slot)
    | .ok _ _ s1 =>
      let s2 := s1.onSlot slot (fun t' => { t' with uints := dropUint t'.uints t.areaUse })
      .next (enterVector s2 slot e false)

/-- The owning thread takes 0x0B kind 1 for its track: its later triggers on it take kind 2 (R130). Another thread that reads a
result which the track's failure lost takes kind 1 for itself alone. (DEDUCED, log 30.) -/
def trackTold (s : State) (slot : Fin 8) (cause : Word) : State :=
  let n : Fin 32 := Fin.ofNat 32 (field cause 20 16)
  if field cause 7 0 = 0x0B ∧ field cause 15 12 = 1 ∧ s.core.tracks[n].owner = some (slot, BitVec.ofNat 6 s.slots[slot].cid.val) then
    s.onCore (fun c => { c with tracks := c.tracks.set n { c.tracks[n] with lost := false } })
  else s

/-- A precise fault of the slot's next word (R52, R368): a double fault at SUP = 1 with IE = 0 kills the thread (R370).
After syn.rel, cr.epc names the syn.rel word (R311). -/
def takePrecise (s0 : State) (slot : Fin 8) (cause : Word) : Out :=
  let s := trackTold s0 slot cause
  let t := s.slots[slot]
  if t.sup && !t.ie then .next (killThread s slot)
  else takeException s slot { cause, epc := if t.relMark.isSome then t.wordPc else t.pc, marker := false }

/-- Taking a user-level interrupt (R110, R372). -/
def takeUser (s : State) (slot : Fin 8) (next : Word) (marker : Bool) : Out :=
  let t := s.slots[slot]
  if entryWaits s slot then .next (s.onSlot slot (fun t => { t with mode := .userEntering, pc := next, sAfter := marker, held := none }))
  else
    match t.uintOf t.areaUse with
    | none => .next s
    | some u =>
      match saveArea s slot none with
      | .stop f => .fault f
      | .bad _ s1 => .next (killThread s1 slot)
      | .ok _ _ s1 =>
        .next (s1.onSlot slot (fun t' =>
          let t1 := t'.setCr crUepc (BitVec.ofNat 64 (field next 47 1 * 2 + marker.toNat * 2 ^ 48))
          let t2 := { t1.setStatus t.sup t.ie t.uie true with
            uints := dropUint t'.uints t.areaUse, ucur := some u, shadow := #v[u.1, u.2, 0#64, 0#64] }
          { t2.swapShadow with
            pc := BitVec.ofNat 64 (field t.cr[crUvec] 47 1 * 2)
            seqr := { t.seqr with paused := t.seqr.paused + (if t.seqr.left = 0 then 0 else 1) }
            mode := .run, sAfter := false, held := none, miss := none }))

/-- The events 2 to 6 that a boundary may take (R368). -/
inductive Event where
  | imprecise | system | expiry | message | user
  deriving DecidableEq, Repr

/-- The first event of R368, after the precise faults, that applies. Between syn.rel and its word none is taken (R311). (DEDUCED, log 14.) -/
def Thread.event? (t : Thread) : Option Event :=
  if t.uh || t.relMark.isSome then none
  else if !t.faults.isEmpty && (!t.sup || t.ie) then some .imprecise
  else if t.sysint.isSome && t.ie then some .system
  else if t.expiry.isSome && t.ie then some .expiry
  else if t.msgint.isSome && t.ie then some .message
  else if !t.sup && t.uie && decide (field t.cr[crUvec] 47 1 ≠ 0) && (t.uintOf t.areaUse).isSome then some .user
  else none

/-- Where the slot resumes, whether under a marker, and whether the word there issues again (R311, R341, R354, R368). -/
def Thread.resume (t : Thread) : Word × Bool × Bool :=
  match t.mode with
  | .marker => (t.pc, true, false)
  | .mwait => (t.pc, t.sAfter, false)
  | .fence _ | .acq _ | .dispatch | .taskEnd | .ereting => (t.wordPc, false, true)
  | _ => (t.pc, false, false)

/-- Takes the pending event of a slot at a boundary or in a park (R368). -/
def takeEvent (s : State) (slot : Fin 8) : Out :=
  let t := s.slots[slot]
  match t.event? with
  | none => .next s
  | some ev =>
    let (pc, mk, again) := t.resume
    let s1 := if t.mode = .mwait then
        (wakeSlot (s.onSlot slot (fun t => { t with sAfter := false })) slot 3).unmonitor slot
      else s
    let s2 := s1.onSlot slot (fun t => { t with reissue := if again then (t.areaUse, pc) :: t.reissue else t.reissue, sAfter := false })
    let go (cause : Word) (f : Thread → Thread) : Out := takeException (s2.onSlot slot f) slot { cause, epc := pc, marker := mk }
    match ev with
    | .imprecise =>
      match t.faults with
      | [] => .next s
      | f :: r => go f.2 (fun t => { t with faults := r })
    | .system => go (causeOf 0x22 (t.sysint.getD 0).toNat) (fun t => { t with sysint := none })
    | .expiry => go (causeOf 0x20 (t.expiry.getD false).toNat)
        (fun t => { t.setCr crQleft (BitVec.ofNat 64 (field t.cr[crQuant] 31 0)) with expiry := none })
    | .message => go (BitVec.ofNat 64 (0x21 + (t.msgint.getD 0).toNat * 2 ^ 16)) (fun t => { t with msgint := none })
    | .user => takeUser s2 slot pc mk

-- ## Returning from an exception (R377)

/-- The ports, marks, saved causes, owed marks and reservation record read back from an area's bytes (R182, R377). The results
that the area awaits stand in `owed`, tied to it; an owed mark read back as clear says that no park awaits its port's (log 12). Bits
[63:6] of fpu.f are reserved: what stands there in its entry does not reach the port (R257). -/
def Thread.loadArea (t : Thread) (b : List Byte) (floorLoc : Word → Nat) : Thread :=
  let at_ (e n : Nat) : Nat := natLE ((b.drop (16 * e)).take n)
  let t1 := OPort.saved.zipIdx.foldl (fun (t : Thread) p => t.setOp p.1 (BitVec.ofNat 128 (at_ p.2 16))) t
  let t2 := RPort.all.zipIdx.foldl (fun (t : Thread) p =>
    { t with rp := t.rp.set p.1.fin (if p.1.wide then BitVec.ofNat 128 (at_ (24 + p.2) 16)
        else quad (BitVec.ofNat 64 (if p.1 = .fpuF then at_ (24 + p.2) 8 % 64 else at_ (24 + p.2) 8))) }) t1
  let hi (e : Nat) : Nat := natLE ((b.drop (16 * e + 8)).take 8)
  let w56 (i : Nat) : BitVec 26 := BitVec.ofNat 26 (natLE ((b.drop (16 * 56 + 4 * i)).take 4))
  let resv := (List.range 4).filterMap (fun i =>
    let va : Word := BitVec.ofNat 64 (at_ (57 + i) 8)
    if at_ (57 + i) 16 = 0 then none
    else some ({ va, loc := floorLoc va, granted := decide (hi (57 + i) % 2 = 1) } : ResRec))
  { t2 with
    cause4 := #v[BitVec.ofNat 64 (at_ 50 8), BitVec.ofNat 64 (hi 50), BitVec.ofNat 64 (at_ 51 8), BitVec.ofNat 64 (hi 51)]
    fence := w56 0, poison := w56 1, np := w56 2, resv
    owed := t2.owed.map (fun o => if o.area = some t.psave then { o with marked := o.ports.any (fun p => (w56 3).getLsbD p.fin.val) } else o) }

/-- The place of a reserved word from its address: kept from the record, where the area gives it back. -/
def resvLoc (s : State) (slot : Fin 8) (va : Word) : Nat :=
  match translate s { s.slots[slot].walker with slots := [slot] } { user := false, fetch := false, write := false, sync := false } va with
  | .ok loc _ _ => loc
  | _ => 0

/-- Reads a slot's area back: the area becomes in use, and the floor gains what its reads return; a fault is a double fault
(R183, R297, R377). -/
def restoreArea (s : State) (slot : Fin 8) : Trans :=
  let t := s.slots[slot]
  match areaPlace s slot t.psave false with
  | .ok loc attr s0 =>
    let s1 := coreRead s0 loc 1024
    if (firstMark (ownMarks s1 slot s1.nextId (soundMarks s1.st (some (dieOf s1.coreId)))) loc 1024).isSome then .bad reservedPort s1
    else
      let b := areaRead s1 slot loc 1024
      let u0 := natLE ((b.drop (16 * 61)).take 8)
      let u1 := natLE ((b.drop (16 * 61 + 8)).take 8)
      .ok loc attr ((gains s1 slot s1.nextId loc (pointMoment s1.st loc 1024)).onSlot slot (fun t =>
        let t1 := t.loadArea b (resvLoc s1 slot)
        { t1 with
          areaUse := some t.psave, areaOld := [], late := []
          headLost := setLost t.headLost none (if b.all (· == 0#8) then none else t.lostHead (some t.psave))
          uints := if u0 = 0 ∧ u1 = 0 then t.uints else insUint t.uints (some t.psave, BitVec.ofNat 64 u0, BitVec.ofNat 64 u1) }))
  | r => r

/-- A return parks under R44 where MK or UMK is set (R377). -/
def Thread.afterReturn (t : Thread) (mk : Bool) : Thread := if mk then t.enterMarker else t.unpark

/-- sys.eret once the results of the handler's own triggers have been delivered: the user-level return with UH = 1, else
the supervisor's (R367, R377). (DEDUCED, log 24.) -/
def returnFromException (s : State) (slot : Fin 8) : Out :=
  let t := s.slots[slot]
  match restoreArea s slot with
  | .stop f => .fault f
  | .bad _ s1 => .next (killThread s1 slot)
  | .ok _ _ s1 =>
    if t.uh then
      .next (s1.onSlot slot (fun t1 =>
        let t2 := { t1.swapShadow.setStatus t.sup t.ie t.uie false with
          pc := BitVec.ofNat 64 (field t.cr[crUepc] 47 1 * 2), ucur := none
          seqr := { t1.seqr with paused := t1.seqr.paused - 1 } }
        (t2.setCr crUepc (t.cr[crUepc] &&& ~~~(1#64 <<< 48))).afterReturn (t.cr[crUepc].getLsbD 48)))
    else
      let e := t.cr[crEpc]
      .next (s1.onSlot slot (fun t1 =>
        let t2 := { t1.ringEret.setStatus (e.getLsbD 48) (e.getLsbD 49) t.uie false with
          pc := BitVec.ofNat 64 (field e 47 1 * 2)
          counted := t1.counted.filter (fun c => !c.refused)
          seqr := { t1.seqr with paused := t1.seqr.paused - 1 } }
        (t2.setCr crEpc (e &&& ~~~(1#64 <<< 51))).afterReturn (e.getLsbD 51)))

-- ## Deliveries (R42, R111, R371)

/-- Writes a late delivery into its area and clears the port's owed mark, unless another result tied to the area is still outstanding
for the port (R182, R371). (DEDUCED, log 15.) -/
def deliverToArea (s : State) (slot : Fin 8) (area : Word) (vs : List PortVal) : Out :=
  match areaPlace s slot area true with
  | .stop f => .fault f
  | .bad _ s1 => .next (killThread s1 slot)
  | .ok loc _ s0 =>
    let s1 := coreRead s0 (loc + 16 * 56) 16
    let store (s : State) (o : Nat) (d : List Byte) : State := areaStore s slot (area + BitVec.ofNat 64 o) (loc + o) d
    .next (vs.foldl (fun s v =>
      let i := v.port.fin.val
      let s2 := store s (16 * (24 + i)) (bytesLE 16 (if v.port.wide then v.val else quad (low64 v.val)).toNat)
      let word (k : Nat) : Nat := natLE (areaRead s2 slot (loc + 16 * 56 + 4 * k) 4)
      let clr (x : Nat) : Nat := if x.testBit i then x - 2 ^ i else x
      let awaited := s.slots[slot].owed.any (fun o => o.area == some area && o.ports.contains v.port)
      let set (x : Nat) : Nat := x ||| 2 ^ i
      let (p, n) := match v.mark with
        | some (true, _) => (clr (word 1), set (word 2))
        | some (false, _) => (set (word 1), clr (word 2))
        | none => (clr (word 1), clr (word 2))
      let s3 := store s2 (16 * 56) (bytesLE 4 (word 0) ++ bytesLE 4 p ++ bytesLE 4 n ++ bytesLE 4 (if awaited then word 3 else clr (word 3)))
      match v.port.mark? with
      | none => if v.port = .trkH then s3.onSlot slot (fun t => { t with headLost := setLost t.headLost (some area) (v.mark.map (·.2)) }) else s3
      | some k => store s3 (16 * 50 + 8 * k.val) (bytesLE 8 (match v.mark with | some m => m.2.toNat | none => 0))) s1)

/-- The delivery of a trigger's flags (R258): ORed into fpu.f, or, where the trigger sampled FC = 1, in place of what
earlier triggers left. A pending delivery with FC = 1 of an earlier trigger keeps these flags: they are a later trigger's. (DEDUCED, log 63.) -/
def Thread.orFlags (t : Thread) (tag : Nat) (f : BitVec 6) (clear : Bool) : Thread :=
  let old := if clear then 0#128 else t.rp[RPort.fpuF.fin]
  { t with
    rp := t.rp.set RPort.fpuF.fin (old ||| f.setWidth 128)
    flight := t.flight.map (fun g => match g.flags with
      | some (h, true) => if g.tag < tag then { g with flags := some (h ||| f, true) } else g
      | _ => g) }

/-- A completion of a copy with NOTE 1: pending in the thread while its area is in use, else at entry 61 of the area, where
that holds none yet (R110, R111). -/
def addUint (s : State) (slot : Fin 8) (tag : Nat) (area : Option Word) (status seq : Word) : Out :=
  let t := s.slots[slot]
  let keep : Out := .next (s.onSlot slot (fun t => { t with uints := insUint t.uints (area, status, seq) }))
  match area with
  | none => keep
  | some a =>
    if t.reaches tag area = true ∨ t.uints.any (fun u => u.1 == area) = true then keep
    else
      match areaPlace s slot a true with
      | .stop f => .fault f
      | .bad _ s1 => .next (killThread s1 slot)
      | .ok loc _ s0 =>
        let s1 := coreRead s0 (loc + 16 * 61) 16
        if natLE (areaRead s1 slot (loc + 16 * 61) 16) = 0 then .next (areaStore s1 slot (a + 976#64) (loc + 16 * 61) (entry16 status.toNat seq.toNat))
        else keep

-- ## Sending requests (R298, R364)

/-- The writes that a thread has issued as ste or ldt and that have not been served: they are in no floor yet (R297), and
in the Rel of a later release (R305). -/
def unserved (s : State) (slot : Fin 8) : List (Nat × Nat) :=
  (pendingReqs s slot ++ s.st.waiting.filter (fun r => r.slot == some slot)).flatMap (fun r =>
    match r.kind with
    | .ste _ | .ldt => (List.range 8).map (fun k => (r.loc + k, r.tag))
    | _ => [])

/-- Rel of what a slot's thread releases now: its floor and its writes issued before (R305, R308, R330). (DEDUCED, log 72.) -/
def relOf (s : State) (slot : Fin 8) : List (Nat × Nat) := floorAdd s.slots[slot].floor (unserved s slot)

/-- What a release write of the current slot carries when it issues (R305). -/
def State.release? (s : State) : Option Release :=
  s.thr.relMark.map (fun sc => { scope := sc, core := some s.home, src := s.src s.cur, rel := relOf s s.cur })

/-- The own-cluster window request of the current slot that departs at issue: no release that awaits its condition, and behind no write
of the thread to the same bank that is held: a release write that awaits its condition, through either window, or an own-cluster write behind
one (R136, R196, R298). -/
def departsAtIssue (s : State) (loc : Nat) (rel : Option Release) : Bool :=
  (rel.isNone || s.thr.counted.isEmpty) &&
  !(s.thr.psq ++ s.core.streams.toList.flatMap (·.out) ++ s.st.paths).any (fun r =>
    r.slot == some s.cur && (r.own || !s.thr.released r) && isBank r.loc && bankCore r.loc == bankCore loc)

/-- A request goes to a bank through the own-cluster window: it is performed 8 cycles later (R136). -/
def toBank (s : State) (r : Req) : State :=
  s.onSt (fun st => { st with bankq := st.bankq ++ [{ due := s.cycle + 8, mesh := false, bank := bankNo s.coreId, req := r }] })

/-- Sends a write of the current slot (a store, stf, ste, posted atomic or amo.scr) on its way: into the posted-store
queue, or straight to its bank (R298). `own` says that the address was in the own-cluster window. -/
def sendWrite (s : State) (o : Op) (own : Bool) (loc : Nat) (va : Word) (kind : ReqKind) (counted : Bool) (n : Nat) : State :=
  let t := s.thr
  let tag := s.nextId
  let rel := s.release?
  let r : Req := { slot := some s.cur, src := s.src s.cur, tag, counted, kind, loc, va, known := t.floor, rel, waits := if rel.isSome then s.waitAll else [], own }
  let t1 := if counted then (t.ringTake tag (some o) va).count tag (reachOf s va) else t
  let fl := match kind with | .ste _ => t1.floor | _ => floorAdd t1.floor ((List.range n).map (fun k => (loc + k, tag)))
  let t2 := { t1 with floor := fl }
  let s1 := s.bump
  if own && departsAtIssue s loc rel then toBank (s1.setThr t2) r else s1.setThr { t2 with psq := t2.psq ++ [r] }

/-- Sends a read of the current slot that its ordering point answers: ldf, ldt, amo.lrw and mesh-window loads (R142, R297).
An own-cluster ldt, which is a write once served, waits behind the thread's held writes to its bank (R85, R136, R298); an
own-cluster amo.lrw is a read, and departs at issue (R96, R136). -/
def sendRead (s : State) (own : Bool) (loc : Nat) (va : Word) (kind : ReqKind) : State :=
  let t := s.thr
  let r : Req := { slot := some s.cur, src := s.src s.cur, tag := s.nextId, counted := false, kind, loc, va, known := t.floor, rel := none, waits := [], own }
  let ordered : Bool := match kind with | .ldt => true | _ => false
  let s1 := s.bump
  if own && (!ordered || departsAtIssue s loc none) then toBank s1 r
  else s1.onSt (fun st => { st with paths := st.paths ++ [r] })

/-- A request with no place in memory (a message, an arrival, a give): it waits in the posted-store queue for its
release condition (R298, R308, R324). -/
def sendOther (s : State) (o : Op) (target : Word) (kind : ReqKind) (counted : Bool) (reach : Reach) (rel : Option Release) (waits : List Nat) : State :=
  let t := s.thr
  let tag := s.nextId
  let r : Req := { slot := some s.cur, src := s.src s.cur, tag, counted, kind, loc := 0, va := 0, known := t.floor, rel, waits }
  let t1 := if counted then (t.ringTake tag (some o) target).count tag reach else t
  s.bump.setThr { t1 with psq := t1.psq ++ [r] }

end Sys2Proof.Machine
end

