-- ==== Sys2Proof/Machine/Flags.lean ====
section
/-! DEFINITION. Predicates and guards (R29, R31, R35, R37), and the flags of fpu.f (R257). -/

namespace Sys2Proof.Machine

/-- Predicate n; p0 reads true (R180). -/
def Thread.pred (t : Thread) (n : Fin 16) : Bool := n.val == 0 || t.p.getLsbD n.val

/-- A write of a predicate; p0 ignores it (R31). -/
def Thread.setPred (t : Thread) (n : Fin 16) (b : Bool) : Thread :=
  if n.val = 0 then t
  else { t with p := (t.p &&& ~~~(1#16 <<< n.val)) ||| ((if b then 1#16 else 0#16) <<< n.val) }

/-- pw: the sixteen predicates, p0 as 1 (R35). -/
def Thread.pw (t : Thread) : Word := (t.p ||| 1#16).setWidth 64

/-- The guard's condition, from the predicate's value before the word (R29, R37). -/
def guardHolds (g : Guard) (t : Thread) : Bool :=
  match g with
  | .always => true
  | .ifTrue n => t.pred n
  | .ifFalse n => !t.pred n

-- Flags of fpu.f (R257).
def flagNV : BitVec 6 := 1#6
def flagDZ : BitVec 6 := 2#6
def flagOF : BitVec 6 := 4#6
def flagUF : BitVec 6 := 8#6
def flagNX : BitVec 6 := 16#6
def flagCL : BitVec 6 := 32#6

end Sys2Proof.Machine
end

