-- ==== Sys2Proof/Machine/Operands.lean ====
section
/-! DEFINITION. Operand forms: what a source delivers (R35), what a write of a destination does (R31), with the faults of step 6 and 7 of R51, the holds of R39, and streams on both sides (R190 to R196). -/

namespace Sys2Proof.Machine

-- ## Streams (R190 to R198)

/-- cr.cause for 0x0D (R198). -/
def streamCause (n : Fin 8) (kind : Nat) (va : Word) : Word := causeVa 0x0D kind n.val va

/-- The number of elements of a pattern (R192). -/
def patternSize (ct : Vector Nat 4) : Nat := ct[(0 : Fin 4)] * ct[(1 : Fin 4)] * ct[(2 : Fin 4)] * ct[(3 : Fin 4)]

/-- The address of element k, i0 varying fastest (R192). -/
def patternAddr (base : Word) (ct : Vector Nat 4) (st : Vector Int 4) (k : Nat) : Word :=
  let i0 := k % ct[(0 : Fin 4)]
  let k1 := k / ct[(0 : Fin 4)]
  let i1 := k1 % ct[(1 : Fin 4)]
  let k2 := k1 / ct[(1 : Fin 4)]
  let i2 := k2 % ct[(2 : Fin 4)]
  let i3 := k2 / ct[(2 : Fin 4)]
  base + BitVec.ofInt 64 (i0 * st[(0 : Fin 4)] + i1 * st[(1 : Fin 4)] + i2 * st[(2 : Fin 4)] + i3 * st[(3 : Fin 4)])

/-- A run or count of the thread has still to read its operands: own-cluster writes are held (R288). -/
def mxReading (s : State) : Bool :=
  s.core.mx.queue.zipIdx.any (fun c => c.1.slot == s.cur && (c.1.op == .mxRun || c.1.op == .mxCnt) && !(c.2 == 0 && s.core.mx.hand.isSome))

/-- The translation of a pushed element, made when the word that pushes it issues (R196). -/
def elementTrans (s : State) (va : Word) : Trans :=
  translate s s.thr.walker { user := !s.thr.sup, fetch := false, write := true, sync := false } va

/-- The precise fault of a pop by the current slot (R190, R194, R195): not its stream, exhausted or blocked on itself, or
a marked entry at the head. -/
def popFault (s : State) (n : Fin 8) : Option Word :=
  let st := s.core.streams[n]
  match st.bind with
  | none => some (streamCause n 1 0)
  | some (.queue p c) =>
    if c ≠ s.cur then some (streamCause n 1 0)
    else if p = c ∧ st.q = [] then some (streamCause n 4 0)
    else (st.q.head?).bind (·.fault)
  | some (.pattern o _ store _ _ counts _ _ popped _) =>
    if o ≠ s.cur ∨ store = true then some (streamCause n 1 0)
    else if popped = patternSize counts then some (streamCause n 4 0)
    else (st.q.head?).bind (·.fault)

/-- A pop is held while the stream is empty (R39). -/
def popHeld (s : State) (n : Fin 8) : Bool := s.core.streams[n].q.isEmpty

def popStream (s : State) (n : Fin 8) : Quad × State :=
  let st := s.core.streams[n]
  match st.q with
  | [] => (0, s)
  | e :: r =>
    let b := match st.bind with
      | some (.pattern o user store wide base c d next popped ctx) => some (.pattern o user store wide base c d next (popped + 1) ctx)
      | b => b
    (e.val, s.onCore (fun k => { k with streams := k.streams.set n { st with q := r, bind := b } }))

/-- The precise fault of a push by the current slot (R190, R194, R196); `freed` says that the word pops the same stream. -/
def pushFault (s : State) (n : Fin 8) (freed : Bool) : Option Word :=
  let st := s.core.streams[n]
  match st.bind with
  | none => some (streamCause n 1 0)
  | some (.queue p c) =>
    if p ≠ s.cur then some (streamCause n 1 0)
    else if p = c ∧ 8 + freed.toNat ≤ st.q.length then some (streamCause n 4 0)
    else none
  | some (.pattern o _ store _ base counts strides next _ _) =>
    if o ≠ s.cur ∨ store = false then some (streamCause n 1 0)
    else if next = patternSize counts then some (streamCause n 4 0)
    else
      let va := patternAddr base counts strides next
      match elementTrans s va with
      | .bad c _ => some (if field c 7 0 = 8 then streamCause n 3 va else if field c 7 0 = 7 then streamCause n 2 va else c)
      | _ => none

/-- The translation that a push misses (R67). -/
def pushMiss (s : State) (n : Fin 8) : Option Nat :=
  match s.core.streams[n].bind with
  | some (.pattern o _ true _ base counts strides next _ _) =>
    if o = s.cur ∧ next < patternSize counts then dataWalk s s.thr.walker (patternAddr base counts strides next) else none
  | _ => none

/-- A push is held while the stream is full; an element of a store pattern also needs a ring entry, and in the own-cluster
window that the matrix commands of its thread have read (R39, R196, R288, R364). -/
def pushHeld (s : State) (n : Fin 8) (freed : Bool) : Bool :=
  let st := s.core.streams[n]
  match st.bind with
  | some (.pattern _ _ _ _ base counts strides next _ _) =>
    decide (8 ≤ st.out.length) || s.thr.ringFull || (isOwn (patternAddr base counts strides next) && mxReading s)
  | _ => decide (8 + freed.toNat ≤ st.q.length)

/-- Pushes one entry: into a queue, or as the next element of a store pattern, translated here and a store of its thread,
counted in cr.rsv, from now on (R152, R196). -/
def pushStream (s : State) (n : Fin 8) (v : Quad) : State :=
  let st := s.core.streams[n]
  match st.bind with
  | some (.pattern o user store wide base counts strides next popped ctx) =>
    let va := patternAddr base counts strides next
    match elementTrans s va with
    | .ok loc _ s1 =>
      let t := s1.thr
      let tag := s1.nextId
      let data := bytesLE (if wide then 16 else 8) v.toNat
      let r : Req := { slot := some s1.cur, src := s1.src s1.cur, tag, counted := true, kind := .store data false, loc, va, known := t.floor, rel := none, waits := [], own := isOwn va }
      let t1 := (t.ringTake tag none va).count tag (reachOf s1 va)
      let s2 := (l1Drop s1 loc).bump.setThr { t1 with floor := floorAdd t1.floor ((List.range data.length).map (fun k => (loc + k, tag))) }
      let b := some (.pattern o user store wide base counts strides (next + 1) popped ctx)
      if isOwn va && st.out.isEmpty && departsAtIssue s1 loc none then
        toBank (s2.onCore (fun k => { k with streams := k.streams.set n { st with bind := b } })) r
      else s2.onCore (fun k => { k with streams := k.streams.set n { st with bind := b, out := st.out ++ [r] } })
    | _ => s
  | _ => s.onCore (fun k => { k with streams := k.streams.set n { st with q := st.q ++ [{ val := v, fault := none }] } })

/-- A held stream use counts as MSG on a queue between slots and as MEM on a pattern (R390). -/
def streamTurn (s : State) (n : Fin 8) : Turn :=
  match s.core.streams[n].bind with
  | some (.pattern _ _ _ _ _ _ _ _ _ _) => .mem
  | _ => .msg

-- ## Sources (R35)

/-- The stream that a source pops. -/
def popOf : Source → Option (Fin 8)
  | .str i => some i
  | _ => none

/-- The cause that a lost or uncorrectable track value raises, with the track's head as the reading word issues (R131). -/
def trackNow (s : State) (c : Word) : Word :=
  if field c 7 0 = 0x0B ∨ (field c 7 0 = 0x11 ∧ field c 15 12 = 4) then
    let n : Fin 32 := Fin.ofNat 32 (field c 20 16)
    trackCause (field c 7 0) (field c 15 12) n s.core.tracks[n].h
  else c

/-- The precise fault of reading a source: a fence bit, then a mark (step 6 of R51), then the stream fault (step 7). -/
def sourceFault (s : State) (x : Source) : Option Word :=
  match x with
  | .port r =>
    let t := s.thr
    if t.fenced r then some (causeOf 4 (64 + r.fin.val))
    else
      match r.mark? with
      | some k => if (t.poison ||| t.np).getLsbD r.fin.val then some (trackNow s t.cause4[k]) else none
      | none => if r = .trkH then (t.lostHead none).map (trackNow s) else none
  | .str i => popFault s i
  | _ => none

/-- The value that a source delivers, 64-bit values zero-extended (R35, R38), and the state after a pop. -/
def readSource (s : State) (x : Source) : Quad × State :=
  let t := s.thr
  match x with
  | .w i => (quad t.w[i], s)
  | .q i => (t.q[i], s)
  | .str i => popStream s i
  | .pw => (quad t.pw, s)
  | .x i => (quad t.x[i], s)
  | .lk => (quad t.lk, s)
  | .pc => (quad t.pc, s)
  | .port r => (t.rpq r, s)
  | .imm5 v => (quad (BitVec.ofInt 64 (v.toNat - 16)), s)
  | .imm8 v => (quad (BitVec.ofInt 64 (v.toNat - 128)), s)
  | .imm15 v => (quad (v.signExtend 64), s)

-- ## Destinations (R31)

def pushOf : Dest → Option (Fin 8)
  | .str i => some i
  | _ => none

def destFault (s : State) (d : Dest) (x : Source) : Option Word :=
  match d with
  | .str i => pushFault s i (popOf x == some i)
  | _ => none

def destMiss (s : State) (d : Dest) : Option Nat :=
  match d with
  | .str i => pushMiss s i
  | _ => none

def destHeld (s : State) (d : Dest) (x : Source) : Bool :=
  match d with
  | .str i => pushHeld s i (popOf x == some i)
  | _ => false

/-- What a write of a destination does, the value converted to its width (R31, R38). -/
def writeDest (s : State) (d : Dest) (v : Quad) : State :=
  match d with
  | .w i => s.onThr (fun t => { t with w := t.w.set i (low64 v) })
  | .q i => s.onThr (fun t => { t with q := t.q.set i v })
  | .str i => pushStream s i v
  | .p i => s.onThr (fun t => t.setPred i (low64 v != 0#64))
  | .x i => s.onThr (fun t => { t with x := t.x.set i (low64 v) })
  | .xsh i => s.onThr (fun t => { t with x := t.x.set i ((t.x[i] <<< 15) ||| ((v.setWidth 15).setWidth 64)) })
  | .port r => s.onThr (fun t => t.setOp r v)

-- ## The vector sequencer's claims on a word (R250, R253)

/-- Sources and destinations that a word may not use while a run of the slot is active (R253). -/
def sourceInRun : Source → Bool
  | .q _ | .str _ | .port .vecO | .port .fpuF => true
  | _ => false
def destInRun : Dest → Bool
  | .q _ | .str _ | .port .vecB | .port .vecC | .port .vecTy => true
  | _ => false

/-- A captured transport's source and destination (R250). -/
def capSource : Source → Option CapSrc
  | .q i => some (.q i)
  | .str i => some (.str i)
  | .port .vecO => some .vecO
  | .imm5 v => some (.imm (BitVec.ofInt 64 (v.toNat - 16)))
  | .imm8 v => some (.imm (BitVec.ofInt 64 (v.toNat - 128)))
  | .imm15 v => some (.imm (v.signExtend 64))
  | _ => none
def capDest : Dest → Option CapDest
  | .q i => some (.q i)
  | .str i => some (.str i)
  | .port .vecB => some .vecB
  | .port .vecC => some .vecC
  | .port .vecTy => some .vecTy
  | _ => none

/-- Operations 64 to 85, which a capture admits and which take a 128-bit operand (R38, R250). -/
def Op.inCapture (o : Op) : Bool := decide (64 ≤ o.code) && decide (o.code ≤ 85)

end Sys2Proof.Machine
end

