-- ==== Sys2Proof/Machine/Issue.lean ====
section
/-! DEFINITION. One word's issue: the checks of R51 in their order, the guard and the effect (R37), holds (R39), capture (R250), what a word leaves behind (quantum R342, switch marker R44), and the events of a boundary (R368). -/

namespace Sys2Proof.Machine

/-- What a word comes to: it takes effect, it transfers, it marks the next word (syn.rel), it raises a trap after its
effect (ctl.trap), it takes a precise fault, it is held, it waits for a walk, or the machine stops. -/
inductive Verdict where
  | done (s : State)
  | jump (s : State) (pc : Word)
  | marked (s : State)
  | raise (s : State) (cause : Word)
  | trap (s : State) (cause : Word)
  | hold (pop push : Option (Fin 8)) (why : Turn)
  /-- it waits for the walk of a translation (R67) -/
  | walk (va : Nat)
  | stop (f : Fault)

/-- What an operation brings to the shared issue: its level (R48), its feature bit (R49), its claim on the vector state
(R253), its stream destination (R194) with the translation of its push (R196), what a capture keeps of it (R250), its own
faults and effect, and the operation whose result or latches are checked (R381). -/
structure Plan where
  sup : State → Bool := fun _ => false
  feat : State → Quad → Option Nat := fun _ _ => none
  inRun : Thread → Bool := fun _ => false
  fault7 : State → Option Word := fun _ => none
  held7 : State → Bool := fun _ => false
  push : Option (Fin 8) := none
  miss : State → Option Nat := fun _ => none
  cap : Option CapDest := none
  check : Option Op := none
  run : State → Quad → Verdict

/-- The value that a source shows without popping or faulting, for the check of step 5. -/
def peekSource (s : State) (x : Source) : Quad := (readSource s x).1

/-- A word that a capture takes: it must be unguarded, without S, of the forms of R250. -/
def capture (s : State) (sw : Bool) (g : Guard) (x : Source) (p : Plan) : Verdict :=
  let t := s.thr
  match g, sw, capSource x, p.cap with
  | .always, false, some src, some dst =>
    .done (s.setThr { t with seqr := { t.seqr with left := t.seqr.left - 1, buf := t.seqr.buf ++ [{ src, dst }] } })
  | _, _, _, _ => .trap (s.setThr { t with seqr := { t.seqr with left := 0, buf := [] } }) reservedPort

/-- A word that its operation's fault stops has popped nothing (R52). -/
def unpop (s : State) : Verdict → Verdict
  | .trap s1 c => .trap (s1.onCore (fun k => { k with streams := s.core.streams })) c
  | v => v

/-- The plan of an operation whose results the winnower checks, or whose latches carry parity (R201, R241, R261, R381). -/
def Plan.covered (p : Plan) (o : Op) : Plan := { p with check := some o }

/-- Operations of the engines, whose retried latches are bank 2's event (R382). -/
def onEngine (o : Op) : Bool :=
  [.cpyGo, .ndWant, .ndGive, .ndDrop, .ndCard, .mxRun, .mxCnt, .mxDrn, .mxMrg, .mxSt, .mxWait].contains o

/-- The event of a failed check (R382): at a word, the second failure is 0x02 whatever the operation. (DEDUCED, log 86.) -/
def checkEvent (s : State) (cls src : Nat) (o : Op) : McEvent :=
  { cluster := clusterOf s.coreId, bank := if cls = 1 && onEngine o then 2 else 0, cls, src := if cls = 1 && onEngine o then 0x23 else src, core := bankNo s.coreId, cause := if cls = 2 then 0x12 else 0, ad := 0
    sy := if cls = 2 then BitVec.ofNat 64 o.code else Config.syndrome s.freeCtr, th := if cls = 2 then s.thr.mcth s.cur else 0 }

/-- The check of a result before its commit: after a first mismatch the operation is executed again, and a second raises
0x12 at the word (R201, R381). -/
def winnow (s : State) (check : Option Op) (v : Verdict) : Verdict :=
  match check, v with
  | some o, .done s1 =>
    if s.core.flaw = 0 then .done s1
    else if s.core.flaw = 1 then .done ((s1.onCore (fun c => { c with flaw := 0 })).mcLog (checkEvent s 1 1 o))
    else .trap ((s.onCore (fun c => { c with flaw := 0 })).mcLog (checkEvent s 2 2 o)) (causeOf 0x12)
  | _, v => v

/-- Steps 3 to 8 of R51 and the effect. While a capture is open its conditions come before them: a word that fails one raises reserved port
whatever its guard, level or fence bits (R250). (DESIGN CHOICE, log 98.) An fpu trigger's absent feature comes at R51's step 5, also where R260 names
it after step 7. (DEDUCED, log 114.) -/
def verdict (sw : Bool) (g : Guard) (x : Source) (p : Plan) (s : State) : Verdict :=
  let t := s.thr
  if t.seqr.left ≠ 0 ∧ t.seqr.paused = 0 then capture s sw g x p
  else if !guardHolds g t then .done s
  else if p.sup s && !t.sup then .trap s (causeOf 3)
  else
    match p.feat s (peekSource s x) with
    | some b => if featOn s (dieOf s.coreId) b then body t else .trap s (causeOf 5 b)
    | none => body t
where
  body (t : Thread) : Verdict :=
    if t.seqr.run.isSome && (sourceInRun x || p.inRun t) then .hold none none .vac
    else
      match sourceFault s x with
      | some c => .trap s c
      | none =>
        match p.miss s with
        | some va => .walk va
        | none =>
          match p.fault7 s with
          | some c => .trap s c
          | none =>
            if (popOf x).any (popHeld s) then .hold (popOf x) p.push ((popOf x).elim .vac (streamTurn s))
            else if p.held7 s then .hold (popOf x) p.push (p.push.elim .vac (streamTurn s))
            else unpop s (winnow s p.check (p.run (readSource s x).2 (readSource s x).1))

/-- Counts a word in its quantum: at user level outside a user-level handler (R372), unless it issues again in the area in use at its issue (R342); expiry
becomes pending where LEFT reaches 0 (R343). -/
def Thread.countWord (t : Thread) (area : Option Word) (pc : Word) (sup uh : Bool) : Thread :=
  let q := field t.cr[crQuant] 31 0
  let l := field t.cr[crQleft] 31 0
  if sup then t
  else if t.reissue.contains (area, pc) then { t with reissue := t.reissue.filter (fun r => r.1 != area) }
  else
    let t1 := { t with reissue := t.reissue.filter (fun r => r.1 != area) }
    if uh ∨ q = 0 ∨ l = 0 then t1
    else
      let t2 := t1.setCr crQleft (BitVec.ofNat 64 (l - 1))
      if l = 1 then { t2 with expiry := some (t1.expiry.getD false) } else t2

/-- SKIP of cr.wp clears after a word at user level (R388). -/
def Thread.clearSkip (t : Thread) (sup : Bool) : Thread :=
  if sup then t else t.setCr crWp (t.cr[crWp] &&& ~~~(8#64))

/-- What every issued word leaves behind: its count, the pc, the mark of a syn.rel before it, and R44 where S = 1, at once
or when the word's own park ends; the park of an interrupted marker, to which a sys.eret with MK or UMK returns, is R44 already (R377). -/
def finish (s0 s : State) (next : Word) (sw keep : Bool) : State :=
  let t0 := s0.thr
  let t := s.thr
  if t.mode = .killed then { s with turn := .iss } else
  let t1 := (t.countWord t0.areaUse t0.pc t0.sup t0.uh).clearSkip t0.sup
  let t2 := { t1 with pc := next, wordPc := t0.pc, held := none, miss := none, relMark := if keep then t1.relMark else none }
  let t3 := if t2.mode = .run then (if sw then t2.enterMarker else t2) else if t2.mode = .marker then t2 else { t2 with sAfter := sw }
  { s.setThr t3 with turn := .iss }

/-- One word's issue in the current slot (R37, R51, R368): its precise fault comes first, then the pending events of the
boundary, then its hold or its effect. (DEDUCED, log 14.) -/
def issue (len : Nat) (sw : Bool) (g : Guard) (x : Source) (p : Plan) (s : State) : Out :=
  let t := s.thr
  let next : Word := t.pc + BitVec.ofNat 64 len
  if t.mode ≠ .run then .next s
  else
    match verdict sw g x p s with
    | .trap s1 c => takePrecise s1 s.cur c
    | .stop f => .fault f
    | .walk va =>
      if t.event?.isSome then takeEvent s s.cur
      else .next { s.setThr { t with miss := some { va, result := none } } with turn := .mem }
    | .hold a b why =>
      if t.event?.isSome then takeEvent s s.cur
      else .next { s.setThr { t with held := some { pop := a, push := b, why } } with turn := why }
    | .done s1 => if t.event?.isSome then takeEvent s s.cur else .next (finish s s1 next sw false)
    | .jump s1 pc => if t.event?.isSome then takeEvent s s.cur else .next (finish s s1 pc sw false)
    | .marked s1 => if t.event?.isSome then takeEvent s s.cur else .next (finish s s1 next sw true)
    | .raise s1 c =>
      if t.event?.isSome then takeEvent s s.cur
      else takeException (finish s s1 next false false) s.cur { cause := c, epc := next, marker := false }

/-- The two lengths of a word (R24). -/
def issueShort (sw : Bool) (c : Source) (p : Plan) (s : State) : Out := issue 2 sw .always c p s
def issueLong (sw : Bool) (g : Guard) (x : Source) (p : Plan) (s : State) : Out := issue 4 sw g x p s

/-- A transport to a destination (R31). -/
def transportPlan (d : Dest) (x : Source) : Plan where
  inRun := fun _ => destInRun d
  fault7 := fun s => destFault s d x
  held7 := fun s => destHeld s d x
  push := pushOf d
  miss := fun s => destMiss s d
  cap := capDest d
  run := fun s v => .done (writeDest s d v)

/-- A fixed-latency result to 64-bit or 128-bit ports: held under R41 where an earlier result would fall later. -/
def sendFixed (s : State) (lat : Nat) (ports : List (RPort × Quad)) : Verdict :=
  let t := s.thr
  if t.orderHold lat (ports.map (·.1)) then .hold none none .vac
  else
    let vs : List PortVal := ports.map (fun p => { port := p.1, val := p.2, mark := none })
    .done (s.bump.setThr (t.send s.nextId lat (ports.map (·.1)) (some vs) none))

/-- An operation whose result depends on its operands alone: `f` gives a precise fault or the ports' values. -/
def valuePlan (lat : Nat) (f : Thread → Quad → Word ⊕ List (RPort × Quad)) : Plan where
  run := fun s v =>
    match f s.thr v with
    | .inl c => .trap s c
    | .inr ps => sendFixed s lat ps

-- The transports' meanings (R28, R29).

def execTransportShort (s : Bool) (d : Dest) (c : Source) (st : State) : Out := issueShort s c (transportPlan d c) st
def execTransportLong (s : Bool) (g : Guard) (d : Dest) (x : Source) (st : State) : Out := issueLong s g x (transportPlan d x) st

end Sys2Proof.Machine
end

