-- ==== Sys2Proof/Machine/Alu.lean ====
section
/-! DEFINITION. alu, mul, idx, prd and ctl: operations 0 to 26 and 44 to 55 (R200 to R218). -/

namespace Sys2Proof.Machine

-- ## Integer operations (R202)

def b2w (b : Bool) : Word := if b then 1#64 else 0#64

/-- Shifts take the whole unsigned amount: 64 and more give 0, or the sign throughout (R202). -/
def shl64 (a b : Word) : Word := if 64 ≤ b.toNat then 0#64 else a <<< b.toNat
def shr64 (a b : Word) : Word := if 64 ≤ b.toNat then 0#64 else a >>> b.toNat
def sra64 (a b : Word) : Word := a.sshiftRight (min b.toNat 64)

/-- The number of leading zero bits of the low `n` bits. -/
def clzFrom (v : Nat) : Nat → Nat
  | 0 => 0
  | n + 1 => if v.testBit n then 0 else 1 + clzFrom v n
def popFrom (v : Nat) : Nat → Nat
  | 0 => 0
  | n + 1 => (if v.testBit n then 1 else 0) + popFrom v n

/-- An alu operation: alu.o after one rotation, from the trigger value and alu.b. -/
def aluPlan (f : Word → Word → Word) : Plan := valuePlan 1 (fun t v => .inr [(.aluO, quad (f (low64 v) (t.opw .aluB)))])

def aluAddPlan : Plan := aluPlan (fun a b => a + b)
def aluSubPlan : Plan := aluPlan (fun a b => a - b)
def aluAndPlan : Plan := aluPlan (fun a b => a &&& b)
def aluOrPlan : Plan := aluPlan (fun a b => a ||| b)
def aluXorPlan : Plan := aluPlan (fun a b => a ^^^ b)
def aluShlPlan : Plan := aluPlan (shl64)
def aluShrPlan : Plan := aluPlan (shr64)
def aluSraPlan : Plan := aluPlan (sra64)
def aluSltPlan : Plan := aluPlan (fun a b => b2w (a.slt b))
def aluSltuPlan : Plan := aluPlan (fun a b => b2w (a.ult b))
def aluSeqPlan : Plan := aluPlan (fun a b => b2w (a == b))
def aluMinPlan : Plan := aluPlan (fun a b => if b.slt a then b else a)
def aluMaxPlan : Plan := aluPlan (fun a b => if a.slt b then b else a)
def aluMinuPlan : Plan := aluPlan (fun a b => if b.ult a then b else a)
def aluMaxuPlan : Plan := aluPlan (fun a b => if a.ult b then b else a)
def aluSxbPlan : Plan := aluPlan (fun a _ => (a.setWidth 8).signExtend 64)
def aluSxhPlan : Plan := aluPlan (fun a _ => (a.setWidth 16).signExtend 64)
def aluClzPlan : Plan := aluPlan (fun a _ => BitVec.ofNat 64 (clzFrom a.toNat 64))
def aluPopcPlan : Plan := aluPlan (fun a _ => BitVec.ofNat 64 (popFrom a.toNat 64))

def execAluAddShort (sw : Bool) (c : Source) (s : State) : Out := issueShort sw c (aluAddPlan.covered .aluAdd) s
def execAluAddLong (sw : Bool) (g : Guard) (x : Source) (s : State) : Out := issueLong sw g x (aluAddPlan.covered .aluAdd) s
def execAluSubShort (sw : Bool) (c : Source) (s : State) : Out := issueShort sw c (aluSubPlan.covered .aluSub) s
def execAluSubLong (sw : Bool) (g : Guard) (x : Source) (s : State) : Out := issueLong sw g x (aluSubPlan.covered .aluSub) s
def execAluAndShort (sw : Bool) (c : Source) (s : State) : Out := issueShort sw c (aluAndPlan.covered .aluAnd) s
def execAluAndLong (sw : Bool) (g : Guard) (x : Source) (s : State) : Out := issueLong sw g x (aluAndPlan.covered .aluAnd) s
def execAluOrShort (sw : Bool) (c : Source) (s : State) : Out := issueShort sw c (aluOrPlan.covered .aluOr) s
def execAluOrLong (sw : Bool) (g : Guard) (x : Source) (s : State) : Out := issueLong sw g x (aluOrPlan.covered .aluOr) s
def execAluXorShort (sw : Bool) (c : Source) (s : State) : Out := issueShort sw c (aluXorPlan.covered .aluXor) s
def execAluXorLong (sw : Bool) (g : Guard) (x : Source) (s : State) : Out := issueLong sw g x (aluXorPlan.covered .aluXor) s
def execAluShlShort (sw : Bool) (c : Source) (s : State) : Out := issueShort sw c (aluShlPlan.covered .aluShl) s
def execAluShlLong (sw : Bool) (g : Guard) (x : Source) (s : State) : Out := issueLong sw g x (aluShlPlan.covered .aluShl) s
def execAluShrShort (sw : Bool) (c : Source) (s : State) : Out := issueShort sw c (aluShrPlan.covered .aluShr) s
def execAluShrLong (sw : Bool) (g : Guard) (x : Source) (s : State) : Out := issueLong sw g x (aluShrPlan.covered .aluShr) s
def execAluSraShort (sw : Bool) (c : Source) (s : State) : Out := issueShort sw c (aluSraPlan.covered .aluSra) s
def execAluSraLong (sw : Bool) (g : Guard) (x : Source) (s : State) : Out := issueLong sw g x (aluSraPlan.covered .aluSra) s
def execAluSltShort (sw : Bool) (c : Source) (s : State) : Out := issueShort sw c (aluSltPlan.covered .aluSlt) s
def execAluSltLong (sw : Bool) (g : Guard) (x : Source) (s : State) : Out := issueLong sw g x (aluSltPlan.covered .aluSlt) s
def execAluSltuShort (sw : Bool) (c : Source) (s : State) : Out := issueShort sw c (aluSltuPlan.covered .aluSltu) s
def execAluSltuLong (sw : Bool) (g : Guard) (x : Source) (s : State) : Out := issueLong sw g x (aluSltuPlan.covered .aluSltu) s
def execAluSeqShort (sw : Bool) (c : Source) (s : State) : Out := issueShort sw c (aluSeqPlan.covered .aluSeq) s
def execAluSeqLong (sw : Bool) (g : Guard) (x : Source) (s : State) : Out := issueLong sw g x (aluSeqPlan.covered .aluSeq) s
def execAluMinShort (sw : Bool) (c : Source) (s : State) : Out := issueShort sw c (aluMinPlan.covered .aluMin) s
def execAluMinLong (sw : Bool) (g : Guard) (x : Source) (s : State) : Out := issueLong sw g x (aluMinPlan.covered .aluMin) s
def execAluMaxShort (sw : Bool) (c : Source) (s : State) : Out := issueShort sw c (aluMaxPlan.covered .aluMax) s
def execAluMaxLong (sw : Bool) (g : Guard) (x : Source) (s : State) : Out := issueLong sw g x (aluMaxPlan.covered .aluMax) s
def execAluMinuShort (sw : Bool) (c : Source) (s : State) : Out := issueShort sw c (aluMinuPlan.covered .aluMinu) s
def execAluMinuLong (sw : Bool) (g : Guard) (x : Source) (s : State) : Out := issueLong sw g x (aluMinuPlan.covered .aluMinu) s
def execAluMaxuShort (sw : Bool) (c : Source) (s : State) : Out := issueShort sw c (aluMaxuPlan.covered .aluMaxu) s
def execAluMaxuLong (sw : Bool) (g : Guard) (x : Source) (s : State) : Out := issueLong sw g x (aluMaxuPlan.covered .aluMaxu) s
def execAluSxbShort (sw : Bool) (c : Source) (s : State) : Out := issueShort sw c (aluSxbPlan.covered .aluSxb) s
def execAluSxbLong (sw : Bool) (g : Guard) (x : Source) (s : State) : Out := issueLong sw g x (aluSxbPlan.covered .aluSxb) s
def execAluSxhShort (sw : Bool) (c : Source) (s : State) : Out := issueShort sw c (aluSxhPlan.covered .aluSxh) s
def execAluSxhLong (sw : Bool) (g : Guard) (x : Source) (s : State) : Out := issueLong sw g x (aluSxhPlan.covered .aluSxh) s
def execAluClzShort (sw : Bool) (c : Source) (s : State) : Out := issueShort sw c (aluClzPlan.covered .aluClz) s
def execAluClzLong (sw : Bool) (g : Guard) (x : Source) (s : State) : Out := issueLong sw g x (aluClzPlan.covered .aluClz) s
def execAluPopcShort (sw : Bool) (c : Source) (s : State) : Out := issueShort sw c (aluPopcPlan.covered .aluPopc) s
def execAluPopcLong (sw : Bool) (g : Guard) (x : Source) (s : State) : Out := issueLong sw g x (aluPopcPlan.covered .aluPopc) s

-- ## Products and divisions (R203)

/-- mul.o and mul.h from the trigger value, mul.b and mul.c. -/
def mulPlan (lat : Nat) (f : Word → Word → Word → Word × Word) : Plan :=
  valuePlan lat (fun t v =>
    let r := f (low64 v) (t.opw .mulB) (t.opw .mulC)
    .inr [(.mulO, quad r.1), (.mulH, quad r.2)])

/-- The low and high halves of an exact 128-bit value. -/
def halves (p : Int) : Word × Word :=
  let v := BitVec.ofInt 128 p
  (v.setWidth 64, (v >>> 64).setWidth 64)

/-- Quotient and remainder, truncated toward zero; a zero divisor gives 2^64 − 1 and the dividend (R203). -/
def divS (a b : Word) : Word × Word :=
  if b = 0#64 then (BitVec.allOnes 64, a)
  else (BitVec.ofInt 64 (a.toInt.tdiv b.toInt), BitVec.ofInt 64 (a.toInt.tmod b.toInt))
def divU (a b : Word) : Word × Word :=
  if b = 0#64 then (BitVec.allOnes 64, a) else (BitVec.ofNat 64 (a.toNat / b.toNat), BitVec.ofNat 64 (a.toNat % b.toNat))

def mulMulPlan : Plan := mulPlan 1 (fun a b _ => halves (a.toInt * b.toInt))
def mulMulhPlan : Plan := mulPlan 1 (fun a b _ => (halves (a.toInt * b.toInt)).swap)
def mulMulhuPlan : Plan := mulPlan 1 (fun a b _ => (halves (a.toNat * b.toNat)).swap)
def mulMadPlan : Plan := mulPlan 1 (fun a b c => halves (a.toInt * b.toInt + c.toInt))
def mulDivPlan : Plan := mulPlan 5 (fun a b _ => divS a b)
def mulDivuPlan : Plan := mulPlan 5 (fun a b _ => divU a b)
def mulRemPlan : Plan := mulPlan 5 (fun a b _ => (divS a b).swap)
def mulRemuPlan : Plan := mulPlan 5 (fun a b _ => (divU a b).swap)

def execMulMulShort (sw : Bool) (c : Source) (s : State) : Out := issueShort sw c (mulMulPlan.covered .mulMul) s
def execMulMulLong (sw : Bool) (g : Guard) (x : Source) (s : State) : Out := issueLong sw g x (mulMulPlan.covered .mulMul) s
def execMulMulhShort (sw : Bool) (c : Source) (s : State) : Out := issueShort sw c (mulMulhPlan.covered .mulMulh) s
def execMulMulhLong (sw : Bool) (g : Guard) (x : Source) (s : State) : Out := issueLong sw g x (mulMulhPlan.covered .mulMulh) s
def execMulMulhuShort (sw : Bool) (c : Source) (s : State) : Out := issueShort sw c (mulMulhuPlan.covered .mulMulhu) s
def execMulMulhuLong (sw : Bool) (g : Guard) (x : Source) (s : State) : Out := issueLong sw g x (mulMulhuPlan.covered .mulMulhu) s
def execMulMadShort (sw : Bool) (c : Source) (s : State) : Out := issueShort sw c (mulMadPlan.covered .mulMad) s
def execMulMadLong (sw : Bool) (g : Guard) (x : Source) (s : State) : Out := issueLong sw g x (mulMadPlan.covered .mulMad) s
def execMulDivShort (sw : Bool) (c : Source) (s : State) : Out := issueShort sw c (mulDivPlan.covered .mulDiv) s
def execMulDivLong (sw : Bool) (g : Guard) (x : Source) (s : State) : Out := issueLong sw g x (mulDivPlan.covered .mulDiv) s
def execMulDivuShort (sw : Bool) (c : Source) (s : State) : Out := issueShort sw c (mulDivuPlan.covered .mulDivu) s
def execMulDivuLong (sw : Bool) (g : Guard) (x : Source) (s : State) : Out := issueLong sw g x (mulDivuPlan.covered .mulDivu) s
def execMulRemShort (sw : Bool) (c : Source) (s : State) : Out := issueShort sw c (mulRemPlan.covered .mulRem) s
def execMulRemLong (sw : Bool) (g : Guard) (x : Source) (s : State) : Out := issueLong sw g x (mulRemPlan.covered .mulRem) s
def execMulRemuShort (sw : Bool) (c : Source) (s : State) : Out := issueShort sw c (mulRemuPlan.covered .mulRemu) s
def execMulRemuLong (sw : Bool) (g : Guard) (x : Source) (s : State) : Out := issueLong sw g x (mulRemuPlan.covered .mulRemu) s

-- ## Predicates (R213)

/-- A predicate operation. Its result is delivered before the next word is evaluated, which is when it can first be seen,
so it is written at once. -/
def prdPlan (f : Bool → Bool → Bool) : Plan where
  run := fun s v =>
    let a := low64 v
    if field a 63 12 ≠ 0 then .trap s reservedPort
    else
      let t := s.thr
      .done (s.setThr (t.setPred (Fin.ofNat 16 (field a 3 0))
        (f (t.pred (Fin.ofNat 16 (field a 7 4))) (t.pred (Fin.ofNat 16 (field a 11 8))))))

def prdPandPlan : Plan := prdPlan (fun a b => a && b)
def prdPorPlan : Plan := prdPlan (fun a b => a || b)
def prdPxorPlan : Plan := prdPlan (fun a b => a != b)
def prdPandnPlan : Plan := prdPlan (fun a b => a && !b)

def execPrdPandShort (sw : Bool) (c : Source) (s : State) : Out := issueShort sw c (prdPandPlan.covered .prdPand) s
def execPrdPandLong (sw : Bool) (g : Guard) (x : Source) (s : State) : Out := issueLong sw g x (prdPandPlan.covered .prdPand) s
def execPrdPorShort (sw : Bool) (c : Source) (s : State) : Out := issueShort sw c (prdPorPlan.covered .prdPor) s
def execPrdPorLong (sw : Bool) (g : Guard) (x : Source) (s : State) : Out := issueLong sw g x (prdPorPlan.covered .prdPor) s
def execPrdPxorShort (sw : Bool) (c : Source) (s : State) : Out := issueShort sw c (prdPxorPlan.covered .prdPxor) s
def execPrdPxorLong (sw : Bool) (g : Guard) (x : Source) (s : State) : Out := issueLong sw g x (prdPxorPlan.covered .prdPxor) s
def execPrdPandnShort (sw : Bool) (c : Source) (s : State) : Out := issueShort sw c (prdPandnPlan.covered .prdPandn) s
def execPrdPandnLong (sw : Bool) (g : Guard) (x : Source) (s : State) : Out := issueLong sw g x (prdPandnPlan.covered .prdPandn) s

-- ## Control transfers (R214 to R218)

/-- Alignment fault of a transfer's target (R151, R216). -/
def targetFault (a : Word) : Word := causeVa 6 2 0 a

/-- ctl.jmp: the target must have bit [0] clear (R215, R216). -/
def ctlJmpPlan : Plan where
  run := fun s v => let a := low64 v; if a.getLsbD 0 then .trap s (targetFault a) else .jump s a

def ctlJrelPlan : Plan where
  run := fun s v => .jump s (s.thr.pc + (low64 v <<< 1))

def ctlCallPlan (len : Nat) : Plan where
  run := fun s v =>
    let a := low64 v
    if a.getLsbD 0 then .trap s (targetFault a)
    else .jump (s.onThr (fun t => t.setOp .lk (quad (t.pc + BitVec.ofNat 64 len)))) a

def ctlRetPlan : Plan where
  run := fun s v =>
    if low64 v ≠ 0#64 then .trap s reservedPort
    else if s.thr.lk.getLsbD 0 then .trap s (targetFault s.thr.lk) else .jump s s.thr.lk

/-- ctl.trap raises 0x13 with VAL after its own issue (R218). -/
def ctlTrapPlan : Plan where
  run := fun s v => .raise s (BitVec.ofNat 64 (0x13 + field (low64 v) 47 0 * 2 ^ 16))

def execCtlJmpShort (sw : Bool) (c : Source) (s : State) : Out := issueShort sw c ctlJmpPlan s
def execCtlJmpLong (sw : Bool) (g : Guard) (x : Source) (s : State) : Out := issueLong sw g x ctlJmpPlan s
def execCtlJrelShort (sw : Bool) (c : Source) (s : State) : Out := issueShort sw c ctlJrelPlan s
def execCtlJrelLong (sw : Bool) (g : Guard) (x : Source) (s : State) : Out := issueLong sw g x ctlJrelPlan s
def execCtlCallShort (sw : Bool) (c : Source) (s : State) : Out := issueShort sw c (ctlCallPlan 2) s
def execCtlCallLong (sw : Bool) (g : Guard) (x : Source) (s : State) : Out := issueLong sw g x (ctlCallPlan 4) s
def execCtlRetShort (sw : Bool) (c : Source) (s : State) : Out := issueShort sw c ctlRetPlan s
def execCtlRetLong (sw : Bool) (g : Guard) (x : Source) (s : State) : Out := issueLong sw g x ctlRetPlan s
def execCtlTrapShort (sw : Bool) (c : Source) (s : State) : Out := issueShort sw c ctlTrapPlan s
def execCtlTrapLong (sw : Bool) (g : Guard) (x : Source) (s : State) : Out := issueLong sw g x ctlTrapPlan s

-- ## Index operations (R204 to R212)

/-- A shape entry's dimensions: (E, SH, M) for each of its K extents, or none where R209 refuses it. -/
def shapeDims (ws : List Word) : Option (List (Nat × Nat × Nat)) :=
  let w (i : Nat) : Word := ws.getD i 0#64
  let k := field (w 0) 2 0
  let dims := (List.range 5).map (fun j => (w (2 + 2 * j), w (3 + 2 * j)))
  let okDim (p : Word × Word) : Bool :=
    field p.1 63 40 == 0 && field p.1 39 0 != 0 && field p.2 63 55 == 0 && field p.2 47 41 == 0 &&
    decide (40 ≤ field p.2 54 48) && decide (field p.2 54 48 ≤ 80)
  if field (w 0) 63 3 ≠ 0 ∨ k = 0 ∨ 5 < k ∨ w 1 ≠ 0#64 ∨ (List.range 4).any (fun i => w (12 + i) != 0#64) = true then none
  else if !(dims.take k).all okDim || !(dims.drop k).all (fun p => p.1 == 0#64 && p.2 == 0#64) then none
  else some ((dims.take k).map (fun p => (field p.1 39 0, field p.2 54 48, field p.2 40 0)))

/-- The coordinates, with the outermost quotient at the end (R210). -/
def tixFrom : Nat → List (Nat × Nat × Nat) → List Word
  | q, [] => [BitVec.ofNat 64 q]
  | q, (e, sh, m) :: r =>
    let d := q * m / 2 ^ sh
    BitVec.ofInt 64 ((q : Int) - (d * e : Nat)) :: tixFrom d r

/-- The sixteen words of a shape entry, by their addresses: each is a read of its own at its home slice, or at its bank where the table
stands in a local window, and the first marked one ends the reading (R208). -/
def shapeWords (s : State) (slot : Fin 8) (va : Word) (loc : Nat) : Nat → List Word → (List Word ⊕ Word) × State
  | 0, acc => (.inl acc, s)
  | n + 1, acc =>
    let i := 15 - n
    match homeRead s slot s.nextId (loc + 8 * i) 8 with
    | ((_, some m), s1) => (.inr (markCause (loc + 8 * i) 8 (va + BitVec.ofNat 64 (8 * i)) m).2, s1)
    | ((b, none), s1) => shapeWords s1 slot va loc n (acc ++ [BitVec.ofNat 64 (natLE b)])

/-- A shape entry, from the core's shape cache or read with supervisor rights, for which the word may be held; of sixteen
entries the one read longest ago goes (R208). (DESIGN CHOICE, log 17.) An entry in a local window is read at its bank, and one in the
bank of a core that the thread's context does not hold is refused (R55), precisely at the tix word (R208). (DESIGN CHOICE, log 90.) -/
def shapeRead (s : State) (va : Word) (k : State → List Word → Verdict) : Verdict :=
  let t := s.thr
  let cid := BitVec.ofNat 6 t.cid.val
  match s.core.shapes.find? (fun e => e.1 == cid && e.2.1 == va.toNat) with
  | some e => k s e.2.2
  | none =>
    match dataWalk s t.walker va with
    | some a => .walk a
    | none =>
      match translate s { t.walker with user := false } { user := false, fetch := false, write := false, sync := false } va with
      | .bad c s1 => .trap s1 c
      | .stop f => .stop f
      | .ok loc _ s1 =>
        if meshRefused s1 t.cid.val va loc then .trap s1 (refusal 1 0)
        else if amoPending s1 s1.cur loc 128 then .hold none none .mem
        else
          match shapeWords s1 s1.cur va loc 16 [] with
          | (.inr c, s2) => .trap s2 c
          | (.inl ws, s2) => k (s2.onCore (fun c => { c with shapes := ((cid, va.toNat, ws) :: c.shapes).take 16 })) ws

def idxTixPlan : Plan where
  run := fun s v =>
    let t := s.thr
    let sh := t.opw .idxSh
    let i := (low64 v).toNat
    if field sh 63 12 ≠ 0 ∨ field t.cr[crShape] 60 48 ≤ sh.toNat then .trap s reservedPort
    else if 2 ^ 40 ≤ i then .trap s reservedPort
    else
      shapeRead s (BitVec.ofNat 64 (field t.cr[crShape] 47 7 * 128 + 128 * sh.toNat)) (fun s1 ws =>
        match shapeDims ws with
        | none => .trap s1 reservedPort
        | some dims =>
          let o (k : Nat) : Quad := quad ((tixFrom i dims).getD k 0#64)
          sendFixed s1 2 [(.idxO0, o 0), (.idxO1, o 1), (.idxO2, o 2), (.idxO3, o 3), (.idxO4, o 4)])

def idxAdrPlan : Plan := valuePlan 2 (fun t v =>
  let b := t.opw .idxB
  if field b 63 52 ≠ 0 then .inl reservedPort
  else .inr [(.idxO0, quad (low64 v + (((b.setWidth 48).signExtend 64) <<< field b 51 48)))])

def idxBndPlan : Plan := valuePlan 2 (fun t v =>
  let a := low64 v
  let b := t.opw .idxB
  if b.sle 0#64 then .inl reservedPort
  else .inr [(.idxO0, quad (if a.slt 0#64 then 0#64 else if b.sle a then b - 1#64 else a))])

def execIdxTixShort (sw : Bool) (c : Source) (s : State) : Out := issueShort sw c (idxTixPlan.covered .idxTix) s
def execIdxTixLong (sw : Bool) (g : Guard) (x : Source) (s : State) : Out := issueLong sw g x (idxTixPlan.covered .idxTix) s
def execIdxAdrShort (sw : Bool) (c : Source) (s : State) : Out := issueShort sw c (idxAdrPlan.covered .idxAdr) s
def execIdxAdrLong (sw : Bool) (g : Guard) (x : Source) (s : State) : Out := issueLong sw g x (idxAdrPlan.covered .idxAdr) s
def execIdxBndShort (sw : Bool) (c : Source) (s : State) : Out := issueShort sw c (idxBndPlan.covered .idxBnd) s
def execIdxBndLong (sw : Bool) (g : Guard) (x : Source) (s : State) : Out := issueLong sw g x (idxBndPlan.covered .idxBnd) s

end Sys2Proof.Machine
end

