-- ==== Sys2Proof/Machine/Mem.lean ====
section
/-! DEFINITION. mem and amo: operations 27 to 43 and 103 to 110 (R89 to R98, R149 to R154), with the watchpoint check (R389). -/

namespace Sys2Proof.Machine

/-- log2 of an access width. -/
def log2w : Nat → Nat
  | 1 => 0 | 2 => 1 | 4 => 2 | 8 => 3 | _ => 4

/-- Alignment fault of a data access (R151). -/
def alignFault (n : Nat) (va : Word) : Word := causeVa 6 1 (log2w n) va

/-- The watchpoint check of a word at user level, after every other fault: a read under LD, a write under ST, and
amo.lrw under both (R388, R389). -/
def watched (s : State) (read write : Bool) (va : Word) : Option Word :=
  let t := s.thr
  let wp := t.cr[crWp]
  let r := read && wp.getLsbD 0
  if t.sup || wp.getLsbD 3 || !(r || (write && wp.getLsbD 1)) then none
  else if bloomHit s.core.filter (field va 47 6) then some (causeVa 0x14 (if r then 1 else 2) 0 va) else none

/-- A watchpoint hit is traced, and stops the cluster where XT is set (R387, R388, R391). -/
def watchHit (s : State) (va : Word) : State :=
  let s1 := s.trace 4 (bankNo s.coreId * 2 ^ 32 + s.cur.val * 2 ^ 16) va
  if s.thr.cr[crWp].getLsbD 2 then
    (s1.trace 6 1 0).onCore (fun c => { c with stopped := true, freezing := true })
  else s1

/-- The checks that every mem and amo operation shares: alignment, translation, for which the word
may have to wait, and protection, then what the operation adds, then the watchpoint (R67, R90, R150, R389). -/
def access (s : State) (n : Nat) (misaligned : Bool) (write sync : Bool) (va : Word) (more : State → Nat → Option Word)
    (k : State → Nat → Verdict) (lrw : Bool := false) : Verdict :=
  if misaligned then .trap s (alignFault n va)
  else
    match dataWalk s s.thr.walker va with
    | some a => .walk a
    | none =>
      match translate s s.thr.walker { user := !s.thr.sup, fetch := false, write, sync } va with
      | .bad c s1 => .trap s1 c
      | .stop f => .stop f
      | .ok loc _ s1 =>
        match more s1 loc with
        | some c => .trap s1 c
        | none =>
          match watched s1 (!write || lrw) write va with
          | some c => .trap (watchHit s1 va) c
          | none => k s1 loc

/-- A load of operations 27 to 34: two rotations in the own-cluster window, fenced elsewhere and behind a set fence bit
(R43, R136, R147, R152). -/
def loadPlan (o : Op) (n : Nat) (ext : Bool) : Plan where
  run := fun s v =>
    let va := low64 v
    let port : RPort := if n = 16 then .memOq else .memO
    access s n (decide (va.toNat % n ≠ 0)) false false va (fun _ _ => none) (fun s1 loc =>
      let t := s1.thr
      let tag := s1.nextId
      if amoPending s1 s1.cur loc n then .hold none none .mem
      else if isOwn va then
        if t.fenced port then
          .done (sendRead (s1.setThr (t.owe tag [port] true none)) true loc va (.load n ext))
        else if t.orderHold 2 [port] then .hold none none .vac
        else .done (sendRead (s1.setThr (t.send tag 2 [port] none none)) true loc va (.load n ext))
      else if t.ringFull then .hold none none .mem
      else if isPaged va then
        let t1 := (t.ringTake tag (some o) va).owe tag [port] true (some { loc, va, bytes := n, ext })
        .done (s1.bump.setThr t1)
      else .done (sendRead (s1.setThr ((t.ringTake tag (some o) va).owe tag [port] true none)) false loc va (.load n ext)))

/-- ldf and ldt: fenced at every address; the request waits at the word's ordering point (R142, R153). -/
def waitLoadPlan (o : Op) (kind : ReqKind) : Plan where
  run := fun s v =>
    let va := low64 v
    access s 8 (decide (va.toNat % 8 ≠ 0)) false true va (fun _ _ => none) (fun s1 loc =>
      let t := s1.thr
      let tag := s1.nextId
      if amoPending s1 s1.cur loc 8 then .hold none none .mem
      else if isOwn va then .done (sendRead (s1.setThr (t.owe tag [.memO] false none)) true loc va kind)
      else if t.ringFull then .hold none none .mem
      else .done (sendRead ((if kind = .ldt then l1Drop s1 loc else s1).setThr ((t.ringTake tag (some o) va).owe tag [.memO] false none)) false loc va kind))

/-- The posted-store queue is full, or a counted request finds no ring entry (R154, R364). -/
def storeHeld (t : Thread) (counted : Bool) : Bool := decide (16 ≤ t.queuedStores) || (counted && t.ringFull)

/-- A write of `n` bytes: `kind` from the sampled data; own-cluster stores never count, everything else does (R154). -/
def writePlan (o : Op) (n : Nat) (sync ste : Bool) (kind : Thread → ReqKind) : Plan where
  run := fun s v =>
    let va := low64 v
    access s n (decide (va.toNat % n ≠ 0)) true sync va (fun _ _ => none) (fun s1 loc =>
      let counted := ste || !isOwn va
      if storeHeld s1.thr counted || (isOwn va && mxReading s1) then .hold none none .mem
      else .done (sendWrite (l1Drop s1 loc) o (isOwn va) loc va (kind s1.thr) counted n))

def storePlan (o : Op) (n : Nat) (full : Bool) : Plan :=
  writePlan o n full false (fun t => .store (bytesLE n (if n = 16 then (t.opq .memQ).toNat else (t.opw .memD).toNat)) full)

def memLd8Plan : Plan := loadPlan .memLd8 1 false
def memLd8sPlan : Plan := loadPlan .memLd8s 1 true
def memLd16Plan : Plan := loadPlan .memLd16 2 false
def memLd16sPlan : Plan := loadPlan .memLd16s 2 true
def memLd32Plan : Plan := loadPlan .memLd32 4 false
def memLd32sPlan : Plan := loadPlan .memLd32s 4 true
def memLd64Plan : Plan := loadPlan .memLd64 8 false
def memLdqPlan : Plan := loadPlan .memLdq 16 false
def memSt8Plan : Plan := storePlan .memSt8 1 false
def memSt16Plan : Plan := storePlan .memSt16 2 false
def memSt32Plan : Plan := storePlan .memSt32 4 false
def memSt64Plan : Plan := storePlan .memSt64 8 false
def memStqPlan : Plan := storePlan .memStq 16 false
def memLdfPlan : Plan := waitLoadPlan .memLdf .ldf
def memLdtPlan : Plan := waitLoadPlan .memLdt .ldt
def memStfPlan : Plan := storePlan .memStf 8 true
def memStePlan : Plan := writePlan .memSte 8 true true (fun t => .ste (t.opw .memD))

def execMemLd8Short (sw : Bool) (c : Source) (s : State) : Out := issueShort sw c (memLd8Plan.covered .memLd8) s
def execMemLd8Long (sw : Bool) (g : Guard) (x : Source) (s : State) : Out := issueLong sw g x (memLd8Plan.covered .memLd8) s
def execMemLd8sShort (sw : Bool) (c : Source) (s : State) : Out := issueShort sw c (memLd8sPlan.covered .memLd8s) s
def execMemLd8sLong (sw : Bool) (g : Guard) (x : Source) (s : State) : Out := issueLong sw g x (memLd8sPlan.covered .memLd8s) s
def execMemLd16Short (sw : Bool) (c : Source) (s : State) : Out := issueShort sw c (memLd16Plan.covered .memLd16) s
def execMemLd16Long (sw : Bool) (g : Guard) (x : Source) (s : State) : Out := issueLong sw g x (memLd16Plan.covered .memLd16) s
def execMemLd16sShort (sw : Bool) (c : Source) (s : State) : Out := issueShort sw c (memLd16sPlan.covered .memLd16s) s
def execMemLd16sLong (sw : Bool) (g : Guard) (x : Source) (s : State) : Out := issueLong sw g x (memLd16sPlan.covered .memLd16s) s
def execMemLd32Short (sw : Bool) (c : Source) (s : State) : Out := issueShort sw c (memLd32Plan.covered .memLd32) s
def execMemLd32Long (sw : Bool) (g : Guard) (x : Source) (s : State) : Out := issueLong sw g x (memLd32Plan.covered .memLd32) s
def execMemLd32sShort (sw : Bool) (c : Source) (s : State) : Out := issueShort sw c (memLd32sPlan.covered .memLd32s) s
def execMemLd32sLong (sw : Bool) (g : Guard) (x : Source) (s : State) : Out := issueLong sw g x (memLd32sPlan.covered .memLd32s) s
def execMemLd64Short (sw : Bool) (c : Source) (s : State) : Out := issueShort sw c (memLd64Plan.covered .memLd64) s
def execMemLd64Long (sw : Bool) (g : Guard) (x : Source) (s : State) : Out := issueLong sw g x (memLd64Plan.covered .memLd64) s
def execMemLdqShort (sw : Bool) (c : Source) (s : State) : Out := issueShort sw c (memLdqPlan.covered .memLdq) s
def execMemLdqLong (sw : Bool) (g : Guard) (x : Source) (s : State) : Out := issueLong sw g x (memLdqPlan.covered .memLdq) s
def execMemSt8Short (sw : Bool) (c : Source) (s : State) : Out := issueShort sw c (memSt8Plan.covered .memSt8) s
def execMemSt8Long (sw : Bool) (g : Guard) (x : Source) (s : State) : Out := issueLong sw g x (memSt8Plan.covered .memSt8) s
def execMemSt16Short (sw : Bool) (c : Source) (s : State) : Out := issueShort sw c (memSt16Plan.covered .memSt16) s
def execMemSt16Long (sw : Bool) (g : Guard) (x : Source) (s : State) : Out := issueLong sw g x (memSt16Plan.covered .memSt16) s
def execMemSt32Short (sw : Bool) (c : Source) (s : State) : Out := issueShort sw c (memSt32Plan.covered .memSt32) s
def execMemSt32Long (sw : Bool) (g : Guard) (x : Source) (s : State) : Out := issueLong sw g x (memSt32Plan.covered .memSt32) s
def execMemSt64Short (sw : Bool) (c : Source) (s : State) : Out := issueShort sw c (memSt64Plan.covered .memSt64) s
def execMemSt64Long (sw : Bool) (g : Guard) (x : Source) (s : State) : Out := issueLong sw g x (memSt64Plan.covered .memSt64) s
def execMemStqShort (sw : Bool) (c : Source) (s : State) : Out := issueShort sw c (memStqPlan.covered .memStq) s
def execMemStqLong (sw : Bool) (g : Guard) (x : Source) (s : State) : Out := issueLong sw g x (memStqPlan.covered .memStq) s
def execMemLdfShort (sw : Bool) (c : Source) (s : State) : Out := issueShort sw c (memLdfPlan.covered .memLdf) s
def execMemLdfLong (sw : Bool) (g : Guard) (x : Source) (s : State) : Out := issueLong sw g x (memLdfPlan.covered .memLdf) s
def execMemLdtShort (sw : Bool) (c : Source) (s : State) : Out := issueShort sw c (memLdtPlan.covered .memLdt) s
def execMemLdtLong (sw : Bool) (g : Guard) (x : Source) (s : State) : Out := issueLong sw g x (memLdtPlan.covered .memLdt) s
def execMemStfShort (sw : Bool) (c : Source) (s : State) : Out := issueShort sw c (memStfPlan.covered .memStf) s
def execMemStfLong (sw : Bool) (g : Guard) (x : Source) (s : State) : Out := issueLong sw g x (memStfPlan.covered .memStf) s
def execMemSteShort (sw : Bool) (c : Source) (s : State) : Out := issueShort sw c (memStePlan.covered .memSte) s
def execMemSteLong (sw : Bool) (g : Guard) (x : Source) (s : State) : Out := issueLong sw g x (memStePlan.covered .memSte) s

-- ## Operations at memory (R89 to R98)

/-- A selector names a group that cr.bar does not back (R358). -/
def selectorBad (s : State) (wide : Bool) (grp : Nat) : Bool :=
  let lim := field s.core.bar 22 14
  let off := field s.core.bar 13 3
  decide (lim ≤ grp) || decide (0x3FF8 < 8 * (off + (if wide then lim else 0) + grp))

def groupOf (s : State) (k : GroupKey) : Option Group := s.net.groups.find? (fun g => g.key == k)

/-- The generation of a group that the current thread has not yet arrived at (R95). -/
def openGen (s : State) (k : GroupKey) : Nat :=
  match groupOf s k with
  | some g =>
    match s.thr.arrivals.find? (fun a => a.1 == k) with
    | some a => max g.gen (a.2 + 1)
    | none => g.gen
  | none => 0

/-- A posted operation (R92, R93). -/
def amoPlan (o : Op) (k : AmoKind) : Plan where
  run := fun s v =>
    let va := low64 v
    access s 8 (decide (va.toNat % 8 ≠ 0)) true false va (fun _ _ => none) (fun s1 loc =>
      if storeHeld s1.thr true || (isOwn va && mxReading s1) then .hold none none .mem
      else .done (sendWrite (l1Drop s1 loc) o (isOwn va) loc va (.amo k (s1.thr.opw .amoB)) true 8))

/-- amo.lrw: reserved bits and the group of amo.t, then the record (R90, R95 to R97). -/
def amoLrwPlan : Plan where
  run := fun s v =>
    let va := low64 v
    let at_ := s.thr.opw .amoT
    let key := groupKey s (at_.getLsbD 24) (field at_ 23 16)
    access s 8 (decide (va.toNat % 8 ≠ 0)) true false va (fun s1 _ =>
      let r := s1.thr.resv
      if field at_ 63 25 ≠ 0 ∨ selectorBad s1 key.wide key.grp = true then some reservedPort
      else if 4 ≤ r.length ∨ r.any (fun e => e.va == va) = true then some (causeVa 0x0F 4 0 va)
      else none) (fun s1 loc =>
      let t := s1.thr
      let tag := s1.nextId
      if t.ringFull || amoPending s1 s1.cur loc 8 then .hold none none .mem
      else
        let t1 := { (t.ringTake tag (some .amoLrw) va).owe tag [.amoO] false none with resv := t.resv ++ [{ va, loc, granted := false }] }
        .done (sendRead ((l1Drop s1 loc).setThr t1) (isOwn va) loc va (.lrw key (openGen s1 key) (field at_ 15 0)))) true

/-- amo.scr: bit [0] of the address says last; the record must hold the word and amo.o's fence bit be clear (R97, R98). (DEDUCED, log 28.) -/
def amoScrPlan : Plan where
  run := fun s v =>
    let a := low64 v
    let va := a &&& ~~~(1#64)
    if field a 2 1 ≠ 0 then .trap s (alignFault 8 a)
    else access s 8 false true false va (fun s1 _ =>
      let t := s1.thr
      if t.fenced .amoO || !t.resv.any (fun e => e.va == va) then some (causeVa 0x0F 2 0 va) else none) (fun s1 loc =>
      let t := s1.thr
      if storeHeld t true || (isOwn va && mxReading s1) then .hold none none .mem
      else
        let t1 := { t with resv := t.resv.filter (fun e => e.va != va) }
        .done (sendWrite ((l1Drop s1 loc).setThr t1) .amoScr (isOwn va) loc va (.scr (t.opw .amoB) (a.getLsbD 0)) true 8))

def amoAddPlan : Plan := amoPlan .amoAdd .add
def amoMinPlan : Plan := amoPlan .amoMin .min
def amoMaxPlan : Plan := amoPlan .amoMax .max
def amoAndPlan : Plan := amoPlan .amoAnd .and
def amoOrPlan : Plan := amoPlan .amoOr .or
def amoXorPlan : Plan := amoPlan .amoXor .xor

def execAmoAdd (sw : Bool) (g : Guard) (x : Source) (s : State) : Out := issueLong sw g x (amoAddPlan.covered .amoAdd) s
def execAmoMin (sw : Bool) (g : Guard) (x : Source) (s : State) : Out := issueLong sw g x (amoMinPlan.covered .amoMin) s
def execAmoMax (sw : Bool) (g : Guard) (x : Source) (s : State) : Out := issueLong sw g x (amoMaxPlan.covered .amoMax) s
def execAmoAnd (sw : Bool) (g : Guard) (x : Source) (s : State) : Out := issueLong sw g x (amoAndPlan.covered .amoAnd) s
def execAmoOr (sw : Bool) (g : Guard) (x : Source) (s : State) : Out := issueLong sw g x (amoOrPlan.covered .amoOr) s
def execAmoXor (sw : Bool) (g : Guard) (x : Source) (s : State) : Out := issueLong sw g x (amoXorPlan.covered .amoXor) s
def execAmoLrw (sw : Bool) (g : Guard) (x : Source) (s : State) : Out := issueLong sw g x (amoLrwPlan.covered .amoLrw) s
def execAmoScr (sw : Bool) (g : Guard) (x : Source) (s : State) : Out := issueLong sw g x (amoScrPlan.covered .amoScr) s

end Sys2Proof.Machine
end

