-- ==== Sys2Proof/Machine/Syn.lean ====
section
/-! DEFINITION. syn: operations 111 to 116, scopes and reaches, barrier groups (R300 to R310, R357 to R359). -/

namespace Sys2Proof.Machine

-- ## Scopes (R300, R301)

def scTO (sc : Scope) : Bool := sc.getLsbD 41
def scALL (sc : Scope) : Bool := sc.getLsbD 40

/-- The rectangle of a scope holds a core. -/
def scRect (sc : Scope) (core : Nat) : Bool :=
  decide (field sc 9 0 ≤ coreX core) && decide (coreX core ≤ field sc 29 20) &&
  decide (field sc 19 10 ≤ coreY core) && decide (coreY core ≤ field sc 39 30)

/-- A core is in a scope; a thread-only scope is its issuing thread alone, on core `self`. -/
def inScope (sc : Scope) (self core : Nat) : Bool :=
  if scTO sc then core == self else scALL sc || scRect sc core

/-- syn.sc values that R300 refuses. -/
def scBad (v : Word) : Bool :=
  let sc : Scope := v.setWidth 42
  decide (field v 63 42 ≠ 0) || (scTO sc && scALL sc) ||
  (!scTO sc && !scALL sc && (decide (field sc 29 20 < field sc 9 0) || decide (field sc 39 30 < field sc 19 10)))

/-- Two ranges of a scope's rectangle and of a block of cores share a core. -/
def rectMeets (sc : Scope) (x0 x1 y0 y1 : Nat) : Bool :=
  decide (field sc 9 0 ≤ x1) && decide (x0 ≤ field sc 29 20) && decide (field sc 19 10 ≤ y1) && decide (y0 ≤ field sc 39 30)

/-- A scope meets a reach (R301). -/
def meets (sc : Scope) (self : Nat) (r : Reach) : Bool :=
  match r with
  | .module | .everywhere => true
  | .core n => inScope sc self n
  | .cores l => l.any (inScope sc self)
  | .cluster k =>
    if scTO sc then clusterOf self == k
    else scALL sc || rectMeets sc ((k % 256) * 4) ((k % 256) * 4 + 3) ((k / 256) * 2) ((k / 256) * 2 + 1)
  | .scope q =>
    if scTO sc then inScope q self self
    else if scTO q then inScope sc self self
    else scALL sc || scALL q || rectMeets sc (field q 9 0) (field q 29 20) (field q 19 10) (field q 39 30)

-- ## Fence, acquire, release (R303 to R306)

/-- The checks of syn.fence, syn.acq and syn.rel (R303). -/
def synCheck (s : State) (v : Quad) (k : Scope → Verdict) : Verdict :=
  let sc := s.thr.opw .synSc
  if low64 v ≠ 0#64 ∨ scBad sc = true then .trap s reservedPort else k (sc.setWidth 42)

/-- What a fence awaits: earlier counted requests whose reach meets the scope (R304). -/
def fenceTags (s : State) (sc : Scope) : List Nat := (s.thr.counted.filter (fun c => meets sc s.home c.reach)).map (·.tag)

def synFencePlan : Plan where
  run := fun s v => synCheck s v (fun sc =>
    let tags := fenceTags s sc
    if tags = [] then .done s else .done (s.onThr (fun t => { t with mode := .fence tags })))

/-- The reads that an acquire awaits: loads, ldf, ldt and grants that have not returned, and those inside posted atomics that are not
yet performed (R297, R306). (DEDUCED, log 21.) -/
def readTags (s : State) : List Nat :=
  let t := s.thr
  (t.owed.filter (fun o => o.ports.any (fun p => p = .memO ∨ p = .memOq ∨ p = .amoO))).map (·.tag) ++
  (t.flight.filter (fun f => f.ports.any (fun p => p = .memO ∨ p = .memOq))).map (·.tag) ++
  ((pendingReqs s s.cur).filter (fun r => match r.kind with | .amo _ _ => true | _ => false)).map (·.tag)

/-- A returned release write pairs with an acquire of scope `sc` (R306, R307). -/
def pairs (sc : Scope) (self src : Nat) (r : Release) : Bool :=
  (if scTO r.scope then r.src == src else inScope r.scope self self) &&
  (match r.core with
    | none => true
    | some c => if scTO sc then r.src == src else scALL sc || scRect sc c)

/-- The acquire's effect: the L1 drops its paged lines and the floor gains Rel of every release that pairs (R306). -/
def acquire (s : State) (slot : Fin 8) (sc : Scope) : State :=
  let src := s.src slot
  let self := s.home
  let s1 := s.onSlot slot (fun t =>
    { t with floor := (t.relReads.filter (pairs sc self src)).foldl (fun f r => floorAdd f r.rel) t.floor })
  s1.onCore (fun c => { c with l1 := [], l1bad := [] })

/-- syn.acq: with every earlier read returned it acts at once; otherwise the slot parks on them, and its scope is read
again from syn.sc, which a parked slot cannot change, when the park ends. -/
def synAcqPlan : Plan where
  run := fun s v => synCheck s v (fun sc =>
    let tags := readTags s
    if tags = [] then .done (acquire s s.cur sc) else .done (s.onThr (fun t => { t with mode := .acq tags })))

/-- syn.rel marks the thread's next word (R305). (DEDUCED, log 22.) -/
def synRelPlan : Plan where
  run := fun s v => synCheck s v (fun sc => .marked (s.onThr (fun t => { t with relMark := some sc })))

-- ## Barriers (R308 to R310, R357 to R359)

/-- A group selector (R302). -/
def selector (s : State) (v : Word) : GroupKey := groupKey s (v.getLsbD 8) (field v 7 0)

def putGroup (s : State) (g : Group) : State :=
  { s with net := { s.net with groups := s.net.groups.map (fun x => if x.key = g.key then g else x) } }

/-- cr.bar of a launch: the default where the record holds 0 (R334, R358). -/
def launchBar (r : Vector Word 16) : Word := if r[11] = 0#64 then BitVec.ofNat 64 (16 * 2 ^ 14 + 0x7E0 * 2 ^ 3) else r[11]

/-- cr.bar of a core on which a launch's team stands: the observed core's own, and at the others what placement gave. (DEDUCED, log 45.) -/
def barOf (s : State) (launch core : Nat) : Word :=
  if core = s.coreId then s.core.bar
  else
    match s.fw.launches[launch - 1]? with
    | some l => launchBar l.words
    | none => 0#64

/-- The place of a group's barrier word in a core's bank, where that core's cr.bar backs the group (R358). -/
def barrierLoc (s : State) (k : GroupKey) (core : Nat) : Option Nat :=
  let b := barOf s k.launch core
  let off := 8 * (field b 13 3 + (if k.wide then field b 22 14 else 0) + k.grp)
  if field b 22 14 ≤ k.grp ∨ 0x3FF8 < off then none else some (bankLoc core off)

/-- The cores of a group's rectangle on which its teams stand, each with the number of its thread of slot 0 (R357, R359). -/
def memberCores (s : State) (g : Group) : List (Nat × Nat) :=
  match s.fw.launches[g.key.launch - 1]?.filter (fun _ => g.key.launch != 0) with
  | none => [(s.coreId, s.threadNo 0)].filter (fun c => g.hasCore c.1 && g.key.launch == 0)
  | some l =>
    (l.placed.filter (fun p => g.key.wide || p.1 == g.key.team)).flatMap (fun p =>
      ((List.range (l.w * l.h)).map (fun c =>
        (coreNum (coreX p.2 + c % l.w) (coreY p.2 + c / l.w), threadNum g.key.launch p.1 c 0))).filter
          (fun c => g.hasCore (shiftCore p.2 (l.homeCorner p.1 p.2) c.1)))

/-- A write of the barrier network, with no Rel: the word is set full and its waiters are served (R137, R307, R359). -/
def netWrite (s : State) (loc : Nat) (v : Nat) : State :=
  let p : PWrite := { id := s.nextId, src := srcNet, loc, data := bytesLE 8 v, fe := some true, rmw := false, known := [], rel := none }
  service (performFree { s.bump with wrote := true } p p.id) loc

/-- The barrier word's value (R358). -/
def barrierWord (gen arr mem : Nat) : Nat := gen % 2 ^ 32 * 2 ^ 32 + arr % 256 * 256 + mem % 256

/-- The slots of a core that a test selects, as a mask. -/
def slotsOf (f : Fin 8 → Bool) : Nat := ((List.finRange 8).filter f).foldl (fun m i => m + 2 ^ i.val) 0

/-- What a member core's word of a group holds; `base` is the number of its thread of slot 0 (R358). -/
def barrierValue (s : State) (g : Group) (base : Nat) : Nat :=
  barrierWord g.gen (slotsOf (fun i => g.arrived.any (fun a => a.1 == base + i.val))) (slotsOf (fun i => s.isMember g (base + i.val)))

/-- The writes to member cores of a team that is out are recorded in its image, the last for each word (R360). -/
def recordBarrier (s : State) (g : Group) (img : Image) : Image :=
  match s.fw.launches[img.launch.1]? with
  | none => img
  | some l =>
    if g.key.launch = img.launch.1 + 1 ∧ (g.key.wide = true ∨ g.key.team = img.launch.2.1) then
      let h := l.homeCorner img.launch.2.1 (coreNum img.launch.2.2.1 img.launch.2.2.2)
      let cs := (List.range (l.w * l.h)).filter (fun c => g.hasCore (coreNum (coreX h + c % l.w) (coreY h + c / l.w)))
      let old := img.barriers.filter (fun b => !(b.1 == g.key && cs.contains b.2.1))
      { img with barriers := old ++ cs.map (fun c => (g.key, c, barrierValue s g (threadNum g.key.launch img.launch.2.1 c 0))) }
    else img

/-- Writes each member core's word of a group from the group's record (R359, R360). -/
def writeBarrier (s : State) (g : Group) : State :=
  (memberCores s g).foldl (fun s c =>
    match barrierLoc s g.key c.1 with
    | some loc => netWrite s loc (barrierValue s g c.2)
    | none => s) { s with images := s.images.map (recordBarrier s g) }

/-- A slot's thread has an arrival at a group on its way. -/
def arrivalOnWay (s : State) (k : GroupKey) (slot : Fin 8) : Bool :=
  s.st.paths.any (fun r => (match r.kind with | .arrive k' => k' == k | _ => false) && r.slot == some slot)

/-- syn.arrive (R303, R308): a release write to the group, under the release condition. -/
def synArrivePlan : Plan where
  run := fun s v =>
    let a := low64 v
    let k := selector s a
    let t := s.thr
    if field a 63 9 ≠ 0 ∨ selectorBad s k.wide k.grp = true ∨ t.uh = true then .trap s reservedPort
    else
      match groupOf s k with
      | none => .trap s reservedPort
      | some g =>
        if !s.isMember g (s.threadNo s.cur) then .trap s reservedPort
        else if g.arrived.any (fun x => x.1 == s.threadNo s.cur) ||
            (pendingReqs s s.cur).any (fun r => match r.kind with | .arrive k' => k' == k | _ => false) then .hold none none .vac
        else
          let rel : Release := { scope := g.rect.setWidth 42, core := some s.home, src := s.src s.cur, rel := relOf s s.cur }
          let s1 := sendOther s .synArrive (low64 v) (.arrive k) false .module (some rel) s.waitAll
          .done (s1.onThr (fun t => { t with arrivals := (k, g.gen) :: t.arrivals.filter (fun x => x.1 != k) }))

/-- What a wait delivers: the floor gains every Rel of the generation, the L1 drops its lines, syn.o takes GEN (R309). -/
def deliverWait (s : State) (g : Group) (slot : Fin 8) (tag gen : Nat) : State :=
  let rels : List Release := (g.past.filter (fun p => p.1 == gen)).flatMap (·.2)
  (s.onSlot slot (fun t =>
    { t with floor := rels.foldl (fun f (r : Release) => floorAdd f r.rel) t.floor }.fill tag
      [{ port := .synO, val := BitVec.ofNat 128 (gen % 2 ^ 32), mark := none }] none)).onCore (fun c => { c with l1 := [], l1bad := [] })

/-- syn.wait (R303, R309). -/
def synWaitPlan : Plan where
  run := fun s v =>
    let a := low64 v
    let k := selector s a
    let t := s.thr
    if field a 63 9 ≠ 0 ∨ selectorBad s k.wide k.grp = true then .trap s reservedPort
    else
      match groupOf s k, t.arrivals.find? (fun x => x.1 == k) with
      | some g, some (_, gen) =>
        let tag := s.nextId
        let s1 := s.bump.setThr (t.owe tag [.synO] false none)
        if gen < g.gen then .done (deliverWait s1 g s.cur tag gen)
        else .done (putGroup s1 { g with waits := g.waits ++ [(s.cur, tag, gen)] })
      | _, _ => .trap s reservedPort

/-- How many threads a rectangle and a slot mask name in a group: those of the launch's teams, or of the group's own for a die group,
where they were placed, or of the core alone where no launch is recorded (R310, R357). -/
def popMask (m : Nat) : Nat := (List.range 8).foldl (fun n i => if m.testBit i then n + 1 else n) 0
def countMembers (s : State) (k : GroupKey) (rect : BitVec 40) (mask : Byte) : Nat :=
  match s.fw.launches[k.launch - 1]?.filter (fun _ => k.launch != 0) with
  | some l =>
    let slots := popMask (mask.toNat % 2 ^ l.s)
    ((s.corners (k.launch - 1)).filter (fun q => k.wide || q.1 == k.team)).foldl (fun n q =>
      let p := l.homeCorner q.1 q.2
      let x0 := max (field rect 9 0) (coreX p)
      let x1 := min (field rect 29 20 + 1) (coreX p + l.w)
      let y0 := max (field rect 19 10) (coreY p)
      let y1 := min (field rect 39 30 + 1) (coreY p + l.h)
      n + (x1 - x0) * (y1 - y0) * slots) 0
  | none =>
    let c := s.coreId
    if field rect 9 0 ≤ coreX c ∧ coreX c ≤ field rect 29 20 ∧ field rect 19 10 ≤ coreY c ∧ coreY c ≤ field rect 39 30 then
      popMask mask.toNat else 0

/-- A group takes a new membership (R310), and its word the new MEM (R359). Threads that ended stay counted as gone where
they are members. -/
def applyMask (s : State) (g : Group) (rect : BitVec 40) (mask : Byte) : State :=
  let g1 := { g with rect, mask, need := countMembers s g.key rect mask, pending := none, masked := true }
  let all := s.net.gone.filter (s.isMember g1)
  let g2 := { g1 with gone := all }
  writeBarrier (putGroup s g2) g2

/-- syn.mask (R303, R310): at once while no member has arrived, else when the open generation closes. -/
def synMaskPlan : Plan where
  sup := fun _ => true
  run := fun s v =>
    let a := low64 v
    let k := selector s a
    let x0 := s.thr.x[(0 : Fin 4)]
    let x1 := s.thr.x[(1 : Fin 4)]
    let rect : BitVec 40 := x0.setWidth 40
    let mask : Byte := x1.setWidth 8
    let die := dieOf s.home
    let inDie := decide (field rect 9 0 / 256 = die % 4) && decide (field rect 29 20 / 256 = die % 4) &&
      decide (field rect 19 10 / 256 = die / 4) && decide (field rect 39 30 / 256 = die / 4)
    if field a 63 9 ≠ 0 ∨ selectorBad s k.wide k.grp = true ∨ field x0 63 40 ≠ 0 ∨ field x1 63 8 ≠ 0 ∨
        field rect 29 20 < field rect 9 0 ∨ field rect 39 30 < field rect 19 10 ∨ (k.wide = false ∧ inDie = false) then .trap s reservedPort
    else
      let g0 : Group := { key := k, rect := 0, mask := 0, need := 0, arrived := [], gone := [], waits := [], gen := 0, pending := none, past := [] }
      let s0 := match groupOf s k with
        | some _ => s
        | none => { s with net := { s.net with groups := g0 :: s.net.groups } }
      let g := (groupOf s k).getD g0
      if g.arrived = [] then .done (applyMask s0 g rect mask)
      else .done (putGroup s0 { g with pending := some (rect, mask) })

/-- The writes of a source that have been performed. -/
def writesOf (s : State) (src : Nat) : List (Nat × Nat) :=
  (s.st.hist.filter (fun w => w.src == src)).flatMap (fun w => (List.range w.old.length).map (fun i => (w.loc + i, w.id)))

/-- An arrival reaches the group's record: this core's from its path, or another core's thread's with the floor and writes at
its issue that the step names. Of a thread that syn.mask has taken out of the group it is no arrival (R308, R310, R359). -/
def execBarrierNetworkArrival (grp : GroupKey) (thread : Arriving) (s : State) : Out :=
  let known := thread.known
  let thread := thread.thread
  match groupOf s grp with
  | none => .next s
  | some g =>
    if g.arrived.any (fun a => a.1 == thread) then .next s
    else if s.threadNo (Fin.ofNat 8 thread) = thread then
      match s.st.paths.find? (fun r => (match r.kind with | .arrive k => k == grp | _ => false) && r.slot == some (Fin.ofNat 8 thread)) with
      | none => .next s
      | some r =>
        let s1 := s.onSt (fun st => { st with paths := st.paths.filter (fun x => x.tag != r.tag) })
        let g1 := { g with arrived := g.arrived ++ [(thread, r.rel.getD { scope := 0, core := none, src := 0, rel := [] })] }
        if s.isMember g thread then .next (writeBarrier (putGroup s1 g1) g1) else .next s1
    else if !s.isMember g thread then .next s
    else
      let core := (s.coreOf thread).getD 0
      let cid := match s.fw.launches[grp.launch - 1]? with | some l => l.cid.val | none => s.thr.cid.val
      let g1 := { g with arrived := g.arrived ++ [(thread,
        { scope := g.rect.setWidth 42, core := some core, src := srcOf core (Fin.ofNat 8 thread) cid, rel := known })] }
      .next (writeBarrier (putGroup s g1) g1)

/-- Every member has arrived, ended or been killed; a group with no members never closes (R308, R310). -/
def Group.complete (g : Group) : Bool :=
  decide (0 < g.need) && decide (g.need ≤ g.arrived.length + (g.gone.filter (fun n => !g.arrived.any (fun a => a.1 == n))).length)

/-- A reservation request is bound to a generation of a group. -/
def Req.boundTo (r : Req) (grp : GroupKey) (gen : Nat) : Bool := match r.kind with | .lrw k n _ => k == grp && n == gen | _ => false

/-- The reservations in the banks of the teams that are out which a closing generation frees, and its requests that wait in them or for
an entry there: each is noted as refused in the image of its own team (R98, R100). -/
def strandAway (s : State) (grp : GroupKey) (gen : Nat) : State :=
  let bound (e : Resv) : Bool := e.grp == grp && e.gen == gen
  s.images.foldl (fun s img =>
    let s1 := { s with images := s.images.map (fun i => if i.launch = img.launch then
        { i with resvs := i.resvs.filter (fun e => !bound e), resvWait := i.resvWait.filter (fun r => !r.boundTo grp gen) } else i) }
    ((img.resvs.filter bound).flatMap (fun e => e.waiters.map (·.2)) ++ img.resvWait.filter (fun r => r.boundTo grp gen)).foldl (fun s r =>
      match r.slot with
      | some k => settleAway s (img.launch.1, img.launch.2.1, k) { req := r, slot := k, val := none, gain := [], kind := 1 }
      | none => refuseLrw s r 1) s1) s

/-- A generation closes, once the arrivals that ended or killed threads had sent are in: the counter moves on, reservations bound to it are freed and their waiters refused, the words
are rewritten, and the waits are delivered (R98, R308, R309, R359). -/
def execGenerationClose (grp : GroupKey) (s : State) : Out :=
  match groupOf s grp with
  | none => .next s
  | some g =>
    if !g.complete || (List.finRange 8).any (fun i => g.gone.contains (s.threadNo i) && arrivalOnWay s grp i) then .next s
    else
      let g1 := { g with
        gen := g.gen + 1, arrived := [], past := (g.gen, g.arrived.map (·.2)) :: g.past
        waits := g.waits.filter (fun w => decide (g.gen < w.2.2)) }
      let s1 := putGroup s g1
      let bound (e : Resv) : Bool := e.grp == grp && e.gen == g.gen
      let stranded := (s1.st.resvs.filter bound).flatMap (fun e => e.waiters.map (·.2)) ++
        s1.st.resvWait.filter (fun r => r.boundTo grp g.gen)
      let s2 := s1.onSt (fun st => { st with
        resvs := st.resvs.filter (fun e => !bound e)
        resvWait := st.resvWait.filter (fun r => !stranded.any (fun x => x.tag == r.tag)) })
      let s3 := stranded.foldl (fun s r => refuseLrw s r 1) (strandAway s2 grp g.gen)
      let s4 := resvRetry s3 s3.st.resvWait.length
      let s5 := match g1.pending with
        | some m => applyMask (writeBarrier s4 g1) g1 m.1 m.2
        | none => writeBarrier s4 g1
      .next ((g.waits.filter (fun w => decide (w.2.2 ≤ g.gen))).foldl (fun s w => deliverWait s g1 w.1 w.2.1 w.2.2) s5)

def execSynFence (sw : Bool) (g : Guard) (x : Source) (s : State) : Out := issueLong sw g x synFencePlan s
def execSynAcq (sw : Bool) (g : Guard) (x : Source) (s : State) : Out := issueLong sw g x synAcqPlan s
def execSynRel (sw : Bool) (g : Guard) (x : Source) (s : State) : Out := issueLong sw g x synRelPlan s
def execSynArrive (sw : Bool) (g : Guard) (x : Source) (s : State) : Out := issueLong sw g x synArrivePlan s
def execSynWait (sw : Bool) (g : Guard) (x : Source) (s : State) : Out := issueLong sw g x synWaitPlan s
def execSynMask (sw : Bool) (g : Guard) (x : Source) (s : State) : Out := issueLong sw g x synMaskPlan s

end Sys2Proof.Machine
end

