-- ==== Sys2Proof/Machine/Engine.lean ====
section
/-! DEFINITION. What the engines share: a whole word written at its ordering point (R295, R307), a read of a word for a thread, what the delivery of a command's completion adds (R307), and the places of the own-cluster window. -/

namespace Sys2Proof.Machine

/-- The release of an engine write: scope "every core of the module", issued by the core of its thread (R307). -/
def engineRel (s : State) (src : Nat) (rel : List (Nat × Nat)) : Release :=
  { scope := BitVec.ofNat 42 (2 ^ 40), core := some s.home, src, rel }

/-- An engine writes one word whole, with the mark that the word then carries (R139, R167); where it sets the word
full, it is a release write and waiters are served (R141, R295, R307). The source's number less that of command 0 is the
command that waits for the write's invalidations (R82, R106). -/
def engineWrite (s : State) (src loc word : Nat) (full : Bool) (known : List (Nat × Nat)) (rel : Option Release)
    (mark : BitVec 2 := 0#2) : State :=
  let p : PWrite := { id := s.nextId, src, loc, data := bytesLE 8 word, fe := if full then some true else none, rmw := false, known, rel := if full then rel else none, work := rel.map (·.src) }
  let s1 := performFree { s.bump with wrote := true } p (src - srcCmd 0)
  let s2 := if mark = 0#2 then s1 else s1.onSt (fun st => { st with marks := markSet st.marks (loc / 8) mark })
  if full then service s2 loc else s2

/-- The event of an engine's latch parity (R382). -/
def latchEvent (s : State) : McEvent :=
  { cluster := clusterOf s.coreId, bank := 2, cls := 1, src := 0x23, core := bankNo s.coreId, cause := 0, ad := 0
    sy := Config.syndrome s.freeCtr, th := 0 }

/-- The latches of an engine's next work: each error is logged and the work done again, as for a first winnower failure; it never fails
the work (R365, R381). (DEDUCED, log 86.) -/
def engineCheck (s : State) : State :=
  if s.core.engFlaw = 0 then s
  else (List.replicate s.core.engFlaw ()).foldl (fun s _ => s.mcLog (latchEvent s)) (s.onCore (fun c => { c with engFlaw := 0 }))

/-- The delivery of a command's completion counts as a read returning each write of its completed work (R307). -/
def absorb (s : State) (slot : Fin 8) (tags : List Nat) : State :=
  let ws := s.st.hist.filter (fun w => tags.any (fun g => w.src == srcCmd g))
  s.onSlot slot (fun t =>
    { t with
      floor := floorAdd t.floor (ws.flatMap (fun w => (List.range w.old.length).map (fun i => (w.loc + i, w.id))))
      relReads := ws.filterMap (·.rel) ++ t.relReads })

/-- The address of an offset of the own-cluster window (R54). -/
def winVa (off : Nat) : Word := BitVec.ofNat 64 (0xFE0000000000 + off)

/-- A 64-bit word read at its bank for a thread, its own pending writes up to `tag` forwarded, with the word's mark. -/
def bankWord (s : State) (slot : Fin 8) (tag loc : Nat) : List Byte × BitVec 2 :=
  (forwardOwn s slot tag loc (Mem.read s.st.mem loc 8), markOf (ownMarks s slot tag s.st.marks) (loc / 8))

/-- The words of the own-cluster window that `n` bytes at `off` touch. -/
def winWords (off n : Nat) : List Nat := touchedWords off n

/-- The code of each word of a window range is checked as it is read (R139). -/
def winScrub (s : State) (off n : Nat) : State := (winWords off n).foldl (fun s w => scrub s (winLoc s (8 * w)) 8) s

/-- The bytes of a window range, or the offset and mark of the first marked word. -/
def winBytes (s : State) (slot : Fin 8) (tag off n : Nat) : (Nat × BitVec 2) ⊕ List Byte :=
  let ws := (winWords off n).map (fun w => (w, bankWord s slot tag (winLoc s (8 * w))))
  match ws.find? (fun w => w.2.2 != 0#2) with
  | some w => .inl (8 * w.1, w.2.2)
  | none => .inr (((ws.flatMap (fun w => w.2.1)).drop (off % 8)).take n)

/-- The reads of a command return the writes that stand there (R297). -/
def winGains (s : State) (slot : Fin 8) (tag off n : Nat) : State :=
  (winWords off n).foldl (fun s w =>
    let loc := winLoc s (8 * w)
    gains s slot tag loc (pointMoment s.st loc 8)) s

end Sys2Proof.Machine
end

