-- ==== Sys2Proof/Machine/Sha.lean ====
section
/-! DEFINITION. SHA-256 (FIPS 180-4) of a message that fits one block: the 16 bytes of a digest's word (R115), and FEATEN (R406). -/

namespace Sys2Proof.Machine

/-- The round constants. -/
def shaK : List (BitVec 32) := [
  0x428A2F98, 0x71374491, 0xB5C0FBCF, 0xE9B5DBA5, 0x3956C25B, 0x59F111F1, 0x923F82A4, 0xAB1C5ED5,
  0xD807AA98, 0x12835B01, 0x243185BE, 0x550C7DC3, 0x72BE5D74, 0x80DEB1FE, 0x9BDC06A7, 0xC19BF174,
  0xE49B69C1, 0xEFBE4786, 0x0FC19DC6, 0x240CA1CC, 0x2DE92C6F, 0x4A7484AA, 0x5CB0A9DC, 0x76F988DA,
  0x983E5152, 0xA831C66D, 0xB00327C8, 0xBF597FC7, 0xC6E00BF3, 0xD5A79147, 0x06CA6351, 0x14292967,
  0x27B70A85, 0x2E1B2138, 0x4D2C6DFC, 0x53380D13, 0x650A7354, 0x766A0ABB, 0x81C2C92E, 0x92722C85,
  0xA2BFE8A1, 0xA81A664B, 0xC24B8B70, 0xC76C51A3, 0xD192E819, 0xD6990624, 0xF40E3585, 0x106AA070,
  0x19A4C116, 0x1E376C08, 0x2748774C, 0x34B0BCB5, 0x391C0CB3, 0x4ED8AA4A, 0x5B9CCA4F, 0x682E6FF3,
  0x748F82EE, 0x78A5636F, 0x84C87814, 0x8CC70208, 0x90BEFFFA, 0xA4506CEB, 0xBEF9A3F7, 0xC67178F2]

/-- The eight working words and the next sixteen words of the schedule. -/
structure Sha where
  a : BitVec 32
  b : BitVec 32
  c : BitVec 32
  d : BitVec 32
  e : BitVec 32
  f : BitVec 32
  g : BitVec 32
  h : BitVec 32
  w : List (BitVec 32)
  deriving DecidableEq, Repr

def Sha.init : Sha where
  a := 0x6A09E667#32
  b := 0xBB67AE85#32
  c := 0x3C6EF372#32
  d := 0xA54FF53A#32
  e := 0x510E527F#32
  f := 0x9B05688C#32
  g := 0x1F83D9AB#32
  h := 0x5BE0CD19#32
  w := []

def shaRound (s : Sha) (k : BitVec 32) : Sha :=
  let w (i : Nat) : BitVec 32 := s.w.getD i 0
  let s1 := s.e.rotateRight 6 ^^^ s.e.rotateRight 11 ^^^ s.e.rotateRight 25
  let ch := (s.e &&& s.f) ^^^ (~~~s.e &&& s.g)
  let t1 := s.h + s1 + ch + k + w 0
  let s0 := s.a.rotateRight 2 ^^^ s.a.rotateRight 13 ^^^ s.a.rotateRight 22
  let maj := (s.a &&& s.b) ^^^ (s.a &&& s.c) ^^^ (s.b &&& s.c)
  let m1 := (w 14).rotateRight 17 ^^^ (w 14).rotateRight 19 ^^^ (w 14) >>> 10
  let m0 := (w 1).rotateRight 7 ^^^ (w 1).rotateRight 18 ^^^ (w 1) >>> 3
  { a := t1 + s0 + maj, b := s.a, c := s.b, d := s.c, e := s.d + t1, f := s.e, g := s.f, h := s.g
    w := s.w.drop 1 ++ [m1 + w 9 + m0 + w 0] }

/-- Four bytes as a big-endian word, and back. -/
def word32 (b : List Byte) : BitVec 32 := BitVec.ofNat 32 (natLE (b.take 4).reverse)
def bytes32 (v : BitVec 32) : List Byte := (bytesLE 4 v.toNat).reverse

/-- The one block of a message of at most 55 bytes: a 1 bit, zeros, and the length in bits, as big-endian words. -/
def shaBlock (m : List Byte) : List (BitVec 32) :=
  let b := m ++ [0x80#8] ++ List.replicate (55 - m.length) 0#8 ++ (bytesLE 8 (8 * m.length)).reverse
  (List.range 16).map (fun i => word32 (b.drop (4 * i)))

/-- The digest of a message of at most 55 bytes as a 256-bit little-endian integer (R115). -/
def sha256 (m : List Byte) : Nat :=
  let i := Sha.init
  let s := shaK.foldl shaRound { i with w := shaBlock m }
  natLE ([i.a + s.a, i.b + s.b, i.c + s.c, i.d + s.d, i.e + s.e, i.f + s.f, i.g + s.g, i.h + s.h].flatMap bytes32)

end Sys2Proof.Machine
end

