-- ==== Sys2Proof/Machine/Sys.lean ====
section
/-! DEFINITION. sys: operations 137 to 142 (R75 to R78, R187 to R189, R375 to R380), and the shootdown's acknowledgement. -/

namespace Sys2Proof.Machine

/-- The register that an index names, where the access at this level allows it (R188). -/
def crIndex (s : State) (v : Word) : Fin 25 ⊕ Word :=
  if h : v.toNat < 25 then
    let i : Fin 25 := ⟨v.toNat, h⟩
    if !s.thr.sup && !(crUser i).1 then .inr (causeOf 3) else .inl i
  else .inr reservedPort

/-- sys.crr delivers a register to sys.o after one rotation (R187, R189). -/
def sysCrrPlan : Plan where
  run := fun s v =>
    match crIndex s (low64 v) with
    | .inr c => .trap s c
    | .inl i => sendFixed s 1 [(.sysO, quad (crRead s i))]

/-- sys.crw writes the fields of a register that are writable at this level from x0 (R189). -/
def sysCrwPlan : Plan where
  run := fun s v =>
    match crIndex s (low64 v) with
    | .inr c => .trap s c
    | .inl i => .done (crWrite s i s.thr.x[(0 : Fin 4)])

/-- The outcome of a return or a delivery as a word's verdict. -/
def verdictOf (o : Out) (s : State) : Verdict :=
  match o with
  | .next s1 => .jump s1 s1.thr.pc
  | .fault f => .stop f
  | .refused _ => .done s

/-- sys.eret: it parks until the results owed to the handler's own triggers have been delivered, then returns (R376, R377). -/
def sysEretPlan : Plan where
  sup := fun s => !s.thr.uh
  run := fun s v =>
    if low64 v ≠ 0#64 then .trap s reservedPort
    else if returnWaits s s.cur then .done (s.onThr (fun t => { t with mode := .ereting }))
    else verdictOf (returnFromException s s.cur) s

/-- The operands that R76 refuses. -/
def tlbiBad (v x0 x1 : Word) : Bool :=
  let sc : Scope := x1.setWidth 42
  decide (field x0 63 14 ≠ 0) || decide (field x0 7 2 ≠ 0) || decide (field x0 1 0 = 3) || decide (field x1 63 42 ≠ 0) ||
  scALL sc || (!scTO sc && (decide (field sc 29 20 < field sc 9 0) || decide (field sc 39 30 < field sc 19 10))) ||
  (decide (field x0 1 0 = 0) && !(classify v == .paged))

/-- sys.tlbi: the shootdown is counted from its issue and held while earlier counted requests remain (R76 to R78). (DEDUCED, log 19.) -/
def sysTlbiPlan : Plan where
  sup := fun _ => true
  run := fun s v =>
    let va := low64 v
    let t := s.thr
    let x0 := t.x[(0 : Fin 4)]
    let x1 := t.x[(1 : Fin 4)]
    if tlbiBad va x0 x1 then .trap s reservedPort
    else if t.ringFull then .hold none none .mem
    else
      let tag := s.nextId
      let sc : Scope := x1.setWidth 42
      let e : Tlbi := { slot := s.cur, tag, kind := x0.setWidth 2, cid := BitVec.ofNat 6 (field x0 13 8), va, scope := sc, sent := false, waits := [] }
      .done ((s.bump.setThr ((t.ringTake tag (some .sysTlbi) va).count tag (.scope sc))).onSt (fun st => { st with tlbis := st.tlbis ++ [e] }))

/-- What a shootdown matches (R77). -/
def Tlbi.hits (e : Tlbi) (t : TlbEntry) : Bool :=
  match e.kind.toNat with
  | 0 => t.cid == e.cid && decide (t.va ≤ field e.va 47 0) && decide (field e.va 47 0 < t.va + t.size)
  | 1 => t.cid == e.cid
  | _ => true

def Tlbi.hitsWalk (e : Tlbi) (w : WalkEntry) : Bool :=
  match e.kind.toNat with
  | 0 => w.cid == e.cid && w.key == field e.va 47 0 / 2 ^ levelShift w.level
  | 1 => w.cid == e.cid
  | _ => true

/-- Removes what a shootdown of core `self` matches, from the core's TLB and from the clusters' where they lie in its scope (R77). -/
def shoot (s : State) (self : Nat) (e : Tlbi) : State :=
  let s1 := if inScope e.scope self s.coreId then s.onCore (fun c => { c with tlb1 := c.tlb1.filter (fun t => !e.hits t) }) else s
  let near (k : Nat) : Bool := meets e.scope self (.cluster k)
  s1.onSt (fun st => { st with
    tlb2 := st.tlb2.filter (fun t => !(near t.cluster && e.hits t))
    walkc := st.walkc.filter (fun w => !(near w.cluster && e.hitsWalk w)) })

/-- The accesses to paged memory that the core's words have issued and that are not yet ordered: stores and elements on their
way, requests that their home slice has still to take, and loads that have not returned (R77). One that waits at its word, unserved, has been
taken there and counts as ordered. (DESIGN CHOICE, log 19.) -/
def unordered (s : State) : List Nat :=
  ((s.st.paths ++ s.st.queue ++ s.slots.toList.flatMap (·.psq) ++ s.core.streams.toList.flatMap (·.out)).filter
    (fun r => r.slot.isSome && r.toMemory && !isBank r.loc)).map (·.tag) ++
  s.slots.toList.flatMap (fun t => (t.owed.filter (fun o => o.read.isSome)).map (·.tag))

/-- Takes an acknowledged request out of a slot's counts and ring. -/
def uncount (s : State) (slot : Fin 8) (tag : Nat) : State :=
  s.onSlot slot (fun t => { t.ringFree tag with counted := t.counted.filter (fun c => c.tag != tag) })

/-- A shootdown goes on. A slot's is sent once nothing counted before it remains, and acknowledged once every access that the
core had issued when its entries went has been ordered; another core's takes its entries here (R77). -/
def execTlbiAcknowledge (by_ : Shootdown) (s : State) : Out :=
  match by_ with
  | .other core kind cid va scope =>
    .next (shoot s core { slot := 0, tag := 0, kind, cid, va, scope, sent := true, waits := [] })
  | .own slot =>
    match s.st.tlbis.find? (fun e => e.slot == slot) with
    | none => .next s
    | some e =>
      if !e.sent then
        if s.slots[slot].counted.any (fun c => decide (c.tag < e.tag)) then .next s
        else
          .next ((shoot s s.coreId e).onSt (fun st => { st with
            tlbis := st.tlbis.map (fun x => if x.tag = e.tag then { x with sent := true, waits := unordered s } else x) }))
      else if (unordered s).any e.waits.contains then .next s
      else .next (uncount (s.onSt (fun st => { st with tlbis := st.tlbis.filter (fun x => x.tag != e.tag) })) slot e.tag)

/-- sys.mwait: cr.mon, the monitor entry, and the compare in the same step (R376, R378). (DEDUCED, log 66.) -/
def sysMwaitPlan : Plan where
  sup := fun _ => true
  run := fun s v =>
    let va := low64 v
    let t := s.thr
    if field va 63 48 = 0 ∧ field va 47 41 = 0x7F then .trap s reservedPort
    else if va.toNat % 8 ≠ 0 then .trap s (alignFault 8 va)
    else
      match dataWalk s t.walker va with
      | some a => .walk a
      | none =>
        match translate s t.walker { user := !t.sup, fetch := false, write := false, sync := false } va with
        | .bad c s1 => .trap s1 c
        | .stop f => .stop f
        | .ok loc _ s0 =>
          let s1 := pointScrub s0 loc 8
          let mon := va &&& 0x0000FFFFFFFFFF80#64
          let s2 := monitorPut s1 { line := lineOf loc, core := s1.coreId, slot := s1.cur }
          if BitVec.ofNat 64 (read64 s1.st loc) ≠ t.x[(0 : Fin 4)] then
            let t1 := (s2.thr.setCr crMon mon).send s2.nextId 1 [.sysO] (some [{ port := .sysO, val := 4#128, mark := none }]) none
            .done ((s2.bump.setThr t1).unmonitor s2.cur)
          else
            .done (s2.setThr { s2.thr.setCr crMon (mon ||| 1#64) with mode := .mwait })

/-- A die of the module that holds every feature of a set; no die holds one above F3 (R49, R316, R380). -/
def dieFor (s : State) (want : Word) : Option (Fin 16) :=
  (List.finRange 16).find? (fun d => (List.range 64).all (fun b => !want.getLsbD b || featOn s d.val b))

/-- Whether a thread's list holds a task after the current one (R314). -/
def Thread.more (t : Thread) : Bool := !t.dispatched && decide (t.task + t.stride < t.ntask)

/-- sys.halt (R376, R380): the task's end, or a request for migration. A halt that issues again after an event only
resumes the wait: the next task begins in a step of its own (R341). -/
def sysHaltPlan : Plan where
  run := fun s v =>
    let a := low64 v
    let t := s.thr
    if field a 1 0 = 1 ∧ t.sup = false then .trap s (causeOf 3)
    else if field a 63 2 ≠ 0 ∨ 2 ≤ field a 1 0 ∨ t.uh = true then .trap s reservedPort
    else if field a 1 0 = 1 then .done (s.setThr { t with mode := .migrate (t.cr[crFeat] ||| t.x[(0 : Fin 4)]) })
    else .done (s.setThr { t with mode := if t.dispatched then .dispatch else if t.more then .taskEnd else .ending })

def execSysCrr (sw : Bool) (g : Guard) (x : Source) (s : State) : Out := issueLong sw g x sysCrrPlan s
def execSysCrw (sw : Bool) (g : Guard) (x : Source) (s : State) : Out := issueLong sw g x sysCrwPlan s
def execSysEret (sw : Bool) (g : Guard) (x : Source) (s : State) : Out := issueLong sw g x sysEretPlan s
def execSysTlbi (sw : Bool) (g : Guard) (x : Source) (s : State) : Out := issueLong sw g x sysTlbiPlan s
def execSysMwait (sw : Bool) (g : Guard) (x : Source) (s : State) : Out := issueLong sw g x sysMwaitPlan s
def execSysHalt (sw : Bool) (g : Guard) (x : Source) (s : State) : Out := issueLong sw g x sysHaltPlan s

end Sys2Proof.Machine
end

