-- ==== Sys2Proof/Machine/Str.lean ====
section
/-! DEFINITION. str: operations 117 and 118, and the stream transfer unit (R190 to R198). -/

namespace Sys2Proof.Machine

/-- Whether a slot holds a thread of a context (R193). -/
def slotHolds (s : State) (i : Fin 8) (cid : Fin 64) : Bool :=
  match s.slots[i].mode with
  | .absent | .ended | .killed => false
  | _ => s.slots[i].cid == cid

/-- A signed 32-bit stride in a register's half (R192). -/
def stride (v : Word) (hi : Bool) : Int := signedAt 32 (if hi then field v 63 32 else field v 31 0)

/-- str.bind (R191 to R193, R195). -/
def strBindPlan : Plan where
  inRun := fun _ => true
  run := fun s v =>
    let b := low64 v
    let t := s.thr
    let n : Fin 8 := Fin.ofNat 8 (field b 2 0)
    let st := s.core.streams[n]
    if field b 63 12 ≠ 0 then .trap s reservedPort
    else if b.getLsbD 3 then
      let p : Fin 8 := Fin.ofNat 8 (field b 6 4)
      let c : Fin 8 := Fin.ofNat 8 (field b 9 7)
      if field b 11 10 ≠ 0 then .trap s reservedPort
      else if (p ≠ s.cur ∧ c ≠ s.cur) ∨ (p ≠ s.cur ∧ slotHolds s p t.cid = false) ∨ (c ≠ s.cur ∧ slotHolds s c t.cid = false) then .trap s reservedPort
      else if st.bind.isSome then .trap s (streamCause n 6 0)
      else .done (s.onCore (fun k => { k with streams := k.streams.set n { st with bind := some (.queue p c), q := [] } }))
    else
      let x := t.x
      let wide := b.getLsbD 11
      let store := b.getLsbD 10
      let size := if wide then 16 else 8
      let counts : Vector Nat 4 := #v[field x[(1 : Fin 4)] 15 0, field x[(1 : Fin 4)] 31 16, field x[(1 : Fin 4)] 47 32, field x[(1 : Fin 4)] 63 48]
      let strides : Vector Int 4 := #v[stride x[(2 : Fin 4)] false, stride x[(2 : Fin 4)] true, stride x[(3 : Fin 4)] false, stride x[(3 : Fin 4)] true]
      let base := x[(0 : Fin 4)]
      if field b 9 4 ≠ 0 then .trap s reservedPort
      else if counts.any (· == 0) || decide (base.toNat % size ≠ 0) || strides.any (fun k => k % size != 0) then .trap s reservedPort
      else if classify base = .nonCanon then .trap s (causeVa 7 1 0 base)
      else if classify base = .hole then .trap s (causeVa 7 2 0 base)
      else if st.bind.isSome then .trap s (streamCause n 6 0)
      else if !store && !t.counted.isEmpty then .hold none none .mem
      else .done (s.onCore (fun k => { k with streams := k.streams.set n { st with bind := some (.pattern s.cur (!t.sup) store wide base counts strides 0 0 t.cr[crCtx]), q := [] } }))

/-- str.free (R197). -/
def strFreePlan : Plan where
  inRun := fun _ => true
  run := fun s v =>
    let b := low64 v
    let n : Fin 8 := Fin.ofNat 8 (field b 2 0)
    let st := s.core.streams[n]
    let free (s : State) : Verdict := .done (s.onCore (fun k => { k with streams := k.streams.set n { st with bind := none, q := [] } }))
    if field b 63 3 ≠ 0 then .trap s reservedPort
    else
      match st.bind with
      | none => .trap s (streamCause n 1 0)
      | some (.queue p c) =>
        if p = s.cur then (if st.q = [] then free s else .hold none none .msg)
        else if c = s.cur then (if st.q = [] then free s else .trap s (streamCause n 5 0))
        else .trap s (streamCause n 1 0)
      | some (.pattern o _ _ _ _ _ _ _ _ _) => if o = s.cur then free s else .trap s (streamCause n 1 0)

/-- The cause of an element's mark: poison names the word, a never-produced mark the element (R151, R195). -/
def elementMark (loc size : Nat) (va : Word) (m : Nat × BitVec 2) : Word :=
  if m.2 = 1#2 then (markCause loc size va m).2 else causeVa 0x0C (if m.2 = 2#2 then 1 else 2) 0 va

/-- The stream transfer unit reads the next element of a load pattern, with the context of its bind: a fault, a mark or a
refusal makes a marked entry (R189, R195). -/
def execPatternElementRead (n : Fin 8) (s : State) : Out :=
  let st := s.core.streams[n]
  match st.bind with
  | some (.pattern o user false wide base counts strides next popped ctx) =>
    if 8 ≤ st.q.length ∨ patternSize counts ≤ next then .next s
    else
      let va := patternAddr base counts strides next
      let size := if wide then 16 else 8
      let cid := field ctx 5 0
      let w : Walker := { cid, root := field ctx 51 12 * 4096, user, l1 := false, th := s.slots[o].mcth o, slots := [o] }
      let push (s : State) (e : StrEntry) : Out :=
        let st' : Stream := { st with bind := some (.pattern o user false wide base counts strides (next + 1) popped ctx), q := st.q ++ [e] }
        .next (s.onCore (fun k => { k with streams := k.streams.set n st' }))
      match translate s w { user, fetch := false, write := false, sync := false } va with
      | .stop f => .fault f
      | .bad c s1 =>
        push s1 { val := 0, fault := some (if field c 7 0 = 7 then streamCause n 2 va else if field c 7 0 = 8 then streamCause n 3 va else c) }
      | .ok loc _ s1 =>
        if meshRefused s1 cid va loc then push s1 { val := 0, fault := some (streamCause n 7 va) }
        else if amoPending s1 o loc size then .next s
        else
          let ((b, m), s2) := threadRead (if isBank loc then s1 else lineRead s1 (dieOf s1.coreId) (lineOf loc)) o (some (dieOf s1.coreId)) s1.nextId loc size
          push s2 { val := BitVec.ofNat 128 (natLE b), fault := m.map (elementMark loc size va) }
  | _ => .next s

/-- The stream transfer unit sends the oldest pushed element of a store pattern on its way, as one store of its thread in the
order of issue (R147, R196, R298). -/
def execPatternElementWrite (n : Fin 8) (s : State) : Out :=
  let st := s.core.streams[n]
  match st.out with
  | [] => .next s
  | r :: rest =>
    match r.slot with
    | none => .next s
    | some o =>
      if 16 ≤ s.slots[o].queuedStores then .next s
      else .next ((s.onCore (fun k => { k with streams := k.streams.set n { st with out := rest } })).onSlot o (fun t => { t with psq := insReq t.psq r }))

def execStrBind (sw : Bool) (g : Guard) (x : Source) (s : State) : Out := issueLong sw g x strBindPlan s
def execStrFree (sw : Bool) (g : Guard) (x : Source) (s : State) : Out := issueLong sw g x strFreePlan s

end Sys2Proof.Machine
end

