-- ==== Sys2Proof/Machine/Trk.lean ====
section
/-! DEFINITION. trk: operations 56 to 63 and the track unit (R116 to R134). -/

namespace Sys2Proof.Machine

/-- The owner that a slot's thread is (R120). -/
def ownerOf (s : State) (i : Fin 8) : Fin 8 × BitVec 6 := (i, BitVec.ofNat 6 s.slots[i].cid.val)

def State.track (s : State) (n : Fin 32) : Track := s.core.tracks[n]
def State.setTrack (s : State) (n : Fin 32) (k : Track) : State := s.onCore (fun c => { c with tracks := c.tracks.set n k })

/-- Commands queued on all tracks of the core; sixteen fill the queue (R118). -/
def trackQueued (s : State) : Nat := (s.core.tracks.toList.map (fun k => k.queue.length)).foldl (· + ·) 0

/-- The faults of R124 that concern the track, for an operation other than trk.claim; `free` says trk.free. A poisoned
track is first reported as kind 1 (R130), afterwards as kind 2. -/
def trackFault (s : State) (n : Fin 32) (free : Bool) : Option Word :=
  let k := s.track n
  match k.owner with
  | none => some (trackCause 0x0A 1 n k.h)
  | some o =>
    if o ≠ ownerOf s s.cur then some (trackCause 0x0A 2 n k.h)
    else if k.poisoned && !free then some (trackCause 0x0B (if k.lost then 1 else 2) n k.h)
    else none

/-- The track that trk.n names. -/
def Thread.trackNo (t : Thread) : Fin 32 := Fin.ofNat 32 (field (t.opw .trkN) 4 0)

/-- STEP of x0 (R123). -/
def Thread.trackStep (t : Thread) : Int := signedAt 4 (field t.x[(0 : Fin 4)] 3 0)

/-- Charges cr.shift, modulo 2^48 (R128). -/
def Thread.charge (t : Thread) (d : Nat) : Thread :=
  t.setCr crShift (BitVec.ofNat 64 ((field t.cr[crShift] 47 0 + d) % 2 ^ 48))

def onTrack (h : Int) : Bool := decide (0 ≤ h) && decide (h < 512)

/-- The checks shared by the trk operations other than trk.claim: reserved bits, ownership and poison, the range, then the
command queue (R118, R124). `range` gives the head that the operation leaves. -/
def trackPlan (step free : Bool) (valueOk : Word → Bool) (head : Thread → Word → Nat → Int)
    (effect : State → Fin 32 → Track → Word → Nat → State) : Plan where
  run := fun s q =>
    let v := low64 q
    let t := s.thr
    let n := t.trackNo
    let k := s.track n
    if field (t.opw .trkN) 63 5 ≠ 0 ∨ (step = true ∧ field t.x[(0 : Fin 4)] 63 4 ≠ 0) ∨ valueOk v = false then .trap s reservedPort
    else
      match trackFault s n free with
      | some c => .trap s c
      | none =>
        let h := head t v k.h
        if !onTrack h then .trap s reservedPort
        else if 16 ≤ trackQueued s then .hold none none .mem
        else .done (effect s n k v h.toNat)

def noValue (v : Word) : Bool := v == 0#64

/-- trk.claim; a track still being cleared holds it (R120, R124, R130). (DEDUCED, log 34.) -/
def trkClaimPlan : Plan where
  run := fun s q =>
    let t := s.thr
    let n := t.trackNo
    let k := s.track n
    if field (t.opw .trkN) 63 5 ≠ 0 ∨ low64 q ≠ 0#64 then .trap s reservedPort
    else
      match k.owner with
      | some o => .trap s (trackCause 0x0A (if o = ownerOf s s.cur then 3 else 2) n k.h)
      | none =>
        if k.retired then .trap s (trackCause 0x0B 3 n k.h)
        else if k.clearing then .hold none none .vac
        else if 16 ≤ trackQueued s then .hold none none .mem
        else .done (s.setTrack n { k with owner := some (ownerOf s s.cur) })

/-- trk.free: ownership ends at once; a poisoned track is then cleared (R125, R127, R130). -/
def trkFreePlan : Plan := trackPlan false true noValue (fun _ _ h => h) (fun s n k _ _ =>
  s.setTrack n { k with owner := none, clearing := k.poisoned, queue := if k.poisoned then k.queue else k.queue ++ [.release s.cur] })

/-- trk.seek (R125). -/
def trkSeekPlan : Plan := trackPlan false false (fun _ => true) (fun _ v _ => (v.toNat : Int)) (fun s n k _ h =>
  (s.onThr (fun t => t.charge (Int.natAbs ((h : Int) - k.h)))).setTrack n { k with h, queue := k.queue ++ [.shift h s.cur] })

/-- trk.step (R125). -/
def trkStepPlan : Plan := trackPlan false false (fun _ => true) (fun _ v h => (h : Int) + v.toInt) (fun s n k _ h =>
  (s.onThr (fun t => t.charge (Int.natAbs ((h : Int) - k.h)))).setTrack n { k with h, queue := k.queue ++ [.shift h s.cur] })

/-- trk.rds: fenced on trk.o (R119, R125). -/
def trkRdsPlan : Plan := trackPlan true false noValue (fun t _ h => (h : Int) + t.trackStep) (fun s n k _ h =>
  let t := s.thr
  let st := t.trackStep
  let t1 := (t.charge st.natAbs).owe s.nextId [.trkO] false none
  (s.setThr t1).bump.setTrack n { k with h, queue := k.queue ++ [.read k.h st s.cur s.nextId] })

/-- trk.wrs (R125). -/
def trkWrsPlan : Plan := trackPlan true false noValue (fun t _ h => (h : Int) + t.trackStep) (fun s n k _ h =>
  let t := s.thr
  let st := t.trackStep
  (s.setThr (t.charge st.natAbs)).setTrack n { k with h, queue := k.queue ++ [.write k.h st (t.opq .trkD) s.cur] })

/-- trk.rwd (R125). -/
def trkRwdPlan : Plan := trackPlan false false noValue (fun _ _ _ => 0) (fun s n k _ h =>
  (s.onThr (fun t => t.charge k.h)).setTrack n { k with h, queue := k.queue ++ [.rewind s.cur] })

/-- trk.head: fenced on trk.h, the head as it stands at issue (R125). -/
def trkHeadPlan : Plan := trackPlan false false noValue (fun _ _ h => h) (fun s n k _ _ =>
  let t1 := s.thr.owe s.nextId [.trkH] false none
  (s.setThr t1).bump.setTrack n { k with queue := k.queue ++ [.head k.h s.cur s.nextId] })

-- ## The track unit (R125 to R130)

/-- A core's error on a track for the machine-check bank (R382). -/
def trackEvent (s : State) (n : Fin 32) (pos cls src : Nat) : State :=
  let core := bankNo s.coreId
  let th : Word := if cls = 2 then
      match (s.track n).owner with
      | some o => s.slots[o.1].mcth o.1
      | none => 0
    else 0
  s.mcLog { cluster := clusterOf s.coreId, bank := 1, cls, src, core, cause := if cls = 2 ∧ (s.track n).owner.isSome = true then 0x0B else 0
            ad := BitVec.ofNat 64 (pos + n.val * 2 ^ 9 + core * 2 ^ 14), sy := Config.syndrome s.freeCtr, th }

/-- TAG at the port after SEC-DED, where the code does not report two errors (R129). No cell stands beyond positions 0 to 511: the
tag is unknown there. (DESIGN CHOICE, log 105.) -/
def Track.tagAt (k : Track) (h : Nat) : Option Nat :=
  let a : Int := h + k.slip
  if !onTrack a || k.bad.contains (a.toNat, true) then none else some (a.toNat % 128)

/-- The home search of R129 from a place of the port: the positions shifted until the marker is sensed, toward position 0 first and then
the other way, none where it is absent or more than 512 positions from that place. (DEDUCED, log 105.) -/
def Track.home? (k : Track) (a : Int) : Option Nat :=
  if k.marker && decide (a.natAbs ≤ 512) then some (if 0 ≤ a then a.natAbs else 1024 + a.natAbs) else none

/-- The alignment of R129 before a port access at `h`: the track, the positions it was shifted, whether a correction is
logged, and whether the access is performed. -/
def Track.align (k : Track) (h : Nat) : Track × Nat × Bool × Bool :=
  let search (k : Track) (moved : Nat) : Track × Nat × Bool × Bool :=
    match k.home? (h + k.slip) with
    | some n => ({ k with slip := 0, phys := h }, moved + n + h, true, true)
    | none => (k, moved + 1024, false, false)
  let near (d : Int) : Track × Nat × Bool × Bool :=
    let k1 := { k with slip := k.slip - d }
    if k1.tagAt h = some (h % 128) then (k1, d.natAbs, true, true) else search k1 d.natAbs
  match k.tagAt h with
  | none => search k 0
  | some t =>
    let d : Int := (((t : Int) - h) + 64) % 128 - 64
    if d = 0 then (k, 0, false, true)
    else if d.natAbs ≤ 3 then near d
    else search k 0

def Track.cell (k : Track) (a : Nat) : Quad :=
  match k.cells.find? (fun c => c.1 == a) with
  | some c => c.2
  | none => 0#128

/-- Writes DATA with its TAG and CHK; a cell of zeros is not listed. -/
def insCell : List (Nat × Quad) → Nat → Quad → List (Nat × Quad)
  | [], a, d => [(a, d)]
  | x :: r, a, d => if x.1 < a then x :: insCell r a d else if x.1 = a then (a, d) :: r else (a, d) :: x :: r

def Track.write (k : Track) (a : Nat) (d : Quad) : Track :=
  { k with
    cells := if d = 0#128 then k.cells.filter (fun c => c.1 != a) else insCell k.cells a d
    bad := k.bad.filter (fun b => b.1 != a) }

/-- Adds positions to the debug module's count of realignment (R128, R390). (DEDUCED, log 31.) -/
def countRealigned (s : State) (d : Nat) : State := s.onCore (fun c => { c with realigned := c.realigned + BitVec.ofNat 48 d })

/-- A result that a failed or discarded command owed: reading it raises 0x0B kind 1, at every read while the value stands (R130; log
30). trk.h has no saved cause (R182);
its cause stands in the thread. (DEDUCED, log 29.) The value that stands in the port, and in its area's entry, is the one that
the port held when the command failed: the spec names none. (DESIGN CHOICE, log 84.) -/
def lostResult (s : State) (n : Fin 32) (slot : Fin 8) (tag : Nat) (port : RPort) : State :=
  let c := trackCause 0x0B 1 n (s.track n).h
  s.onSlot slot (fun t => t.fill tag [{ port, val := t.rpq port, mark := some (false, c) }] none)

/-- The head of a track when a copy with a side on it issued (R131). -/
def Copy.headAt (c : Copy) (n : Fin 32) : Nat := ((c.heads.find? (fun h => h.1 == n)).map (·.2)).getD 0

/-- The effect of a failure on each command behind it: reads are owed as lost, a copy ends with CODE 0x0B, the rest has
no effect (R108, R130). -/
def discardTrk (s : State) (n : Fin 32) (c : TrkCmd) : State :=
  match c with
  | .read _ _ slot tag => lostResult s n slot tag .trkO
  | .head _ slot tag => lostResult s n slot tag .trkH
  | .copy tag => s.onCore (fun k => { k with copies := k.copies.map (fun x =>
      if x.tag = tag ∧ x.ended = none then { x with ended := some (2#8, trackCause 0x0B 1 n (x.headAt n)) } else x) })
  | _ => s

/-- The track is poisoned (R130); one that has no owner is cleared at once, as after a trk.free. (DESIGN CHOICE, log 75.) -/
def poisonTrack (s : State) (n : Fin 32) (pos : Nat) : State :=
  let k := s.track n
  let s1 := k.queue.foldl (fun s c => discardTrk s n c) (trackEvent s n pos 2 0x12)
  s1.setTrack n { k with poisoned := true, lost := true, queue := [], clearing := k.owner.isNone }

/-- A port access at `h`: the alignment of R129, then the access or the poisoning. -/
def portAccess (s : State) (n : Fin 32) (h : Nat) (k : State → Track → State) : State :=
  let (t1, moved, log, ok) := (s.track n).align h
  let s1 := (countRealigned s moved).setTrack n t1
  if ok then k (if log then trackEvent s1 n h 1 0x10 else s1) t1 else poisonTrack s1 n h

/-- The value that a read delivers: a single error is corrected in the cell, a double one gives 0x11 kind 4 (R129, R130). The
DATA that a poisoned trk.o holds for such a cell is the cell's stored DATA: the spec names none. (DESIGN CHOICE, log 84.) -/
def readCell (s : State) (n : Fin 32) (k : Track) (h : Nat) : Quad × Option (Bool × Word) × State :=
  let a := (h + k.slip).toNat
  if k.bad.contains (a, true) then (k.cell a, some (false, trackCause 0x11 4 n k.h), s)
  else if k.bad.contains (a, false) then
    (k.cell a, none, (trackEvent s n h 1 0x11).setTrack n { k with bad := k.bad.filter (fun b => b.1 != a) })
  else (k.cell a, none, s)

/-- The track unit performs the oldest command of a track; a copy's place is left by the copy (R125 to R130, R134). -/
def execTrackCommandPerform (n : Fin 32) (s : State) : Out :=
  let k := s.track n
  match k.queue with
  | [] => .next s
  | c :: r =>
    let done (s : State) (phys : Int) : State := s.setTrack n { s.track n with queue := r, phys }
    match c with
    | .copy _ => .next s
    | .shift h _ => .next (done s h)
    | .read pos step slot tag =>
      .next (portAccess s n pos.toNat (fun s1 t1 =>
        let (v, mark, s2) := readCell s1 n t1 pos.toNat
        done (s2.onSlot slot (fun t => t.fill tag [{ port := .trkO, val := v, mark }] none)) (pos + step)))
    | .write pos step d _ =>
      .next (portAccess s n pos.toNat (fun s1 t1 => done (s1.setTrack n (t1.write (pos + t1.slip).toNat d)) (pos + step)))
    | .rewind _ =>
      if k.slip = 0 ∧ k.marker = true then .next (done s 0)
      else
        match k.home? k.slip with
        | some d => .next (done ((trackEvent (countRealigned s d) n 0 1 0x10).setTrack n { k with slip := 0 }) 0)
        | none => .next (poisonTrack (countRealigned s 1024) n 0)
    | .head h slot tag => .next (done (s.onSlot slot (fun t => t.fill tag [{ port := .trkH, val := BitVec.ofNat 128 h, mark := none }] none)) k.phys)
    | .release _ => .next (done s k.phys)

/-- A freed poisoned track is written with zeros and searched for its marker from position 0, behind the copies still queued on it: clean with
H = 0, or retired, which lasts until module reset (R114, R130). -/
def trackClear (n : Fin 32) (found : Bool) (s : State) : State :=
  let k := s.track n
  if found && (k.home? k.slip).isSome then s.setTrack n { Track.clean with retired := k.retired }
  else (if k.retired then s else trackEvent s n 0 3 0x13).setTrack n { Track.clean with marker := k.marker, retired := true }

/-- The same once the commands queued behind the release are gone. -/
def execTrackClear (n : Fin 32) (found : Bool) (s : State) : Out :=
  .next (if !(s.track n).clearing || !(s.track n).queue.isEmpty then s else trackClear n found s)

def execTrkClaimShort (sw : Bool) (c : Source) (s : State) : Out := issueShort sw c (trkClaimPlan.covered .trkClaim) s
def execTrkClaimLong (sw : Bool) (g : Guard) (x : Source) (s : State) : Out := issueLong sw g x (trkClaimPlan.covered .trkClaim) s
def execTrkFreeShort (sw : Bool) (c : Source) (s : State) : Out := issueShort sw c (trkFreePlan.covered .trkFree) s
def execTrkFreeLong (sw : Bool) (g : Guard) (x : Source) (s : State) : Out := issueLong sw g x (trkFreePlan.covered .trkFree) s
def execTrkSeekShort (sw : Bool) (c : Source) (s : State) : Out := issueShort sw c (trkSeekPlan.covered .trkSeek) s
def execTrkSeekLong (sw : Bool) (g : Guard) (x : Source) (s : State) : Out := issueLong sw g x (trkSeekPlan.covered .trkSeek) s
def execTrkStepShort (sw : Bool) (c : Source) (s : State) : Out := issueShort sw c (trkStepPlan.covered .trkStep) s
def execTrkStepLong (sw : Bool) (g : Guard) (x : Source) (s : State) : Out := issueLong sw g x (trkStepPlan.covered .trkStep) s
def execTrkRdsShort (sw : Bool) (c : Source) (s : State) : Out := issueShort sw c (trkRdsPlan.covered .trkRds) s
def execTrkRdsLong (sw : Bool) (g : Guard) (x : Source) (s : State) : Out := issueLong sw g x (trkRdsPlan.covered .trkRds) s
def execTrkWrsShort (sw : Bool) (c : Source) (s : State) : Out := issueShort sw c (trkWrsPlan.covered .trkWrs) s
def execTrkWrsLong (sw : Bool) (g : Guard) (x : Source) (s : State) : Out := issueLong sw g x (trkWrsPlan.covered .trkWrs) s
def execTrkRwdShort (sw : Bool) (c : Source) (s : State) : Out := issueShort sw c (trkRwdPlan.covered .trkRwd) s
def execTrkRwdLong (sw : Bool) (g : Guard) (x : Source) (s : State) : Out := issueLong sw g x (trkRwdPlan.covered .trkRwd) s
def execTrkHeadShort (sw : Bool) (c : Source) (s : State) : Out := issueShort sw c (trkHeadPlan.covered .trkHead) s
def execTrkHeadLong (sw : Bool) (g : Guard) (x : Source) (s : State) : Out := issueLong sw g x (trkHeadPlan.covered .trkHead) s

end Sys2Proof.Machine
end

