-- ==== Sys2Proof/Machine/Cpy.lean ====
section
/-! DEFINITION. cpy: operation 129 and the cluster's copy engine (R101 to R115, R134). -/

namespace Sys2Proof.Machine

-- ## The operands (R102, R103)

def ctlReg (c : Word) : Nat := field c 31 16
def ctlTag (c : Word) : Nat := field c 15 12
def ctlNote (c : Word) : Nat := field c 11 10
def ctlDg (c : Word) : Bool := c.getLsbD 9
def ctlSwp (c : Word) : Bool := c.getLsbD 8
def ctlStrk (c : Word) : Bool := c.getLsbD 5
def ctlDtrk (c : Word) : Bool := c.getLsbD 4
def x2Rows (x : Word) : Nat := field x 39 20
def x2Len (x : Word) : Nat := field x 19 0

def selTrack (v : Word) : Fin 32 := Fin.ofNat 32 (field v 4 0)
def selStart (v : Word) : Nat := field v 13 5

def Copy.n (c : Copy) : Nat := x2Rows c.xs[(2 : Fin 4)] * x2Len c.xs[(2 : Fin 4)] / 8

/-- The address of word k of a side (R103). -/
def sideVa (base x2 : Word) (stride : Int) (k : Nat) : Word :=
  let per := x2Len x2 / 8
  base + BitVec.ofInt 64 ((k / per : Nat) * stride + (8 * (k % per) : Nat))

/-- The status word (R108). -/
def copyStatus (done tag code st : Nat) : Word := BitVec.ofNat 64 (done * 2 ^ 24 + tag * 2 ^ 20 + code * 2 ^ 8 + st)

-- ## The trigger (R104, R105)

/-- The reserved fields and ranges of R104. (DEDUCED, log 39.) -/
def cpyBad (c : Word) (x : Vector Word 4) : Bool :=
  let x2 := x[(2 : Fin 4)]
  let x3 := x[(3 : Fin 4)]
  let unit := if ctlStrk c || ctlDtrk c then 16 else 8
  decide (field c 63 32 ≠ 0) || decide (field c 7 6 ≠ 0) || decide (field c 3 0 ≠ 0) || decide (ctlNote c = 3) ||
  (decide (ctlReg c ≠ 0) && !ctlDg c) || decide (field x2 63 40 ≠ 0) ||
  (ctlStrk c && decide (field x[(0 : Fin 4)] 63 14 ≠ 0)) || (ctlDtrk c && decide (field x[(1 : Fin 4)] 63 14 ≠ 0)) ||
  decide (x2Rows x2 = 0) || decide (x2Len x2 < 8) || decide (1048568 < x2Len x2) || decide (x2Len x2 % unit ≠ 0) ||
  decide (field x3 2 0 ≠ 0) || (!ctlDg c && decide (field x3 34 32 ≠ 0))

/-- The combinations that R104 refuses, with the length that R114 gives an image. -/
def cpyClash (c : Word) (x : Vector Word 4) : Bool :=
  let n := x2Rows x[(2 : Fin 4)] * x2Len x[(2 : Fin 4)]
  (ctlDg c && (ctlDtrk c || ctlSwp c)) || (ctlSwp c && (ctlStrk c == ctlDtrk c || decide (n ≠ 8208))) ||
  (ctlStrk c && ctlDtrk c && decide (selTrack x[(0 : Fin 4)] = selTrack x[(1 : Fin 4)]))

/-- The faults of an address side's start (R104). -/
def cpyAlign (v : Word) : Option Word := if field v 2 0 ≠ 0 then some (causeVa 6 1 3 v) else none
def cpyRange (v : Word) : Option Word :=
  match classify v with
  | .nonCanon => some (causeVa 7 1 0 v)
  | .hole => some (causeVa 7 2 0 v)
  | _ => none

/-- The ownership fault of a track side (R104, R131). -/
def cpyOwner (s : State) (v : Word) : Option Word :=
  let k := s.track (selTrack v)
  match k.owner with
  | none => some (trackCause 0x0A 1 (selTrack v) k.h)
  | some o => if o = ownerOf s s.cur then none else some (trackCause 0x0A 2 (selTrack v) k.h)

/-- The first fault of R104; of two sides that fail in one row, the source's. (DESIGN CHOICE, log 73.) -/
def cpyFault (s : State) (c : Word) : Option Word :=
  let x := s.thr.x
  let src := x[(0 : Fin 4)]
  let dst := x[(1 : Fin 4)]
  let half := x2Rows x[(2 : Fin 4)] * x2Len x[(2 : Fin 4)] / 16
  let tracks := (if ctlStrk c then [src] else []) ++ (if ctlDtrk c then [dst] else [])
  let addrs := (if ctlStrk c then [] else [src]) ++ (if ctlDtrk c then [] else [dst])
  if ctlSwp c && !s.thr.sup then some (causeOf 3)
  else if cpyBad c x || cpyClash c x then some reservedPort
  else if !ctlSwp c && tracks.any (fun v => decide (512 < selStart v + half)) then some reservedPort
  else
    ((if ctlSwp c then none else tracks.findSome? (cpyOwner s)).or (addrs.findSome? cpyAlign)).or (addrs.findSome? cpyRange)

/-- The reach of a copy's writes: the union over the rows of its destination, each of which stays in one class or ends the
copy; a digest writes one row of four words (R115, R301). -/
def copyReach (s : State) (c : Word) (x : Vector Word 4) : Reach :=
  let rows : List VaClass := (List.range (if ctlDg c then 1 else x2Rows x[(2 : Fin 4)])).map (fun (i : Nat) =>
    classify (x[(1 : Fin 4)] + BitVec.ofInt 64 ((i : Nat) * stride x[(3 : Fin 4)] true)))
  if ctlDtrk c then .core s.home
  else if rows.contains .paged then .module
  else if rows.all (fun r => match r with | .own _ => true | _ => false) then .cluster (clusterOf s.home)
  else .cores (rows.flatMap (fun r => match r with
    | .own _ => (List.range 8).map (clusterCore (clusterOf s.home))
    | .mesh core _ => [core]
    | _ => [])).eraseDups

/-- A copy without SWP takes its track side: a command of the track's queue, H at the last position, and the charge of
the thread (R114, R134). With SWP it only takes its place in the queue. -/
def takeSide (s : State) (c : Word) (tag half : Nat) (v : Word) : State :=
  let n := selTrack v
  let k := s.track n
  if ctlSwp c then s.setTrack n { k with queue := k.queue ++ [.copy tag] }
  else
    let last := selStart v + half - 1
    (s.onThr (fun t => t.charge (Int.natAbs ((selStart v : Int) - k.h) + half - 1))).setTrack n
      { k with h := last, queue := k.queue ++ [.copy tag] }

/-- cpy.go (R101 to R105, R109): the copy enters its queue and counts until it completes. -/
def cpyGoPlan : Plan where
  run := fun s q =>
    let c := low64 q
    match cpyFault s c with
    | some f => .trap s f
    | none =>
      let t := s.thr
      let x := t.x
      let half := x2Rows x[(2 : Fin 4)] * x2Len x[(2 : Fin 4)] / 16
      let sides := (if ctlStrk c then [x[(0 : Fin 4)]] else []) ++ (if ctlDtrk c then [x[(1 : Fin 4)]] else [])
      if 4 ≤ s.core.copies.length ∨ t.ringFull = true ∨ (sides ≠ [] ∧ 16 < trackQueued s + sides.length) then .hold none none .mem
      else
        let tag := s.nextId
        let t1 := ((t.ringTake tag (some .cpyGo) x[(1 : Fin 4)]).count tag (copyReach s c x)).owe tag [.cpyO] false none
        let t2 := if ctlNote c = 0 then t1
          else t1.fill tag [{ port := .cpyO, val := quad (copyStatus 0 (ctlTag c) 0 1), mark := none }] none
        let k : Copy := { slot := s.cur, tag, seq := t1.seqOf tag, area := t.tie, ctl := c, xs := x, sup := t.sup, ctx := t.cr[crCtx]
                          heads := sides.map (fun v => (selTrack v, (s.track (selTrack v)).h))
                          done := 0, started := false, ended := none, sum := 0, summed := false, floor := [], rel := [] }
        let s1 := (s.bump.setThr t2).onCore (fun o => { o with copies := o.copies ++ [k] })
        .done (sides.foldl (fun s v => takeSide s c tag half v) s1)

-- ## The engine (R105 to R108, R114, R115)

def putCopy (s : State) (c : Copy) : State :=
  s.onCore (fun o => { o with copies := o.copies.map (fun x => if x.tag = c.tag then c else x) })

/-- A store or posted atomic that a thread issued before `tag` has still to be acknowledged or, in the own-cluster
window, performed (R106). One that was refused is awaited no more. (DESIGN CHOICE, log 74.) -/
def writesBefore (s : State) (slot : Fin 8) (tag : Nat) : Bool :=
  let isWrite (r : Req) : Bool := match r.kind with | .store _ _ => true | .amo _ _ => true | .scr _ _ => true | .ste _ => true | _ => false
  (pendingReqs s slot).any (fun r => decide (r.tag < tag) && isWrite r) ||
  s.st.acks.any (fun a => a.slot == some slot && decide (a.tag < tag)) ||
  s.st.waiting.any (fun r => r.slot == some slot && decide (r.tag < tag) && isWrite r)

/-- The tracks of a copy's sides. -/
def Copy.tracks (c : Copy) : List (Fin 32) :=
  (if ctlStrk c.ctl then [selTrack c.xs[(0 : Fin 4)]] else []) ++ (if ctlDtrk c.ctl then [selTrack c.xs[(1 : Fin 4)]] else [])

/-- The copy stands at the head of a track's queue, or the track has lost its queue. -/
def copyHeads (s : State) (c : Copy) (n : Fin 32) : Bool :=
  let k := s.track n
  k.poisoned || (match k.queue with | .copy t :: _ => t == c.tag | _ => false)

/-- A copy starts: its predecessor of the thread has completed, and what R106 awaits has been acknowledged; a frozen engine
starts none (R113). -/
def execCopyStart (i : Nat) (s : State) : Out :=
  match s.core.copies[i]? with
  | none => .next s
  | some c =>
    if s.core.freezing ∨ c.started ∨ c.ended.isSome = true ∨ (s.core.copies.take i).any (fun x => x.slot == c.slot) = true ∨
        writesBefore s c.slot c.tag = true ∨ c.tracks.all (copyHeads s c) = false then .next s
    else .next (putCopy s { c with started := true, floor := s.slots[c.slot].floor, rel := relOf s c.slot })

def Copy.walker (s : State) (c : Copy) : Walker :=
  { cid := field c.ctx 5 0, root := field c.ctx 51 12 * 4096, user := !c.sup, l1 := false, th := s.slots[c.slot].mcth c.slot,
    cause := if ctlNote c.ctl = 2 then 0x11 else 0, slots := [c.slot] }

/-- A place that the engine reaches for a copy, or the cause that ends it (R73, R108). -/
def copyPlace (s : State) (c : Copy) (write : Bool) (va : Word) : Trans :=
  match translate s (c.walker s) { user := !c.sup, fetch := false, write, sync := false } va with
  | .ok loc attr s1 =>
    if meshRefused s1 (field c.ctx 5 0) va loc then .bad (refusal 2 c.seq) s1 else .ok loc attr s1
  | r => r

/-- A track position for a copy: the alignment of R129, then the access; the shifts of a copy with head are
counted (R128); a failure poisons the track and ends the copy, with
the head as the copy issued (R130, R131, R134). -/
def copyTrack (s : State) (c : Copy) (n : Fin 32) (p : Nat) (k : State → Track → State × (Quad ⊕ Word)) : State × (Quad ⊕ Word) :=
  let t := s.track n
  if t.poisoned then (s, .inr (trackCause 0x0B 2 n (c.headAt n)))
  else
    let (t1, moved, log, ok) := t.align p
    let s1 := (countRealigned s (moved + if ctlSwp c.ctl ∧ ok = true then Int.natAbs (p - t.phys) else 0)).setTrack n t1
    if ok then k (if log then trackEvent s1 n p 1 0x10 else s1) { t1 with phys := p }
    else (poisonTrack s1 n p, .inr (trackCause 0x0B 1 n (c.headAt n)))

/-- The first position of a track side: an image with head holds all 512 (R114). -/
def sideStart (c : Copy) (v : Word) : Nat := if ctlSwp c.ctl then 0 else selStart v

/-- A word of an address source, read for the thread (R107): from paged memory what a view read under the floor of the copy's
start may return, and where the thread has a later store under way the word before or after it. (DESIGN CHOICE, log 10.) -/
def copyWord (s0 : State) (c : Copy) (loc : Nat) : Nat × BitVec 2 × State :=
  let s := coreRead s0 loc 8
  let own (b : Nat) : Bool := forwarded s c.slot s.nextId b
  let may := (List.range 8).any (fun i => own (loc + i))
  let take := may && Config.viewChoice s.freeCtr % 2 == 0
  let s1 := if may then { s with freeCtr := s.freeCtr + 1 } else s
  let skip (b : Nat) : Bool := take && own b
  let (m, s2) := if isBank loc then (none, s1) else viewPick s1 (viewMoments { s1.st with marks := soundMarks s1.st (some (dieOf s1.coreId)) } c.floor (s.src c.slot) skip loc 8)
  let m1 := m.getD (pointMoment s2.st loc 8)
  (natLE (if take then forwardOwn s2 c.slot s2.nextId loc m1.bytes else m1.bytes), markOf m1.marks (loc / 8),
    readGains s2 c.slot (momentGains skip loc m1))

/-- The read of element k is held for a posted atomic of the thread on it (R147, R297). -/
def copyHeld (s : State) (c : Copy) (k : Nat) : Bool :=
  !ctlStrk c.ctl && (match copyPlace s c false (sideVa c.xs[(0 : Fin 4)] c.xs[(2 : Fin 4)] (stride c.xs[(3 : Fin 4)] false) k) with
    | .ok loc _ s1 => amoPending s1 c.slot loc 8
    | _ => false)

/-- Element k of the source: its word, or the cause that ends the copy. (DEDUCED, log 47.) -/
def copyRead (s : State) (c : Copy) (k : Nat) : (State × (Nat ⊕ Word)) ⊕ Fault :=
  let v := c.xs[(0 : Fin 4)]
  if ctlStrk c.ctl then
    let n := selTrack v
    if ctlSwp c.ctl ∧ 1024 ≤ k then .inl (s, .inl (if k = 1024 then (s.track n).h else 0))
    else
      let p := sideStart c v + k / 2
      match copyTrack s c n p (fun s1 t1 =>
          let (d, mark, s2) := readCell (s1.setTrack n t1) n t1 p
          (s2, match mark with | some _ => .inr (trackCause 0x11 4 n (c.headAt n)) | none => .inl d)) with
      | (s1, .inl d) => .inl (s1, .inl (d.toNat / 2 ^ (64 * (k % 2)) % 2 ^ 64))
      | (s1, .inr e) => .inl (s1, .inr e)
  else
    let va := sideVa v c.xs[(2 : Fin 4)] (stride c.xs[(3 : Fin 4)] false) k
    match copyPlace s c false va with
    | .stop f => .inr f
    | .bad e s1 => .inl (s1, .inr e)
    | .ok loc _ s1 =>
      match copyWord s1 c loc with
      | (v, m, s2) =>
        if m = 1#2 then .inl (s2, .inr (causeVa 0x11 (if isBank loc then 1 else 2) 0 va)) else .inl (s2, .inl v)

/-- A word of an address destination: written whole, set full in local memory and on a SYNC page (R107). -/
def copyPut (s : State) (c : Copy) (va : Word) (v : Nat) : (State × Option Word) ⊕ Fault :=
  match copyPlace s c true va with
  | .stop f => .inr f
  | .bad e s1 => .inl (s1, some e)
  | .ok loc attr s1 =>
    .inl (engineWrite s1 (srcCmd c.tag) loc v (attr.getLsbD 3) c.rel (some (engineRel s1 (s1.src c.slot) c.rel)), none)

/-- A position of a track destination; `hi = none` keeps the position's high word. Positions 512 on of an image with head
are its record: H (R114). (DEDUCED, log 38.) -/
def copyPutPos (s : State) (c : Copy) (k : Nat) (lo : Nat) (hi : Option Nat) : State × Option Word :=
  let v := c.xs[(1 : Fin 4)]
  let n := selTrack v
  if ctlSwp c.ctl ∧ 1024 ≤ k then
    ((countRealigned s (Int.natAbs (((lo % 512 : Nat) : Int) - (s.track n).phys))).setTrack n { s.track n with h := lo % 512, phys := (lo % 512 : Nat) }, none)
  else
    let p := sideStart c v + k / 2
    match copyTrack s c n p (fun s1 t1 =>
        let a := (p + t1.slip).toNat
        let top := hi.getD ((t1.cell a).toNat / 2 ^ 64)
        (s1.setTrack n (t1.write a (BitVec.ofNat 128 (lo + top * 2 ^ 64))), .inl 0)) with
    | (s1, .inl _) => (s1, none)
    | (s1, .inr e) => (s1, some e)

def Copy.fail (c : Copy) (e : Word) : Copy := { c with ended := some (2#8, e) }

/-- The string that a digest element hashes (R115). -/
def digestBytes (reg off k word : Nat) : List Byte := bytesLE 2 reg ++ bytesLE 6 (8 * (off + k)) ++ bytesLE 8 word

/-- Transfers the next element, or the two of the next position of a track destination (R103, R107, R108, R115). -/
def copyUnit (s : State) (c : Copy) : (State × Copy) ⊕ Fault :=
  if c.ended.isSome ∨ c.n ≤ c.done ∨ copyHeld s c c.done = true then .inl (s, c)
  else
    match copyRead s c c.done with
    | .inr f => .inr f
    | .inl (s1, .inr e) => .inl (s1, c.fail e)
    | .inl (s1, .inl v) =>
      if ctlDg c.ctl then
        let h := sha256 (digestBytes (ctlReg c.ctl) (field c.xs[(3 : Fin 4)] 63 32) c.done v)
        .inl (s1, { c with sum := (c.sum + h) % 2 ^ 256, done := c.done + 1 })
      else if ctlDtrk c.ctl then
        match copyRead s1 c (c.done + 1) with
        | .inr f => .inr f
        | .inl (s2, .inl v2) =>
          match copyPutPos s2 c c.done v (some v2) with
          | (s3, none) => .inl (s3, { c with done := c.done + 2 })
          | (s3, some e) => .inl (s3, c.fail e)
        | .inl (s2, .inr e) =>
          match copyPutPos s2 c c.done v none with
          | (s3, none) => .inl (s3, { c with done := c.done + 1 }.fail e)
          | (s3, some e') => .inl (s3, c.fail e')
      else
        match copyPut s1 c (sideVa c.xs[(1 : Fin 4)] c.xs[(2 : Fin 4)] (stride c.xs[(3 : Fin 4)] true) c.done) v with
        | .inr f => .inr f
        | .inl (s2, none) => .inl (s2, { c with done := c.done + 1 })
        | .inl (s2, some e) => .inl (s2, c.fail e)

/-- At most `n` units of a copy. -/
def copyRun (s : State) (c : Copy) : Nat → (State × Copy) ⊕ Fault
  | 0 => .inl (s, c)
  | n + 1 =>
    match copyUnit s c with
    | .inl (s1, c1) => copyRun s1 c1 n
    | .inr f => .inr f

/-- The next 512 bytes of an active copy (R105); a frozen engine starts nothing (R113). -/
def execCopyChunk (i : Nat) (s : State) : Out :=
  match s.core.copies[i]? with
  | none => .next s
  | some c =>
    if !c.started || s.core.freezing then .next s
    else
      match copyRun (engineCheck s) c (if ctlDtrk c.ctl then 32 else 64) with
      | .inr f => .fault f
      | .inl (s1, c1) => .next (putCopy s1 c1)

/-- The words of a digest's sum, written at the destination when the fold is complete (R115). A write of the sum that faults ends the copy with
the sum's earlier words written and DONE at its N elements folded (R108). (DESIGN CHOICE, log 110.) -/
def digestOut (s : State) (c : Copy) : Nat → (State × Copy) ⊕ Fault
  | 0 => .inl (s, c)
  | n + 1 =>
    match digestOut s c n with
    | .inr f => .inr f
    | .inl (s1, c1) =>
      if c1.ended.isSome then .inl (s1, c1)
      else
        match copyPut s1 c1 (c1.xs[(1 : Fin 4)] + BitVec.ofNat 64 (8 * n)) (c1.sum / 2 ^ (64 * n) % 2 ^ 64) with
        | .inr f => .inr f
        | .inl (s2, none) => .inl (s2, c1)
        | .inl (s2, some e) => .inl (s2, c1.fail e)

/-- The notice of a completed or ended copy (R109 to R111). -/
def copyNotice (s : State) (c : Copy) : Out :=
  let code := match c.ended with | some e => field e.2 7 0 | none => 0
  let st := match c.ended with | some e => e.1.toNat | none => 0
  let word := copyStatus c.done (ctlTag c.ctl) code st
  match ctlNote c.ctl with
  | 0 => .next (s.onSlot c.slot (fun t =>
      t.fill c.tag [{ port := .cpyO, val := quad word, mark := none }] none (if st = 0 then [c.tag] else [])))
  | 1 => addUint s c.slot c.tag c.area word (BitVec.ofNat 64 c.seq)
  | _ =>
    match c.ended with
    | some e => if e.1 = 2#8 then .next (s.onSlot c.slot (fun t => t.addFault c.seq e.2)) else .next s
    | none => .next s

/-- A copy leaves its queue and its tracks (R105, R114). -/
def dropCopy (s : State) (c : Copy) : State :=
  let s1 := c.tracks.foldl (fun s n =>
    let k := s.track n
    s.setTrack n { k with queue := k.queue.filter (fun q => match q with | .copy t => t != c.tag | _ => true) }) s
  s1.onCore (fun o => { o with copies := o.copies.filter (fun x => x.tag != c.tag) })

/-- A copy's count ends; of one with NOTE 2 that a refusal ended it stays until the thread's sys.eret, with its place in the
ring (R106, R367). -/
def copyUncount (s : State) (c : Copy) : State :=
  if ctlNote c.ctl = 2 ∧ c.ended.any (fun e => field e.2 7 0 == 9) = true then
    s.onSlot c.slot (fun t => { t.ringRefuse c.tag with counted := t.counted.map (fun x => if x.tag = c.tag then { x with refused := true } else x) })
  else uncount s c.slot c.tag

/-- A copy has written its last element, or ended by fault, behind its thread's earlier copies: a digest's words are written,
its writes' invalidations are confirmed, then its count ends and its notice is given (R106, R109, R113, R115). -/
def execCopyComplete (i : Nat) (s : State) : Out :=
  match s.core.copies[i]? with
  | none => .next s
  | some c =>
    if s.core.freezing ∨ (c.ended.isNone && (!c.started || decide (c.done < c.n))) = true ∨
        (s.core.copies.take i).any (fun x => x.slot == c.slot) = true then .next s
    else if ctlDg c.ctl && c.ended.isNone && !c.summed then (match digestOut (engineCheck s) c 4 with
      | .inr f => .fault f
      | .inl (s1, c1) => .next (putCopy s1 { c1 with summed := true }))
    else if s.st.acks.any (fun a => a.slot.isNone && a.tag == c.tag) then .next s
    else copyNotice (copyUncount (dropCopy s c) c) c

def execCpyGo (sw : Bool) (g : Guard) (x : Source) (s : State) : Out := issueLong sw g x (cpyGoPlan.covered .cpyGo) s

end Sys2Proof.Machine
end

