-- ==== Sys2Proof/Machine/Msg.lean ====
section
/-! DEFINITION. msg: operations 130 to 132, mailboxes, spill records and the arrival of a message (R317 to R331). -/

namespace Sys2Proof.Machine

-- ## Addresses (R313, R318, R322)

/-- Teams, cores a team and slots a core of the launch on the core; where none is recorded, one team of this core alone. (DESIGN CHOICE, log 40.) -/
def shapeOf (s : State) : Nat × Nat × Nat :=
  match s.launch? with
  | some l => (l.teams, l.w * l.h, l.s)
  | none => (1, 1, 8)

/-- A TEAM or CORE outside the launch (R323). -/
def logicalBad (s : State) (team core : Nat) : Bool := decide ((shapeOf s).1 ≤ team) || decide ((shapeOf s).2.1 ≤ core)

/-- The physical core of a team's core, where the team of a launch stands (R313). -/
def Launch.physical (l : Launch) (team core : Nat) : Option Nat :=
  (l.placed.find? (fun p => p.1 == team)).map (fun p => coreNum (coreX p.2 + core % l.w) (coreY p.2 + core / l.w))

/-- The same for the launch of the resident team. -/
def physical (s : State) (team core : Nat) : Option Nat :=
  match s.launch? with
  | some l => l.physical team core
  | none => some s.coreId

/-- The core by which scopes name a team's core (R300, R344). -/
def namedCore (s : State) (team core : Nat) : Option Nat :=
  match s.launch? with
  | some l => (l.placed.find? (fun p => p.1 == team)).map (fun p =>
      coreNum (coreX (l.homeCorner p.1 p.2) + core % l.w) (coreY (l.homeCorner p.1 p.2) + core / l.w))
  | none => some s.home

/-- The scope of one core (R330). -/
def coreScope (c : Nat) : Scope :=
  BitVec.ofNat 42 (coreX c + coreY c * 2 ^ 10 + coreX c * 2 ^ 20 + coreY c * 2 ^ 30)

/-- Fields of an identity (R318). -/
def idMbox (id : Word) : Nat := field id 62 59
def idKey (id : Word) : Nat := field id 62 0

-- ## msg.send (R322 to R324)

/-- The faults of msg.send in the order of R323. -/
def sendFault (s : State) (v : Word) : Option Word :=
  let phys := v.getLsbD 63
  if phys && !s.thr.sup then some (causeOf 3)
  else if field v 62 60 ≠ 0 ∨ field v 19 4 ≠ 0 ∨ (phys = true ∧ field v 59 40 ≠ 0) ∨ field s.thr.x[(0 : Fin 4)] 63 16 ≠ 0 then some reservedPort
  else if !phys && logicalBad s (field v 59 40) (field v 39 20) then some reservedPort
  else none

/-- The identity of a message that the current thread sends (R318). -/
def sendId (t : Thread) (mbox : Nat) : Word :=
  BitVec.ofNat 64 (t.sup.toNat * 2 ^ 63 + mbox * 2 ^ 59 + t.tslot * 2 ^ 56 + t.team * 2 ^ 36 + t.tcore * 2 ^ 16 + field t.x[(0 : Fin 4)] 15 0)

/-- msg.send: counted from its issue, it departs once everything counted before it is acknowledged (R324). -/
def msgSendPlan : Plan where
  run := fun s q =>
    let v := low64 q
    match sendFault s v with
    | some c => .trap s c
    | none =>
      let t := s.thr
      if t.ringFull then .hold none none .mem
      else
        let phys := v.getLsbD 63
        let core := if phys then coreNum (field v 29 20) (field v 39 30) else field v 39 20
        let reach : Reach := if phys then .core core
          else match namedCore s (field v 59 40) core with | some c => .core c | none => .module
        let rel : Release := { scope := 0, core := some s.home, src := s.src s.cur, rel := relOf s s.cur }
        .done (sendOther s .msgSend v (.msg phys (field v 59 40) core (sendId t (field v 3 0)) (t.opq .msgD)) true reach (some rel) s.waitAll)

-- ## Mailboxes and spill records (R317, R319, R320)

/-- The age of an arrival number, counted modulo 2^32 (R317). -/
def age (s : State) (m : Message) : Nat := (s.core.arrivals - m.num).toNat

/-- The earliest-arriving message of a list that a test selects. -/
def earliest (s : State) (p : Message → Bool) : List Message → Option Message
  | [] => none
  | m :: r =>
    match earliest s p r with
    | none => if p m then some m else none
    | some x => if p m && decide (age s x < age s m) then some m else some x

/-- The physical address of spill record i, and their number (R319, R320). -/
def spillLoc (s : State) (i : Nat) : Nat := s.core.mboxBase.toNat * 4096 + 32 * i
def spillCount (s : State) : Nat := 2 ^ (s.core.mboxSz.toNat + 4)

/-- The buffer lies in the granary or the barn (R319). -/
def spillPlaced (s : State) : Bool :=
  let last := spillLoc s (spillCount s) - 1
  (inGranary (spillLoc s 0) && inGranary last) || (inBarn (spillLoc s 0) && inBarn last)

/-- The lowest-numbered record with VALID = 0 from record i on (R320). -/
def spillFree (s : State) (i : Nat) : Nat → Option Nat
  | 0 => none
  | n + 1 => if read64 s.st (spillLoc s i + 8) % 2 = 0 then some i else spillFree s (i + 1) n

/-- A write of the core's network interface. -/
def spillWord (s : State) (loc v : Nat) : State := engineWrite s srcNet loc v false [] none

def spillWrite (s : State) (i : Nat) (m : Message) : State :=
  let a := spillLoc s i
  let s1 := spillWord (spillWord (spillWord s a m.id.toNat) (a + 16) (m.data.toNat % 2 ^ 64)) (a + 24) (m.data.toNat / 2 ^ 64)
  (spillWord s1 (a + 8) (m.num.toNat * 2 ^ 32 + 1)).onCore (fun c => { c with spill := c.spill ++ [(i, m)] })

/-- A record is taken or moved: VALID is cleared (R320). -/
def spillTake (s : State) (i : Nat) : State :=
  (spillWord s (spillLoc s i + 8) (read64 s.st (spillLoc s i + 8) / 2 * 2)).onCore (fun c => { c with spill := c.spill.filter (fun x => x.1 != i) })

/-- Moves the earliest spilled message of a mailbox into the place that a taken one left (R317, R325). -/
def refill (s : State) (mbox : Nat) : State :=
  match earliest s (fun m => idMbox m.id == mbox) (s.core.spill.map (·.2)) with
  | none => s
  | some m =>
    match s.core.spill.find? (fun x => x.2 == m) with
    | none => s
    | some x => (spillTake s x.1).onCore (fun c => { c with mail := c.mail ++ [m] })

/-- Takes a message out of its mailbox or the spill buffer. -/
def takeMessage (s : State) (m : Message) : State :=
  if s.core.mail.contains m then refill (s.onCore (fun c => { c with mail := c.mail.erase m })) (idMbox m.id)
  else
    match s.core.spill.find? (fun x => x.2 == m) with
    | some x => spillTake s x.1
    | none => s

-- ## Receives (R326 to R328)

/-- A receive takes a message of this identity. -/
def Receive.takes (r : Receive) (id : Word) : Bool :=
  match r.ident with
  | some e => idKey e == idKey id
  | none => r.mask.getLsbD (idMbox id)

/-- Gives a message to a receive's ports: a read that returns the message's release (R330). -/
def giveMessage (s : State) (slot : Fin 8) (tag : Nat) (id : Word) (data : Quad) (rel : Option Release) : State :=
  s.onSlot slot (fun t => t.fill tag
    [{ port := .msgO, val := data, mark := none }, { port := .msgId, val := quad id, mark := none }] none [] rel.toList)

/-- A receive: held while the slot has four that have not delivered; it takes the earliest message that fits, or waits. -/
def receive (s : State) (ident : Option Word) (mask : BitVec 16) : Verdict :=
  let t := s.thr
  if 4 ≤ (t.owed.filter (fun o => o.ports.contains .msgO)).length then .hold none none .vac
  else
    let tag := s.nextId
    let r : Receive := { slot := s.cur, tag, ident, mask }
    let s1 := s.bump.setThr (t.owe tag [.msgO, .msgId] false none)
    match earliest s1 (fun m => r.takes m.id) (s1.core.mail ++ s1.core.spill.map (·.2)) with
    | some m => .done (giveMessage (takeMessage s1 m) s.cur tag m.id m.data m.rel)
    | none => .done (s1.onCore (fun c => { c with receives := c.receives ++ [r] }))

/-- msg.recv (R323, R326). -/
def msgRecvPlan : Plan where
  run := fun s q =>
    let e := low64 q
    if e.getLsbD 63 ∨ logicalBad s (field e 55 36) (field e 35 16) = true ∨ (shapeOf s).2.2 ≤ field e 58 56 then .trap s reservedPort
    else receive s (some e) 0

/-- msg.any (R323, R327). -/
def msgAnyPlan : Plan where
  sup := fun _ => true
  run := fun s q =>
    let m := low64 q
    if field m 63 16 ≠ 0 ∨ m = 0#64 then .trap s reservedPort else receive s none (m.setWidth 16)

-- ## Arrival (R325, R329)

/-- The message-arrival interrupt of every slot whose IMASK holds the mailbox; a pending one keeps its MBOX (R329). -/
def arrivalInterrupt (s : State) (mbox : Nat) : State :=
  { s with slots := s.slots.map (fun t =>
      match t.mode with
      | .absent | .ended | .killed => t
      | _ => if t.cr[crMbox].getLsbD mbox && t.msgint.isNone then { t with msgint := some (BitVec.ofNat 4 mbox) } else t) }

/-- Places a message at the observed core (R325): a waiting receive, its mailbox, or a spill record; none where it must
wait in the network, with the event of R319, logged once for the message, where the buffer lies outside its tiers. -/
def placeMessage (s : State) (id : Word) (data : Quad) (rel : Option Release) : Option State × State :=
  let told (s : State) : State := s.onCore (fun c => { c with spillTold := c.spillTold.filter (· != (id, data)) })
  match s.core.receives.find? (fun r => r.takes id) with
  | some r =>
    let s1 := giveMessage s r.slot r.tag id data rel
    (some (told (s1.onCore (fun c => { c with receives := c.receives.filter (fun x => x.tag != r.tag) }))), s)
  | none =>
    let mbox := idMbox id
    let m : Message := { id, data, num := s.core.arrivals, rel }
    let numbered (s : State) : State := arrivalInterrupt ((told s).onCore (fun c => { c with arrivals := c.arrivals + 1#32 })) mbox
    if (s.core.mail.filter (fun x => idMbox x.id == mbox)).length < 4 then
      (some (numbered (s.onCore (fun c => { c with mail := c.mail ++ [m] }))), s)
    else if !spillPlaced s then
      if s.core.spillTold.contains (id, data) then (none, s)
      else (none, (s.onCore (fun c => { c with spillTold := (id, data) :: c.spillTold })).mcLog
          { cluster := clusterOf s.coreId, bank := 3, cls := 2, src := 0x33, core := bankNo s.coreId, cause := 0
            ad := BitVec.ofNat 64 (spillLoc s 0), sy := 0, th := 0 })
    else
      match spillFree s 0 (spillCount s) with
      | some i => (some (numbered (spillWrite s i m)), s)
      | none => (none, s)

/-- Where a message goes that a thread of this core has sent, or one that was on it and is out now: a physical address names the core of
its own numbers (R322), a logical one the core on which the target's team stands, and nowhere while that is out (R324). -/
def Req.msgTo (s : State) (r : Req) : Option Nat :=
  match r.kind with
  | .msg true _ core _ _ => some core
  | .msg false team core _ _ =>
    match r.away with
    | some a => (s.fw.launches[a.1]?).bind (fun l => l.physical team core)
    | none => physical s team core
  | _ => none

/-- Two requests that share a path: to one ordering point, one core's mailboxes, one group, or one router. -/
def samePath (s : State) (a b : Req) : Bool :=
  match a.kind, b.kind with
  | .msg _ _ _ _ _, .msg _ _ _ _ _ => a.msgTo s == b.msgTo s
  | .arrive g, .arrive h => g == h
  | .give _ _ _, .give _ _ _ => true
  | .msg _ _ _ _ _, _ | _, .msg _ _ _ _ _ | .arrive _, _ | _, .arrive _ | .give _ _ _, _ | _, .give _ _ _ => false
  | _, _ => pointOf a.loc == pointOf b.loc

/-- A message of the observed core, or of a team that was on it, that may be placed at `core`: the first of its thread on that path
(R324). -/
def arriving (s : State) (core : Nat) (id : Word) (data : Quad) : Option Req :=
  (s.st.paths.filter (fun r => r.msgTo s == some core)).find? (fun r =>
    (match r.kind with | .msg _ _ _ i d => i == id && d == data | _ => false) &&
    ((s.st.paths.filter (fun x => x.slot == r.slot && x.away == r.away && x.msgTo s == some core)).head?.map (·.tag)) == some r.tag)

/-- A message of the observed core is on its way, and others of its thread before it. -/
def underWay (s : State) (id : Word) (data : Quad) : Bool :=
  s.st.paths.any (fun r => match r.kind with | .msg _ _ _ i d => i == id && d == data | _ => false)

/-- The release that a message from another core's thread is, whose core and Rel the step gives (R330, log 1). -/
def foreignRel (s : State) (id : Word) (data : Posted) : Release :=
  { scope := coreScope s.home, core := some data.sender
    src := srcOf data.sender (Fin.ofNat 8 (field id 58 56)) s.slots[(0 : Fin 8)].cid.val, rel := data.known }

/-- A message reaches a core: one of this core's threads, whose acknowledgement ends its count, in its image where its team is out, or
another core's (R323 to R325). -/
def execMessageArrive (core : Nat) (id : Word) (data : Posted) (s : State) : Out :=
  match arriving s core id data.data with
  | some r =>
    let gone (s : State) : State := s.onSt (fun st => { st with paths := st.paths.filter (fun x => x.tag != r.tag) })
    let acked (s : State) : State := match r.slot, r.away with
      | some i, _ => uncount s i r.tag
      | none, some a => onImage s a (fun t => { t.ringFree r.tag with counted := t.counted.filter (fun c => c.tag != r.tag) })
      | none, none => s
    let phys := match r.kind with | .msg p _ _ _ _ => p | _ => false
    if phys && !holdsCore s (r.src / 8 % 64) core then
      .next (match r.away with
        | some a => onImage (gone s) a (fun t => t.refuse r.tag (refusal 4) true)
        | none => refuse (gone s) r.slot r.tag (refusal 4) true)
    else if core = s.coreId then
      match placeMessage s id data.data (r.rel.map (fun x => { x with scope := coreScope s.home })) with
      | (some s1, _) => .next (acked (gone s1))
      | (none, s1) => .next s1
    else
      let s1 := acked (gone s)
      .next { s1 with net := { s1.net with sent := s1.net.sent ++ [(core, id, data.data)] } }
  | none =>
    if core = s.coreId ∧ underWay s id data.data = false then
      match placeMessage s id data.data (some (foreignRel s id data)) with
      | (some s1, _) => .next s1
      | (none, s1) => .next s1
    else .next s

def execMsgSend (sw : Bool) (g : Guard) (x : Source) (s : State) : Out := issueLong sw g x msgSendPlan s
def execMsgRecv (sw : Bool) (g : Guard) (x : Source) (s : State) : Out := issueLong sw g x msgRecvPlan s
def execMsgAny (sw : Bool) (g : Guard) (x : Source) (s : State) : Out := issueLong sw g x msgAnyPlan s

end Sys2Proof.Machine
end

