-- ==== Sys2Proof/Machine/Nd.lean ====
section
/-! DEFINITION. nd: operations 125 to 128, and the routers of the tile network (R155 to R178, R402). -/

namespace Sys2Proof.Machine

-- ## Closing an iteration (R166)

/-- How many threads of a record's launch stand on its producer rectangle, and whether a thread is one of them (R166). -/
def producerCount (s : State) (t : Tensor) : Nat :=
  match s.fw.launches[t.launch]? with
  | none => 0
  | some l => (s.corners t.launch).foldl (fun n q =>
      let p := l.homeCorner q.1 q.2
      let x0 := max (field t.w2 9 0) (coreX p)
      let x1 := min (field t.w2 29 20 + 1) (coreX p + l.w)
      let y0 := max (field t.w2 19 10) (coreY p)
      let y1 := min (field t.w2 39 30 + 1) (coreY p + l.h)
      n + (x1 - x0) * (y1 - y0) * l.s) 0

def isProducer (s : State) (t : Tensor) (n : Nat) : Bool :=
  (match s.fw.launches[t.launch]? with | some l => decide (n % 8 < l.s) | none => false) &&
  n / 2 ^ 43 == t.launch + 1 && (s.homeOf n).any t.hasCore

/-- A give of a thread is on its way to its home router. -/
def giveUnderWay (s : State) (n : Nat) : Bool :=
  s.net.packets.any (fun p => match p.2 with | .give _ _ b => s.coreOf n == some b.core && b.slot.val == n % 8 | _ => false)

/-- An iteration of a name, as the steward of a record's launch keeps it. -/
def Iter.at_ (i : Iter) (launch : Nat) (cid : Fin 64) (tensor : BitVec 24) (iter : BitVec 16) : Bool :=
  i.launch == launch && i.cid == cid && i.tensor == tensor && i.iter == iter

def iterFind (s : State) (launch : Nat) (cid : Fin 64) (tensor : BitVec 24) (iter : BitVec 16) : Option Iter :=
  s.net.iters.find? (fun i => i.at_ launch cid tensor iter)

/-- Every thread of a record's launch stands somewhere: all of its teams have been placed, or it has ended. -/
def allPlaced (s : State) (t : Tensor) : Bool :=
  match s.fw.launches[t.launch]? with
  | some l => l.st != 0#8 || decide (l.teams ≤ (s.corners t.launch).length)
  | none => true

/-- Every producer thread has retired the iteration, or has ended with its gives accepted; with no producer thread it is
closed from the start. While a team of the launch has still to be placed, its threads may be producers (R166). (DEDUCED, log 64.) -/
def isClosed (s : State) (t : Tensor) (cid : Fin 64) (tensor : BitVec 24) (iter : BitVec 16) : Bool :=
  let r : List Nat := match iterFind s t.launch cid tensor iter with | some i => i.retired | none => []
  let ended := s.net.gone.filter (fun n => isProducer s t n && !giveUnderWay s n && !r.contains n)
  (match iterFind s t.launch cid tensor iter with | some i => i.closed | none => false) ||
  (allPlaced s t && decide (producerCount s t ≤ r.length + ended.length))

-- ## Deliveries and settlements (R163, R164, R167)

/-- The words of a tile from its bytes, with the mark of each: 1 for a poisoned word (R164). -/
def tileWords (t : Tile) (n : Nat) : List (Nat × BitVec 2) :=
  (List.range n).map (fun k => (natLE ((t.data.drop (8 * k)).take 8), if t.bad.contains k then 1#2 else 0#2))

/-- The place of an offset of a core's cluster window (R54). -/
def windowLoc (s : State) (core off : Nat) : Nat := if core = s.coreId then winLoc s off else ownLoc core off

/-- Writes words at an offset of a core's cluster window, in ascending order, as engine writes, each whole and set full (R54, R164). (DEDUCED, log 37.) -/
def writeWords (s : State) (src core off : Nat) (known : List (Nat × Nat)) (rel : Release) : List (Nat × BitVec 2) → State
  | [] => s
  | w :: r => writeWords (engineWrite s src (windowLoc s core off) w.1 true known (some rel) w.2) src core (off + 8) known rel r

/-- An interest of the observed core has settled: its record and its ring entry are free, and its card counts it (R173, R177). -/
def settled (s : State) (i : Interest) : State :=
  let s1 := s.onCore (fun c =>
    { c with
      interests := c.interests.filter (fun x => x.num != i.num)
      cards := match i.card with
        | some id => c.cards.map (fun k => if k.id = id then { k with pending := k.pending - 1 } else k)
        | none => c.cards })
  if i.card.isSome then s1 else s1.onSlot i.slot (fun t => t.ringFree i.tag)

/-- Writes a local waiter's destination: the tile (R164), or zeros with never-produced marks (R167). A waiter of the
observed core whose record is gone gets nothing (R175). -/
def deliver (s : State) (nm : TileName) (core dest num : Nat) (r : Tile ⊕ Bool) : State :=
  let n := match tensorOf s (clusterOf core) nm.cid nm.tensor with | some t => t.size / 8 | none => 0
  let write (s : State) : State :=
    let src := srcCmd s.nextId
    match r with
    | .inl t =>
      writeWords s.bump src core dest t.rel { scope := BitVec.ofNat 42 (2 ^ 40), core := some t.core, src := t.src, rel := t.rel } (tileWords t n)
    | .inr withdrawn =>
      writeWords s.bump src core dest [] { scope := BitVec.ofNat 42 (2 ^ 40), core := some core, src, rel := [] }
        (List.replicate n (0, if withdrawn then 3#2 else 2#2))
  if core = s.coreId then
    match s.core.interests.find? (fun i => i.num == num) with
    | some i => settled (write s) i
    | none => s
  else write s

/-- Sends a tile or a settle-empty notice back on one face (R163, R167). -/
def answerFace (s : State) (k : Nat) (nm : TileName) (r : Tile ⊕ Bool) (f : Face) : State :=
  let pk : Packet := match r with | .inl t => .tile nm t | .inr w => .empty nm w
  match f with
  | .xPlus => pushPacket s (k + 1) pk
  | .xMinus => pushPacket s (k - 1) pk
  | .yPlus => pushPacket s (k + 256) pk
  | .yMinus => pushPacket s (k - 256) pk
  | .psipor p => leaveBy s p pk
  | .cluster c => pushPacket s c pk
  | .die d _ => pushPacket s (dieRouter d) pk
  | .edge p => pushPacket s (edgeRouter p) pk
  | .waiter core dest num => deliver s nm core dest num r

/-- Settles an entry: every face is answered, and the entry is free (R163, R167). -/
def settleEntry (s : State) (k : Nat) (nm : TileName) (r : Tile ⊕ Bool) (keep : Face → Bool) : State :=
  let rt := routerAt s k
  match pitFind rt nm with
  | none => s
  | some fs => (fs.filter keep).foldl (fun s f => answerFace s k nm r f) (putRouter s (pitDel rt nm))

/-- Settles empty every entry that a test selects (R167, R169, R402). -/
def settleWhere (s : State) (sel : Nat → TileName → Bool) (keep : Face → Bool) (withdrawn : Bool) : State :=
  let es := s.net.routers.flatMap (fun r => (r.pit.filter (fun e => sel r.cluster e.nm)).map (fun e => (r.cluster, e.nm)))
  es.foldl (fun s e => settleEntry s e.1 e.2 (.inr withdrawn) keep) s

-- ## The backing region (R158)

/-- Whose tables the walks of router `k` use for a record: those of the record's launch, through its own cluster's TLB and walker, with
supervisor rights, whatever the level of the thread whose give it serves (R60, R63, R73). (DESIGN CHOICE, log 96.) No thread takes a fault of
its reads (R382). -/
def backWalker (s : State) (k : Nat) (cid : Fin 64) (t : Tensor) : Walker :=
  let ctx : Word := match s.fw.launches[t.launch]?.filter (fun l => l.cid == cid) with
    | some l => l.ctx
    | none => match s.fw.contexts.find? (fun c => c.1 == cid) with
      | some c => c.2
      | none => 0#64
  { cid := cid.val, root := field ctx 51 12 * 4096, user := false, l1 := false, cluster := some k, cause := 0 }

/-- The addresses of a tile's data and header in the backing region (R158). -/
def Tensor.dataVa (t : Tensor) (iter tile : Nat) : Nat := t.back + (iter % t.keep * t.tiles + tile) * t.size
def Tensor.headVa (t : Tensor) (iter tile : Nat) : Nat := t.back + t.keep * t.tiles * t.size + (iter % t.keep * t.tiles + tile) * 8

/-- Writes words to the backing region, leaving out those that meet a fault; the first fault is kept (R158). -/
def backWrite (s : State) (w : Walker) (src va : Nat) (rel : Release) (bad : Option Word) :
    List (Nat × BitVec 2) → (State × Option Word) ⊕ Fault
  | [] => .inl (s, bad)
  | x :: r =>
    match translate s w { user := false, fetch := false, write := true, sync := false } (BitVec.ofNat 64 va) with
    | .ok loc _ s1 => backWrite (engineWrite s1 src loc x.1 false rel.rel (some rel) x.2) w src (va + 8) rel bad r
    | .bad c s1 => backWrite s1 w src (va + 8) rel (bad.or (some c)) r
    | .stop f => .inr f

/-- Reads words from the backing region through the slice of the router's die, each with its mark; a fault gives none (R81,
R158). -/
def backRead (s : State) (w : Walker) : Nat → Nat → (State × Option (List (List Byte × BitVec 2))) ⊕ Fault
  | _, 0 => .inl (s, some [])
  | va, n + 1 =>
    match translate s w { user := false, fetch := false, write := false, sync := false } (BitVec.ofNat 64 va) with
    | .stop f => .inr f
    | .bad _ s1 => .inl (s1, none)
    | .ok loc _ s0 =>
      let s1 := (if isBank loc then scrub s0 loc 8 else lineRead s0 (clusterDie (w.place s0)) (lineOf loc))
      match backRead s1 w (va + 8) n with
      | .inl (s2, some l) => .inl (s2, some ((Mem.read s1.st.mem loc 8, markOf (soundMarks s1.st (some (clusterDie (w.place s1)))) (loc / 8)) :: l))
      | r => r

/-- Whether the backing header is VALID with the iteration (R158, R162). (DEDUCED, log 46.) -/
def headerValid (s : State) (k : Nat) (t : Tensor) (nm : TileName) : (State × Bool) ⊕ Fault :=
  match backRead s (backWalker s k nm.cid t) (t.headVa nm.iter.toNat nm.tile.toNat) 1 with
  | .inr f => .inr f
  | .inl (s1, some [(b, m)]) => .inl (s1, m == 0#2 && decide (natLE b % 2 ^ 17 = 2 ^ 16 + nm.iter.toNat))
  | .inl (s1, _) => .inl (s1, false)

/-- The tile that the backing data holds, with the core and Rel of the give that was accepted (R307). -/
def backTile (s : State) (k : Nat) (t : Tensor) (nm : TileName) : (State × Option Tile) ⊕ Fault :=
  match backRead s (backWalker s k nm.cid t) (t.dataVa nm.iter.toNat nm.tile.toNat) (t.size / 8) with
  | .inr f => .inr f
  | .inl (s1, none) => .inl (s1, none)
  | .inl (s1, some l) =>
    let g := (s1.net.given.find? (fun g => g.1 == nm)).map (·.2)
    .inl (s1, some
      { data := l.flatMap (·.1)
        bad := (List.range l.length).filter (fun k => (l.getD k ([], 0#2)).2 == 1#2)
        core := (g.bind (·.core)).getD (clusterCore k 0), src := (g.map (·.src)).getD srcNet, rel := (g.map (·.rel)).getD [] })

-- ## Routers (R162, R163, R165)

/-- Adds a face to a name's entry, or creates the entry, whose interest goes on to `up`. -/
def enter (r : Router) (nm : TileName) (f : Face) (up : Option (Nat × Face)) : Router :=
  match pitFind r nm with
  | some fs => pitSet r nm (if fs.contains f then fs else fs ++ [f])
  | none => { r with pit := r.pit ++ [{ nm, faces := [f], up, flaw := false }] }

/-- An interest at its home router, held in neither crib nor table: served from backing, settled empty, or entered (R162). -/
def homeInterest (s : State) (k : Nat) (t : Tensor) (nm : TileName) (f : Face) : Out :=
  let wait (s : State) : Out :=
    if isClosed s t nm.cid nm.tensor nm.iter then .next (answerFace s k nm (.inr false) f)
    else .next (putRouter s (enter (routerAt s k) nm f none))
  match headerValid s k t nm with
  | .inr e => .fault e
  | .inl (s1, false) => wait s1
  | .inl (s1, true) =>
    match backTile s1 k t nm with
    | .inr e => .fault e
    | .inl (s2, some tile) => .next (answerFace s2 k nm (.inl tile) f)
    | .inl (s2, none) => wait s2

/-- The next packet of a router is taken, its entry's parity is checked (R382), and what it does follows; one that is not the next
waits. -/
def taking (k : Nat) (p : Packet) (s : State) (f : State → Out) : Out :=
  if inOrder s k p then f (pitScrub (takePacket s k p) k (Packet.name? p)) else .next s

/-- An interest reaches a router: served from the crib, merged, handled at its home, or entered and forwarded (R162). -/
def execInterestArrive (k : Nat) (nm : TileName) (face : Face) (s0 : State) : Out :=
  taking k (.interest nm face) s0 (fun s1 =>
    match tensorOf s1 k nm.cid nm.tensor with
    | none => .next s1
    | some t =>
      match cribRead s1 k nm with
      | (some tile, s) => .next (answerFace s k nm (.inl tile) face)
      | (none, s) =>
        let r := routerAt s k
        let up := upstream s k nm face
        if (pitFind r nm).isSome then .next (putRouter s (enter r nm face up))
        else if t.mod = 0 ∧ k = t.home nm.tile.toNat then homeInterest s k t nm face
        else .next (sendUp (putRouter s (enter r nm face up)) up (fun g => .interest nm g)))

/-- Whether a notice has withdrawn the producers of a tensor of another module (R402). -/
def isWithdrawn (s : State) (t : Tensor) : Bool :=
  let w := pmapAt s t.mod
  decide (t.mod ≠ 0) && pmValid w && s.net.withdrawn.contains (pmPort w, pmPcid w)

/-- A tile reaches a router: sent on every face and to every waiter of its entry, and kept in the crib (R163); at the edge router of
its port, a tile that comes after the notice of its producers is discarded (R402). -/
def execTileArrive (k : Nat) (nm : TileName) (t : Tile) (s0 : State) : Out :=
  taking k (.tile nm t) s0 (fun s =>
    match tensorOf s k nm.cid nm.tensor with
    | none => .next s
    | some tr =>
      if decide (k = edgeRouter (pmPort (pmapAt s tr.mod))) && isWithdrawn s tr then .next s
      else
        let s1 := settleEntry s k nm (.inl t) (fun _ => true)
        .next (putRouter s1 (cribPut (routerAt s1 k) nm t)))

/-- A give is acknowledged (R174): its count, its ring entry, and the retirements that wait for it. -/
def ackGive (s : State) (b : Giver) : State :=
  if b.core = s.coreId then
    (uncount s b.slot b.tag).onCore (fun c =>
      { c with
        gives := c.gives.filter (fun g => g.2 != b.tag)
        retires := c.retires.map (fun r => { r with waits := r.waits.filter (· != b.tag) }) })
  else s

def giveFault (s : State) (b : Giver) (cause : Word) : State :=
  if b.core = s.coreId then s.onSlot b.slot (fun t => t.addFault b.seq cause) else s

/-- A give reaches its home router (R158, R168, R174). -/
def execGiveArrive (k : Nat) (nm : TileName) (t : Tile) (by_ : Giver) (s0 : State) : Out :=
  taking k (.give nm t by_) s0 (fun s =>
    match tensorOf s k nm.cid nm.tensor with
    | none => .next s
    | some tr =>
      if isClosed s0 tr nm.cid nm.tensor nm.iter then .next (ackGive (giveFault s by_ (causeVa 0x0C 3 0 by_.va)) by_)
      else
        match headerValid s k tr nm with
        | .inr e => .fault e
        | .inl (s1, true) => .next (ackGive s1 by_)
        | .inl (s1, false) =>
          let w := { backWalker s1 k nm.cid tr with cause := 0x11, th := if by_.core = s1.coreId then s1.slots[by_.slot].mcth by_.slot else 0#64 }
          let src := srcCmd s1.nextId
          let g : Release := { scope := BitVec.ofNat 42 (2 ^ 40), core := some t.core, src := t.src, rel := t.rel }
          match backWrite s1.bump w src (tr.dataVa nm.iter.toNat nm.tile.toNat) g none (tileWords t (tr.size / 8)) with
          | .inr e => .fault e
          | .inl (s2, bad) =>
            match backWrite s2 w src (tr.headVa nm.iter.toNat nm.tile.toNat) g bad [(2 ^ 16 + nm.iter.toNat, 0#2)] with
            | .inr e => .fault e
            | .inl (s3, bad) =>
              let s4 := match bad with | some c => giveFault s3 by_ c | none => s3
              let s5 := settleEntry s4 k nm (.inl t) (fun _ => true)
              let s6 := putRouter s5 (cribPut (routerAt s5 k) nm t)
              .next (ackGive { s6 with net := { s6.net with given := (nm, g) :: s6.net.given.filter (fun x => x.1 != nm) } } by_))

/-- A retire notice reaches the steward and counts (R166): the observed core's, once the gives before it are accepted, or
another core's. A notice for a ninth open iteration waits. -/
def execRetireNoticeArrive (cid : Fin 64) (tensor : BitVec 24) (iter : BitVec 16) (producer : Nat) (s : State) : Out :=
  match tensorOf s (clusterOf ((s.coreOf producer).getD 0)) cid tensor with
  | none => .next s
  | some t =>
    let own := decide (s.threadNo (Fin.ofNat 8 producer) = producer)
    let slot : Fin 8 := Fin.ofNat 8 producer
    let it (r : Retire) : Bool := r.slot == slot && r.cid == cid && r.tensor == tensor && r.iter == iter && r.waits.isEmpty
    let openCount := (s.net.iters.filter (fun i => i.launch == t.launch && i.cid == cid && i.tensor == tensor && !isClosed s t cid tensor i.iter)).length
    let old := iterFind s t.launch cid tensor iter
    if (own && !s.core.retires.any it) || !isProducer s t producer || (old.isNone && decide (8 ≤ openCount)) then .next s
    else
      let s1 := if own then s.onCore (fun c => { c with retires := c.retires.filter (fun r => !it r) })
        else takePacket s (t.home 0) (.retire cid tensor iter producer)
      let i0 : Iter := old.getD { cid, tensor, iter, launch := t.launch, retired := [], closed := false }
      let i1 := { i0 with retired := if i0.retired.contains producer then i0.retired else producer :: i0.retired }
      let s2 := { s1 with net := { s1.net with iters := i1 :: s1.net.iters.filter (fun x => !x.at_ t.launch cid tensor iter) } }
      let i2 := { i1 with closed := isClosed s2 t cid tensor iter }
      .next { s2 with net := { s2.net with iters := i2 :: s2.net.iters.filter (fun x => !x.at_ t.launch cid tensor iter) } }

/-- A close reaches a router, which settles empty the interests that it holds as their home (R166, R167). -/
def execIterationClose (k : Nat) (cid : Fin 64) (tensor : BitVec 24) (iter : BitVec 16) (s : State) : Out :=
  match tensorOf s k cid tensor with
  | none => .next s
  | some t =>
    if t.mod ≠ 0 ∨ isClosed s t cid tensor iter = false then .next s
    else .next (settleWhere s (fun c nm => c == k && nm.cid == cid && nm.tensor == tensor && nm.iter == iter && t.home nm.tile.toNat == k)
      (fun _ => true) false)

/-- A settle-empty notice reaches a router (R167). -/
def execSettleEmptyNotice (k : Nat) (nm : TileName) (withdrawn : Bool) (s0 : State) : Out :=
  taking k (.empty nm withdrawn) s0 (fun s => .next (settleEntry s k nm (.inr withdrawn) (fun _ => true)))

/-- A withdrawal reaches a router (R175). -/
def execInterestWithdrawal (k : Nat) (nm : TileName) (face : Face) (s0 : State) : Out :=
  taking k (.withdraw nm face) s0 (fun s => .next (dropFace s k nm face))

/-- A notice on a port settles, with kind 2 marks, every entry that the port's edge router holds for a tensor that PMAP maps to that
port and context, and drops the faces toward the port; the settlements go back to the routers of the module as settle-empty
notices (R167, R402). -/
def peerWithdrawn (s : State) (port : Fin 16) (cid : Fin 64) : State :=
  let named (k : Nat) (nm : TileName) : Bool :=
    decide (k = edgeRouter port) &&
    match tensorOf s k nm.cid nm.tensor with
    | some t =>
      let w := pmapAt s t.mod
      decide (t.mod ≠ 0) && pmValid w && decide (pmPort w = port) && decide (pmPcid w = cid.val)
    | none => false
  settleWhere { s with net := { s.net with withdrawn := (port, cid.val) :: s.net.withdrawn.filter (· != (port, cid.val)) } }
    named (fun f => f != .psipor port) true

/-- A withdrawal notice reaches the edge router of its port. -/
def execPeerWithdrawalNotice (port : Fin 16) (cid : Fin 64) (s : State) : Out :=
  taking (edgeRouter port) (.notice port cid) s (fun s => .next (peerWithdrawn s port cid))

/-- A card's interests have all settled, and its id has been delivered (R177). -/
def cardIsReady (s : State) (c : Card) : Bool := c.pending == 0 && !s.slots[c.slot].owed.any (fun o => o.tag == c.tag)

/-- The card whose task the queue takes next: cards before tsk.push words, and in ascending order of their ids (R346). -/
def cardReady (s : State) : Option (Fin 32) :=
  (List.finRange 32).find? (fun i => s.core.cards.any (fun c => c.id == i && cardIsReady s c))

/-- The card pushes its task where the queue has room (R177, R346). -/
def execCardTaskPush (id : Fin 32) (s : State) : Out :=
  match s.core.cards.find? (fun c => c.id == id) with
  | none => .next s
  | some c =>
    if cardReady s ≠ some id ∨ 64 ≤ s.core.ready.length then .next s
    else .next (s.onCore (fun k => { k with ready := k.ready ++ [c.task], cards := k.cards.filter (fun x => x.id != id) }))

-- ## The operations (R171 to R177)

/-- The name that x0 and x1 give (R155). -/
def Thread.tileName (t : Thread) : TileName where
  cid := t.cid
  tensor := BitVec.ofNat 24 (field t.x[(0 : Fin 4)] 39 16)
  iter := BitVec.ofNat 16 (field t.x[(0 : Fin 4)] 15 0)
  tile := BitVec.ofNat 32 (field t.x[(1 : Fin 4)] 31 0)

/-- The record of a name where COUNT, TENSOR and TILE allow it (R172); TILE is not checked for nd.drop of kind 1. -/
def nameRecord (s : State) (nm : TileName) (tile : Bool) : Option Tensor :=
  if field s.thr.cr[crTens] 60 48 ≤ nm.tensor.toNat % 4096 then none
  else (tensorAt s (clusterOf s.coreId) nm.cid (nm.tensor.toNat % 4096)).filter (fun t =>
    field t.w0 23 0 == nm.tensor.toNat && (!tile || decide (nm.tile.toNat < t.tiles)))

/-- The fault of an own-cluster range that must be 128-byte aligned (R172). -/
def windowFault (va : Word) (align size : Nat) : Option Word :=
  match classify va with
  | .nonCanon => some (causeVa 7 1 0 va)
  | .hole => if field va 47 40 = 0xFE then some (causeVa 7 2 0 va) else some reservedPort
  | .own off => if off % align ≠ 0 ∨ 0x20000 < off + size then some reservedPort else none
  | _ => some reservedPort

/-- The checks of nd.want, nd.give and nd.drop in the order of R172: reserved bits, the name, the address where it is
used, and the producer's place where it gives or retires. -/
def ndCheck (dMask : Word) (kind1 produce : Bool) (s : State) (v : Word) (k : Tensor → TileName → Verdict) : Verdict :=
  let t := s.thr
  let nm := t.tileName
  if t.opw .ndD &&& ~~~dMask ≠ 0#64 ∨ field t.x[(0 : Fin 4)] 63 40 ≠ 0 ∨ field t.x[(1 : Fin 4)] 63 32 ≠ 0 ∨ (kind1 = true ∧ v ≠ 0#64) then
    .trap s reservedPort
  else
    match nameRecord s nm (!kind1) with
    | none => .trap s reservedPort
    | some r =>
      match (if kind1 then none else windowFault v 128 r.size) with
      | some c => .trap s c
      | none =>
        if produce && (!r.hasCore s.home || decide (r.mod ≠ 0)) then .trap s (causeVa 0x0C 4 0 v) else k r nm

/-- Takes an interest record and sends the interest to the cluster's router as a local waiter (R173). -/
def takeInterest (s : State) (nm : TileName) (dest : Nat) (card : Option (Fin 32)) (tag : Nat) : State :=
  let n := s.core.nrec
  let i : Interest := { num := n, slot := s.cur, nm, dest, card, tag, area := some s.thr.psave }
  pushPacket (s.onCore (fun c => { c with nrec := n + 1, interests := c.interests ++ [i] }))
    (clusterOf s.coreId) (.interest nm (.waiter s.coreId dest n))

/-- nd.want (R172, R173). -/
def ndWantPlan : Plan where
  run := fun s q =>
    let v := low64 q
    ndCheck 0#64 false false s v (fun _ nm =>
      if 32 ≤ s.core.interests.length ∨ s.thr.ringFull = true then .hold none none .mem
      else .done (takeInterest (s.bump.setThr (s.thr.ringTake s.nextId (some .ndWant) v)) nm (field v 16 0) none s.nextId))

/-- The tile that nd.give reads: its words in ascending order, full/empty bits ignored, with the poisoned ones (R164, R174). A
word with a never-produced mark arrives as its bytes. (DESIGN CHOICE, log 77.) -/
def readTile (s : State) (off size : Nat) : Tile :=
  let ws := (List.range (size / 8)).map (fun k => bankWord s s.cur s.nextId (winLoc s (off + 8 * k)))
  { data := ws.flatMap (·.1)
    bad := (List.range ws.length).filter (fun k => (ws.getD k ([], 0#2)).2 == 1#2)
    core := s.home, src := s.src s.cur, rel := relOf s s.cur }

/-- nd.give (R172, R174); LAST retires the iteration once the give is accepted (R166). -/
def ndGivePlan : Plan where
  run := fun s q =>
    let v := low64 q
    ndCheck 1#64 false true s v (fun r nm =>
      let t := s.thr
      let off := field v 16 0
      if t.ringFull || (List.range (r.size / 8)).any (fun k => amoPending s s.cur (winLoc s (off + 8 * k)) 8) then .hold none none .mem
      else
        let tag := s.nextId
        let s0 := winScrub s off r.size
        let rel := s0.release?
        let b : Giver := { core := s.coreId, slot := s.cur, seq := (field t.cr[crSeq] 47 0 + 1) % 2 ^ 48, tag, va := v }
        let s1 := sendOther s0 .ndGive v (.give nm (readTile s0 off r.size) b) true .everywhere rel (if rel.isSome then s0.waitAll else [])
        let s2 := winGains s1 s.cur tag off r.size
        let gs := s2.core.gives ++ [(s.cur, tag)]
        let last : List Retire := if (t.opw .ndD).getLsbD 0 then
            [{ slot := s.cur, cid := nm.cid, tensor := nm.tensor, iter := nm.iter, waits := (gs.filter (fun g => g.1 == s.cur)).map (·.2) }]
          else []
        .done (s2.onCore (fun c => { c with gives := gs, retires := c.retires ++ last })))

/-- nd.drop: withdraws an interest of the thread, or retires the iteration after the gives before it (R175). Of two interests alike it takes
the older. (DESIGN CHOICE, log 101.) -/
def ndDropPlan : Plan where
  run := fun s q =>
    let v := low64 q
    if (s.thr.opw .ndD).getLsbD 0 then
      ndCheck 1#64 true true s v (fun _ nm =>
        let r : Retire := { slot := s.cur, cid := nm.cid, tensor := nm.tensor, iter := nm.iter, waits := (s.core.gives.filter (fun g => g.1 == s.cur)).map (·.2) }
        .done (s.onCore (fun c => { c with retires := c.retires ++ [r] })))
    else
      ndCheck 1#64 false false s v (fun _ nm =>
        match s.core.interests.find? (fun i => i.slot == s.cur && i.nm == nm && i.dest == field v 16 0 && i.card.isNone) with
        | none => .done s
        | some i => .done ((dropInterest s i).onThr (fun t => t.ringFree i.tag)))

-- ## Job cards (R176, R177)

/-- A card's words: entry, control, hint, reserved, four names of two words each, four arguments. -/
def cardWord (b : List Byte) (i : Nat) : Word := BitVec.ofNat 64 (natLE ((b.drop (8 * i)).take 8))

/-- Name j of a card: its name and destination, where its fields and its record pass (R176). -/
def cardName (s : State) (b : List Byte) (j : Nat) : Option (TileName × Nat) :=
  let n := cardWord b (4 + 2 * j)
  let d := cardWord b (5 + 2 * j)
  let nm : TileName := { cid := s.thr.cid, tensor := BitVec.ofNat 24 (field n 39 16), iter := BitVec.ofNat 16 (field n 15 0), tile := BitVec.ofNat 32 (field d 31 0) }
  let dest := field d 48 32
  if field n 63 40 ≠ 0 ∨ field d 63 49 ≠ 0 then none
  else
    match nameRecord s nm true with
    | none => none
    | some r => if (windowFault (winVa dest) 128 r.size).isSome then none else some (nm, dest)

/-- The words of a card that are read: all but the entries of names that it does not use (R176). -/
def cardReads (n : Nat) : List Nat := List.range (4 + 2 * n) ++ [12, 13, 14, 15]

/-- An entry address: paged, bit [0] clear (R176, R346). -/
def entryOk (v : Word) : Bool := classify v == .paged && !v.getLsbD 0

/-- nd.card (R172, R176, R177). A word with a never-produced mark is read as its bytes. (DESIGN CHOICE, log 100.) The codes of all sixteen words
are checked, also where COUNT leaves names unused. (DESIGN CHOICE, log 111.) -/
def ndCardPlan : Plan where
  run := fun s0 q =>
    let v := low64 q
    match windowFault v 128 128 with
    | some c => .trap s0 c
    | none =>
      let off := field v 16 0
      let s := winScrub s0 off 128
      let t := s.thr
      let held (l : List Nat) : Bool := l.any (fun k => amoPending s s.cur (winLoc s (off + 8 * k)) 8)
      let used := cardReads (min 4 (field (BitVec.ofNat 64 (natLE (bankWord s s.cur s.nextId (winLoc s (off + 8))).1)) 4 2))
      if held [1] || held used then .hold none none .mem
      else
        let ws := (List.range 16).map (fun k => bankWord s s.cur s.nextId (winLoc s (off + 8 * k)))
        let b := ws.flatMap (·.1)
        let ctl := cardWord b 1
        let n := field ctl 4 2
        let names := (List.range n).map (cardName s b)
        if !entryOk (cardWord b 0) || decide (field ctl 63 5 ≠ 0) || decide (4 < n) || cardWord b 3 != 0#64 || names.any (·.isNone) then
          .trap s reservedPort
        else
          match used.find? (fun k => (ws.getD k ([], 0#2)).2 == 1#2) with
          | some k => .trap s (causeVa 0x11 1 0 (winVa (off + 8 * k)))
          | none =>
            let id : Fin 32 := Fin.ofNat 32 s.core.ncard
            if t.ringFull || decide (32 < s.core.interests.length + n) || s.core.cards.any (fun c => c.id == id) then .hold none none .mem
            else
              let tag := s.nextId
              let task : Ready := { entry := cardWord b 0, hint := cardWord b 2, tagw := BitVec.ofNat 64 id.val, prio := ctl.setWidth 2, card := some id, byp := 0
                                    args := #v[cardWord b 12, cardWord b 13, cardWord b 14, cardWord b 15] }
              let s1 := (used.foldl (fun s k => winGains s s.cur tag (off + 8 * k) 8) s).bump.onThr (fun t => (t.ringTake tag (some .ndCard) v).owe tag [.ndO] false none)
              let s2 := s1.onCore (fun c => { c with ncard := c.ncard + 1, cards := c.cards ++ [{ id, slot := s.cur, pending := n, task, tag }] })
              let s3 := (names.filterMap (fun x => x)).foldl (fun s x => takeInterest s x.1 x.2 (some id) tag) s2
              .done (s3.onThr (fun t => t.fill tag [{ port := .ndO, val := BitVec.ofNat 128 id.val, mark := none }] none))

def execNdWant (sw : Bool) (g : Guard) (x : Source) (s : State) : Out := issueLong sw g x (ndWantPlan.covered .ndWant) s
def execNdGive (sw : Bool) (g : Guard) (x : Source) (s : State) : Out := issueLong sw g x (ndGivePlan.covered .ndGive) s
def execNdDrop (sw : Bool) (g : Guard) (x : Source) (s : State) : Out := issueLong sw g x (ndDropPlan.covered .ndDrop) s
def execNdCard (sw : Bool) (g : Guard) (x : Source) (s : State) : Out := issueLong sw g x (ndCardPlan.covered .ndCard) s

end Sys2Proof.Machine
end

