-- ==== Sys2Proof/Machine/Tsk.lean ====
section
/-! DEFINITION. tsk: operations 133 to 136, the ready queue and its dispatcher, the beginning of a task and the end of a thread (R341 to R356). -/

namespace Sys2Proof.Machine

-- ## The operations (R350 to R355)

/-- The range of a task record (R351). -/
def recordFault (v : Word) : Option Word :=
  match classify v with
  | .nonCanon => some (causeVa 7 1 0 v)
  | .hole => some (causeVa 7 2 0 v)
  | .own off => if off % 64 ≠ 0 ∨ 0x20000 < off + 64 then some reservedPort else none
  | _ => some reservedPort

/-- The status of an entry (R353). -/
def readyStatus (r : Ready) : Nat :=
  match r.card with
  | some c => c.val * 2 ^ 8 + 2 ^ 3 + 2 ^ 2 + r.prio.toNat
  | none => 2 ^ 2 + r.prio.toNat

/-- tsk.push: the record is read and inserted at its priority, behind the cards that wait to be inserted (R346, R352). -/
def tskPushPlan : Plan where
  sup := fun _ => true
  run := fun s0 q =>
    let v := low64 q
    let s := winScrub s0 (field v 16 0) 64
    let t := s.thr
    if field (t.opw .tskPr) 63 2 ≠ 0 then .trap s0 reservedPort
    else
      match recordFault v with
      | some c => .trap s0 c
      | none =>
        let off := field v 16 0
        if (List.range 8).any (fun k => amoPending s s.cur (winLoc s (off + 8 * k)) 8) then .hold none none .mem
        else
          let ws := (List.range 8).map (fun k => bankWord s s.cur s.nextId (winLoc s (off + 8 * k)))
          let b := ws.flatMap (·.1)
          if cardWord b 3 ≠ 0#64 ∨ entryOk (cardWord b 0) = false then .trap s reservedPort
          else
            match (List.range 8).find? (fun k => (ws.getD k ([], 0#2)).2 == 1#2) with
            | some k => .trap s (causeVa 0x11 1 0 (winVa (off + 8 * k)))
            | none =>
              if 64 ≤ s.core.ready.length ∨ (cardReady s).isSome = true then .hold none none .mem
              else
                let r : Ready := { entry := cardWord b 0, hint := cardWord b 1, tagw := cardWord b 2, prio := (t.opw .tskPr).setWidth 2, card := none, byp := 0
                                   args := #v[cardWord b 4, cardWord b 5, cardWord b 6, cardWord b 7] }
                .done ((winGains s s.cur s.nextId off 64).onCore (fun c => { c with ready := c.ready ++ [r] }))

/-- The highest priority that the queue holds, and its entries with their places, oldest first. -/
def topPrio (l : List Ready) : Nat := l.foldl (fun n r => max n r.prio.toNat) 0
def topEntries (l : List Ready) : List (Ready × Nat) := l.zipIdx.filter (fun r => r.1.prio.toNat == topPrio l)

/-- The eight words that tsk.pop writes (R346, R353). -/
def readyWords (r : Ready) : List (Nat × BitVec 2) :=
  ([r.entry.toNat, r.hint.toNat, r.tagw.toNat, readyStatus r] ++ r.args.toList.map (·.toNat)).map (fun w => (w, 0#2))

/-- tsk.pop: the oldest entry of the highest priority, its record written as engine writes (R353). (DEDUCED, log 37.) -/
def tskPopPlan : Plan where
  sup := fun _ => true
  run := fun s q =>
    let v := low64 q
    match recordFault v with
    | some c => .trap s c
    | none =>
      let t := s.thr
      let tag := s.nextId
      let s1 := s.bump.setThr (t.owe tag [.tskO] false none)
      let give (s : State) (st : Nat) : State := s.onThr (fun t => t.fill tag [{ port := .tskO, val := BitVec.ofNat 128 st, mark := none }] none)
      match topEntries s.core.ready with
      | [] => .done (give s1 0)
      | r :: _ =>
        let s2 := s1.onCore (fun c => { c with ready := c.ready.eraseIdx r.2 })
        let s3 := writeWords s2 (srcCmd tag) s2.coreId (field v 16 0) (relOf s s.cur) (engineRel s2 (s2.src s2.cur) (relOf s s.cur)) (readyWords r.1)
        .done (give s3 (readyStatus r.1))

/-- tsk.park (R351, R354): the slot waits for the dispatcher. -/
def tskParkPlan : Plan where
  run := fun s q =>
    if low64 q ≠ 0#64 ∨ s.thr.more = true then .trap s reservedPort
    else .done (s.onThr (fun t => { t with mode := .dispatch }))

/-- tsk.yield: LEFT is 0 and the expiry pending with Y = 1 (R355). -/
def tskYieldPlan : Plan where
  run := fun s q =>
    if low64 q ≠ 0#64 then .trap s reservedPort
    else .done (s.onThr (fun t => { t.setCr crQleft 0#64 with expiry := some true }))

-- ## Tasks (R341, R347, R348)

/-- The registers, ports, fence bits and marks with which every task begins (R34, R341). -/
def Thread.clean (t : Thread) (pc : Word) (ws : List Word) : Thread :=
  { t with
    mode := .run, pc, w := Vector.ofFn (fun (i : Fin 24) => ws.getD i.val 0#64)
    q := Vector.replicate 16 0#128, x := Vector.replicate 4 0#64, p := 1#16
    op := Vector.replicate 23 0#128, rp := Vector.replicate 26 0#128
    fence := 0, poison := 0, np := 0, cause4 := Vector.replicate 4 0#64, headLost := setLost t.headLost none none
    held := none, sAfter := false, relMark := none }

/-- The thread owes no fenced result: the next task may begin (R341, R354). -/
def Thread.idle (t : Thread) : Bool := t.owed.isEmpty

/-- The next task of a thread's list begins (R314, R341). -/
def execTaskBegin (slot : Fin 8) (s : State) : Out :=
  let t := s.slots[slot]
  match s.launch? with
  | none => .next s
  | some l =>
    if t.mode ≠ .taskEnd ∨ t.idle = false then .next s
    else
      let k := t.task + t.stride
      .next (s.setSlot slot { t.clean l.words[0] [l.words[3], BitVec.ofNat 64 k, BitVec.ofNat 64 l.nt] with task := k })

/-- The die's L2 holds the line of a hint, where the hint translates (R347). -/
def hintHits (s : State) (slot : Fin 8) (hint : Word) : Bool :=
  hint != 0#64 &&
  match translate s { s.slots[slot].walker with user := false, slots := [slot] } { user := false, fetch := false, write := false, sync := false } hint with
  | .ok loc _ _ =>
    let l := lineFind s.st.lines (lineOf loc)
    let die := dieOf s.coreId
    !isBank loc && l.heldAt die
  | _ => false

/-- The entry that the dispatcher takes: the oldest if passed over four times, else the oldest of eight whose hint hits,
else the oldest (R347). -/
def dispatchPick (s : State) (slot : Fin 8) : Option (Ready × Nat) :=
  match topEntries s.core.ready with
  | [] => none
  | r :: rest =>
    if r.1.byp = 4 then some r
    else (((r :: rest).take 8).find? (fun x => hintHits s slot x.1.hint)).or (some r)

/-- The slot that the dispatcher serves: the lowest that waits. -/
def dispatchSlot (s : State) : Option (Fin 8) := (List.finRange 8).find? (fun i => s.slots[i].mode == .dispatch && s.slots[i].idle)

/-- The dispatcher gives an entry to the lowest-numbered waiting slot (R347, R348). -/
def execTaskDispatch (s : State) : Out :=
  match dispatchSlot s with
  | none => .next s
  | some slot =>
    match dispatchPick s slot with
    | none => .next s
    | some (r, i) =>
      let passed := (s.core.ready.zipIdx.map (fun x =>
        if x.2 < i ∧ x.1.prio = r.prio then { x.1 with byp := x.1.byp + 1 } else x.1)).eraseIdx i
      let s1 := s.onCore (fun c => { c with ready := passed })
      .next (s1.onSlot slot (fun t =>
        { t.clean r.entry (r.args.toList ++ [r.tagw, BitVec.ofNat 64 (readyStatus r)]) with dispatched := true }))

-- ## The end of a thread (R341)

/-- Requests still in the posted-store queue that wait, directly or behind one another, for a refused one (R367). -/
def blockedTags (t : Thread) : List Nat :=
  let bad := (t.counted.filter (·.refused)).map (·.tag)
  t.psq.foldl (fun b r => if r.waits.any (fun g => b.contains g) then b ++ [r.tag] else b) bad

/-- Writes that stand on their path behind one of these: they go once it has been discarded (R298, R341). -/
def behindBlocked (s : State) (slot : Fin 8) (b : List Nat) : List Nat :=
  let t := s.slots[slot]
  let held := t.psq.filter (fun r => b.contains r.tag)
  let out := (s.core.streams.toList.flatMap (·.out)).filter (fun x => x.slot == some slot)
  (t.psq.filter (fun r => held.any (fun h => decide (h.tag < r.tag) && samePath s h r))).map (·.tag) ++
  (out.filter (fun r => decide (16 ≤ t.queuedStores) || held.any (fun h => decide (h.tag < r.tag) && samePath s h r))).map (·.tag)

/-- What the end of a thread awaits: what its sys.halt awaits under S, and its outstanding work; writes that a refused request
holds, and writes behind those, are not awaited (R341, R367, R380). No event is taken meanwhile. (DESIGN CHOICE, log 89.) -/
def endReady (s : State) (slot : Fin 8) : Bool :=
  let t := s.slots[slot]
  let b := blockedTags t
  let b := b ++ behindBlocked s slot b
  t.counted.all (fun c => b.contains c.tag) && t.psq.all (fun r => b.contains r.tag) && !(t.sAfter && t.pending) &&
  !s.core.copies.any (fun c => c.slot == slot) && !s.core.mx.queue.any (fun c => c.slot == slot) && t.seqr.run.isNone

/-- A thread that ends arrives at the open generations of its groups with its floor and writes; an arrival of its own that is on its
way arrives as that (R308). -/
def arriveAll (s : State) (slot : Fin 8) : State :=
  let n := s.threadNo slot
  (s.net.groups.filter (fun g => s.isMember g n && !g.arrived.any (fun a => a.1 == n) && !arrivalOnWay s g.key slot)).foldl (fun s g =>
    let rel : Release := { scope := g.rect.setWidth 42, core := some s.home, src := s.src slot, rel := relOf s slot }
    let g1 := { g with arrived := g.arrived ++ [(n, rel)] }
    writeBarrier (putGroup s g1) g1) s

/-- The faults that an ended thread is still owed are logged, and its launch carries FLT (R341). -/
def discardFaults (s : State) (slot : Fin 8) : State :=
  let t := s.slots[slot]
  let ev : McEvent := { cluster := clusterOf s.coreId, bank := 0, cls := 2, src := 8, core := bankNo s.coreId, cause := 0, ad := 0, sy := 0, th := t.mcth slot }
  let s1 := t.faults.foldl (fun s _ => s.mcLog ev) s
  match t.faults, s1.fw.resident with
  | _ :: _, some r =>
    { s1 with fw := { s1.fw with launches := s1.fw.launches.zipIdx.map (fun l => if l.2 = r.1 then { l.1 with flt := true } else l.1) } }
  | _, _ => s1

/-- A thread ends once its outstanding work has settled: what a refused request holds is discarded, and the writes behind that
are performed like any others; one of those that is refused after the end is dealt with in the same way (R341).
(DEDUCED, log 81.) -/
def execThreadEnd (slot : Fin 8) (s : State) : Out :=
  let t := s.slots[slot]
  let late : Bool := t.mode == .ended && !t.faults.isEmpty
  if (t.mode ≠ .ending ∧ late = false) ∨ endReady s slot = false then .next s
  else
    let s1 := if late then discardFaults s slot else leaveAll (arriveAll (discardFaults s slot) slot) slot
    let b := blockedTags t
    .next (s1.onSlot slot (fun t =>
      { t with
        mode := .ended, faults := [], sysint := none, msgint := none, expiry := none, held := none
        counted := t.counted.filter (fun c => !b.contains c.tag), psq := t.psq.filter (fun r => !b.contains r.tag) }))

def execTskPush (sw : Bool) (g : Guard) (x : Source) (s : State) : Out := issueLong sw g x tskPushPlan s
def execTskPop (sw : Bool) (g : Guard) (x : Source) (s : State) : Out := issueLong sw g x tskPopPlan s
def execTskPark (sw : Bool) (g : Guard) (x : Source) (s : State) : Out := issueLong sw g x tskParkPlan s
def execTskYield (sw : Bool) (g : Guard) (x : Source) (s : State) : Out := issueLong sw g x tskYieldPlan s

end Sys2Proof.Machine
end

