-- ==== Sys2Proof/Machine/Deliver.lean ====
section
/-! DEFINITION. The steps that no word encodes of the core and of memory: results reaching their ports (R22, R42, R371), held words and parks (R39, R44), posted writes on their way to their ordering points (R82, R136, R298), and the entries of traps and handlers (R365, R370, R372, R385). -/

namespace Sys2Proof.Machine

-- ## Results (R22, R41, R42, R371)

/-- The fixed-latency results of a slot that are due and have their values, in issue order (R22, R41). -/
def dueFlights (t : Thread) : List Flight := t.flight.filter (fun f => decide (f.due ≤ t.rot) && f.vals.isSome)

/-- A fixed-latency result reaches its ports and fpu.f (R22, R258). -/
def deliverFlight (t : Thread) (f : Flight) : Thread :=
  let t1 := (f.vals.getD []).foldl Thread.deliver t
  match f.flags with
  | some (g, clear) => t1.orFlags f.tag g clear
  | none => t1

/-- The fixed-latency results that are due reach their ports, one by one in issue order. -/
def deliverDue (t : Thread) : Nat → Thread
  | 0 => t
  | n + 1 =>
    match (dueFlights t).head? with
    | none => t
    | some f => deliverDue (deliverFlight { t with flight := t.flight.filter (fun g => g.tag != f.tag) } f) n

def execFixedResultDelivery (slot : Fin 8) (s : State) : Out := .next (s.onSlot slot (fun t => deliverDue t t.flight.length))

/-- Nothing issued before it is still to reach one of a result's ports in its area (R41, R371). -/
def firstOfPort (t : Thread) (o : Owed) : Bool :=
  !t.owed.any (fun p => decide (p.tag < o.tag) && p.area == o.area && p.ports.any o.ports.contains) &&
  !t.flight.any (fun f => decide (f.tag < o.tag) && f.ports.any o.ports.contains)

/-- The oldest fenced result that may be delivered: its value is known, or its view read may be made now. -/
def nextOwed (t : Thread) : Option Owed :=
  t.owed.find? (fun o => (o.vals.isSome || o.read.isSome) && firstOfPort t o)

/-- The set of a line in the L1 (R146). -/
def l1Set (pa : Nat) : Nat := pa / 128 % 16

/-- The L1 takes a line: of four in its set, the one that came longest ago is replaced (R146). (DESIGN CHOICE, log 17.) -/
def l1Take (l : List Nat) (pa : Nat) : List Nat :=
  let here := l.filter (fun x => l1Set x == l1Set pa)
  match here.getLast? with
  | some v => pa :: (if 4 ≤ here.length then l.filter (· != v) else l)
  | none => pa :: l

/-- A paged load reads a line through the L1: one that fails its parity is dropped and fetched again, and a miss fetches the
line from the die's slice (R81, R84, R146). -/
def l1Read (s : State) (pa : Nat) : State :=
  let fetch (s0 : State) : State :=
    let s := lineRead s0 (dieOf s0.coreId) pa
    (s.onSt (fun st => { st with sound := soundFill st (dieOf s.coreId) pa })).onCore (fun c => { c with l1 := l1Take c.l1 pa })
  if s.core.l1.contains pa then
    if s.core.l1bad.contains pa then
      let e : McEvent := { cluster := clusterOf s.coreId, bank := 0, cls := 1, src := 5, core := bankNo s.coreId, cause := 0
                           ad := BitVec.ofNat 64 pa, sy := Config.syndrome pa, th := 0 }
      fetch ((s.mcLog e).onCore (fun c => { c with l1 := c.l1.filter (· != pa), l1bad := c.l1bad.filter (· != pa) }))
    else s
  else fetch s

/-- The view read of a paged load when it returns (R297, R147): its bytes, with the thread's own pending writes before
it, the mark of its words, and what the read adds to the floor. -/
def returnRead (s : State) (slot : Fin 8) (o : Owed) (r : ReadSpec) : PortVal × State :=
  let ((b, m), s1) := threadRead (l1Read s (lineOf r.loc)) slot none o.tag r.loc r.bytes
  let v := natLE b
  let val : Quad := if r.ext then quad (BitVec.ofInt 64 (signedAt (8 * r.bytes) v)) else BitVec.ofNat 128 v
  ({ port := o.ports.headD .memO, val, mark := m.map (markCause r.loc r.bytes r.va) }, s1)

/-- A delivery is owed no longer; its ring entry is free where the request has ended, and what it returned is the
thread's (R307, R330, R364). -/
def owedDone (s : State) (slot : Fin 8) (o : Owed) : State :=
  let s1 := s.onSlot slot (fun t =>
    let t1 := { t with owed := t.owed.filter (fun p => p.tag != o.tag), relReads := o.rels ++ t.relReads }
    if t.counted.any (fun c => c.tag == o.tag) then t1 else t1.ringFree o.tag)
  if o.work = [] then s1 else absorb s1 slot o.work

/-- A fenced result goes to its ports, or, while its area is out of use, into the area (R42, R371). -/
def placeResult (s : State) (slot : Fin 8) (o : Owed) (vs : List PortVal) : Out :=
  let t := s.slots[slot]
  match (if t.reaches o.tag o.area then none else o.area) with
  | none =>
    .next (s.onSlot slot (fun t =>
      let t1 := vs.foldl Thread.deliver t
      match o.flags with
      | some f => t1.orFlags o.tag f false
      | none => t1))
  | some a =>
    match o.flags with
    | none => deliverToArea s slot a vs
    | some f =>
      match areaPlace s slot a true with
      | .ok loc _ s0 =>
        let s1 := coreRead s0 (loc + 16 * (24 + RPort.fpuF.fin.val)) 16
        let old := natLE (areaRead s1 slot (loc + 16 * (24 + RPort.fpuF.fin.val)) 8)
        deliverToArea s1 slot a (vs ++ [{ port := .fpuF, val := BitVec.ofNat 128 (old ||| f.toNat), mark := none }])
      | _ => deliverToArea s slot a vs

/-- A fenced result of a slot returns (R42, R111, R371). -/
def execFencedResultDelivery (slot : Fin 8) (s : State) : Out :=
  match nextOwed s.slots[slot] with
  | none => .next s
  | some o =>
    match o.vals, o.read with
    | some vs, _ => placeResult (owedDone s slot o) slot o vs
    | none, some r =>
      let (v, s1) := returnRead s slot o r
      placeResult (owedDone s1 slot o) slot o [v]
    | none, none => .next s

-- ## Held words and parks (R39, R44, R67)

/-- Whether the streams that a held word waits for allow it; a word held for another reason tries again (R39). -/
def mayRelease (s : State) (h : Hold) : Bool :=
  !h.pop.any (popHeld s) && !h.push.any (fun n => pushHeld s n (h.pop == some n))

/-- A held word may issue in its slot's next rotation (R39). -/
def execStreamWordHoldRelease (slot : Fin 8) (s : State) : Out :=
  match s.slots[slot].held with
  | none => .next s
  | some h =>
    if mayRelease { s with cur := slot } h || s.slots[slot].event?.isSome then .next (s.onSlot slot (fun t => { t with held := none }))
    else .next s

/-- A slot parked after a switch marker goes on once nothing is owed, its fence bits clear (R44). -/
def execSwitchMarkerRelease (slot : Fin 8) (s : State) : Out :=
  let t := s.slots[slot]
  if t.mode = .marker ∧ t.pending = false then .next (s.onSlot slot (fun t => { t with mode := .run, fence := 0 })) else .next s

/-- Whether a thread waits for the walk of a context's 64 KiB region (R71). -/
def TlbMiss.awaited (cid : Fin 64) (va : Nat) (t : Thread) : Bool :=
  t.mode == .run && t.cid == cid && t.miss.any (fun m => m.result.isNone && m.serves va)

/-- A walk that has ended serves every slot of the core that waits for it: one of its context, in its 64 KiB region (R71). -/
def TlbMiss.take (cid : Fin 64) (va : Nat) (r : Walk) (t : Thread) : Thread :=
  if TlbMiss.awaited cid va t then
    { t with miss := match r with | .leaf _ _ _ _ => none | _ => t.miss.map (fun m => { m with result := some r }) }
  else t

/-- Who walks for a slot's word: the walk is made for every slot that waits for it, and its reads are theirs all (R71, R297); an event
that affects several threads names none (R383). -/
def missWalker (s : State) (slot : Fin 8) (va : Nat) : Walker :=
  let t := s.slots[slot]
  let js := (List.finRange 8).filter (fun j => TlbMiss.awaited t.cid va s.slots[j])
  { t.walker with th := if js = [slot] then t.mcth slot else 0#64, miss := none, slots := js }

/-- The walk of the translation that a slot's word waits for, which installs what it finds (R63, R67, R70, R71); its fault is
taken by the word. -/
def execTlbMissWalk (slot : Fin 8) (va : Word) (s : State) : Out :=
  let t := s.slots[slot]
  match t.mode, t.miss with
  | .run, some m =>
    if m.result.isSome || !m.serves (field va 47 0) then .next s
    else
      match walkNow s (missWalker s slot m.va) m.va with
      | (.reserved pa, _) => .fault (.reservedPhysical pa)
      | (r, s1) => .next { s1 with slots := s1.slots.map (TlbMiss.take t.cid m.va r) }
  | _, _ => .next s

-- ## Requests on their way (R298)

/-- A request takes its place on its path: before the requests there that its thread issued after it, else at the tail (R85,
R92, R298). -/
def pathInsert (s : State) : List Req → Req → List Req
  | [], r => [r]
  | x :: l, r => if x.slot == r.slot && decide (r.tag < x.tag) && samePath s x r then r :: x :: l else x :: pathInsert s l r

/-- A request of the posted-store queue may depart: the oldest to its ordering point, a message behind nothing, and a
release once what was counted before it is acknowledged (R298, R324). An older element of a store pattern goes before it (R196),
and so does an own-cluster ldt or reservation request that is held (R85). -/
def mayDepart (s : State) (t : Thread) (i : Nat) (r : Req) : Bool :=
  t.released r &&
  !(s.core.streams.toList.flatMap (·.out) ++ s.st.paths.filter (·.own)).any (fun x => x.slot == r.slot && decide (x.tag < r.tag) && samePath s x r) &&
  (match r.kind with | .msg _ _ _ _ _ => decide (i = 0) | _ => !(t.psq.take i).any (samePath s r))

/-- Where a departed request stands: an own-cluster window request reaches its bank in 8 cycles, a give goes to its home
router, the rest to the tail of their path (R136, R174, R298). -/
def departed (s : State) (r : Req) : State :=
  match r.kind with
  | .give nm t b =>
    match tensorOf s (clusterOf b.core) nm.cid nm.tensor with
    | some tr => pushPacket s (tr.home nm.tile.toNat) (.give nm t b)
    | none => s
  | .msg _ _ _ _ _ | .arrive _ => s.onSt (fun st => { st with paths := st.paths ++ [r] })
  | _ => if r.own then toBank s r else s.onSt (fun st => { st with paths := pathInsert s st.paths r })

def execPostedStoreDepart (slot : Fin 8) (i : Nat) (s : State) : Out :=
  let t := s.slots[slot]
  match t.psq[i]? with
  | none => .next s
  | some r =>
    if !mayDepart s t i r then .next s
    else .next (departed (s.onSlot slot (fun t => { t with psq := t.psq.eraseIdx i })) r)

/-- A request at the head of its path reaches its ordering point: a bank's in 8 cycles through the own-cluster window, and
through the mesh in the order in which they reach it, a line's queue otherwise; a core that the context does not hold refuses it (R55, R91, R137, R298). -/
def reach (s : State) (r : Req) : State :=
  if isBank r.loc then
    if r.slot.isSome && !r.own && !holdsCore s (r.src / 8 % 64) (bankCore r.loc) then
      match r.kind with
      | .lrw _ _ _ => refuse (resvSettle s (r.slot.getD 0) r false) r.slot r.tag (refusal 1) true
      | _ => refuse s r.slot r.tag (refusal 1) true
    else if r.own then toBank s r
    else s.onSt (fun st => { st with bankq := st.bankq ++ [{ due := s.cycle, mesh := true, bank := 0, req := r }] })
  else s.onSt (fun st => { st with queue := st.queue ++ [r] })

/-- What an act of another core's thread asks of an ordering point; sys.mwait asks only for a monitor, and its end for none. -/
def actKind : AgentAct → Option ReqKind
  | .store d full => some (.store d full)
  | .amo k b => some (.amo k b)
  | .scr b last => some (.scr b last)
  | .ldf => some .ldf
  | .ldt => some .ldt
  | .ste d => some (.ste d)
  | .lrw g n t => some (.lrw g n t)
  | .mwait | .unwait => none

/-- A request of another core's thread, whose floor and Rel the step gives (log 1). -/
def agentReq (s : State) (q : AgentReq) (kind : ReqKind) : Req :=
  let src := srcOf q.core q.slot s.slots[(0 : Fin 8)].cid.val
  { slot := none, src, tag := s.nextId, counted := false, kind, loc := q.loc, va := 0, known := q.known
    rel := q.rel.map (fun sc => { scope := sc, core := some q.core, src, rel := q.known }), waits := [], own := q.own }

/-- A request stands behind the older writes of its thread to its ordering point that have not departed: an ldt, which is a
write, and a reservation request (R85, R298). -/
def behindOwn (s : State) (r : Req) : Bool :=
  match r.slot, r.kind with
  | some i, .ldt | some i, .lrw _ _ _ =>
    (s.slots[i].psq ++ s.core.streams.toList.flatMap (·.out)).any (fun x => x.slot == r.slot && decide (x.tag < r.tag) && samePath s x r)
  | _, _ => false

/-- The request that arrives, taken off its path. -/
def arrival (s : State) (a : Arrival) : Option (Req × State) :=
  match a with
  | .path i =>
    match s.st.paths[i]? with
    | some r =>
      if r.toMemory && !behindOwn s r && !(s.st.paths.take i).any (fun x => x.src == r.src && samePath s x r) then
        some (r, s.onSt (fun st => { st with paths := st.paths.eraseIdx i }))
      else none
    | none => none
  | .agent q => if isBank q.loc || exists? q.loc then (actKind q.act).map (fun k => (agentReq s q k, s.bump)) else none

/-- A request arrives: at its bank's own-cluster place or the mesh's, at its line's queue, or, for another core's sys.mwait, as
a monitor of its home slice, which goes where that thread is pre-empted or swapped (R87, R88, R137, R298). -/
def execRequestArrive (r : Arrival) (s : State) : Out :=
  match arrival s r, r with
  | some (q, s1), .agent a =>
    if a.own && isBank a.loc then
      .next (s1.onSt (fun st => { st with bankq := st.bankq ++ [{ due := s.cycle, mesh := false, bank := bankNo a.core, req := q }] }))
    else .next (reach s1 q)
  | some (q, s1), .path _ => .next (reach s1 q)
  | none, .agent a =>
    match a.act with
    | .mwait => if exists? a.loc then .next (monitorPut s { line := lineOf a.loc, core := a.core, slot := a.slot }) else .next s
    | .unwait => .next (s.onSt (fun st => { st with monitors := st.monitors.filter (fun m => !(m.core == a.core && m.slot == a.slot && m.core != s.coreId)) }))
    | _ => .next s
  | none, .path _ => .next s

/-- A reservation request reaches its ordering point and is performed there, behind nothing of its line (R96). -/
def execLrwRequestArrive (r : Arrival) (s : State) : Out :=
  match arrival s r with
  | some (q, s1) =>
    match q.kind with
    | .lrw _ _ _ =>
      if isBank q.loc || s1.st.queue.any (fun x => lineOf x.loc == lineOf q.loc) then .next (reach s1 q) else .next (performReq s1 q)
    | _ => .next s
  | none => .next s

/-- A line's oldest request is performed at its home slice (R82, R85, R298). -/
def execHomeSliceWrite (i : Nat) (s : State) : Out :=
  match s.st.queue[i]? with
  | none => .next s
  | some r =>
    if (s.st.queue.take i).any (fun x => lineOf x.loc == lineOf r.loc) then .next s
    else .next (performReq (s.onSt (fun st => { st with queue := st.queue.eraseIdx i })) r)

/-- A request of a bank that is due in an earlier cycle, or in the same one before another: the cluster's own requests by the
bank numbers of their cores, then mesh requests, each in the order in which they came (R137). -/
def BankReq.before (x b : BankReq) (xi bi : Nat) : Bool :=
  decide (x.due < b.due) || (x.due == b.due &&
    ((!x.mesh && b.mesh) || (x.mesh == b.mesh && (decide (x.bank < b.bank) || (x.bank == b.bank && decide (xi < bi))))))

/-- A window request is performed at its bank when it is due, in the order of R137 (R136). -/
def execBankRequestPerform (i : Nat) (s : State) : Out :=
  match s.st.bankq[i]? with
  | none => .next s
  | some b =>
    let ahead (x : BankReq × Nat) : Bool := bankCore x.1.req.loc == bankCore b.req.loc && x.1.before b x.2 i
    if s.cycle < b.due ∨ s.st.bankq.zipIdx.any ahead = true then .next s
    else .next (performReq (s.onSt (fun st => { st with bankq := st.bankq.eraseIdx i })) b.req)

/-- An invalidation removes a die's copy, whatever its state, and is confirmed (R82). -/
def execSharedCopyInvalidation (die : Fin 16) (line : Nat) (s : State) : Out :=
  let clr (m : BitVec 16) : BitVec 16 := m &&& ~~~(1#16 <<< die.val)
  .next (s.onSt (fun st => { st with
    lines := st.lines.map (fun l => if l.pa = line then { l with shared := clr l.shared, flaws := clr l.flaws } else l)
    acks := st.acks.map (fun a => if lineOf a.loc = line then { a with await := clr a.await } else a) }))

/-- An acknowledgement reaches its writer once every invalidated die has confirmed; the debug module traces it
(R82, R86, R298). -/
def execWriteAcknowledge (i : Nat) (s : State) : Out :=
  match s.st.acks[i]? with
  | none => .next s
  | some a =>
    if a.await ≠ 0 then .next s
    else
      let s1 := s.onSt (fun st => { st with acks := st.acks.eraseIdx i })
      match a.slot with
      | none => .next s1
      | some slot =>
        let s2 := if s1.slots[slot].counted.any (fun c => c.tag == a.tag) then uncount s1 slot a.tag else s1
        .next (if isBank a.loc then s2 else s2.trace 2 (bankNo s.coreId * 2 ^ 32 + slot.val * 2 ^ 16 + a.seqTag.toNat) a.va)

/-- The words of a line whose read from its tier cannot be corrected enter the slice poisoned, and the event is logged (R84,
R382). -/
def tierBad (s : State) (pa : Nat) (bad : List (Fin 16)) : State :=
  bad.foldl (fun s i => poisonWord (s.mcLog (poisonEvent (pa + 8 * i.val) 0x34)) (pa / 8 + i.val)) s

/-- A die's slice fetches a line that it missed: held Clean at home, Shared elsewhere with its sharer bit set, in place of
another line where its set is full; the tier's read may fail on some words (R79 to R84, R86). -/
def execLineReadMiss (die : Fin 16) (line : LineRead) (s : State) : Out :=
  let pa := lineOf line.line
  if isBank pa || !exists? pa || (lineFind s.st.lines pa).heldAt die.val then .next s
  else
    .next (lineRead (if (lineFind s.st.lines pa).home then s else tierBad (lineEnter s pa) pa line.bad) die.val pa)

-- ## Faults, traps and the kill (R365, R368, R370, R372, R385)

/-- Causes that are reported imprecise (R365). -/
def impreciseCode (c : Nat) : Bool := [0x02, 0x07, 0x08, 0x09, 0x0B, 0x0C, 0x0D, 0x0E, 0x0F, 0x11, 0x12].contains c

def holdsThread (t : Thread) : Bool :=
  match t.mode with
  | .absent | .ended | .killed => false
  | _ => true

/-- A fault that a remote request or an engine reports reaches its thread and is held pending (R365). -/
def execImpreciseFaultArrival (slot : Fin 8) (seq : Nat) (cause : Word) (s : State) : Out :=
  let t := s.slots[slot]
  if holdsThread t && impreciseCode (field cause 7 0) then .next (s.setSlot slot (t.addFault seq cause)) else .next s

/-- A slot that stands between two words and would go on only by an event: parked, or with its word held (R368). -/
def atBoundary (t : Thread) : Bool :=
  match t.mode with
  | .run => t.held.isSome
  | .absent | .ended | .killed | .ending | .migrate _ | .entering _ | .userEntering | .dying => false
  | _ => true

/-- An entry whose results have drained is completed, or a parked slot takes its event (R368, R370). -/
def execTrapEntry (slot : Fin 8) (s : State) : Out :=
  let t := s.slots[slot]
  match t.mode with
  | .entering e => if entryWaits s slot then .next s else takeException s slot e
  | _ =>
    match t.event? with
    | some .user => .next s
    | some _ => if atBoundary t then takeEvent s slot else .next s
    | none => .next s

/-- The same for a user-level interrupt (R372). -/
def execUserLevelEntry (slot : Fin 8) (s : State) : Out :=
  let t := s.slots[slot]
  match t.mode with
  | .userEntering => if entryWaits s slot then .next s else takeUser s slot t.pc t.sAfter
  | _ =>
    match t.event? with
    | some .user => if atBoundary t then takeEvent s slot else .next s
    | _ => .next s

/-- Firmware kills a thread, or trap entry that failed does (R370, R371, R385). -/
def execThreadKill (slot : Fin 8) (s : State) : Out :=
  if holdsThread s.slots[slot] then .next (killThread s slot) else .next s

end Sys2Proof.Machine
end

