-- ==== Sys2Proof/Machine/Float.lean ====
section
/-! DEFINITION. Number formats (R219 to R221), the one rounding (R222, R223), NaN selection (R224), float arithmetic (R261), and 8-bit codes with their tables (R225 to R230). -/

namespace Sys2Proof

/-- The float formats (R219). -/
inductive FFmt where
  | b16 | b32 | b64 | e8m10
  deriving DecidableEq, Repr

namespace Machine

/-- Exponent and fraction widths (R219, R220). -/
def expBits : FFmt → Nat
  | .b16 => 5 | .b32 => 8 | .b64 => 11 | .e8m10 => 8
def fracBits : FFmt → Nat
  | .b16 => 10 | .b32 => 23 | .b64 => 52 | .e8m10 => 10

/-- The exponent of the least subnormal. -/
def leastExp (f : FFmt) : Int := 2 - (2 ^ (expBits f - 1) : Nat) - (fracBits f : Nat)

/-- The value of a float: a NaN with its fraction at the top of 52 bits, an infinity, or (−1)^neg × m × 2^e. -/
inductive FVal where
  | nan (neg : Bool) (frac : Nat)
  | inf (neg : Bool)
  | fin (neg : Bool) (m : Nat) (e : Int)
  deriving DecidableEq, Repr

def fDecode (f : FFmt) (v : Nat) : FVal :=
  let mb := fracBits f
  let neg := v.testBit (expBits f + mb)
  let e := v / 2 ^ mb % 2 ^ expBits f
  let m := v % 2 ^ mb
  if e = 2 ^ expBits f - 1 then (if m = 0 then .inf neg else .nan neg (m * 2 ^ (52 - mb)))
  else if e = 0 then .fin neg m (leastExp f)
  else .fin neg (m + 2 ^ mb) (leastExp f + (e - 1 : Nat))

def fSign (f : FFmt) (neg : Bool) : Nat := if neg then 2 ^ (expBits f + fracBits f) else 0
def fTop (f : FFmt) : Nat := (2 ^ expBits f - 1) * 2 ^ fracBits f
def fInf (f : FFmt) (neg : Bool) : Nat := fSign f neg + fTop f
/-- A NaN quieted at a format (R221). -/
def fNan (f : FFmt) (neg : Bool) (frac : Nat) : Nat := fSign f neg + fTop f + (frac / 2 ^ (52 - fracBits f) ||| 2 ^ (fracBits f - 1))
/-- The default NaN (R224). -/
def fDefault (f : FFmt) : Nat := fNan f false 0
def fOne (f : FFmt) : Nat := (2 ^ (expBits f - 1) - 1) * 2 ^ fracBits f

def isSnan : FVal → Bool
  | .nan _ frac => !frac.testBit 51
  | _ => false
def isNan : FVal → Bool
  | .nan _ _ => true
  | _ => false

/-- Whether the quotient `q` with remainder `r` of a division by `d` is rounded away from zero (R222). -/
def roundsUp (rm : Nat) (neg : Bool) (q r d : Nat) : Bool :=
  match rm with
  | 0 => decide (d < 2 * r) || (decide (2 * r = d) && q % 2 == 1)
  | 1 => false
  | 2 => !neg && r != 0
  | _ => neg && r != 0

/-- What overflow gives (R222). -/
def overflowTo (f : FFmt) (rm : Nat) (neg : Bool) : Nat :=
  let inf := match rm with | 0 => true | 1 => false | 2 => !neg | _ => neg
  fSign f neg + (if inf then fTop f else fTop f - 1)

/-- n/d × 2^e as a quotient and a remainder in units of 2^u. -/
def scaled (n d : Nat) (e u : Int) : Nat × Nat × Nat :=
  if u ≤ e then (n * 2 ^ (e - u).toNat / d, n * 2 ^ (e - u).toNat % d, d)
  else (n / (d * 2 ^ (u - e).toNat), n % (d * 2 ^ (u - e).toNat), d * 2 ^ (u - e).toNat)

/-- The exact value (−1)^neg × n/d × 2^e, n and d positive, rounded once (R222, R223), with OF, UF and NX (R257). -/
def roundQ (f : FFmt) (rm : Nat) (neg : Bool) (n d : Nat) (e : Int) : Nat × BitVec 6 :=
  let mb := fracBits f
  let q0 : Int := (Nat.log2 n : Int) - Nat.log2 d
  let big := if 0 ≤ q0 then decide (d * 2 ^ q0.toNat ≤ n) else decide (d ≤ n * 2 ^ (-q0).toNat)
  let top : Int := (if big then q0 else q0 - 1) + e
  let free : Int := top - mb
  let u : Int := max free (leastExp f)
  let (q, r, k) := scaled n d e u
  let m := q + (roundsUp rm neg q r k).toNat
  let bits := (u - leastExp f).toNat * 2 ^ mb + m
  let nx := r != 0
  if fTop f ≤ bits then (overflowTo f rm neg, flagOF ||| flagNX)
  else
    let (q1, r1, k1) := scaled n d e free
    let tiny := decide (free < leastExp f) && !(decide (free + 1 = leastExp f) && decide (q1 + (roundsUp rm neg q1 r1 k1).toNat = 2 ^ (mb + 1)))
    (fSign f neg + bits, (if nx then flagNX else 0) ||| (if nx && tiny then flagUF else 0))

/-- A finite value rounded; a zero keeps its sign. -/
def roundFin (f : FFmt) (rm : Nat) (neg : Bool) (m : Nat) (e : Int) : Nat × BitVec 6 :=
  if m = 0 then (fSign f neg, 0) else roundQ f rm neg m 1 e

/-- A conversion between formats (R221). -/
def fConvert (f : FFmt) (rm : Nat) : FVal → Nat
  | .nan neg frac => fNan f neg frac
  | .inf neg => fInf f neg
  | .fin neg m e => (roundFin f rm neg m e).1

/-- The first NaN operand, quieted, with NV where some operand signals (R224). -/
def firstNan (f : FFmt) (vs : List FVal) : Option (Nat × BitVec 6) :=
  match vs.find? isNan with
  | some (.nan neg frac) => some (fNan f neg frac, if vs.any isSnan then flagNV else 0)
  | _ => none

def invalid (f : FFmt) : Nat × BitVec 6 := (fDefault f, flagNV)

def signed (neg : Bool) (m : Nat) : Int := if neg then -(m : Int) else m

/-- x + y of finite values, rounded once; an exact zero of unlike signs is −0 in mode 3 only. -/
def sumFin (f : FFmt) (rm : Nat) (na : Bool) (ma : Nat) (ea : Int) (nb : Bool) (mb : Nat) (eb : Int) : Nat × BitVec 6 :=
  let e := min ea eb
  let v : Int := signed na (ma * 2 ^ (ea - e).toNat) + signed nb (mb * 2 ^ (eb - e).toNat)
  if v = 0 then (fSign f (if na = nb then na else rm == 3), 0)
  else roundQ f rm (decide (v < 0)) v.natAbs 1 e

/-- a + b on values that are no NaN. -/
def addVal (f : FFmt) (rm : Nat) (a b : FVal) : Nat × BitVec 6 :=
  match a, b with
  | .inf na, .inf nb => if na = nb then (fInf f na, 0) else invalid f
  | .inf n, _ => (fInf f n, 0)
  | _, .inf n => (fInf f n, 0)
  | .fin na ma ea, .fin nb mb eb => sumFin f rm na ma ea nb mb eb
  | _, _ => invalid f

/-- The exact product; none for infinity times zero. -/
def mulVal (a b : FVal) : Option FVal :=
  match a, b with
  | .fin na ma ea, .fin nb mb eb => some (.fin (na != nb) (ma * mb) (ea + eb))
  | .inf na, .fin nb m _ => if m = 0 then none else some (.inf (na != nb))
  | .fin na m _, .inf nb => if m = 0 then none else some (.inf (na != nb))
  | .inf na, .inf nb => some (.inf (na != nb))
  | _, _ => none

def negVal : FVal → FVal
  | .nan n f => .nan n f
  | .inf n => .inf (!n)
  | .fin n m e => .fin (!n) m e

def fAdd (f : FFmt) (rm : Nat) (a b : FVal) : Nat × BitVec 6 := (firstNan f [a, b]).getD (addVal f rm a b)
def fSub (f : FFmt) (rm : Nat) (a b : FVal) : Nat × BitVec 6 := (firstNan f [a, b]).getD (addVal f rm a (negVal b))

def roundVal (f : FFmt) (rm : Nat) : FVal → Nat × BitVec 6
  | .fin n m e => roundFin f rm n m e
  | .inf n => (fInf f n, 0)
  | .nan n frac => (fNan f n frac, 0)

def fMul (f : FFmt) (rm : Nat) (a b : FVal) : Nat × BitVec 6 :=
  (firstNan f [a, b]).getD (match mulVal a b with | some p => roundVal f rm p | none => invalid f)

/-- a × b + c with one rounding; infinity × 0 is invalid even where c is a quiet NaN (R261). -/
def fFma (f : FFmt) (rm : Nat) (a b c : FVal) : Nat × BitVec 6 :=
  let bad := !isNan a && !isNan b && (mulVal a b).isNone
  match firstNan f [a, b, c] with
  | some r => (r.1, if bad then r.2 ||| flagNV else r.2)
  | none => match mulVal a b with | some p => addVal f rm p c | none => invalid f

def fDiv (f : FFmt) (rm : Nat) (a b : FVal) : Nat × BitVec 6 :=
  (firstNan f [a, b]).getD (match a, b with
    | .inf na, .fin nb _ _ => (fInf f (na != nb), 0)
    | .fin na _ _, .inf nb => (fSign f (na != nb), 0)
    | .fin na ma ea, .fin nb mb eb =>
      if mb = 0 then (if ma = 0 then invalid f else (fInf f (na != nb), flagDZ))
      else if ma = 0 then (fSign f (na != nb), 0)
      else roundQ f rm (na != nb) ma mb (ea - eb)
    | _, _ => invalid f)

/-- The integer square root, bit by bit from `k`. -/
def isqrt (n : Nat) : Nat → Nat → Nat
  | 0, r => r
  | k + 1, r => if (r + 2 ^ k) * (r + 2 ^ k) ≤ n then isqrt n k (r + 2 ^ k) else isqrt n k r

/-- A square root with enough bits for one rounding: an inexact root is taken halfway to the next, which every format
rounds as the root. -/
def fSqrt (f : FFmt) (rm : Nat) (a : FVal) : Nat × BitVec 6 :=
  (firstNan f [a]).getD (match a with
    | .inf false => (fInf f false, 0)
    | .fin n m e =>
      if m = 0 then (fSign f n, 0)
      else if n then invalid f
      else
        let odd := (e % 2).toNat
        let v := m * 2 ^ (odd + 112)
        let r := isqrt v 90 0
        let half : Int := (e - odd - 112) / 2
        if r * r = v then roundQ f rm false r 1 half else roundQ f rm false (2 * r + 1) 2 half
    | _ => invalid f)

/-- An order on values that are no NaN, zeros equal: −1, 0 or 1. -/
def fOrder (a b : FVal) : Int :=
  match a, b with
  | .inf na, .inf nb => if na = nb then 0 else if na then -1 else 1
  | .inf n, _ => if n then -1 else 1
  | _, .inf n => if n then 1 else -1
  | .fin na ma ea, .fin nb mb eb =>
    let e := min ea eb
    let d : Int := signed na (ma * 2 ^ (ea - e).toNat) - signed nb (mb * 2 ^ (eb - e).toNat)
    if d < 0 then -1 else if d = 0 then 0 else 1
  | _, _ => 0

def valNeg : FVal → Bool
  | .nan n _ => n
  | .inf n => n
  | .fin n _ _ => n

/-- IEEE minimum and maximum: a NaN prevails, −0 below +0 (R242). -/
def fMinMax (f : FFmt) (mx : Bool) (a b : FVal) : Nat :=
  match firstNan f [a, b] with
  | some r => r.1
  | none =>
    let less := if fOrder a b = 0 then valNeg a && !valNeg b else decide (fOrder a b < 0)
    fConvert f 0 (if less != mx then a else b)

/-- A finite value rounded to an integer, and whether it was exact (R261). -/
def toIntegral (rm : Nat) (neg : Bool) (m : Nat) (e : Int) : Int × Bool :=
  let (q, r, k) := scaled m 1 e 0
  (signed neg (q + (roundsUp rm neg q r k).toNat), r == 0)

/-- The range of an integer type. -/
def intMin (w : Nat) (u : Bool) : Int := if u then 0 else -((2 ^ (w - 1) : Nat) : Int)
def intMax (w : Nat) (u : Bool) : Int := if u then (2 ^ w : Nat) - 1 else (2 ^ (w - 1) : Nat) - 1
def clampInt (w : Nat) (u : Bool) (v : Int) : Int := max (intMin w u) (min v (intMax w u))

/-- A float as an integer of `w` bits (R246, R261). -/
def fToInt (rm w : Nat) (u : Bool) (a : FVal) : Int × BitVec 6 :=
  match a with
  | .nan _ _ => (0, flagNV)
  | .inf n => (if n then intMin w u else intMax w u, flagNV)
  | .fin n m e =>
    let (v, exact) := toIntegral rm n m e
    if v < intMin w u ∨ intMax w u < v then (clampInt w u v, flagNV) else (v, if exact then 0 else flagNX)

def fOfInt (f : FFmt) (rm : Nat) (v : Int) : Nat × BitVec 6 := roundFin f rm (decide (v < 0)) v.natAbs 0

-- ## Codes and tables (R225 to R230)

/-- Entry c of decode table t (R229), and entry i of magnitude table t (R231). -/
def tableAt (c : Core) (k : Nat) : Nat :=
  match c.tables.find? (fun p => p.1 == k) with
  | some p => p.2.toNat
  | none => 0
def decEntry (c : Core) (t code : Nat) : FVal := fDecode .e8m10 (tableAt c (256 * t + code))
def magEntry (c : Core) (t i : Nat) : FVal := fDecode .e8m10 (tableAt c (1024 + 8 * t + i))

/-- The NaN code of a decode table (R229). -/
def nanCode (c : Core) (t : Nat) : Nat := ((List.range 256).find? (fun k => isNan (decEntry c t k))).getD 255

/-- |a − b| of finite values, as a multiple of 2^e. -/
def distance (a b : FVal) (e : Int) : Nat :=
  match a, b with
  | .fin na ma ea, .fin nb mb eb => (signed na (ma * 2 ^ (ea - e).toNat) - signed nb (mb * 2 ^ (eb - e).toNat)).natAbs
  | _, _ => 0

def isInf : FVal → Bool
  | .inf _ => true
  | _ => false

/-- The best candidates of R230, in ascending code order. A finite v has one scale, 2^−1200, below every format's least. -/
def bestCodes (v : FVal) (cand : List (Nat × FVal)) : List Nat :=
  match v with
  | .inf n =>
    let same := cand.filter (fun p => p.2 == .inf n)
    if !same.isEmpty then same.map (·.1)
    else
      let far (a b : FVal) : Bool := if n then decide (fOrder a b < 0) else decide (0 < fOrder a b)
      (cand.filter (fun p => !cand.any (fun q => far q.2 p.2))).map (·.1)
  | _ =>
    let fins := cand.filter (fun p => !isInf p.2)
    if fins.isEmpty then
      let same := cand.filter (fun p => valNeg p.2 == valNeg v)
      (if same.isEmpty then cand else same).map (·.1)
    else
      let ds := fins.map (fun p => (p.1, distance v p.2 (-1200)))
      let least := ds.foldl (fun m p => min m p.2) (ds.headD (0, 0)).2
      (ds.filter (fun p => p.2 == least)).map (·.1)

/-- The code of a value with table ENC and BOUND of a cr.fmt, and the clamp flag (R230). -/
def encodeCode (c : Core) (fmt : Word) (v : FVal) : Nat × Bool :=
  let t := field fmt 11 10
  if isNan v then (nanCode c t, false)
  else
    let b := fDecode .e8m10 (field fmt 49 32)
    let mag (x : FVal) : FVal := if valNeg x then negVal x else x
    let exceeds := !isNan b && decide (0 < fOrder (mag v) b)
    let v1 := if exceeds then (if valNeg v then negVal b else b) else v
    let cand := ((List.range 256).map (fun k => (k, decEntry c t k))).filter (fun p => !isNan p.2)
    if cand.isEmpty then (nanCode c t, exceeds)
    else
      let best := bestCodes v1 cand
      ((match best.find? (fun k => k % 2 == 0) with | some k => k | none => best.headD 0), exceeds)

end Machine

end Sys2Proof
end

