-- ==== Sys2Proof/Machine/Fpu.lean ====
section
/-! DEFINITION. fpu, sfu and rng: operations 88 to 102 and 143 (R256 to R269). -/

namespace Sys2Proof.Machine

-- ## Scalar float (R256 to R261)

/-- Whether a delivery to fpu.f is owed to an earlier trigger (R258). An mx.wait whose area is out of use delivers into that area (R371), and
holds no trigger of the handler. (DESIGN CHOICE, log 112.) -/
def flagsOwed (t : Thread) : Bool :=
  t.flight.any (fun f => f.flags.isSome) || t.owed.any (fun o => t.reaches o.tag o.area && o.ports.contains .fpuF) || t.seqr.run.isSome

/-- An fpu operation: fpu.o and the flags at its latency, with FMT = 1 gated by F2 and FC = 1 held behind earlier
deliveries to fpu.f (R256 to R260). `f` gets the format, fpu.ty, and the three operands. -/
def fpuPlan (lat : Nat) (f : FFmt → Word → Nat → Nat → Nat → Nat × BitVec 6) : Plan where
  feat := fun s _ => if (s.thr.opw .fpuTy).getLsbD 0 then some 2 else none
  inRun := fun t => (t.opw .fpuTy).getLsbD 7
  run := fun s q =>
    let t := s.thr
    let ty := t.opw .fpuTy
    let fc := ty.getLsbD 7
    if field ty 63 12 ≠ 0 ∨ field ty 4 1 ≠ 0 then .trap s reservedPort
    else if t.orderHold lat [.fpuO] || (fc && flagsOwed t) then .hold none none .vac
    else
      let fmt : FFmt := if ty.getLsbD 0 then .b64 else .b32
      let w := if ty.getLsbD 0 then 64 else 32
      let arg (v : Word) : Nat := v.toNat % 2 ^ w
      let r := f fmt ty (low64 q).toNat (arg (t.opw .fpuB)) (arg (t.opw .fpuC))
      let vs : List PortVal := [{ port := .fpuO, val := BitVec.ofNat 128 r.1, mark := none }]
      .done (s.bump.setThr (t.send s.nextId lat [.fpuO] (some vs) (some (r.2, fc))))

/-- The trigger value as a float of the format. -/
def fArg (f : FFmt) (a : Nat) : FVal := fDecode f (a % (if f = .b64 then 2 ^ 64 else 2 ^ 32))
def fRm (ty : Word) : Nat := field ty 6 5

def fpuAddPlan : Plan := fpuPlan 1 (fun f ty a b _ => fAdd f (fRm ty) (fArg f a) (fDecode f b))
def fpuSubPlan : Plan := fpuPlan 1 (fun f ty a b _ => fSub f (fRm ty) (fArg f a) (fDecode f b))
def fpuMulPlan : Plan := fpuPlan 1 (fun f ty a b _ => fMul f (fRm ty) (fArg f a) (fDecode f b))
def fpuFmaPlan : Plan := fpuPlan 1 (fun f ty a b c => fFma f (fRm ty) (fArg f a) (fDecode f b) (fDecode f c))
def fpuDivPlan : Plan := fpuPlan 6 (fun f ty a b _ => fDiv f (fRm ty) (fArg f a) (fDecode f b))
def fpuSqrtPlan : Plan := fpuPlan 6 (fun f ty a _ _ => fSqrt f (fRm ty) (fArg f a))

/-- fpu.cmp: conditions 1 and 2 signal on any NaN (R261). -/
def fCompare (cc : Nat) (a b : FVal) : Nat × BitVec 6 :=
  if isNan a || isNan b then
    ((if cc = 3 then 1 else 0), if cc = 1 ∨ cc = 2 ∨ isSnan a = true ∨ isSnan b = true then flagNV else 0)
  else
    let d := fOrder a b
    ((match cc with | 0 => decide (d = 0) | 1 => decide (d < 0) | 2 => decide (d ≤ 0) | _ => false).toNat, 0)

def fpuCmpPlan : Plan := fpuPlan 1 (fun f ty a b _ => fCompare (field ty 11 10) (fArg f a) (fDecode f b))

/-- fpu.toi: int32 is extended to 64 bits as IU says (R261). -/
def fpuToiPlan : Plan := fpuPlan 1 (fun f ty a _ _ =>
  let u := ty.getLsbD 9
  let r := fToInt (fRm ty) (if ty.getLsbD 8 then 64 else 32) u (fArg f a)
  (wrapTo 64 r.1, r.2))

/-- fpu.tof (R261). -/
def fpuTofPlan : Plan := fpuPlan 1 (fun f ty a _ _ =>
  let w := if ty.getLsbD 8 then 64 else 32
  fOfInt f (fRm ty) (if ty.getLsbD 9 then ((a % 2 ^ w : Nat) : Int) else signedAt w a))

def execFpuAdd (sw : Bool) (g : Guard) (x : Source) (s : State) : Out := issueLong sw g x (fpuAddPlan.covered .fpuAdd) s
def execFpuSub (sw : Bool) (g : Guard) (x : Source) (s : State) : Out := issueLong sw g x (fpuSubPlan.covered .fpuSub) s
def execFpuMul (sw : Bool) (g : Guard) (x : Source) (s : State) : Out := issueLong sw g x (fpuMulPlan.covered .fpuMul) s
def execFpuFma (sw : Bool) (g : Guard) (x : Source) (s : State) : Out := issueLong sw g x (fpuFmaPlan.covered .fpuFma) s
def execFpuDiv (sw : Bool) (g : Guard) (x : Source) (s : State) : Out := issueLong sw g x (fpuDivPlan.covered .fpuDiv) s
def execFpuSqrt (sw : Bool) (g : Guard) (x : Source) (s : State) : Out := issueLong sw g x (fpuSqrtPlan.covered .fpuSqrt) s
def execFpuCmp (sw : Bool) (g : Guard) (x : Source) (s : State) : Out := issueLong sw g x (fpuCmpPlan.covered .fpuCmp) s
def execFpuToi (sw : Bool) (g : Guard) (x : Source) (s : State) : Out := issueLong sw g x (fpuToiPlan.covered .fpuToi) s
def execFpuTof (sw : Bool) (g : Guard) (x : Source) (s : State) : Out := issueLong sw g x (fpuTofPlan.covered .fpuTof) s

-- ## Frozen functions (R262 to R265)

/-- One segment: C0, C1, C2 (R265). -/
abbrev Seg := Int × Int × Int

def sfuE0 : List Seg := [(1073741824, 11628966, 63316), (1085434106, 11755597, 64006), (1097253708, 11883607, 64702), (1109202018, 12013011, 65407), (1121280436, 12143824, 66119), (1133490379, 12276062, 66839), (1145833280, 12409739, 67567), (1158310587, 12544872, 68303)]
def sfuE1 : List Seg := [(1170923762, 12681477, 69047), (1183674286, 12819569, 69798), (1196563654, 12959165, 70559), (1209593378, 13100281, 71327), (1222764986, 13242934, 72104), (1236080024, 13387140, 72889), (1249540052, 13532917, 73682), (1263146652, 13680280, 74485)]
def sfuE2 : List Seg := [(1276901417, 13829249, 75296), (1290805962, 13979840, 76116), (1304861917, 14132070, 76945), (1319070932, 14285958, 77783), (1333434672, 14441522, 78630), (1347954824, 14598780, 79486), (1362633090, 14757750, 80351), (1377471191, 14918452, 81226)]
def sfuE3 : List Seg := [(1392470869, 15080903, 82111), (1407633882, 15245123, 83005), (1422962010, 15411132, 83909), (1438457051, 15578948, 84822), (1454120821, 15748591, 85746), (1469955159, 15920082, 86680), (1485961921, 16093441, 87624), (1502142985, 16268687, 88578)]
def sfuE4 : List Seg := [(1518500250, 16445841, 89542), (1535035634, 16624925, 90517), (1551751076, 16805958, 91503), (1568648537, 16988963, 92500), (1585730000, 17173961, 93507), (1602997467, 17360973, 94525), (1620452965, 17550022, 95554), (1638098541, 17741129, 96595)]
def sfuE5 : List Seg := [(1655936265, 17934317, 97647), (1673968228, 18129609, 98710), (1692196547, 18327027, 99785), (1710623359, 18526596, 100871), (1729250827, 18728337, 101970), (1748081133, 18932275, 103080), (1767116489, 19138434, 104203), (1786359126, 19346838, 105337)]
def sfuE6 : List Seg := [(1805811301, 19557511, 106484), (1825475297, 19770479, 107644), (1845353420, 19985765, 108816), (1865448001, 20203396, 110001), (1885761398, 20423396, 111199), (1906295993, 20645793, 112410), (1927054196, 20870611, 113634), (1948038440, 21097877, 114871)]
def sfuE7 : List Seg := [(1969251188, 21327617, 116122), (1990694927, 21559860, 117387), (2012372174, 21794631, 118665), (2034285470, 22031959, 119957), (2056437387, 22271872, 121263), (2078830522, 22514396, 122584), (2101467502, 22759562, 123919), (2124350982, 23007398, 125268)]
/-- The table E (R265). -/
def sfuE : List Seg := sfuE0 ++ sfuE1 ++ sfuE2 ++ sfuE3 ++ sfuE4 ++ sfuE5 ++ sfuE6 ++ sfuE7

def sfuL0 : List Seg := [(0, 24203439, -186182), (24017256, 23831107, -180540), (47667823, 23470057, -175151), (70962728, 23119783, -170000), (93912511, 22779810, -165073), (116527248, 22449691, -160356), (138816582, 22129002, -155839), (160789745, 21817346, -151511)]
def sfuL1 : List Seg := [(182455581, 21514347, -147360), (203822568, 21219648, -143377), (224898839, 20932913, -139554), (245692198, 20653824, -135881), (266210141, 20382078, -132352), (286459867, 20117391, -128959), (306448299, 19859489, -125694), (326182095, 19608117, -122552)]
def sfuL2 : List Seg := [(345667660, 19363028, -119526), (364911162, 19123990, -116610), (383918542, 18890782, -113801), (402695523, 18663193, -111091), (421247625, 18441023, -108477), (439580170, 18224079, -105955), (457698295, 18012181, -103519), (475606957, 17805153, -101166)]
def sfuL3 : List Seg := [(493310944, 17602831, -98893), (510814882, 17405054, -96695), (528123241, 17211672, -94570), (545240343, 17022541, -92514), (562170370, 16837520, -90525), (578917365, 16656479, -88599), (595485245, 16479289, -86734), (611877800, 16305829, -84927)]
def sfuL4 : List Seg := [(628098702, 16135982, -83176), (644151509, 15969638, -81478), (660039669, 15806688, -79832), (675766525, 15647030, -78235), (691335320, 15490565, -76686), (706749198, 15337198, -75183), (722011213, 15186838, -73723), (737124328, 15039397, -72305)]
def sfuL5 : List Seg := [(752091421, 14894792, -70928), (766915285, 14752941, -69590), (781598637, 14613767, -68289), (796144114, 14477193, -67024), (810554283, 14343149, -65794), (824831638, 14211564, -64598), (838978604, 14082372, -63434), (852997541, 13955507, -62302)]
def sfuL6 : List Seg := [(866890747, 13830907, -61199), (880660455, 13708513, -60125), (894308843, 13588266, -59080), (907838029, 13470110, -58061), (921250079, 13353991, -57069), (934547002, 13239857, -56101), (947730758, 13127658, -55158), (960803257, 13017344, -54239)]
def sfuL7 : List Seg := [(973766362, 12908869, -53343), (986621888, 12802186, -52468), (999371606, 12697253, -51615), (1012017244, 12594025, -50782), (1024560487, 12492463, -49970), (1037002979, 12392525, -49177), (1049346328, 12294174, -48402), (1061592099, 12197371, -47646)]
/-- The table L (R265). -/
def sfuL : List Seg := sfuL0 ++ sfuL1 ++ sfuL2 ++ sfuL3 ++ sfuL4 ++ sfuL5 ++ sfuL6 ++ sfuL7

def sfuV0 : List Seg := [(1073741824, -16775215, 256110), (1057222719, -16263084, 244558), (1041204193, -15774051, 233690), (1025663832, -15306748, 223456), (1010580540, -14859906, 213812), (995934445, -14432349, 204714), (981706811, -14022982, 196126), (967879954, -13630788, 188011)]
def sfuV1 : List Seg := [(954437177, -13254820, 180338), (941362695, -12894194, 173076), (928641578, -12548088, 166200), (916259690, -12215731, 159683), (904203641, -11896406, 153502), (892460737, -11589441, 147636), (881018933, -11294204, 142065), (869866794, -11010106, 136772)]
def sfuV2 : List Seg := [(858993459, -10736595, 131737), (848388602, -10473150, 126947), (838042399, -10219283, 122387), (827945503, -9974536, 118042), (818089009, -9738477, 113900), (808464432, -9510699, 109950), (799063683, -9290821, 106181), (789879043, -9078480, 102582)]
def sfuV3 : List Seg := [(780903145, -8873336, 99143), (772128952, -8675068, 95857), (763549742, -8483371, 92714), (755159085, -8297959, 89708), (746950834, -8118559, 86830), (738919105, -7944915, 84073), (731058263, -7776782, 81432), (723362913, -7613931, 78901)]
def sfuV4 : List Seg := [(715827883, -7456142, 76473), (708448214, -7303208, 74144), (701219150, -7154931, 71909), (694136129, -7011124, 69762), (687194767, -6871609, 67701), (680390859, -6736218, 65719), (673720360, -6604789, 63814), (667179386, -6477169, 61982)]
def sfuV5 : List Seg := [(660764199, -6353212, 60220), (654471207, -6232780, 58524), (648296950, -6115741, 56891), (642238100, -6001967, 55318), (636291451, -5891338, 53802), (630453915, -5783741, 52342), (624722516, -5679064, 50933), (619094385, -5577204, 49575)]
def sfuV6 : List Seg := [(613566757, -5478059, 48265), (608136962, -5381535, 47000), (602802428, -5287540, 45780), (597560667, -5195986, 44601), (592409282, -5106789, 43462), (587345955, -5019870, 42362), (582368447, -4935151, 41298), (577474594, -4852558, 40270)]
def sfuV7 : List Seg := [(572662306, -4772022, 39276), (567929560, -4693474, 38314), (563274399, -4616850, 37383), (558694933, -4542087, 36483), (554189329, -4469125, 35611), (549755814, -4397907, 34766), (545392673, -4328379, 33948), (541098242, -4260486, 33156)]
/-- The table V (R265). -/
def sfuV : List Seg := sfuV0 ++ sfuV1 ++ sfuV2 ++ sfuV3 ++ sfuV4 ++ sfuV5 ++ sfuV6 ++ sfuV7

def sfuQ00 : List Seg := [(1073741824, -8387981, 96414), (1065450257, -8195177, 92776), (1057347856, -8009648, 89327), (1049427536, -7831014, 86056), (1041682578, -7658923, 82949), (1034106604, -7493043, 79997), (1026693558, -7333066, 77191), (1019437682, -7178702, 74520)]
def sfuQ01 : List Seg := [(1012333500, -7029678, 71977), (1005375799, -6885739, 69553), (998559613, -6746646, 67243), (991880210, -6612174, 65038), (985333074, -6482110, 62933), (978913898, -6356254, 60923), (972618566, -6234419, 59001), (966443148, -6116428, 57163)]
def sfuQ02 : List Seg := [(960383883, -6002111, 55404), (954437177, -5891311, 53720), (948599586, -5783879, 52107), (942867814, -5679673, 50561), (937238702, -5578559, 49078), (931709222, -5480409, 47656), (926276469, -5385104, 46290), (920937655, -5292530, 44979)]
def sfuQ03 : List Seg := [(915690104, -5202578, 43719), (910531246, -5115145, 42508), (905458609, -5030134, 41344), (900469818, -4947452, 40223), (895562589, -4867011, 39145), (890734723, -4788726, 38107), (885984104, -4712517, 37107), (881308694, -4638308, 36143)]
def sfuQ04 : List Seg := [(876706528, -4566027, 35214), (872175715, -4495604, 34318), (867714429, -4426972, 33453), (863320910, -4360069, 32619), (858993459, -4294835, 31814), (854730438, -4231211, 31036), (850530263, -4169142, 30284), (846391405, -4108577, 29558)]
def sfuQ05 : List Seg := [(842312387, -4049463, 28856), (838291779, -3991754, 28177), (834328203, -3935402, 27520), (830420321, -3880364, 26885), (826566842, -3826597, 26270), (822766514, -3774060, 25674), (819018128, -3722715, 25097), (815320510, -3672523, 24538)]
def sfuQ06 : List Seg := [(811672525, -3623449, 23996), (808073073, -3575458, 23471), (804521086, -3528517, 22962), (801015531, -3482595, 22468), (797555404, -3437660, 21989), (794139734, -3393683, 21524), (790767575, -3350636, 21073), (787438013, -3308491, 20635)]
def sfuQ07 : List Seg := [(784150157, -3267222, 20210), (780903145, -3226804, 19796), (777696137, -3187213, 19395), (774528319, -3148425, 19005), (771398898, -3110417, 18625), (768307107, -3073168, 18256), (765252196, -3036656, 17898), (762233438, -3000861, 17549)]
/-- The table Q0 (R265). -/
def sfuQ0 : List Seg := sfuQ00 ++ sfuQ01 ++ sfuQ02 ++ sfuQ03 ++ sfuQ04 ++ sfuQ05 ++ sfuQ06 ++ sfuQ07

def sfuQ10 : List Seg := [(759250125, -5931198, 68175), (753387102, -5794865, 65603), (747657839, -5663676, 63164), (742057327, -5537363, 60850), (736580814, -5415676, 58654), (731223792, -5298382, 56567), (725981977, -5185261, 54582), (720851298, -5076109, 52693)]
def sfuQ11 : List Seg := [(715827883, -4970733, 50895), (710908045, -4868953, 49182), (706088274, -4770599, 47548), (701365222, -4675513, 45989), (696735698, -4583544, 44501), (692196655, -4494551, 43079), (687745184, -4408400, 41720), (683378504, -4324967, 40420)]
def sfuQ12 : List Seg := [(679093957, -4244133, 39177), (674889000, -4165786, 37986), (670761200, -4089820, 36845), (666708225, -4016135, 35752), (662727842, -3944637, 34704), (658817909, -3875234, 33698), (654976372, -3807844, 32732), (651201261, -3742384, 31805)]
def sfuQ13 : List Seg := [(647490682, -3678778, 30914), (643842818, -3616954, 30058), (640255922, -3556842, 29234), (636728315, -3498377, 28442), (633258380, -3441496, 27680), (629844563, -3386140, 26945), (626485368, -3332253, 26238), (623179354, -3279779, 25557)]
def sfuQ14 : List Seg := [(619925131, -3228669, 24900), (616721362, -3178872, 24266), (613566757, -3130342, 23655), (610460069, -3083035, 23065), (607400100, -3036907, 22496), (604385689, -2991918, 21946), (601415717, -2948029, 21414), (598489102, -2905202, 20901)]
def sfuQ15 : List Seg := [(595604800, -2863403, 20404), (592761802, -2822596, 19924), (589959130, -2782750, 19460), (587195840, -2743832, 19010), (584471019, -2705813, 18575), (581783781, -2668664, 18154), (579133272, -2632357, 17746), (576518662, -2596866, 17351)]
def sfuQ16 : List Seg := [(573939147, -2562165, 16968), (571393950, -2528231, 16597), (568882316, -2495039, 16237), (566403514, -2462566, 15888), (563956835, -2430793, 15549), (561541591, -2399696, 15220), (559157115, -2369257, 14901), (556802759, -2339456, 14591)]
def sfuQ17 : List Seg := [(554477894, -2310275, 14290), (552181909, -2281695, 13998), (549914212, -2253700, 13714), (547674226, -2226272, 13438), (545461392, -2199397, 13170), (543275165, -2173058, 12909), (541115017, -2147240, 12656), (538980433, -2121930, 12409)]
/-- The table Q1 (R265). -/
def sfuQ1 : List Seg := sfuQ10 ++ sfuQ11 ++ sfuQ12 ++ sfuQ13 ++ sfuQ14 ++ sfuQ15 ++ sfuQ16 ++ sfuQ17

def sfuS0 : List Seg := [(0, 26354912, -3969), (26350943, 26346974, -11904), (52686014, 26323166, -19831), (78989349, 26283501, -27747), (105245103, 26228005, -35646), (131437462, 26156709, -43524), (157550647, 26069658, -51375), (183568930, 25966904, -59196)]
def sfuS1 : List Seg := [(209476638, 25848508, -66980), (235258165, 25714541, -74725), (260897982, 25565085, -82424), (286380643, 25400230, -90074), (311690799, 25220075, -97670), (336813204, 25024728, -105206), (361732726, 24814307, -112680), (386434353, 24588939, -120085)]
def sfuS2 : List Seg := [(410903207, 24348759, -127418), (435124548, 24093913, -134675), (459083786, 23824553, -141850), (482766489, 23540842, -148940), (506158392, 23242952, -155940), (529245404, 22931060, -162846), (552013618, 22605356, -169654), (574449320, 22266035, -176360)]
def sfuS3 : List Seg := [(596538995, 21913302, -182959), (618269338, 21547369, -189449), (639627258, 21168457, -195824), (660599890, 20776793, -202082), (681174602, 20372615, -208217), (701339000, 19956165, -214227), (721080937, 19527694, -220108), (740388522, 19087460, -225857)]
def sfuS4 : List Seg := [(759250125, 18635728, -231470), (777654384, 18172772, -236943), (795590213, 17698868, -242273), (813046808, 17214304, -247457), (830013654, 16719370, -252493), (846480531, 16214365, -257376), (862437520, 15699593, -262104), (877875009, 15175364, -266675)]
def sfuS5 : List Seg := [(892783698, 14641995, -271085), (907154608, 14099805, -275331), (920979082, 13549122, -279412), (934248793, 12990278, -283324), (946955747, 12423609, -287065), (959092290, 11849456, -290634), (970651112, 11268166, -294028), (981625251, 10680088, -297244)]
def sfuS6 : List Seg := [(992008094, 10085577, -300282), (1001793390, 9484991, -303138), (1010975242, 8878691, -305812), (1019548121, 8267043, -308302), (1027506862, 7650416, -310606), (1034846671, 7029180, -312723), (1041563127, 6403709, -314652), (1047652185, 5774382, -316391)]
def sfuS7 : List Seg := [(1053110176, 5141576, -317939), (1057933813, 4505674, -319296), (1062120190, 3867057, -320461), (1065666786, 3226111, -321433), (1068571464, 2583221, -322211), (1070832474, 1938775, -322795), (1072448455, 1293162, -323184), (1073418433, 646770, -323379)]
/-- The table S (R265). -/
def sfuS : List Seg := sfuS0 ++ sfuS1 ++ sfuS2 ++ sfuS3 ++ sfuS4 ++ sfuS5 ++ sfuS6 ++ sfuS7

def sfuC0 : List Seg := [(1073741824, -12, -323379), (1073418433, -646794, -323184), (1072448455, -1293186, -322795), (1070832474, -1938800, -322211), (1068571464, -2583245, -321433), (1065666786, -3226135, -320461), (1062120190, -3867081, -319296), (1057933813, -4505698, -317939)]
def sfuC1 : List Seg := [(1053110176, -5141600, -316391), (1047652185, -5774406, -314652), (1041563127, -6403733, -312723), (1034846671, -7029203, -310606), (1027506862, -7650439, -308302), (1019548121, -8267066, -305812), (1010975242, -8878714, -303138), (1001793390, -9485013, -300282)]
def sfuC2 : List Seg := [(992008094, -10085599, -297244), (981625251, -10680110, -294028), (970651112, -11268188, -290634), (959092290, -11849478, -287065), (946955747, -12423630, -283324), (934248793, -12990299, -279412), (920979082, -13549143, -275331), (907154608, -14099826, -271085)]
def sfuC3 : List Seg := [(892783698, -14642015, -266675), (877875009, -15175384, -262104), (862437520, -15699613, -257376), (846480531, -16214384, -252493), (830013654, -16719389, -247457), (813046808, -17214322, -242273), (795590213, -17698886, -236943), (777654384, -18172789, -231470)]
def sfuC4 : List Seg := [(759250125, -18635746, -225857), (740388522, -19087477, -220108), (721080937, -19527710, -214227), (701339000, -19956181, -208217), (681174602, -20372630, -202082), (660599890, -20776808, -195824), (639627258, -21168471, -189449), (618269338, -21547383, -182959)]
def sfuC5 : List Seg := [(596538995, -21913315, -176360), (574449320, -22266048, -169654), (552013618, -22605368, -162846), (529245404, -22931072, -155940), (506158392, -23242963, -148940), (482766489, -23540853, -141850), (459083786, -23824564, -134675), (435124548, -24093923, -127418)]
def sfuC6 : List Seg := [(410903207, -24348769, -120085), (386434353, -24588948, -112680), (361732726, -24814315, -105206), (336813204, -25024736, -97670), (311690799, -25220082, -90074), (286380643, -25400237, -82424), (260897982, -25565091, -74725), (235258165, -25714547, -66980)]
def sfuC7 : List Seg := [(209476638, -25848512, -59196), (183568930, -25966908, -51375), (157550647, -26069662, -43524), (131437462, -26156712, -35646), (105245103, -26228007, -27747), (78989349, -26283503, -19831), (52686014, -26323167, -11904), (26350943, -26346975, -3969)]
/-- The table C (R265). -/
def sfuC : List Seg := sfuC0 ++ sfuC1 ++ sfuC2 ++ sfuC3 ++ sfuC4 ++ sfuC5 ++ sfuC6 ++ sfuC7

/-- Y of R265 for the fraction U/2^23: y is Y/2^64. -/
def sfuY (tab : List Seg) (u : Nat) : Int :=
  let c := tab.getD (u / 2 ^ 17) (0, 0, 0)
  let s : Int := (u % 2 ^ 17 : Nat)
  c.1 * 2 ^ 34 + c.2.1 * s * 2 ^ 17 + c.2.2 * s * s

/-- The exact value Y/2^64 × 2^e rounded to binary32 in mode 0; a zero takes the sign given (R263). -/
def sfuRound (y : Int) (e : Int) (zeroNeg : Bool) : Nat :=
  if y = 0 then fSign .b32 zeroNeg else (roundQ .b32 0 (decide (y < 0)) y.natAbs 1 (e - 64)).1

/-- x = 2^e × m with m in [1, 2): e, and floor((m − 1) × 2^23). -/
def sfuNorm (m : Nat) (e : Int) : Int × Nat :=
  let k := Nat.log2 m
  (e + k, (if k ≤ 23 then m * 2 ^ (23 - k) else m / 2 ^ (k - 23)) - 2 ^ 23)

/-- floor(x) and floor((x − floor(x)) × 2^23) for x = (−1)^neg × m × 2^e. -/
def sfuFloor (neg : Bool) (m : Nat) (e : Int) : Int × Nat :=
  if 0 ≤ e then (signed neg (m * 2 ^ e.toNat), 0)
  else
    let d : Int := (2 ^ (-e).toNat : Nat)
    let x := signed neg m
    let n := x.ediv d
    (n, (((x - n * d) * 2 ^ 23).ediv d).toNat)

/-- w = |x| mod 2: floor(2w) and floor((2w − floor(2w)) × 2^23). -/
def sfuTurn (m : Nat) (e : Int) : Nat × Nat :=
  let r := sfuFloor false m (e + 1)
  ((r.1 % 4).toNat, r.2)

def dNaN : Nat := fDefault .b32
def one32 : Nat := fOne .b32

/-- exp2 (R263, R264). -/
def sfuExp2 : FVal → Nat
  | .nan n f => fNan .b32 n f
  | .inf n => if n then 0 else fInf .b32 false
  | .fin neg m e =>
    if m = 0 then one32
    else
      let (n, u) := sfuFloor neg m e
      if 128 ≤ n then fInf .b32 false
      else if n < -160 then 0
      else sfuRound (sfuY sfuE u) n false

/-- log2 (R263, R264). -/
def sfuLog2 : FVal → Nat
  | .nan n f => fNan .b32 n f
  | .inf n => if n then dNaN else fInf .b32 false
  | .fin neg m e =>
    if m = 0 then fInf .b32 true
    else if neg then dNaN
    else
      let (k, u) := sfuNorm m e
      sfuRound (k * 2 ^ 64 + sfuY sfuL u) 0 false

/-- rcp (R263, R264). The reciprocal of a negative operand that overflows is minus infinity, as R222 rounds it. (DESIGN CHOICE, log 113.) -/
def sfuRcp : FVal → Nat
  | .nan n f => fNan .b32 n f
  | .inf n => fSign .b32 n
  | .fin neg m e =>
    if m = 0 then fInf .b32 neg
    else
      let (k, u) := sfuNorm m e
      sfuRound (if neg then -sfuY sfuV u else sfuY sfuV u) (-k) neg

/-- rsq (R263, R264). -/
def sfuRsq : FVal → Nat
  | .nan n f => fNan .b32 n f
  | .inf n => if n then dNaN else 0
  | .fin neg m e =>
    if m = 0 then fInf .b32 neg
    else if neg then dNaN
    else
      let (k, u) := sfuNorm m e
      sfuRound (sfuY (if k % 2 = 0 then sfuQ0 else sfuQ1) u) (-(k.ediv 2)) false

/-- sin(πx) (R263, R264). -/
def sfuSin : FVal → Nat
  | .nan n f => fNan .b32 n f
  | .inf _ => dNaN
  | .fin neg m e =>
    if m = 0 then fSign .b32 neg
    else
      let (k, u) := sfuTurn m e
      let y := sfuY (if k % 2 = 0 then sfuS else sfuC) u
      sfuRound (if (decide (2 ≤ k)) != neg then -y else y) 0 neg

/-- cos(πx) (R263, R264). -/
def sfuCos : FVal → Nat
  | .nan n f => fNan .b32 n f
  | .inf _ => dNaN
  | .fin _ m e =>
    if m = 0 then one32
    else
      let (k, u) := sfuTurn m e
      let y := sfuY (if k % 2 = 0 then sfuC else sfuS) u
      sfuRound (if k = 1 ∨ k = 2 then -y else y) 0 false

/-- A frozen function: sfu.o after three rotations, gated by F0, no flags (R262). -/
def sfuPlan (f : FVal → Nat) : Plan where
  feat := fun _ _ => some 0
  run := fun s q => sendFixed s 3 [(.sfuO, BitVec.ofNat 128 (f (fDecode .b32 (q.toNat % 2 ^ 32))))]

def sfuExp2Plan : Plan := sfuPlan sfuExp2
def sfuLog2Plan : Plan := sfuPlan sfuLog2
def sfuRcpPlan : Plan := sfuPlan sfuRcp
def sfuRsqPlan : Plan := sfuPlan sfuRsq
def sfuSinPlan : Plan := sfuPlan sfuSin
def sfuCosPlan : Plan := sfuPlan sfuCos

def execSfuExp2 (sw : Bool) (g : Guard) (x : Source) (s : State) : Out := issueLong sw g x (sfuExp2Plan.covered .sfuExp2) s
def execSfuLog2 (sw : Bool) (g : Guard) (x : Source) (s : State) : Out := issueLong sw g x (sfuLog2Plan.covered .sfuLog2) s
def execSfuRcp (sw : Bool) (g : Guard) (x : Source) (s : State) : Out := issueLong sw g x (sfuRcpPlan.covered .sfuRcp) s
def execSfuRsq (sw : Bool) (g : Guard) (x : Source) (s : State) : Out := issueLong sw g x (sfuRsqPlan.covered .sfuRsq) s
def execSfuSin (sw : Bool) (g : Guard) (x : Source) (s : State) : Out := issueLong sw g x (sfuSinPlan.covered .sfuSin) s
def execSfuCos (sw : Bool) (g : Guard) (x : Source) (s : State) : Out := issueLong sw g x (sfuCosPlan.covered .sfuCos) s

-- ## Counter streams (R266 to R269)

/-- The draw of R269 over `n` rounds. -/
def rngRounds : Nat → Word → Word → Word → Word
  | 0, lo, hi, _ => lo ^^^ (hi >>> 17) ^^^ (hi <<< 23)
  | n + 1, lo, hi, k =>
    let p := lo.toNat * 0x8F3A5C27D1E96B45
    let pl := BitVec.ofNat 64 p
    rngRounds n (hi ^^^ BitVec.ofNat 64 (p / 2 ^ 64) ^^^ k) (pl ^^^ (pl >>> 29)) (k + 0x6A5D39E1C47B2F0D#64)

def rngDraw (key id c : Word) : Word := rngRounds 6 c id key

/-- rng.next (R266, R268). -/
def rngNextPlan : Plan := valuePlan 2 (fun t q =>
  let c := low64 q
  let id := t.opw .rngS
  if field id 63 48 ≠ 0 then .inl reservedPort
  else if 2 ^ 48 ≤ c.toNat then .inl (BitVec.ofNat 64 (0x10 + field id 47 0 * 2 ^ 16))
  else .inr [(.rngO, quad (rngDraw t.cr[crRng] id c))])

def execRngNext (sw : Bool) (g : Guard) (x : Source) (s : State) : Out := issueLong sw g x (rngNextPlan.covered .rngNext) s

end Sys2Proof.Machine
end

