-- ==== Sys2Proof/Machine/Vec.lean ====
section
/-! DEFINITION. vec: operations 64 to 87 and the vector sequencer (R236 to R255). -/

namespace Sys2Proof.Machine

-- ## Elements (R236 to R238)

/-- Width of a type code (R237). -/
def tyWidth : Nat → Nat
  | 0 => 32 | 1 => 8 | 2 => 16 | 3 => 64 | 4 => 16 | 5 => 32 | _ => 8

def lanes (w : Nat) (v : Quad) : List Nat := (List.range (128 / w)).map (fun i => v.toNat / 2 ^ (w * i) % 2 ^ w)
def joinLanes (w : Nat) : List Nat → Nat
  | [] => 0
  | x :: r => x % 2 ^ w + 2 ^ w * joinLanes w r
def ofLanes (w : Nat) (l : List Nat) : Quad := BitVec.ofNat 128 (joinLanes w l)

/-- An integer element (R237). -/
def elem (w : Nat) (u : Bool) (x : Nat) : Int := if u then (x : Int) else signedAt w x
/-- fix of R238. -/
def fix (w : Nat) (sat u : Bool) (v : Int) : Nat := wrapTo w (if sat then clampInt w u v else v)

/-- The float format of a type code. -/
def tyFmt : Nat → Option FFmt
  | 4 => some .b16
  | 5 => some .b32
  | _ => none

/-- vec.ty, by field (R236). -/
structure VTy where
  ty : Nat
  u : Bool
  sat : Bool
  rm : Nat
  dty : Nat
  half : Bool
  bad : Bool
  deriving DecidableEq, Repr

def vTy (v : Word) : VTy where
  ty := field v 2 0
  u := v.getLsbD 3
  sat := v.getLsbD 4
  rm := field v 6 5
  dty := field v 10 8
  half := v.getLsbD 11
  bad := decide (field v 63 12 ≠ 0) || v.getLsbD 7

-- ## One element (R242, R244, R245)

def intElem (o : Op) (w : Nat) (sat u : Bool) (x y z : Nat) : Nat :=
  let a := elem w u x
  let b := elem w u y
  match o with
  | .vecAdd => fix w sat u (a + b)
  | .vecSub => fix w sat u (a - b)
  | .vecMul => fix w sat u (a * b)
  | .vecMad => fix w sat u (a * b + elem w u z)
  | .vecMin => if b < a then y else x
  | .vecMax => if a < b then y else x
  | .vecCeq => if a = b then 2 ^ w - 1 else 0
  | .vecClt => if a < b then 2 ^ w - 1 else 0
  | .vecShl => if w ≤ y % 256 then 0 else x * 2 ^ (y % 256)
  | .vecShr => if w ≤ y % 256 then 0 else x / 2 ^ (y % 256)
  | .vecSra => wrapTo w ((signedAt w x).fdiv (2 ^ (min w (y % 256)) : Nat))
  | _ => 0

def fltElem (o : Op) (f : FFmt) (w rm : Nat) (x y z : Nat) : Nat :=
  let a := fDecode f x
  let b := fDecode f y
  let both := !isNan a && !isNan b
  match o with
  | .vecAdd => (fAdd f rm a b).1
  | .vecSub => (fSub f rm a b).1
  | .vecMul => (fMul f rm a b).1
  | .vecMad => (fFma f rm a b (fDecode f z)).1
  | .vecMin => fMinMax f false a b
  | .vecMax => fMinMax f true a b
  | .vecCeq => if both && decide (fOrder a b = 0) then 2 ^ w - 1 else 0
  | .vecClt => if both && decide (fOrder a b < 0) then 2 ^ w - 1 else 0
  | _ => 0

def elementwise (o : Op) (t : VTy) (a b c : Quad) : Quad :=
  let w := tyWidth t.ty
  let f := fun (p : Nat × Nat × Nat) => match tyFmt t.ty with
    | some f => fltElem o f w t.rm p.1 p.2.1 p.2.2
    | none => intElem o w t.sat t.u p.1 p.2.1 p.2.2
  ofLanes w (((lanes w a).zip ((lanes w b).zip (lanes w c))).map f)

/-- vec.shf (R243). -/
def shuffle (a b : Quad) : Quad :=
  let l := lanes 8 a
  ofLanes 8 ((lanes 8 b).map (fun k => if k < 16 then l.getD k 0 else 0))

-- ## Conversions (R246)

/-- Whether a pair of types converts (R246). -/
def convPair (f g : Nat) : Bool :=
  match f, g with
  | 7, _ => false
  | _, 7 => false
  | 6, 6 => false
  | 6, g => decide (4 ≤ g)
  | f, 6 => decide (4 ≤ f)
  | _, _ => true

/-- conv of R246, with the clamp flag of an encoding. -/
def conv (c : Core) (fmt : Word) (t : VTy) (clamp : Bool) (x : Nat) : Nat × Bool :=
  let wf := tyWidth t.ty
  let wg := tyWidth t.dty
  match tyFmt t.ty, tyFmt t.dty with
  | none, none => (fix wg (clamp && decide (wg < wf)) t.u (elem wf t.u x), false)
  | none, some g =>
    if t.ty = 6 then (fConvert g t.rm (decEntry c (field fmt 9 8) x), false) else ((fOfInt g t.rm (elem wf t.u x)).1, false)
  | some f, none =>
    if t.dty = 6 then encodeCode c fmt (fDecode f x) else (wrapTo wg (fToInt t.rm wg t.u (fDecode f x)).1, false)
  | some f, some g => (fConvert g t.rm (fDecode f x), false)

def convert (c : Core) (fmt : Word) (t : VTy) (clamp : Bool) (l : List Nat) : Quad × Bool :=
  let r := l.map (conv c fmt t clamp)
  (ofLanes (tyWidth t.dty) (r.map (·.1)), r.any (·.2))

-- ## Dot, sum and extract (R247 to R249)

def dotLanes (w : Nat) (u : Bool) (a b : List Nat) : Int :=
  ((a.zip b).map (fun p => elem w u p.1 * elem w u p.2)).foldl (· + ·) 0

def dot (w : Nat) (u : Bool) (a b : Quad) : Quad :=
  let la := lanes w a
  let lb := lanes w b
  ofLanes (4 * w) ((List.range (128 / (4 * w))).map (fun j => wrapTo (4 * w) (dotLanes w u ((la.drop (4 * j)).take 4) ((lb.drop (4 * j)).take 4))))

/-- One level of the tree of R234. -/
def pairUp (f : Nat → Nat → Nat) : List Nat → List Nat
  | x :: y :: r => f x y :: pairUp f r
  | l => l

def treeSum (f : Nat → Nat → Nat) : Nat → List Nat → Nat
  | 0, l => l.headD 0
  | n + 1, l => if l.length ≤ 1 then l.headD 0 else treeSum f n (pairUp f l)

def vsum (t : VTy) (a : Quad) : Quad :=
  let w := tyWidth t.ty
  let f (x y : Nat) : Nat := match tyFmt t.ty with
    | some g => (fAdd g t.rm (fDecode g x) (fDecode g y)).1
    | none => fix w t.sat t.u (elem w t.u x + elem w t.u y)
  BitVec.ofNat 128 (treeSum f 4 (lanes w a))

/-- TY accepted by an operation (R239). -/
def tyOk (o : Op) (t : VTy) : Bool :=
  match o with
  | .vecAnd | .vecOr | .vecXor | .vecSel | .vecShf | .vecExt => decide (t.ty ≤ 6)
  | .vecShl | .vecShr | .vecSra => decide (t.ty ≤ 3)
  | .vecDot => t.ty == 1 || t.ty == 2
  | .vecPak => convPair t.ty t.dty && 2 * tyWidth t.dty == tyWidth t.ty
  | .vecUnp => convPair t.ty t.dty && tyWidth t.dty == 2 * tyWidth t.ty
  | .vecCvt => convPair t.ty t.dty
  | _ => decide (t.ty ≤ 5)

/-- An operation's result and clamp flag, or none where it raises reserved port (R240). -/
def vecCompute (c : Core) (fmt : Word) (o : Op) (tyw : Word) (a b z : Quad) : Option (Quad × Bool) :=
  let t := vTy tyw
  let w := tyWidth t.ty
  if t.bad || !tyOk o t then none
  else
    match o with
    | .vecAnd => some (a &&& b, false)
    | .vecOr => some (a ||| b, false)
    | .vecXor => some (a ^^^ b, false)
    | .vecSel => some ((a &&& z) ||| (b &&& ~~~z), false)
    | .vecShf => some (shuffle a b, false)
    | .vecPak => some (convert c fmt t true (lanes w a ++ lanes w b))
    | .vecCvt => some (convert c fmt t t.sat ((lanes w a).take (128 / max w (tyWidth t.dty))))
    | .vecUnp =>
      let n := 128 / tyWidth t.dty
      some (convert c fmt t t.sat (((lanes w a).drop (if t.half then n else 0)).take n))
    | .vecDot => some (dot w t.u a b, false)
    | .vecSum => some (vsum t a, false)
    | .vecExt =>
      let k := field b 7 0
      match (lanes w a)[k]? with
      | none => none
      | some x => some (BitVec.ofNat 128 (if t.ty ≤ 3 ∧ t.u = false then wrapTo 64 (signedAt w x) else x), false)
    | o => some (elementwise o t a b z, false)

/-- A vec operation of the thread: vec.o at its latency, CL with it where an element clamped (R230, R246). -/
def vecPlan (lat : Nat) (o : Op) : Plan where
  inRun := fun _ => true
  cap := some (.trig o)
  run := fun s a =>
    let t := s.thr
    match vecCompute s.core t.cr[crFmt] o (t.opw .vecTy) a (t.opq .vecB) (t.opq .vecC) with
    | none => .trap s reservedPort
    | some (v, cl) =>
      if t.orderHold lat [.vecO] then .hold none none .vac
      else
        let vs : List PortVal := [{ port := .vecO, val := v, mark := none }]
        .done (s.bump.setThr (t.send s.nextId lat [.vecO] (some vs) (if cl then some (flagCL, false) else none)))

-- ## The sequencer (R250 to R255)

/-- vec.rec; in a trap handler it begins the handler's own capture, of the words that follow there (R250). (DESIGN CHOICE, log 92.) -/
def vecRecPlan : Plan where
  inRun := fun _ => true
  run := fun s q =>
    let m := (low64 q).toNat
    if m = 0 ∨ 16 < m then .trap s reservedPort
    else .done (s.onThr (fun t => { t with seqr := { t.seqr with left := m, buf := [], paused := 0 } }))

/-- The first stream of a captured buffer that meets a condition, in the order of the buffer and a transport's source before its
destination. (DESIGN CHOICE, log 91.) -/
def capStream (buf : List Captured) (pop push : Fin 8 → Bool) : Option (Fin 8) :=
  buf.findSome? (fun c =>
    match (match c.src with | .str i => if pop i then some i else none | _ => none) with
    | some i => some i
    | none => match c.dst with | .str i => if push i then some i else none | _ => none)

/-- The stream faults of R251. -/
def runStreamFault (s : State) (buf : List Captured) : Option Word :=
  let bind (i : Fin 8) : Option Binding := s.core.streams[i].bind
  let popBad (i : Fin 8) : Bool := match bind i with
    | some (.queue _ c) => c != s.cur
    | some (.pattern o _ store _ _ _ _ _ _ _) => o != s.cur || store
    | none => true
  let pushBad (i : Fin 8) : Bool := match bind i with
    | some (.queue p _) => p != s.cur
    | some (.pattern o _ store _ _ _ _ _ _ _) => o != s.cur || !store
    | none => true
  let selfPop (i : Fin 8) : Bool := match bind i with | some (.queue p _) => p == s.cur | _ => false
  let selfPush (i : Fin 8) : Bool := match bind i with | some (.queue _ c) => c == s.cur | _ => false
  match capStream buf popBad pushBad with
  | some i => some (streamCause i 1 0)
  | none => (capStream buf selfPop selfPush).map (fun i => streamCause i 4 0)

/-- vec.run (R251). -/
def vecRunPlan : Plan where
  inRun := fun _ => true
  run := fun s q =>
    let v := low64 q
    let t := s.thr
    if field v 63 16 ≠ 0 ∨ t.seqr.buf = [] ∨ t.seqr.left ≠ 0 then .trap s reservedPort
    else
      match runStreamFault s t.seqr.buf with
      | some c => .trap s c
      | none =>
        if field v 15 0 = 0 then .done s
        else if t.ringFull then .hold none none .mem
        else
          let tag := s.nextId
          let t1 := t.ringTake tag (some .vecRun) 0
          let r : Run := { n := field v 15 0, it := 1, j := 0, clamp := false, tag, seq := t1.seqOf tag, fmt := t.cr[crFmt], area := t.areaUse, sup := t.sup }
          .done (s.bump.setThr { t1 with seqr := { t1.seqr with run := some r } })

/-- Runs a function as if the cycle belonged to a slot at a level. -/
def asSlot {α : Type} (s : State) (slot : Fin 8) (sup : Bool) (f : State → α × State) : α × State :=
  let st := s.slots[slot].cr[crStatus]
  let s1 := { s with cur := slot }.onThr (fun t => t.setStatus sup t.ie t.uie t.uh)
  let (x, s2) := f s1
  (x, { s2.onThr (fun t => t.setCr crStatus st) with cur := s.cur })

/-- A port that a run changes while the area of its trigger is out of use stands in that area also (R255, R371; log 20). -/
def runPort (s : State) (slot : Fin 8) (r : Run) (entry : Nat) (v : Quad) : Out :=
  match (if s.slots[slot].reaches r.tag r.area then none else r.area) with
  | none => .next s
  | some a =>
    match areaPlace s slot a true with
    | .ok loc _ s1 => .next (areaStore s1 slot (a + BitVec.ofNat 64 (16 * entry)) (loc + 16 * entry) (bytesLE 16 v.toNat))
    | .bad _ s1 => .next (killThread s1 slot)
    | .stop f => .fault f

/-- The clamp flag of a run reaches fpu.f, or its saved copy while the area of the trigger is out of use (R252, R258, R371). -/
def runClamp (s : State) (slot : Fin 8) (r : Run) : Out :=
  match (if s.slots[slot].reaches r.tag r.area then none else r.area) with
  | none => .next (s.onSlot slot (fun t => t.orFlags r.tag flagCL false))
  | some a =>
    match areaPlace s slot a true with
    | .ok loc _ s1 =>
      let old := natLE (areaRead s1 slot (loc + 16 * (24 + RPort.fpuF.fin.val)) 8)
      .next (areaStore s1 slot (a + BitVec.ofNat 64 (16 * (24 + RPort.fpuF.fin.val))) (loc + 16 * (24 + RPort.fpuF.fin.val)) (bytesLE 16 (old ||| flagCL.toNat)))
    | .bad _ s1 => .next (killThread s1 slot)
    | .stop f => .fault f

/-- The end of a run: its clamp flags are ORed into fpu.f, and its ring entry frees, or, with a fault, which is reported
imprecise, records where it ended (R252, R254). -/
def endRun (s : State) (slot : Fin 8) (r : Run) (fault : Option Word) : Out :=
  let s1 := s.onSlot slot (fun t =>
    let t1 := match fault with | some c => (t.addFault r.seq c).ringEnd r.tag r.it r.j | none => t.ringFree r.tag
    { t1 with seqr := { t1.seqr with run := none } })
  if r.clamp then runClamp s1 slot r else .next s1

/-- A captured transport: its value, and then its effect (R252). none: it waits. -/
inductive Replayed where
  | waits
  | fault (c : Word)
  | ok (entry : Option Nat) (v : Quad) (clamp : Bool)
  deriving DecidableEq, Repr

/-- A replayed vec operation, its result checked as an issued one's is (R201, R241, R381); a second mismatch is a fault of the replay, and
ends the run (R254). (DESIGN CHOICE, log 93.) -/
def replayVec (s1 : State) (fmt : Word) (o : Op) (v : Quad) : Replayed × State :=
  let t := s1.thr
  match vecCompute s1.core fmt o (t.opw .vecTy) v (t.opq .vecB) (t.opq .vecC) with
  | none => (.fault reservedPort, s1)
  | some (r, cl) =>
    match winnow s1 (some o) (.done (s1.onThr (fun t => t.deliver { port := .vecO, val := r, mark := none }))) with
    | .done s2 => (.ok (some 34) r cl, s2)
    | .trap s2 c => (.fault c, s2)
    | _ => (.waits, s1)

/-- The walk of a pushed element's translation, where it misses (R67, R196). -/
def replayWalk (s : State) (d : Option Dest) : State :=
  match d.bind (destMiss s) with
  | some a => (lookup s { s.thr.walker with th := s.thr.mcth s.cur, slots := [s.cur] } a).2
  | none => s

def replay (c : Captured) (fmt : Word) (s0 : State) : Replayed × State :=
  let src : Source := match c.src with
    | .q i => .q i
    | .str i => .str i
    | .vecO => .port .vecO
    | .imm _ => .pc
  let imm : Option Word := match c.src with | .imm v => some v | _ => none
  let dst : Option Dest := match c.dst with
    | .q i => some (.q i)
    | .str i => some (.str i)
    | .vecB => some (.port .vecB)
    | .vecC => some (.port .vecC)
    | .vecTy => some (.port .vecTy)
    | .trig _ => none
  let s := replayWalk s0 dst
  let pops := match c.src with | .str i => popFault s i | _ => none
  let pushes := dst.bind (fun d => destFault s d src)
  match pops, pushes with
  | some f, _ => (.fault f, s)
  | none, some f => (.fault f, s)
  | none, none =>
    if (popOf src).any (popHeld s) || dst.any (fun d => destHeld s d src) then (.waits, s)
    else
      let (v, s1) := match imm with | some w => (quad w, s) | none => readSource s src
      match dst, c.dst with
      | some d, _ =>
        let entry : Option Nat := match c.dst with | .vecB => some 5 | .vecC => some 6 | .vecTy => some 7 | _ => none
        (.ok entry (match c.dst with | .vecTy => quad (low64 v) | _ => v) false, writeDest s1 d v)
      | none, .trig o =>
        match replayVec s1 fmt o v with
        | (.fault f, s2) => (.fault f, s2.onCore (fun k => { k with streams := s.core.streams }))
        | r => r
      | none, _ => (.waits, s)

/-- The sequencer performs the next captured transport of a slot's run (R252 to R255); a thread that the write of its port kills has no run
that ends (R255). No transport is performed while a vec result of a word issued before is in flight. (DESIGN CHOICE, log 95.) -/
def execVecReplayTransport (slot : Fin 8) (s : State) : Out :=
  let t := s.slots[slot]
  match t.seqr.run with
  | none => .next s
  | some r =>
    match t.seqr.buf[r.j]? with
    | none => .next s
    | some c =>
      if t.flight.any (fun f => f.ports.contains .vecO) then .next s
      else
        match asSlot s slot r.sup (replay c r.fmt) with
        | (.waits, s1) => .next s1
        | (.fault f, s1) => endRun s1 slot r (some f)
        | (.ok entry v cl, s1) =>
          let r1 := { r with clamp := r.clamp || cl }
          let last := decide (t.seqr.buf.length ≤ r.j + 1)
          let r2 := if last then { r1 with it := r.it + 1, j := 0 } else { r1 with j := r.j + 1 }
          let s2 := s1.onSlot slot (fun t => { t with seqr := { t.seqr with run := some r2 } })
          andThen (match entry with | some e => runPort s2 slot r e v | none => .next s2)
            (fun s3 => if last && decide (r.n ≤ r.it) && s3.slots[slot].seqr.run.isSome then endRun s3 slot r2 none else .next s3)

def vecAddPlan : Plan := vecPlan 1 .vecAdd
def vecSubPlan : Plan := vecPlan 1 .vecSub
def vecMulPlan : Plan := vecPlan 1 .vecMul
def vecMadPlan : Plan := vecPlan 1 .vecMad
def vecMinPlan : Plan := vecPlan 1 .vecMin
def vecMaxPlan : Plan := vecPlan 1 .vecMax
def vecAndPlan : Plan := vecPlan 1 .vecAnd
def vecOrPlan : Plan := vecPlan 1 .vecOr
def vecXorPlan : Plan := vecPlan 1 .vecXor
def vecShlPlan : Plan := vecPlan 1 .vecShl
def vecShrPlan : Plan := vecPlan 1 .vecShr
def vecSraPlan : Plan := vecPlan 1 .vecSra
def vecCeqPlan : Plan := vecPlan 1 .vecCeq
def vecCltPlan : Plan := vecPlan 1 .vecClt
def vecSelPlan : Plan := vecPlan 1 .vecSel
def vecShfPlan : Plan := vecPlan 1 .vecShf
def vecPakPlan : Plan := vecPlan 1 .vecPak
def vecUnpPlan : Plan := vecPlan 1 .vecUnp
def vecCvtPlan : Plan := vecPlan 2 .vecCvt
def vecDotPlan : Plan := vecPlan 2 .vecDot
def vecSumPlan : Plan := vecPlan 2 .vecSum
def vecExtPlan : Plan := vecPlan 1 .vecExt

def execVecAdd (sw : Bool) (g : Guard) (x : Source) (s : State) : Out := issueLong sw g x (vecAddPlan.covered .vecAdd) s
def execVecSub (sw : Bool) (g : Guard) (x : Source) (s : State) : Out := issueLong sw g x (vecSubPlan.covered .vecSub) s
def execVecMul (sw : Bool) (g : Guard) (x : Source) (s : State) : Out := issueLong sw g x (vecMulPlan.covered .vecMul) s
def execVecMad (sw : Bool) (g : Guard) (x : Source) (s : State) : Out := issueLong sw g x (vecMadPlan.covered .vecMad) s
def execVecMin (sw : Bool) (g : Guard) (x : Source) (s : State) : Out := issueLong sw g x (vecMinPlan.covered .vecMin) s
def execVecMax (sw : Bool) (g : Guard) (x : Source) (s : State) : Out := issueLong sw g x (vecMaxPlan.covered .vecMax) s
def execVecAnd (sw : Bool) (g : Guard) (x : Source) (s : State) : Out := issueLong sw g x (vecAndPlan.covered .vecAnd) s
def execVecOr (sw : Bool) (g : Guard) (x : Source) (s : State) : Out := issueLong sw g x (vecOrPlan.covered .vecOr) s
def execVecXor (sw : Bool) (g : Guard) (x : Source) (s : State) : Out := issueLong sw g x (vecXorPlan.covered .vecXor) s
def execVecShl (sw : Bool) (g : Guard) (x : Source) (s : State) : Out := issueLong sw g x (vecShlPlan.covered .vecShl) s
def execVecShr (sw : Bool) (g : Guard) (x : Source) (s : State) : Out := issueLong sw g x (vecShrPlan.covered .vecShr) s
def execVecSra (sw : Bool) (g : Guard) (x : Source) (s : State) : Out := issueLong sw g x (vecSraPlan.covered .vecSra) s
def execVecCeq (sw : Bool) (g : Guard) (x : Source) (s : State) : Out := issueLong sw g x (vecCeqPlan.covered .vecCeq) s
def execVecClt (sw : Bool) (g : Guard) (x : Source) (s : State) : Out := issueLong sw g x (vecCltPlan.covered .vecClt) s
def execVecSel (sw : Bool) (g : Guard) (x : Source) (s : State) : Out := issueLong sw g x (vecSelPlan.covered .vecSel) s
def execVecShf (sw : Bool) (g : Guard) (x : Source) (s : State) : Out := issueLong sw g x (vecShfPlan.covered .vecShf) s
def execVecPak (sw : Bool) (g : Guard) (x : Source) (s : State) : Out := issueLong sw g x (vecPakPlan.covered .vecPak) s
def execVecUnp (sw : Bool) (g : Guard) (x : Source) (s : State) : Out := issueLong sw g x (vecUnpPlan.covered .vecUnp) s
def execVecCvt (sw : Bool) (g : Guard) (x : Source) (s : State) : Out := issueLong sw g x (vecCvtPlan.covered .vecCvt) s
def execVecDot (sw : Bool) (g : Guard) (x : Source) (s : State) : Out := issueLong sw g x (vecDotPlan.covered .vecDot) s
def execVecSum (sw : Bool) (g : Guard) (x : Source) (s : State) : Out := issueLong sw g x (vecSumPlan.covered .vecSum) s
def execVecExt (sw : Bool) (g : Guard) (x : Source) (s : State) : Out := issueLong sw g x (vecExtPlan.covered .vecExt) s
def execVecRec (sw : Bool) (g : Guard) (x : Source) (s : State) : Out := issueLong sw g x vecRecPlan s
def execVecRun (sw : Bool) (g : Guard) (x : Source) (s : State) : Out := issueLong sw g x vecRunPlan s

end Sys2Proof.Machine
end

