-- ==== Sys2Proof/Machine/Mx.lean ====
section
/-! DEFINITION. mx: operations 119 to 124 and the matrix unit as the core sees it (R270 to R292). -/

namespace Sys2Proof.Machine

-- ## Operands (R273 to R276)

/-- N and M of a pattern code (R273). -/
def patNM : Nat → Nat × Nat
  | 1 => (1, 4) | 2 => (2, 4) | 3 => (1, 8) | 4 => (2, 8) | 5 => (4, 8) | 6 => (2, 16) | 7 => (4, 16) | 8 => (8, 16) | _ => (1, 1)

def mxK (x1 : Word) : Nat := field x1 9 0
def mxPat (x1 : Word) : Nat := field x1 13 10
def mxPath (x1 : Word) : Bool := x1.getLsbD 14
def mxAcc (x1 : Word) : Bool := x1.getLsbD 15
def mxBsrc (x1 : Word) : Nat := field x1 17 16
def mxHand (x1 : Word) : Bool := x1.getLsbD 18
def mxClr (x1 : Word) : Bool := x1.getLsbD 19
/-- KS: stored elements of an A row (R274). -/
def mxKs (x1 : Word) : Nat := mxK x1 * (patNM (mxPat x1)).1 / (patNM (mxPat x1)).2
/-- Element size in bits (R274). -/
def mxBits (run : Bool) (x1 : Word) : Nat := if run then (if mxPath x1 then 16 else 8) else 4
def rowBytes (n bits : Nat) : Nat := (n * bits + 7) / 8

/-- A range of rows: address, stride, rows, bytes a row. -/
structure Span where
  va : Word
  stride : Nat
  rows : Nat
  bytes : Nat
  deriving DecidableEq, Repr

/-- The address rows of R275: outside the own-cluster window, then non-canonical or in its hole, then alignment and end. -/
def spanFault (l : List Span) (al : Nat) : Option Word :=
  if l.any (fun p => decide (field p.va 63 48 = 0) && decide (field p.va 47 40 ≠ 0xFE)) then some reservedPort
  else
    match l.find? (fun p => decide (field p.va 63 48 ≠ 0) || decide (field p.va 39 17 ≠ 0)) with
    | some p => some (causeVa 7 (if field p.va 63 48 ≠ 0 then 1 else 2) 0 p.va)
    | none =>
      if l.any (fun p => decide (p.va.toNat % al ≠ 0) || decide (p.stride % al ≠ 0) ||
          decide (0x1FFFF < field p.va 16 0 + (p.rows - 1) * p.stride + p.bytes - 1)) then some reservedPort
      else none

/-- The faults of mx.run and mx.cnt at issue (R275); of several addresses that fail one row, the cause names that of A, of B or of the
metadata, in this order. (DESIGN CHOICE, log 103.) -/
def mxOperandFault (run : Bool) (a : Word) (x : Vector Word 4) : Option Word :=
  let x0 := x[(0 : Fin 4)]
  let x1 := x[(1 : Fin 4)]
  let x2 := x[(2 : Fin 4)]
  let x3 := x[(3 : Fin 4)]
  let k := mxK x1
  let bits := mxBits run x1
  if field x1 63 21 ≠ 0 ∨ field x2 63 48 ≠ 0 ∨ mxBsrc x1 = 3 ∨ 8 < mxPat x1 ∨ (mxBsrc x1 ≠ 0 ∧ x0 ≠ 0#64) ∨ (mxPat x1 = 0 ∧ x3 ≠ 0#64) then
    some reservedPort
  else if (if run then x1.getLsbD 20 || (mxPath x1 && mxAcc x1) else mxPath x1 || mxAcc x1) then some reservedPort
  else if k < 4 ∨ 512 < k ∨ k % (if run then 4 else 8) ≠ 0 ∨ (mxPat x1 ≠ 0 ∧ k % (patNM (mxPat x1)).2 ≠ 0) then some reservedPort
  else
    spanFault
      ([{ va := a, stride := field x2 15 0, rows := 8, bytes := rowBytes (mxKs x1) bits }] ++
        (if mxBsrc x1 = 0 then [{ va := x0, stride := field x2 31 16, rows := k, bytes := bits }] else []) ++
        (if mxPat x1 ≠ 0 then [{ va := x3, stride := field x2 47 32, rows := 8, bytes := rowBytes (mxKs x1) 4 }] else [])) 4

/-- The faults of mx.st at issue (R276). -/
def mxStoreFault (a x0 : Word) : Option Word :=
  if field x0 63 32 ≠ 0 ∨ field x0 15 3 ≠ 0 ∨ field x0 1 0 = 3 then some reservedPort
  else spanFault [{ va := a, stride := field x0 31 16, rows := 8, bytes := match field x0 1 0 with | 0 => 32 | 1 => 16 | _ => 8 }] 8

-- ## Triggers (R272, R277, R289)

/-- Queues a command with the values sampled at its trigger (R277); mx.st counts 1 in cr.rsv (R287). -/
def mxPlan (o : Op) (feat : State → Option Nat) (bad : State → Word → Option Word) : Plan where
  feat := fun s _ => feat s
  run := fun s q =>
    let a := low64 q
    match bad s a with
    | some c => .trap s c
    | none =>
      let t := s.thr
      if 4 ≤ s.core.mx.queue.length ∨ t.ringFull = true then .hold none none .mem
      else
        let tag := s.nextId
        let t1 := t.ringTake tag (some o) a
        let seq := t1.seqOf tag
        let t2 := if o = .mxSt then t1.count tag (.cluster (clusterOf s.home)) else t1
        let c : MxCmd := { op := o, slot := s.cur, tag, seq, a, xs := t.x, fmt := t.cr[crFmt], scale := t.cr[crScale], known := relOf s s.cur, rel := relOf s s.cur, born := s.cycle, written := 0, clamp := false }
        let s1 := s.bump.setThr { t2 with mxOpen := { t2.mxOpen with seq } }
        .done (s1.onCore (fun k => { k with mx := { k.mx with queue := k.mx.queue ++ [c] } }))

def noTrigger (_ : State) (v : Word) : Option Word := if v = 0#64 then none else some reservedPort

def mxRunPlan : Plan :=
  mxPlan .mxRun (fun s => if mxPat s.thr.x[(1 : Fin 4)] ≠ 0 then some 3 else none) (fun s a => mxOperandFault true a s.thr.x)
def mxCntPlan : Plan := mxPlan .mxCnt (fun _ => some 1) (fun s a => mxOperandFault false a s.thr.x)
def mxDrnPlan : Plan := mxPlan .mxDrn (fun _ => some 1) noTrigger
def mxMrgPlan : Plan := mxPlan .mxMrg (fun _ => some 1) noTrigger
def mxStPlan : Plan := mxPlan .mxSt (fun _ => none) (fun s a => mxStoreFault a s.thr.x[(0 : Fin 4)])

/-- The status word of an mx.wait (R289). -/
def mxStatus (b : MxBatch) : Quad :=
  BitVec.ofNat 128 (b.seq % 2 ^ 32 * 2 ^ 32 + b.code.toNat * 2 ^ 8 + b.clamp.toNat * 2 + b.fail.toNat)

/-- Each mx.wait of a slot whose earlier commands are all done gets its status and its flags (R289). -/
def mxSettle (s : State) (slot : Fin 8) : State :=
  let t := s.slots[slot]
  let open_ (w : Nat × MxBatch) : Bool := s.core.mx.queue.any (fun c => c.slot == slot && decide (c.tag < w.1))
  let ready := t.mxWaits.filter (fun w => !open_ w)
  let t1 := ready.foldl (fun (t : Thread) w =>
    t.fill w.1 [{ port := .mxO, val := mxStatus w.2, mark := none }] (some (if w.2.clamp then flagCL else 0)) w.2.done) t
  s.setSlot slot { t1 with mxWaits := t.mxWaits.filter open_ }

/-- mx.wait: the fence bits of mx.o and fpu.f (R289). -/
def mxWaitPlan : Plan where
  run := fun s q =>
    if low64 q ≠ 0#64 then .trap s reservedPort
    else
      let t := s.thr
      let tag := s.nextId
      let t1 := { t.owe tag [.mxO, .fpuF] false none with
        mxWaits := t.mxWaits ++ [(tag, t.mxOpen)]
        mxOpen := { seq := 0, code := 0#8, fail := false, clamp := false, done := [] } }
      .done (mxSettle (s.bump.setThr t1) s.cur)

-- ## Reading a command's operands (R274, R290)

/-- A marked operand word as the command's cause: kind 1, its window address (R290). -/
def mxMark (m : Nat × BitVec 2) : Word := causeVa (if m.2 = 1#2 then 0x11 else 0x0C) 1 0 (winVa m.1)

/-- `n` elements of `bits` bits from bytes in storage order (R274). -/
def elements (bits n : Nat) (b : List Byte) : List Nat :=
  let v := natLE b
  (List.range n).map (fun e => v / 2 ^ (bits * e) % 2 ^ bits)

/-- Rows of elements at a window offset. -/
def mxRows (s : State) (c : MxCmd) (off stride rows n bits : Nat) : Word ⊕ List (List Nat) :=
  (List.range rows).foldr (fun i acc =>
    match acc with
    | .inl w => (match winBytes s c.slot c.tag (off + i * stride) (rowBytes n bits) with
      | .inl m => .inl (mxMark m)
      | .inr _ => .inl w)
    | .inr l => (match winBytes s c.slot c.tag (off + i * stride) (rowBytes n bits) with
      | .inl m => .inl (mxMark m)
      | .inr b => .inr (elements bits n b :: l))) (.inr [])

/-- The operands of a run or count: A with its dense positions, row by row, and the B tile. -/
structure MxOperands where
  a : List (List (Nat × Nat))
  tile : List Nat
  deriving DecidableEq, Repr

/-- Reads A, metadata and B; a latch of another K or kind ends the command with 0x02 (R274, R285). (DEDUCED, log 32.) -/
def mxRead (s : State) (c : MxCmd) (run : Bool) : Word ⊕ MxOperands :=
  let x0 := c.xs[(0 : Fin 4)]
  let x1 := c.xs[(1 : Fin 4)]
  let x2 := c.xs[(2 : Fin 4)]
  let x3 := c.xs[(3 : Fin 4)]
  let bits := mxBits run x1
  let ks := mxKs x1
  let (n, m) := patNM (mxPat x1)
  let dense : Word ⊕ List (List Nat) :=
    if mxPat x1 = 0 then .inr (List.replicate 8 (List.range ks))
    else
      match mxRows s c (field x3 16 0) (field x2 47 32) 8 ks 4 with
      | .inl w => .inl w
      | .inr r => .inr (r.map (fun row => row.zipIdx.map (fun p => p.2 / n * m + p.1 % m)))
  match mxRows s c (field c.a 16 0) (field x2 15 0) 8 ks bits, dense with
  | .inl w, _ => .inl w
  | _, .inl w => .inl w
  | .inr a, .inr d =>
    let rows := (a.zip d).map (fun p => p.1.zip p.2)
    if mxBsrc x1 = 0 then
      match mxRows s c (field x0 16 0) (field x2 31 16) (mxK x1) 8 bits with
      | .inl w => .inl w
      | .inr b => .inr { a := rows, tile := b.flatten }
    else
      let l := s.core.mx.latch
      if l.k ≠ mxK x1 ∨ l.bits ≠ bits then .inl reservedPort else .inr { a := rows, tile := l.tile }

-- ## Arithmetic (R232, R279 to R282)

/-- The exact product, a NaN operand first (R224). -/
def mulExact (a b : FVal) : FVal :=
  if isNan a then a else if isNan b then b else (mulVal a b).getD (.nan false (2 ^ 51))

def add32 (a b : FVal) : FVal := fDecode .b32 (fAdd .b32 0 a b).1

/-- The value of an A or B element: decoded code, or binary16 (R279). -/
def mxVal (core : Core) (path : Bool) (tab v : Nat) : FVal := if path then fDecode .b16 v else decEntry core tab v

/-- The sum of one output in the lanes of R232. (DEDUCED, log 33.) -/
def laneSum (l : Nat) (ps : List (Nat × FVal)) : FVal :=
  let lanes := ps.foldl (fun (s : List FVal) p => s.modify (p.1 % l) (fun x => add32 x p.2)) (List.replicate l (.fin false 0 0))
  let g (i : Nat) : FVal := lanes.getD i (.fin false 0 0)
  if l = 4 then add32 (add32 (g 0) (g 1)) (add32 (g 2) (g 3)) else add32 (g 0) (g 1)

/-- trunc of R279. -/
def mxTrunc (v : FVal) : Int := max (-32768) (min 32768 (match v with
  | .nan _ _ => 0
  | .inf n => if n then -32768 else 32768
  | .fin n m e => (toIntegral 1 n m e).1))

def mxRunC (core : Core) (c : MxCmd) (o : MxOperands) (old : Vector (BitVec 32) 64) : Vector (BitVec 32) 64 :=
  let x1 := c.xs[(1 : Fin 4)]
  let path := mxPath x1
  let av := o.a.map (fun row => row.map (fun p => (p.2, mxVal core path (field c.fmt 5 4) p.1)))
  let bv := o.tile.map (mxVal core path (field c.fmt 7 6))
  Vector.ofFn (fun (ij : Fin 64) =>
    let start : BitVec 32 := if mxClr x1 then 0#32 else old[ij]
    let ps := (av.getD (ij.val / 8) []).map (fun p => (p.1, p.2, bv.getD (8 * p.1 + ij.val % 8) (.fin false 0 0)))
    if mxAcc x1 then
      BitVec.ofInt 32 (ps.foldl (fun (s : Int) p => s + mxTrunc p.2.1 * mxTrunc p.2.2) (start.toNat : Int))
    else
      let sum := laneSum (if path then 2 else 4) (ps.map (fun p => (p.1, mulExact p.2.1 p.2.2)))
      BitVec.ofNat 32 (fAdd .b32 0 (fDecode .b32 start.toNat) sum).1)

/-- Counters, sparse: counter m of output o at 64o + m. -/
def counterAt (b : List (Nat × Int)) (k : Nat) : Int :=
  match b.find? (fun p => p.1 == k) with
  | some p => p.2
  | none => 0
def counterAdd : List (Nat × Int) → Nat → Int → List (Nat × Int)
  | [], k, d => if d = 0 then [] else [(k, d)]
  | x :: r, k, d =>
    if x.1 < k then x :: counterAdd r k d
    else if x.1 = k then (if x.2 + d = 0 then r else (k, x.2 + d) :: r)
    else if d = 0 then x :: r else (k, d) :: x :: r

/-- The first counter out of range, in order of output and counter (R280, R283). -/
def overflowAt (b : List (Nat × Int)) : Option Nat := (b.find? (fun p => decide (p.2 < -2048) || decide (2047 < p.2))).map (·.1)

/-- The bank after a count (R280). -/
def mxCount (c : MxCmd) (o : MxOperands) (bank : List (Nat × Int)) : List (Nat × Int) :=
  let b0 := if mxClr c.xs[(1 : Fin 4)] then [] else bank
  o.a.zipIdx.foldl (fun b row => row.1.foldl (fun b p =>
    (List.range 8).foldl (fun b j =>
      let y := o.tile.getD (8 * p.2 + j) 0
      counterAdd b ((8 * row.2 + j) * 64 + 8 * (p.1 % 8) + y % 8) (if p.1 / 8 = y / 8 then 1 else -1)) b) b) b0

/-- The eight scales at an offset field of cr.scale (R284). -/
def mxScales (s : State) (c : MxCmd) (on : Bool) (off : Nat) : Word ⊕ Option (List FVal) :=
  if on then
    match winBytes s c.slot c.tag (off * 32) 32 with
    | .inl m => .inl (mxMark m)
    | .inr b => .inr (some ((elements 32 8 b).map (fDecode .b32)))
  else .inr none

/-- The exact sum of a drain, in units of 2^−272, below every product of two entries (R282); a sum of zero is +0. (DESIGN CHOICE, log 78.) -/
def drainSum (core : Core) (fmt : Word) (bank : List (Nat × Int)) (o : Nat) : FVal :=
  let units (t i : Nat) : Nat := match magEntry core t i with | .fin _ m e => m * 2 ^ (e + 136).toNat | _ => 0
  let p := bank.foldl (fun (s : Int) x =>
    if x.1 / 64 = o then s + x.2 * ((units (field fmt 13 12) (x.1 % 64 / 8) * units (field fmt 15 14) (x.1 % 8) : Nat) : Int) else s) 0
  .fin (decide (p < 0)) p.natAbs (-272)

def mxDrainC (core : Core) (c : MxCmd) (rs cs : Option (List FVal)) (bank : List (Nat × Int)) (old : Vector (BitVec 32) 64) : Vector (BitVec 32) 64 :=
  Vector.ofFn (fun (ij : Fin 64) =>
    let p0 := drainSum core c.fmt bank ij.val
    let p1 := match rs with | some l => mulExact p0 (l.getD (ij.val / 8) (.fin false 0 0)) | none => p0
    let p2 := match cs with | some l => mulExact p1 (l.getD (ij.val % 8) (.fin false 0 0)) | none => p1
    BitVec.ofNat 32 (fAdd .b32 0 (fDecode .b32 old[ij].toNat) p2).1)

-- ## The end of a command (R289, R290)

/-- Notes the end of a command in the batch of the mx.wait that awaits it. -/
def mxNote (t : Thread) (tag : Nat) (f : MxBatch → MxBatch) : Thread :=
  if t.mxWaits.any (fun w => decide (tag < w.1)) then { t with mxWaits := mxNoteIn tag f t.mxWaits }
  else { t with mxOpen := f t.mxOpen }
where
  mxNoteIn (tag : Nat) (f : MxBatch → MxBatch) : List (Nat × MxBatch) → List (Nat × MxBatch)
    | [] => []
    | w :: r => if tag < w.1 then (w.1, f w.2) :: r else w :: mxNoteIn tag f r

/-- A command leaves the queue (R277, R287). -/
def mxLeave (s : State) (c : MxCmd) (f : MxBatch → MxBatch) : State :=
  let s1 := s.onCore (fun k => { k with mx := { k.mx with queue := k.mx.queue.filter (fun x => x.tag != c.tag), hand := none } })
  s1.onSlot c.slot (fun t => mxNote { t.ringFree c.tag with counted := t.counted.filter (fun x => x.tag != c.tag) } c.tag f)

def mxComplete (s : State) (c : MxCmd) : State :=
  mxSettle (mxLeave s c (fun b => { b with clamp := b.clamp || c.clamp, done := c.tag :: b.done })) c.slot

/-- A command ends by fault: nothing is changed, the thread's later queued commands are discarded, and the fault is
reported imprecise (R290). -/
def mxFail (s : State) (c : MxCmd) (cause : Word) : State :=
  let code : Byte := cause.setWidth 8
  let s1 := mxLeave s c (fun b => { b with code := if b.code = 0#8 then code else b.code, fail := true })
  let later := s1.core.mx.queue.filter (fun x => x.slot == c.slot)
  let s2 := later.foldl (fun s x => mxLeave s x (fun b => { b with fail := true })) s1
  mxSettle (s2.onSlot c.slot (fun t => t.addFault c.seq cause)) c.slot

-- ## The unit (R278, R285 to R288)

/-- The cluster of the next unit in the row ring of a cluster (R3). -/
def nextCluster (k : Nat) : Nat := k / 256 * 256 + k % 256 / 16 * 16 + (k % 16 + 1) % 16

/-- Whether a cluster is one that the team of the core touches, on the rectangle of its placement, so that a hand-off comes out as without
a swap (R5, R286, R344). A cluster that the team touches only in part counts, though its core of the same bank number may be none
of the team's. (DESIGN CHOICE, log 106.) -/
def inTeam (s : State) (k : Nat) : Bool :=
  match s.team? with
  | some (l, _, _, home) => (rectClusters (coreX home) (coreY home) l.w l.h).contains k
  | none => false

/-- The cluster of the next unit of the core's, on the rectangle of its team's placement (R3, R285, R344). -/
def nextUnit (s : State) : Nat := nextCluster (clusterOf s.home)

/-- Counter overflow (R283). -/
def mxOverflow (c : MxCmd) (k kind : Nat) : Word :=
  BitVec.ofNat 64 (0x0E + kind * 2 ^ 12 + k % 64 * 2 ^ 14 + k / 64 * 2 ^ 20 + c.seq % 2 ^ 32 * 2 ^ 32)

/-- The window ranges that a run or count reads: A, metadata, and B (R274). -/
def mxSpans (c : MxCmd) (run : Bool) : List (Nat × Nat) :=
  let x1 := c.xs[(1 : Fin 4)]
  let x2 := c.xs[(2 : Fin 4)]
  let bits := mxBits run x1
  let rows (a : Word) (stride n bytes : Nat) : List (Nat × Nat) := (List.range n).map (fun i => (field a 16 0 + i * stride, bytes))
  rows c.a (field x2 15 0) 8 (rowBytes (mxKs x1) bits) ++
  (if mxPat x1 = 0 then [] else rows c.xs[(3 : Fin 4)] (field x2 47 32) 8 (rowBytes (mxKs x1) 4)) ++
  (if mxBsrc x1 = 0 then rows c.xs[(0 : Fin 4)] (field x2 31 16) (mxK x1) (rowBytes 8 bits) else [])

/-- The ranges of scales that a drain reads (R284). -/
def mxScaleSpans (c : MxCmd) : List (Nat × Nat) :=
  (if c.scale.getLsbD 32 then [(field c.scale 11 0 * 32, 32)] else []) ++ (if c.scale.getLsbD 33 then [(field c.scale 27 16 * 32, 32)] else [])

/-- A command's operands are read: each word's code is checked, and the floor gains what the reads return (R139, R297). -/
def mxReads (s : State) (c : MxCmd) (l : List (Nat × Nat)) : State :=
  let s1 := l.foldl (fun s p => winScrub s p.1 p.2) s
  l.foldl (fun s p => winGains s c.slot c.tag p.1 p.2) s1

/-- The effect of a run or count on C or a bank, then its latch and its hand-off (R279, R280, R285, R286). Of several faults that
of its operands' words ends it, then that of its latch, of its hand-off, of its counters. (DESIGN CHOICE, log 103.) -/
def mxWork (s0 : State) (c : MxCmd) (run : Bool) : State :=
  let s := mxReads s0 c (mxSpans c run)
  let x1 := c.xs[(1 : Fin 4)]
  match mxRead s c run with
  | .inl w => mxFail s c w
  | .inr o =>
    if mxHand x1 && !inTeam s (nextUnit s) then mxFail s c (refusal 3 c.seq)
    else
      let bank : Fin 2 := if x1.getLsbD 20 then 1 else 0
      let m := s.core.mx
      let counted := mxCount c o m.bank[bank]
      match (if run then none else overflowAt counted) with
      | some k => mxFail s c (mxOverflow c k 1)
      | none =>
        let s2 := s.onCore (fun k => { k with mx := { k.mx with
          c := if run then mxRunC s.core c o m.c else m.c
          bank := if run then m.bank else m.bank.set bank counted
          latch := if mxBsrc x1 = 2 then Latch.empty else m.latch
          hand := if mxHand x1 then some { full := true, k := mxK x1, bits := mxBits run x1, tile := o.tile } else none } })
        if mxHand x1 then s2 else mxComplete s2 c

/-- The element of mx.st and whether it clamped (R287). -/
def mxOut (core : Core) (c : MxCmd) (v : BitVec 32) : Nat × Bool :=
  match field c.xs[(0 : Fin 4)] 1 0 with
  | 0 => (v.toNat, false)
  | 1 => (fConvert .b16 0 (fDecode .b32 v.toNat), false)
  | _ => encodeCode core c.fmt (fDecode .b32 v.toNat)

/-- Word `k` of an mx.st in the order of R287: its offset, its value, and whether an element of it clamped. -/
def mxStoreWord (core : Core) (c : MxCmd) (k : Nat) : Nat × Nat × Bool :=
  let x0 := c.xs[(0 : Fin 4)]
  let words := match field x0 1 0 with | 0 => 4 | 1 => 2 | _ => 1
  let per := 8 / words
  let i := k / words
  let w := k % words
  let es := (List.range per).map (fun j => mxOut core c (core.mx.c.toList.getD (8 * i + w * per + j) 0))
  (field c.a 16 0 + i * field x0 31 16 + 8 * w, joinLanes (64 / per) (es.map (·.1)), es.any (·.2))

/-- One word of an mx.st; the last one completes the command (R287). -/
def mxStoreStep (s : State) (c : MxCmd) : State :=
  let (off, v, cl) := mxStoreWord s.core c c.written
  let total := 8 * (match field c.xs[(0 : Fin 4)] 1 0 with | 0 => 4 | 1 => 2 | _ => 1)
  let s1 := engineWrite s (srcCmd c.tag) (winLoc s off) v true c.known (some (engineRel s (s.src c.slot) c.rel))
  let c1 := { c with written := c.written + 1, clamp := c.clamp || cl }
  if total ≤ c1.written then
    mxComplete (if c.xs[(0 : Fin 4)].getLsbD 2 then s1.onCore (fun k => { k with mx := { k.mx with c := Vector.replicate 64 0#32 } }) else s1) c1
  else s1.onCore (fun k => { k with mx := { k.mx with queue := k.mx.queue.map (fun x => if x.tag = c.tag then c1 else x) } })

/-- A posted atomic of the thread to the own cluster, issued before the command, is not yet acknowledged (R147, R288). -/
def mxAmoPending (s : State) (c : MxCmd) : Bool :=
  (pendingReqs s c.slot).any (fun r => decide (r.tag < c.tag) && isOwnBank s r.loc && (match r.kind with | .amo _ _ => true | _ => false)) ||
  s.st.acks.any (fun a => a.slot == some c.slot && a.amo && decide (a.tag < c.tag) && isOwnBank s a.loc)

/-- The latch condition of a command: its own latch full where it reads it, and with HAND = 1 the next unit's empty (R285). A hand-off
that will be refused leaves the next latch untouched, and waits for none. (DESIGN CHOICE, log 106.) -/
def mxLatched (s : State) (c : MxCmd) : Bool :=
  let x1 := c.xs[(1 : Fin 4)]
  !(c.op == .mxRun || c.op == .mxCnt) ||
    ((decide (mxBsrc x1 = 0) || s.core.mx.latch.full) && !(mxHand x1 && inTeam s (nextUnit s) && s.core.mx.next.full))

/-- The head command may start or go on: 8 cycles after its trigger, its latch condition holding (R278, R285, R288). -/
def mxReady (s : State) (c : MxCmd) : Bool :=
  s.core.mx.hand.isNone && decide (c.born + 8 ≤ s.cycle) && !mxAmoPending s c && mxLatched s c

/-- A drain (R282, R284). -/
def mxDrain (s0 : State) (c : MxCmd) : State :=
  let s := mxReads s0 c (mxScaleSpans c)
  match mxScales s c (c.scale.getLsbD 32) (field c.scale 11 0), mxScales s c (c.scale.getLsbD 33) (field c.scale 27 16) with
  | .inl w, _ => mxFail s c w
  | _, .inl w => mxFail s c w
  | .inr rs, .inr cs =>
    mxComplete (s.onCore (fun k => { k with mx := { k.mx with
      c := mxDrainC s.core c rs cs k.mx.bank[(0 : Fin 2)] k.mx.c
      bank := k.mx.bank.set 0 [] } })) c

/-- A merge of the banks (R281). -/
def mxMerge (s : State) (c : MxCmd) : State :=
  let m := s.core.mx
  let b := m.bank[(1 : Fin 2)].foldl (fun b p => counterAdd b p.1 p.2) m.bank[(0 : Fin 2)]
  match overflowAt b with
  | some k => mxFail s c (mxOverflow c k 2)
  | none => mxComplete (s.onCore (fun k => { k with mx := { k.mx with bank := #v[b, []] } })) c

/-- The event of a failed residue check (R291, R382). -/
def residueEvent (s : State) (c : MxCmd) (cls src : Nat) : McEvent :=
  { cluster := clusterOf s.coreId, bank := 2, cls, src, core := bankNo s.coreId, cause := if cls = 2 then 0x12 else 0, ad := 0
    sy := if cls = 2 then BitVec.ofNat 64 c.op.code else Config.syndrome s.freeCtr, th := if cls = 2 then s.slots[c.slot].mcth c.slot else 0 }

/-- The core's head command is performed (R278 to R287). -/
def mxPerform (s : State) (c : MxCmd) : State :=
  match c.op with
  | .mxRun => mxWork s c true
  | .mxCnt => mxWork s c false
  | .mxDrn => mxDrain s c
  | .mxMrg => mxMerge s c
  | .mxSt => mxStoreStep s c
  | _ => s

/-- The command behind the checks of the unit's latches and residues: a first residue mismatch executes it again, and a second ends it
with 0x12 (R290, R291, R381). -/
def mxChecked (s0 : State) (c : MxCmd) : State :=
  let s := if 0 < c.written then s0 else engineCheck s0
  let sound := s.onCore (fun k => { k with mx := { k.mx with flaw := 0 } })
  if s.core.mx.flaw = 0 ∨ 0 < c.written then mxPerform s c
  else if s.core.mx.flaw = 1 then mxPerform (sound.mcLog (residueEvent s c 1 0x20)) c
  else mxFail (sound.mcLog (residueEvent s c 2 0x21)) c (causeOf 0x12)

/-- The unit performs the core's head command (`own`), or the next unit performs one that empties its latch
(R278 to R287). -/
def execMxCommandPerform (own : Bool) (s : State) : Out :=
  if own then
    match s.core.mx.queue with
    | [] => .next s
    | c :: _ => if !mxReady s c then .next s else .next (mxChecked s c)
  else .next (s.onCore (fun k => { k with mx := { k.mx with next := Latch.empty } }))

/-- A hand-off: the head command's tile goes into the next unit's latch once it is empty, and the command completes; or
the previous unit's tile comes into the core's empty latch (R285). -/
def execMxLatchHandoff (h : Handoff) (s : State) : Out :=
  match h with
  | .inn k bits tile =>
    if s.core.mx.latch.full then .next s
    else .next (s.onCore (fun c => { c with mx := { c.mx with latch := { full := true, k, bits, tile } } }))
  | .out =>
    match s.core.mx.queue, s.core.mx.hand with
    | c :: _, some l =>
      if s.core.mx.next.full then .next s
      else .next (mxComplete (s.onCore (fun k => { k with mx := { k.mx with next := l } })) c)
    | _, _ => .next s

def execMxRun (sw : Bool) (g : Guard) (x : Source) (s : State) : Out := issueLong sw g x (mxRunPlan.covered .mxRun) s
def execMxCnt (sw : Bool) (g : Guard) (x : Source) (s : State) : Out := issueLong sw g x (mxCntPlan.covered .mxCnt) s
def execMxDrn (sw : Bool) (g : Guard) (x : Source) (s : State) : Out := issueLong sw g x (mxDrnPlan.covered .mxDrn) s
def execMxMrg (sw : Bool) (g : Guard) (x : Source) (s : State) : Out := issueLong sw g x (mxMrgPlan.covered .mxMrg) s
def execMxSt (sw : Bool) (g : Guard) (x : Source) (s : State) : Out := issueLong sw g x (mxStPlan.covered .mxSt) s
def execMxWait (sw : Bool) (g : Guard) (x : Source) (s : State) : Out := issueLong sw g x (mxWaitPlan.covered .mxWait) s

end Sys2Proof.Machine
end

