-- ==== Sys2Proof/Machine/Launch.lean ====
section
/-! DEFINITION. Firmware's part of a launch: taking a slot and its checks (R332 to R338), placement (R339, R340), the end of a launch (R336, R349), quantum expiry (R343), and the swap of the observed core's team (R344, R345). -/

namespace Sys2Proof.Machine

-- ## Firmware's accesses, under a context's tables

def fwWalker (cid : Fin 64) (ctx : Word) : Walker := { cid := cid.val, root := field ctx 51 12 * 4096, user := false, l1 := false, cause := 0 }

/-- The place and attributes of an address of a context, where it translates. -/
def fwPlace (s : State) (w : Walker) (write sync : Bool) (va : Nat) : Option (Nat × BitVec 5) :=
  match translate s w { user := false, fetch := false, write, sync } (BitVec.ofNat 64 va) with
  | .ok loc attr _ => some (loc, attr)
  | _ => none

/-- A readable 64-bit word that carries no mark. -/
def fwWord (s : State) (w : Walker) (va : Nat) : Option Word :=
  match fwPlace s w false false va with
  | some (loc, _) => if markOf s.st.marks (loc / 8) = 0#2 then some (BitVec.ofNat 64 (read64 s.st loc)) else none
  | none => none

def fwWords (s : State) (w : Walker) (va : Nat) : Nat → Option (List Word)
  | 0 => some []
  | n + 1 =>
    match fwWord s w va, fwWords s w (va + 8) n with
    | some x, some r => some (x :: r)
    | _, _ => none

def fwBytes (s : State) (w : Walker) (va : Nat) : Nat → Option (List Byte)
  | 0 => some []
  | n + 1 =>
    match fwPlace s w false false va, fwBytes s w (va + 1) n with
    | some (loc, _), some r => some (Mem.get s.st.mem loc :: r)
    | _, _ => none

/-- Firmware walks to the pages that `n` bytes at `va` touch: what its walks find is logged and corrected (R61, R72, R382). -/
def fwWalk (s : State) (w : Walker) (va n : Nat) : State :=
  if n = 0 then s
  else (List.range ((va + n - 1) / 65536 - va / 65536 + 1)).foldl (fun s k =>
    match translate s w { user := false, fetch := false, write := false, sync := false } (BitVec.ofNat 64 ((va / 65536 + k) * 65536)) with
    | .ok _ _ s1 => s1
    | .bad _ s1 => s1
    | .stop _ => s) s

/-- Firmware reads `n` bytes: its walks, and the codes of the words, are checked (R72, R84, R139, R382). -/
def fwTouch (s : State) (w : Walker) (va n : Nat) : State :=
  (touchedWords va n).foldl (fun s k =>
    match translate s w { user := false, fetch := false, write := false, sync := false } (BitVec.ofNat 64 (8 * k)) with
    | .ok loc _ s1 => pointScrub s1 loc 8
    | .bad _ s1 => s1
    | .stop _ => s) s

/-- The same for each of some ranges. -/
def fwTouchAll (s : State) (w : Walker) (l : List (Nat × Nat)) : State := l.foldl (fun s p => fwTouch s w p.1 p.2) s

/-- Every page that `n` bytes at `va` touch translates and passes a test; the smallest page is 64 KiB (R61). -/
def fwPages (s : State) (w : Walker) (write sync : Bool) (ok : BitVec 5 → Bool) (page : Nat) : Nat → Bool
  | 0 => true
  | n + 1 =>
    (match fwPlace s w write sync (page * 65536) with | some (_, a) => ok a | none => false) && fwPages s w write sync ok (page + 1) n

def fwRange (s : State) (w : Walker) (write sync : Bool) (ok : BitVec 5 → Bool) (va n : Nat) : Bool :=
  n == 0 || (classify (BitVec.ofNat 64 va) == .paged && classify (BitVec.ofNat 64 (va + n - 1)) == .paged &&
    fwPages s w write sync ok (va / 65536) ((va + n - 1) / 65536 - va / 65536 + 1))

def isPagedVa (v : Word) : Bool := classify v == .paged

-- ## The checks of a launch (R335)

/-- KIND 1. -/
def bad1 (s : State) (w : Walker) (r : Vector Word 16) : Bool :=
  decide (field r[1] 63 52 ≠ 0) || decide (field r[1] 31 23 ≠ 0) || decide (field r[2] 63 32 ≠ 0) || decide (field r[6] 63 32 ≠ 0) ||
  decide (field r[7] 63 2 ≠ 0) || decide (field r[11] 63 23 ≠ 0) || decide (field r[11] 2 0 ≠ 0) ||
  r[12] != 0#64 || r[13] != 0#64 || r[14] != 0#64 || r[15] != 0#64 ||
  r[0].getLsbD 0 || !isPagedVa r[0] || (r[10] != 0#64 && (decide (field r[10] 5 0 ≠ 0) || !isPagedVa r[10])) ||
  (r[8] != 0#64 && (decide (field r[8] 2 0 ≠ 0) || !fwRange s w true true (fun _ => true) r[8].toNat 40))

/-- A tensor record of a launch, where its words are readable. -/
def readTensor (s : State) (w : Walker) (cid : Fin 64) (tens : Word) (i : Nat) : Option (Tensor × Word × Word) :=
  match fwWords s w (field tens 47 6 * 64 + 64 * i) 8 with
  | some [a, b, c, d, e, f, g, h] => some ({ cid, index := i, w0 := a, w1 := b, w2 := c, w3 := d, w4 := e, w5 := f }, g, h)
  | _ => none

/-- Bytes of a record's backing region (R158). -/
def Tensor.backBytes (t : Tensor) : Nat := t.keep * t.tiles * (t.size + 8)
def Tensor.dig (t : Tensor) : Bool := t.w0.getLsbD 28

/-- A tensor record that R157, R158 or R401 refuses. -/
def tensorBad (s : State) (w : Walker) (x : Tensor × Word × Word) : Bool :=
  let t := x.1
  let pm := pmapAt s t.mod
  decide (field t.w0 63 29 ≠ 0) || decide (field t.w1 63 44 ≠ 0) || decide (field t.w1 39 37 ≠ 0) || decide (field t.w2 63 48 ≠ 0) ||
  decide (field t.w3 63 19 ≠ 0) || decide (field t.w4 63 48 ≠ 0) || x.2.1 != 0#64 || x.2.2 != 0#64 ||
  decide (t.tiles = 0) || decide (t.back % 128 ≠ 0) ||
  decide (field t.w2 9 0 % 4 ≠ 0) || decide (field t.w2 29 20 % 4 ≠ 3) || decide (field t.w2 19 10 % 2 ≠ 0) || decide (field t.w2 39 30 % 2 ≠ 1) ||
  decide (field t.w2 29 20 < field t.w2 9 0) || decide (field t.w2 39 30 < field t.w2 19 10) ||
  (decide (t.mod ≠ 0) && (!pmValid pm || !s.host.featEn.getLsbD 3)) ||
  !fwRange s w true false (fun a => !t.dig || a.getLsbD 4) t.back t.backBytes

def readTensors (s : State) (w : Walker) (cid : Fin 64) (tens : Word) (n : Nat) : List (Option (Tensor × Word × Word)) :=
  (List.range n).map (readTensor s w cid tens)

/-- KIND 2. -/
def bad2 (s : State) (w : Walker) (cid : Fin 64) (r : Vector Word 16) : Bool :=
  let tens := r[4]
  decide (field tens 63 61 ≠ 0) || decide (field tens 5 0 ≠ 0) || decide (4096 < field tens 60 48) ||
  (readTensors s w cid tens (field tens 60 48)).any (fun x => match x with | some t => tensorBad s w t | none => true)

/-- What an image block gives (R337, R338). -/
structure Block where
  shape : Word
  tables : List (Nat × BitVec 19)
  items : List (Nat × List Byte)
  cells : List (Nat × Nat × Quad)
  deriving DecidableEq, Repr

/-- The entries of a present table at `va`, two to a word; one with a bit of [31:19] set, or a magnitude entry that is
negative or not finite, fails (R225, R226, R337). -/
def readTable (s : State) (w : Walker) (va key n : Nat) (mag : Bool) : Option (List (Nat × BitVec 19)) :=
  match fwWords s w va (n / 2) with
  | none => none
  | some ws =>
    let es := ws.flatMap (fun x => [field x 31 0, field x 63 32])
    if es.any (fun e => decide (2 ^ 19 ≤ e) || (mag && (decide (2 ^ 18 ≤ e) || decide (e / 2 ^ 10 = 255)))) then none
    else some ((es.zipIdx.filter (fun e => e.1 != 0)).map (fun e => (key + e.2, BitVec.ofNat 19 e.1)))

def joinTables : List (Option (List (Nat × BitVec 19))) → Option (List (Nat × BitVec 19))
  | [] => some []
  | none :: _ => none
  | some l :: r => (joinTables r).map (l ++ ·)

def readTables (s : State) (w : Walker) (va mask : Nat) : Option (List (Nat × BitVec 19)) :=
  joinTables ((List.range 4).map (fun t => if mask.testBit t then readTable s w (va + 64 + 1024 * t) (256 * t) 256 false else some []) ++
    (List.range 4).map (fun t => if mask.testBit (4 + t) then readTable s w (va + 4160 + 32 * t) (1024 + 8 * t) 8 true else some []))

/-- The local image list (R338), by fuel: more records than any list in the address space has (R53). -/
def readItems (s : State) (w : Walker) (va : Nat) : Nat → Option (List (Nat × List Byte))
  | 0 => none
  | n + 1 =>
    match fwWords s w va 2 with
    | some [a, b] =>
      let len := field b 63 32
      let off := field b 16 0
      if a = 0#64 ∧ b = 0#64 then some []
      else if field b 31 17 ≠ 0 ∨ len % 8 ≠ 0 ∨ off % 8 ≠ 0 ∨ 0x20000 < off + len then none
      else
        match fwBytes s w a.toNat len, readItems s w (va + 16) n with
        | some bs, some r => some ((off, bs) :: r)
        | _, _ => none
    | _ => none

/-- The track image list (R338), by fuel. -/
def readCells (s : State) (w : Walker) (va : Nat) : Nat → Option (List (Nat × Nat × Quad))
  | 0 => none
  | n + 1 =>
    match fwWords s w va 2 with
    | some [a, b] =>
      let len := field b 63 32
      let start := field b 13 5
      if a = 0#64 ∧ b = 0#64 then some []
      else if field b 31 14 ≠ 0 ∨ 512 < start + len then none
      else
        match fwBytes s w a.toNat (16 * len), readCells s w (va + 16) n with
        | some bs, some r =>
          some ((List.range len).map (fun i => (field b 4 0, start + i, BitVec.ofNat 128 (natLE ((bs.drop (16 * i)).take 16)))) ++ r)
        | _, _ => none
    | _ => none

/-- The image block of a launch; an IMAGE of 0 names none (R337). -/
def readBlock (s : State) (w : Walker) (r : Vector Word 16) : Option Block :=
  let va := r[10].toNat
  if va = 0 then some { shape := 0, tables := [], items := [], cells := [] }
  else
    match fwWords s w va 8 with
    | some [shape, ctl, loc, trk, z0, z1, z2, z3] =>
      if field ctl 63 8 ≠ 0 ∨ z0 ≠ 0#64 ∨ z1 ≠ 0#64 ∨ z2 ≠ 0#64 ∨ z3 ≠ 0#64 then none
      else
        match readTables s w va (field ctl 7 0), (if loc = 0#64 then some [] else readItems s w loc.toNat (2 ^ 44)),
            (if trk = 0#64 then some [] else readCells s w trk.toNat (2 ^ 44)) with
        | some tables, some items, some cells => some { shape, tables, items, cells }
        | _, _, _ => none
    | _ => none

/-- The digest regions by REG: the launch's list, then the backing regions with DIG = 1 (R115, R157, R334). -/
def readRegions (s : State) (w : Walker) (cid : Fin 64) (r : Vector Word 16) : Option (List (Nat × Nat)) :=
  let n := field r[9] 63 48
  let own : Option (List (Nat × Nat)) := (fwWords s w (field r[9] 47 0) (2 * n)).map (fun l =>
    (List.range n).map (fun i => ((l.getD (2 * i) 0#64).toNat, (l.getD (2 * i + 1) 0#64).toNat)))
  let back := ((readTensors s w cid r[4] (field r[4] 60 48)).filterMap (fun x => x)).filter (fun x => x.1.dig)
  own.map (fun l => l ++ back.map (fun x => (x.1.back, x.1.backBytes)))

/-- KIND 4. -/
def bad4 (s : State) (w : Walker) (cid : Fin 64) (r : Vector Word 16) : Bool :=
  match readRegions s w cid r with
  | none => true
  | some l => decide (65536 < l.length) ||
      l.any (fun x => decide (x.1 % 8 ≠ 0) || decide (x.2 % 8 ≠ 0) || !fwRange s w false false (fun a => a.getLsbD 4) x.1 x.2)

/-- The ranges that a list of records at `va` makes firmware read: its records, and what each names, by fuel (R338). -/
def listSpans (s : State) (w : Walker) (bytes : Word → Nat) (va : Nat) : Nat → List (Nat × Nat)
  | 0 => []
  | n + 1 =>
    match fwWords s w va 2 with
    | some [a, b] => if a = 0#64 ∧ b = 0#64 then [(va, 16)] else (va, 16) :: (a.toNat, bytes b) :: listSpans s w bytes (va + 16) n
    | _ => [(va, 16)]

/-- The ranges of an image block that firmware reads: the block, its present tables, its lists and what they name (R337, R338). -/
def blockSpans (s : State) (w : Walker) (r : Vector Word 16) : List (Nat × Nat) :=
  let va := r[10].toNat
  if va = 0 then []
  else
    (va, 64) :: (match fwWords s w va 8 with
      | some (_ :: ctl :: loc :: trk :: _) =>
        ((List.range 4).filter ctl.getLsbD).map (fun t => (va + 64 + 1024 * t, 1024)) ++
        ((List.range 4).filter (fun t => ctl.getLsbD (4 + t))).map (fun t => (va + 4160 + 32 * t, 32)) ++
        (if loc = 0#64 then [] else listSpans s w (fun b => min (field b 63 32) 0x20000) loc.toNat (2 ^ 44)) ++
        (if trk = 0#64 then [] else listSpans s w (fun b => 16 * min (field b 63 32) 512) trk.toNat (2 ^ 44))
      | _ => [])

/-- Firmware reads a launch's record, tensor records, image block and digest regions for the checks of R335, in their order, as far as
they pass: what its walks and reads find is logged and corrected (R72, R84, R382). -/
def launchReads (s0 : State) (cid : Fin 64) (ctx : Word) (r : Vector Word 16) : State :=
  let w := fwWalker cid ctx
  let n := field r[4] 60 48
  let s1 := if r[8] = 0#64 then s0 else fwWalk s0 w r[8].toNat 40
  if bad1 s1 w r || decide (4096 < n) then s1
  else
    let s2 := fwTouch s1 w (field r[4] 47 6 * 64) (64 * n)
    let s3 := ((readTensors s2 w cid r[4] n).filterMap (fun x => x)).foldl (fun s x => fwWalk s w x.1.back x.1.backBytes) s2
    if bad2 s3 w cid r then s3
    else
      let s4 := fwTouchAll s3 w (blockSpans s3 w r)
      if (readBlock s4 w r).isNone then s4
      else
        let s5 := fwTouch s4 w (field r[9] 47 0) (16 * field r[9] 63 48)
        ((readRegions s5 w cid r).getD []).foldl (fun s x => fwWalk s w x.1 x.2) s5

/-- A die holds every declared feature; none holds one above F3 (R49, R316, R335). -/
def dieHolds (s : State) (d : Nat) (want : Word) : Bool := (List.range 64).all (fun b => !want.getLsbD b || featOn s d b)

/-- KIND 6: the barrier array; every W × H of the record fits the module. (DEDUCED, log 41.) -/
def bad6 (r : Vector Word 16) : Bool :=
  let b := launchBar r
  decide (256 < field b 22 14) || decide (2048 < field b 13 3 + 2 * field b 22 14)

/-- The KIND that refuses a launch, in the order of R335; 0 where none does. (DEDUCED, log 44.) -/
def launchKind (s : State) (cid : Fin 64) (ctx : Word) (r : Vector Word 16) : Nat :=
  let w := fwWalker cid ctx
  if bad1 s w r then 1
  else if bad2 s w cid r then 2
  else if (readBlock s w r).isNone then 3
  else if bad4 s w cid r then 4
  else if !(List.range 16).any (fun d => dieHolds s d r[5]) then 5
  else if bad6 r then 6
  else 0

-- ## The completion record (R336)

/-- Source numbers of threads that have left their core are raised by a multiple of this (R294, R311). (DESIGN CHOICE, log 1.) -/
def exileUnit : Nat := 2 ^ 43

/-- A source number is a thread's of a context on one of some cores; `exile` is what its number has been raised by. -/
def threadOn (cores : Nat → Bool) (cid exile src : Nat) : Bool :=
  decide (exile ≤ src) && decide (src - exile < 2 ^ 40) && decide ((src - exile) / 8 % 64 = cid) && cores ((src - exile) / 512)

def Release.mapSrc (f : Nat → Nat) (r : Release) : Release := { r with src := f r.src }

/-- Changes source numbers and releases wherever the history names them. -/
def mapSources (f : Nat → Nat) (g : Release → Release) (h : List HWrite) : List HWrite :=
  h.map (fun w => { w with src := f w.src, work := w.work.map f, rel := w.rel.map g })

/-- Changes the releases that requests, threads, tiles, cores and images hold (R294, R306, R330). -/
def tileRel (g : Release → Release) (t : Tile) : Tile :=
  let r := g { scope := 0, core := some t.core, src := t.src, rel := t.rel }
  { t with core := r.core.getD t.core, src := r.src, rel := r.rel }
def Req.mapRel (g : Release → Release) (r : Req) : Req :=
  { r with
    rel := r.rel.map g
    kind := match r.kind with | .give nm t b => .give nm (tileRel g t) b | k => k }
def Thread.mapRel (g : Release → Release) (t : Thread) : Thread :=
  { t with relReads := t.relReads.map g, owed := t.owed.map (fun o => { o with rels := o.rels.map g }), psq := t.psq.map (Req.mapRel g) }
def Core.mapRel (g : Release → Release) (c : Core) : Core :=
  { c with
    mail := c.mail.map (fun m => { m with rel := m.rel.map g })
    spill := c.spill.map (fun m => (m.1, { m.2 with rel := m.2.rel.map g })) }
def Resv.mapHolder (f : Nat → Nat) (e : Resv) : Resv := { e with holder := e.holder.map f }
def Image.mapRel (f : Nat → Nat) (g : Release → Release) (i : Image) : Image :=
  { i with slots := i.slots.map (Thread.mapRel g), core := i.core.mapRel g, hist := mapSources f g i.hist, resvs := i.resvs.map (Resv.mapHolder f), reqs := i.reqs.map (Req.mapRel g) }
def packetRel (g : Release → Release) (p : Packet) : Packet :=
  match p with | .tile nm t => .tile nm (tileRel g t) | .give nm t b => .give nm (tileRel g t) b | p => p

/-- Changes the source numbers of threads, and releases, wherever the machine holds them: in the history, in what has been read or
received, in requests and tiles on their way, in the groups' arrivals and in the images. -/
def mapRels (f : Nat → Nat) (g : Release → Release) (s : State) : State :=
  { s with
    slots := s.slots.map (Thread.mapRel g)
    core := s.core.mapRel g
    images := s.images.map (Image.mapRel f g)
    st := { s.st with
      resvs := s.st.resvs.map (Resv.mapHolder f)
      waitq := s.st.waitq.map (Req.mapRel g)
      hist := mapSources f g s.st.hist
      paths := s.st.paths.map (Req.mapRel g)
      queue := s.st.queue.map (Req.mapRel g)
      bankq := s.st.bankq.map (fun b => { b with req := b.req.mapRel g })
      waiters := s.st.waiters.map (fun w => { w with req := w.req.mapRel g }) }
    net := { s.net with
      given := s.net.given.map (fun x => (x.1, g x.2))
      packets := s.net.packets.map (fun p => (p.1, packetRel g p.2))
      routers := s.net.routers.map (fun r => { r with crib := r.crib.map (fun e => (e.1, tileRel g e.2)) })
      groups := s.net.groups.map (fun x => { x with
        arrived := x.arrived.map (fun a => (a.1, g a.2)), past := x.past.map (fun p => (p.1, p.2.map g)) }) } }

/-- The threads of a launch, by the cores on which its teams stand and by those that its images hold. -/
def launchMine (s : State) (n : Nat) (l : Launch) (src : Nat) : Bool :=
  l.placed.any (fun p => threadOn (coreIn p.2 l.w l.h) l.cid.val 0 src) ||
  s.images.any (fun i => i.launch.1 == n && threadOn (coreIn (coreNum i.launch.2.2.1 i.launch.2.2.2) l.w l.h) l.cid.val i.exile src)

/-- The writes of a launch's threads and of their engines' work, and firmware's digest words, as a Rel (R336). -/
def launchRel (s : State) (n : Nat) (l : Launch) (digest : List Nat) : List (Nat × Nat) :=
  let mine := launchMine s n l
  (s.st.hist.filter (fun w => mine w.src || w.work.any mine || (w.src == srcFirm && digest.contains w.loc))).flatMap
    (fun w => (List.range w.old.length).map (fun i => (w.loc + i, w.id)))

/-- Firmware writes a word of a completion record, set full. -/
def recordWord (s : State) (loc v : Nat) (rel : List (Nat × Nat)) : State :=
  engineWrite s srcFirm loc v true rel (some { scope := BitVec.ofNat 42 (2 ^ 40), core := none, src := srcFirm, rel })

/-- The places of a record's five words, where DONE passes KIND 1 (R335, R336). -/
def recordPlaces (s : State) (cid : Fin 64) (ctx done : Word) : Option (List (Nat × BitVec 5)) :=
  let w := fwWalker cid ctx
  if field done 2 0 ≠ 0 ∨ fwRange s w true true (fun _ => true) done.toNat 40 = false then none
  else (List.range 5).mapM (fun i => fwPlace s w true true (done.toNat + 8 * i))

/-- Writes the digest, where there is one to write, and then the status word as a release, whose Rel `rel` gives from the
places of the digest; a record that is not writable is logged and no part of it is written. -/
def writeRecord (s0 : State) (cid : Fin 64) (ctx done : Word) (digest : Option Nat) (status : Nat)
    (rel : State → List Nat → List (Nat × Nat) := fun _ _ => []) : State :=
  if done = 0#64 then s0
  else
    let s := fwWalk s0 (fwWalker cid ctx) done.toNat 40
    match recordPlaces s cid ctx done with
    | some [a, b, c, d, e] =>
      let s1 := match digest with
        | some g => [b, c, d, e].zipIdx.foldl (fun s p => recordWord s p.1.1 (g / 2 ^ (64 * p.2) % 2 ^ 64) []) s
        | none => s
      recordWord s1 a.1 status (rel s1 (if digest.isSome then [b.1, c.1, d.1, e.1] else []))
    | _ => s.mcLog { cluster := 0, bank := 3, cls := 2, src := 0x35, core := 0xFF, cause := 0, ad := 0, sy := 0, th := 0 }

-- ## Taking a slot (R332, R333)

/-- A context with no launch left takes a slot: what its earlier launches left in the tile network goes, the interests that
still wait settled empty, since every producer has ended (R158, R166, R167). The records of an ended launch stay in the routers'
tables until then. (DESIGN CHOICE, log 80.) -/
def clearTensors (s0 : State) (cid : Fin 64) : State :=
  if s0.fw.launches.any (fun l => l.cid == cid && l.st == 0#8) then s0
  else
    let s := settleWhere s0 (fun _ nm => nm.cid == cid) (fun _ => true) false
    { s with net := { s.net with
      tensors := s.net.tensors.filter (fun t => t.cid != cid)
      iters := s.net.iters.filter (fun i => i.cid != cid)
      given := s.net.given.filter (fun g => g.1.cid != cid)
      routers := s.net.routers.map (fun r => { r with crib := r.crib.filter (fun e => e.1.cid != cid) }) } }

/-- Firmware reads a queue's next slot and walks to its head word. -/
def slotReads (s : State) (w : Walker) (qu : Queue) : State :=
  fwTouch (fwWalk s w qu.head.toNat 8) w (qu.base.toNat + 128 * (qu.taken % 2 ^ qu.n)) 128

/-- Firmware takes the next slot of a queue, once its word 0 is full and the queue's last launch has ended: it empties
word 0, moves the head word on, and refuses the launch or has it wait for placement (R333, R335). (DEDUCED, log 61.) -/
def execLaunchSlotTake (cid : Fin 64) (q : Fin 64) (s0 : State) : Out :=
  match s0.fw.queues.find? (fun x => x.cid == cid && x.q == q), s0.fw.contexts.find? (fun c => c.1 == cid) with
  | some qu, some (_, ctx) =>
    let w := fwWalker cid ctx
    let va := qu.base.toNat + 128 * (qu.taken % 2 ^ qu.n)
    match (fwPlace s0 w false true va).filter (fun p => isFull s0 p.1) with
    | none => .next s0
    | some (loc, _) =>
    if !serving s0 || s0.fw.launches.any (fun l => l.cid == cid && l.q == q && l.st == 0#8) then .next s0
    else
      let s := slotReads s0 w qu
      match fwPlace s w true false qu.head.toNat, fwWords s w va 16 with
      | some (head, _), some ws =>
        let r : Vector Word 16 := Vector.ofFn (fun (i : Fin 16) => ws.getD i.val 0#64)
        let s1 := performFree s.bump { id := s.nextId, src := srcFirm, loc, data := Mem.read s.st.mem loc 8, fe := some false, rmw := true, known := [], rel := none } s.nextId
        let taken := (qu.taken + 1) % 2 ^ 32
        let s2 := engineWrite (service s1 loc) srcFirm head taken false [] none
        let s3 := { s2 with fw := { s2.fw with queues := s2.fw.queues.map (fun x => if x.cid = cid ∧ x.q = q then { x with taken } else x) } }
        let s3 := launchReads s3 cid ctx r
        let kind := launchKind s3 cid ctx r
        if kind ≠ 0 then .next (writeRecord s3 cid ctx r[8] none (kind * 2 ^ 8 + 2))
        else
          match readBlock s3 w r, readRegions s3 w cid r with
          | some b, some regions =>
            let ts := ((readTensors s3 w cid r[4] (field r[4] 60 48)).filterMap (fun x => x)).map (fun x => { x.1 with launch := s3.fw.launches.length })
            let l : Launch := { cid, q, words := r, kvec := qu.kvec, ctx, shape := b.shape, tables := b.tables, items := b.items
                                cells := b.cells, regions, placed := [], flt := false, st := 0 }
            let s4 := clearTensors s3 cid
            .next { s4 with
              net := { s4.net with tensors := ts ++ s4.net.tensors }
              fw := { s4.fw with launches := s4.fw.launches ++ [l] } }
          | _, _ => .next s3
      | _, _ => .next s
  | _, _ => .next s0

-- ## Placement (R339, R340)

/-- Two rectangles, by corner and size, overlap. -/
def overlap (x0 y0 w0 h0 x1 y1 w1 h1 : Nat) : Bool :=
  decide (x0 < x1 + w1) && decide (x1 < x0 + w0) && decide (y0 < y1 + h1) && decide (y1 < y0 + h0)

/-- A placed team touches a cluster of a rectangle. -/
def sharesCluster (x y w h : Nat) (l : Launch) (p : Nat × Nat) : Bool :=
  overlap (x / 4) (y / 2) ((x + w - 1) / 4 - x / 4 + 1) ((y + h - 1) / 2 - y / 2 + 1)
    (coreX p.2 / 4) (coreY p.2 / 2) ((coreX p.2 + l.w - 1) / 4 - coreX p.2 / 4 + 1) ((coreY p.2 + l.h - 1) / 2 - coreY p.2 / 2 + 1)

/-- The dies under a rectangle. -/
def rectDies (x y w h : Nat) : List Nat :=
  (List.range ((y + h - 1) / 256 - y / 256 + 1)).flatMap (fun j => (List.range ((x + w - 1) / 256 - x / 256 + 1)).map (fun i => (y / 256 + j) * 4 + x / 256 + i))

/-- The network groups of a die that the placed teams hold: LIM for each team on it (R357). (DEDUCED, log 41.) -/
def groupsHeld (s : State) (d : Nat) : Nat :=
  s.fw.launches.foldl (fun n l =>
    n + (l.placed.filter (fun p => (rectDies (coreX p.2) (coreY p.2) l.w l.h).contains d)).length * field (launchBar l.words) 22 14) 0

/-- The rules of R339 for a team of launch `n` with its corner at (x, y), and its groups of the barrier network (R358). -/
def placeable (s : State) (n : Nat) (l : Launch) (want : Word) (x y : Nat) : Bool :=
  let w := l.w
  let h := l.h
  let oneDie := x / 256 == (x + w - 1) / 256 && y / 256 == (y + h - 1) / 256
  let dies := rectDies x y w h
  decide (x + w ≤ 1024) && decide (y + h ≤ 1024) && dies.all (fun d => dieHolds s d want && decide (groupsHeld s d + field (launchBar l.words) 22 14 ≤ 256)) &&
  (decide (256 < w) || decide (256 < h) || oneDie) && (decide (w % 64 ≠ 0) || decide (x % 64 = 0)) &&
  !(rectClusters x y w h).any (fun k => s.fw.retired.contains k) && !s.fw.spareCores.any (coreIn (coreNum x y) w h) &&
  s.fw.launches.zipIdx.all (fun m => m.1.placed.all (fun p =>
    if m.2 = n then !overlap x y w h (coreX p.2) (coreY p.2) w h else !sharesCluster x y w h m.1 p))

/-- The place in its rectangle of the observed core, where the rectangle holds it. -/
def inRect (s : State) (x y w h : Nat) : Bool :=
  decide (x ≤ s.core.x.toNat) && decide (s.core.x.toNat < x + w) && decide (y ≤ s.core.y.toNat) && decide (s.core.y.toNat < y + h)

/-- The banks of the cores that a test selects hold nothing: every word 0 and empty, without history (R138). -/
def clearBanks (st : Store) (cores : Nat → Bool) : Store :=
  let hit (loc : Nat) : Bool := isBank loc && cores (bankCore loc)
  { st with
    mem := st.mem.filter (fun c => !hit c.1)
    full := st.full.filter (fun w => !hit (8 * w))
    marks := st.marks.filter (fun m => !hit (8 * m.1))
    ecc := st.ecc.filter (fun e => !hit (8 * e.1))
    hist := st.hist.filter (fun w => !hit w.loc)
    resvs := st.resvs.filter (fun e => !hit e.loc) }

/-- Writes bytes at a bank before any thread runs, each word touched set full (R138). -/
def initBytes (st : Store) (loc : Nat) (b : List Byte) : Store :=
  { st with mem := Mem.write st.mem loc b, full := (touchedWords loc b.length).foldl setIns st.full }

/-- The local items of a launch in every cluster of a list, word by word, since an item may cross banks, on the banks that are
initialised (R138, R338). -/
def initItems (st : Store) (ks : List Nat) (cores : Nat → Bool) (items : List (Nat × List Byte)) : Store :=
  ks.foldl (fun st k => items.foldl (fun st it =>
    (List.range (it.2.length / 8)).foldl (fun st i =>
      let loc := ownLoc (clusterCore k 0) (it.1 + 8 * i)
      if cores (bankCore loc) then initBytes st loc ((it.2.drop (8 * i)).take 8) else st) st) st) st

/-- The module-wide groups with which a launch starts, and the die groups of a team placed at (x, y) (R357). -/
def moduleGroups (n : Nat) (l : Launch) (lim : Nat) : List Group :=
  (List.range lim).map (fun g =>
    { key := { wide := true, grp := g, launch := n + 1 }, rect := 0xFFFFF00000#40, mask := BitVec.ofNat 8 (2 ^ l.s - 1), need := l.teams * l.w * l.h * l.s
      arrived := [], gone := [], waits := [], gen := 0, pending := none, past := [] })

def dieGroups (n team : Nat) (l : Launch) (x y lim : Nat) : List Group :=
  let rect : BitVec 40 := BitVec.ofNat 40 (x + y * 2 ^ 10 + (x + l.w - 1) * 2 ^ 20 + (y + l.h - 1) * 2 ^ 30)
  let oneDie := x / 256 == (x + l.w - 1) / 256 && y / 256 == (y + l.h - 1) / 256
  (List.range lim).map (fun g =>
    { key := { wide := false, grp := g, launch := n + 1, team }
      rect := if oneDie then rect else 0
      mask := if oneDie then BitVec.ofNat 8 (2 ^ l.s - 1) else 0
      need := if oneDie then l.w * l.h * l.s else 0
      arrived := [], gone := [], waits := [], gen := 0, pending := none, past := [] })

/-- A team placed after a syn.mask of a module group brings the members that the group's rectangle and slots name among its threads: the
generation awaits them as well (R310, R359). -/
def renewNeeds (s : State) (launch : Nat) : State :=
  { s with net := { s.net with groups := s.net.groups.map (fun g =>
      if g.key.launch = launch ∧ g.key.wide = true ∧ g.masked = true then { g with need := countMembers s g.key g.rect g.mask } else g) } }

/-- The barrier words of a team's cores, over any item that falls on them: GEN 0, ARR 0 and the member slots (R359). -/
def initBarriers (s : State) (n team : Nat) (l : Launch) (gs : List Group) : State :=
  gs.foldl (fun s g => ((memberCores s { g with rect := 0xFFFFF00000#40 }).filter (fun c => c.2 / 2 ^ 23 % 2 ^ 20 == team)).foldl (fun s c =>
    match barrierLoc s g.key c.1 with
    | some loc => s.onSt (fun st => initBytes st loc (bytesLE 8 (barrierWord 0 0 (slotsOf (fun i => s.isMember g (c.2 + i.val))))))
    | none => s) s) s

/-- The control registers of a thread at placement (R340). -/
def launchCr (s : State) (n team c : Nat) (l : Launch) (i : Fin 8) : Vector Word 25 :=
  let quant := if field l.words[6] 31 0 = 0 then 65536 else field l.words[6] 31 0
  let m := crMask crPsave true
  let t0 : Thread := { Thread.reset with cr := Vector.replicate 25 0#64 }
  let t1 := [
    (crStatus, BitVec.ofNat 64 (6 + s.core.x.toNat * 2 ^ 20 + s.core.y.toNat * 2 ^ 30)),
    (crTid, BitVec.ofNat 64 (team * 2 ^ 40 + c * 2 ^ 20 + i.val)),
    (crFeat, l.words[5]), (crTens, l.words[4]),
    (crShape, BitVec.ofNat 64 (field (l.shape &&& crMask crShape true) 47 0 + min (field l.shape 60 48) 4096 * 2 ^ 48)),
    (crCtx, BitVec.ofNat 64 (field l.ctx 51 12 * 4096 + l.cid.val)), (crKvec, l.kvec &&& crMask crKvec true),
    (crQuant, BitVec.ofNat 64 quant), (crQleft, BitVec.ofNat 64 quant),
    (crFmt, Thread.reset.cr[crFmt]), (crScale, Thread.reset.cr[crScale]),
    (crPsave, Config.psave n team c i.val &&& m)].foldl (fun (t : Thread) (p : Fin 25 × Word) => t.setCr p.1 p.2) t0
  t1.cr

/-- A thread at placement: task k of its list stands at ENTRY, or it has none and ends (R314, R341). -/
def launchThread (s : State) (n team c : Nat) (l : Launch) (i : Fin 8) : Thread :=
  let t := s.slots[i]
  let k := c * l.s + i.val
  let t0 := { Thread.reset with cr := launchCr s n team c l i, rot := t.rot }
  let t1 := { t0.clean l.words[0] [l.words[3], BitVec.ofNat 64 k, BitVec.ofNat 64 l.nt] with
    task := k, ntask := l.nt, stride := l.w * l.h * l.s, areaUse := some t0.psave }
  if l.s ≤ i.val then { Thread.reset with rot := t.rot }
  else if l.nt ≤ k then { t1 with mode := .ended }
  else t1

/-- The observed core at placement: every unit empty, tracks with the launch's images, tables, and the core's registers
(R117, R225, R226, R270, R340, R388, R390). A track that was retired stays so (R130). -/
def launchCore (s : State) (n team c : Nat) (l : Launch) : Core :=
  let m := Config.mbox n team c
  let tracks := s.core.tracks.zipIdx.map (fun k =>
    let t := l.cells.foldl (fun (t : Track) x => if x.1 = k.2 then t.write x.2.1 x.2.2 else t) Track.clean
    { t with marker := k.1.marker, retired := k.1.retired })
  { Core.reset with
    flaw := s.core.flaw, engFlaw := s.core.engFlaw, nrec := s.core.nrec, mx := { MxState.zero with flaw := s.core.mx.flaw }
    x := s.core.x, y := s.core.y, bar := launchBar l.words, tables := l.tables, tracks
    mboxBase := BitVec.ofNat 40 (field m 63 24), mboxSz := BitVec.ofNat 4 (field m 23 20), stopped := s.core.stopped, freezing := s.core.freezing }

/-- Threads of a team with no task have ended before they issue (R314). -/
def idleThreads (n team : Nat) (l : Launch) : List Nat :=
  (List.range (l.w * l.h)).flatMap (fun c => ((List.range l.s).filter (fun i => decide (l.nt ≤ c * l.s + i))).map (fun i =>
    threadNum (n + 1) team c i))

/-- Translations of some clusters are emptied (R74). -/
def forgetWalks (st : Store) (ks : List Nat) : Store :=
  { st with
    tlb2 := st.tlb2.filter (fun e => !ks.contains e.cluster)
    walkc := st.walkc.filter (fun e => !ks.contains e.cluster) }

/-- Places a team on the observed core (R340). -/
def placeHere (s : State) (n team x y : Nat) (l : Launch) : State :=
  let c := (s.core.y.toNat - y) * l.w + (s.core.x.toNat - x)
  dropWaiting (gone := fun r => r.slot.isSome) { s with
    slots := Vector.ofFn (launchThread s n team c l)
    core := launchCore s n team c l
    fw := { s.fw with resident := some (n, team, x, y), chosen := false }
    st := { s.st with monitors := s.st.monitors.filter (fun m => m.core != s.coreId) } }

/-- Firmware puts a team on a rectangle: the banks of its cores, and of the cores of its clusters that no other team of the launch
touches, are initialised, the groups of the launch and of the team begin, threads with no task end, the observed core is set up
where the rectangle holds it, and the barrier words are written (R138, R314, R338 to R340, R357, R359). -/
def execPlacement (launch team x y : Nat) (s : State) : Out :=
  match s.fw.launches[launch]? with
  | none => .next s
  | some l =>
    let here := inRect s x y l.w l.h
    if serving s = false ∨ l.st ≠ 0#8 ∨ l.teams ≤ team ∨ (s.corners launch).any (fun p => p.1 == team) = true ∨ placeable s launch l l.words[5] x y = false ∨
        (here = true ∧ s.fw.resident.isSome = true) then .next s
    else
      let touched := rectClusters x y l.w l.h
      let ks := touched.filter (fun k => !l.placed.any (fun p => (rectClusters (coreX p.2) (coreY p.2) l.w l.h).contains k))
      let cores (c : Nat) : Bool := coreIn (coreNum x y) l.w l.h c || ks.contains (clusterOf c)
      let s1 := s.onSt (fun st => forgetWalks (initItems (clearBanks st cores) touched cores l.items) ks)
      let l1 := { l with placed := l.placed ++ [(team, coreNum x y)] }
      let lim := field (launchBar l.words) 22 14
      let begun := s.net.groups.any (fun g => g.key.launch == launch + 1 && g.key.wide)
      let gs := (if begun then [] else moduleGroups launch l lim) ++ dieGroups launch team l x y lim
      let s2 := { s1 with
        fw := { s1.fw with launches := s1.fw.launches.set launch l1 }
        net := { s1.net with groups := s1.net.groups ++ gs } }
      let s2 := renewNeeds s2 (launch + 1)
      let s3 := (idleThreads launch team l).foldl leaveThread s2
      let s4 := if here then placeHere s3 launch team x y l1 else s3
      .next (initBarriers s4 launch team l1 (s4.net.groups.filter (fun g => g.key.launch == launch + 1 && (g.key.wide || g.key.team == team))))

-- ## The end of a launch (R336, R349)

/-- Every thread of a team on the observed core has ended, or waits in tsk.park with nothing to dispatch (R349). -/
def finishedOn (slots : Vector Thread 8) (c : Core) : Bool :=
  slots.all (fun t => match t.mode with
    | .absent | .ended | .killed => true
    | .dispatch => t.idle && c.ready.isEmpty && c.cards.isEmpty
    | _ => false)

/-- Its commands and counted requests are at an end (R336). -/
def quietOn (slots : Vector Thread 8) (c : Core) : Bool :=
  slots.all (fun t => t.psq.isEmpty && t.counted.isEmpty && t.seqr.run.isNone) && c.copies.isEmpty && c.mx.queue.isEmpty &&
  c.retires.isEmpty && c.streams.all (fun x => x.out.isEmpty) && c.tracks.all (fun k => k.queue.isEmpty && !k.clearing)

def coreFinished (s : State) : Bool := finishedOn s.slots s.core

/-- Every command of the observed core has ended, every write has been performed and acknowledged, and every queue and path is
empty (R299, R336). -/
def coreSettled (s : State) : Bool :=
  quietOn s.slots s.core && ((s.st.paths ++ s.st.queue ++ s.st.bankq.map (·.req)).filter (fun r => r.away.isNone)).isEmpty && !s.st.acks.any (fun a => a.slot.isSome)

/-- Every team of a launch has been placed, and every one swapped out has finished. (DESIGN CHOICE, log 59.) -/
def teamsDone (s : State) (n : Nat) (l : Launch) : Bool :=
  decide (l.teams ≤ (s.corners n).length) && s.images.all (fun i => i.launch.1 != n || (finishedOn i.slots i.core && quietOn i.slots i.core))

/-- The fold of one region: REG, its words in order (R115); a poisoned word counts as its stored bytes, and one that no longer translates as
0. (DESIGN CHOICE, log 99.) -/
def foldRegion (s : State) (w : Walker) (reg va : Nat) (k sum : Nat) : Nat → Nat
  | 0 => sum
  | n + 1 =>
    let word := match fwPlace s w false false (va + 8 * k) with | some (loc, _) => read64 s.st loc | none => 0
    foldRegion s w reg va (k + 1) ((sum + sha256 (digestBytes reg 0 k word)) % 2 ^ 256) n

/-- The digest of a launch over the final values of its regions (R115, R299). -/
def launchDigest (s : State) (l : Launch) : Nat :=
  l.regions.zipIdx.foldl (fun sum r => foldRegion s (fwWalker l.cid l.ctx) r.2 r.1.1 0 sum (r.1.2 / 8)) 0

/-- The regions of a launch are read for its digest: their codes are checked (R84, R115). -/
def digestReads (s : State) (l : Launch) : State := fwTouchAll s (fwWalker l.cid l.ctx) l.regions

/-- Takes the launch's team off the observed core, whose slots and units are empty from then on; a track that is being cleared is
cleared, or retired (R74, R130); a poisoned track that its team still owns is left clean, without the clearing and the home search that
follow a trk.free. (DESIGN CHOICE, log 108.) -/
def vacate (s0 : State) : State :=
  let s := (List.finRange 32).foldl (fun s n => if (s.track n).clearing then trackClear n true s else s) s0
  dropWaiting (gone := fun r => r.slot.isSome) { s with
    slots := s.slots.map (fun t => { Thread.reset with rot := t.rot, lost := t.lost })
    core := { Core.reset with
      x := s.core.x, y := s.core.y, hist := s.core.hist, realigned := s.core.realigned, filter := s.core.filter
      tracks := s.core.tracks.map (fun k => { Track.clean with marker := k.marker, retired := k.retired })
      flaw := s.core.flaw, engFlaw := s.core.engFlaw, nrec := s.core.nrec, mx := { MxState.zero with flaw := s.core.mx.flaw }
      stopped := s.core.stopped, freezing := s.core.freezing }
    fw := { s.fw with resident := none, chosen := false }
    st := { s.st with
      tlb2 := [], walkc := [], tlbis := []
      monitors := s.st.monitors.filter (fun m => m.core != s.coreId) } }

/-- A launch has ended: its teams leave their cores, the source numbers of its threads name nobody any more (R294), and its groups go,
with every reservation that is bound to a generation of theirs (R98, R100). -/
def endLaunch (s : State) (n : Nat) (st : Byte) : State :=
  match s.fw.launches[n]? with
  | none => s
  | some l =>
    let here := match s.fw.resident with | some r => r.1 == n | none => false
    let raise (src : Nat) : Nat := if launchMine s n l src then src + exileUnit * (s.nextId + 1) else src
    let bound (g : GroupKey) : Bool := g.launch == n + 1
    let asks (r : Req) : Bool := match r.kind with | .lrw g _ _ => bound g | _ => false
    let ended (r : Req) : Bool := r.slot.isNone && launchMine s n l r.src
    let s0 := (dropWaiting (if here then vacate s else s) ended).bump.onSt (fun st => { st with
      paths := st.paths.filter (fun r => !(r.away.any (fun a => a.1 == n) || asks r))
      queue := st.queue.filter (fun r => !asks r)
      bankq := st.bankq.filter (fun b => !asks b.req)
      resvWait := st.resvWait.filter (fun r => !asks r)
      resvs := st.resvs.filter (fun e => !bound e.grp) })
    let s1 := mapRels raise (Release.mapSrc raise) (resvRetry s0 s0.st.resvWait.length)
    { s1 with
      fw := { s1.fw with launches := s1.fw.launches.set n { l with placed := [], st } }
      images := s1.images.filter (fun i => i.launch.1 != n)
      net := { s1.net with
        groups := s1.net.groups.filter (fun g => g.key.launch != n + 1)
        gone := s1.net.gone.filter (fun g => g / 2 ^ 43 != n + 1) } }

/-- A launch completes: threads that still wait in tsk.park retire every iteration, the digest is folded, and the record
is written (R166, R336, R349). -/
def execLaunchCompletion (launch : Nat) (s : State) : Out :=
  match s.fw.launches[launch]? with
  | none => .next s
  | some l =>
    let here := match s.fw.resident with | some r => r.1 == launch | none => false
    if l.st ≠ 0#8 ∨ teamsDone s launch l = false ∨ (here = true ∧ (coreFinished s && coreSettled s) = false) then .next s
    else
      let s1 := if here then (List.finRange 8).foldl (fun s i => if s.slots[i].mode = .dispatch then leaveAll s i else s) s else s
      let s2 := digestReads s1 l
      let s2 := writeRecord s2 l.cid l.ctx l.words[8] (some (launchDigest s2 l)) (l.flt.toNat * 2 ^ 16 + 1) (fun s d => launchRel s launch l d)
      .next (endLaunch s2 launch 1)

-- ## Quantum and swap (R343 to R345)

/-- LEFT stands at 0 under a quantum: the expiry is pending (R343). -/
def execQuantumExpiry (slot : Fin 8) (s : State) : Out :=
  let t := s.slots[slot]
  match t.mode with
  | .absent | .ended | .killed => .next s
  | _ =>
    if field t.cr[crQuant] 31 0 = 0 ∨ field t.cr[crQleft] 31 0 ≠ 0 ∨ t.expiry.isSome = true then .next s
    else .next (s.onSlot slot (fun t => { t with expiry := some false }))

/-- Where a thread of a chosen team stops: parked, held or waiting at once; at user level where its expiry is due; one that has
been at supervisor level since, when it parks or is back at user level (R344). -/
def Thread.mayStop (t : Thread) : Bool :=
  match t.mode with
  | .run => t.held.isSome || t.miss.isSome || (!t.sup && (t.stop == .sup || t.event? == some .expiry))
  | .entering _ | .userEntering | .dying => false
  | _ => true

/-- The thread stops; firmware takes an expiry that is due in place of cr.kvec (R343, R344). -/
def Thread.stopHere (t : Thread) : Thread :=
  let t1 := if t.mode = .run ∧ t.held = none ∧ t.miss = none ∧ t.event? = some .expiry then
      { t.setCr crQleft (BitVec.ofNat 64 (field t.cr[crQuant] 31 0)) with expiry := none }
    else t
  { t1 with stop := .yes, held := none, miss := none }

/-- Requests that wait for nothing that the swap would still bring: a posted-store queue of which nothing may depart (R299). -/
def psqSettled (s : State) (i : Fin 8) : Bool :=
  let t := s.slots[i]
  !t.psq.zipIdx.any (fun r => mayDepart s t r.2 r.1)

/-- What must be complete before the swap: queued track commands, every issued give with its acknowledgement, matrix commands that can go on, sent
shootdowns, and every write, with queues and paths empty but for messages (R133, R178, R292, R299, R324). -/
def swapSettled (s : State) : Bool :=
  s.core.gives.isEmpty && s.st.tlbis.all (fun e => !e.sent) &&
  s.core.tracks.all (fun k => !k.clearing && k.queue.all (fun q => match q with | .copy _ => true | _ => false)) &&
  (match s.core.mx.queue with
    | [] => true
    | c :: _ => if s.core.mx.hand.isSome then s.core.mx.next.full else !mxLatched s c) &&
  s.core.streams.all (fun x => x.out.isEmpty) && (List.finRange 8).all (psqSettled s) &&
  s.st.paths.all (fun r => match r.kind with | .msg _ _ _ _ _ => true | _ => false) && s.st.queue.isEmpty && s.st.bankq.isEmpty &&
  !s.st.acks.any (fun a => a.slot.isSome)

/-- The copy engine saves a track with SWP = 1: R129 before each position, whose DATA is what the port reads; a save that loses
alignment poisons the track, with the positions it reached (R114, R133). An uncorrectable cell ends no save: its word of the
image carries the error, as DATA with a code of two errors. (DESIGN CHOICE, log 84.) `got` is what has been read. -/
def saveFrom (s : State) (n : Fin 32) (h : Nat) (got : List (Nat × Quad)) (bad : List (Nat × Bool)) : Nat → State
  | 0 => s.setTrack n { s.track n with cells := got, bad, slip := 0 }
  | m + 1 =>
    let k := s.track n
    let s1 := portAccess s n h (fun s t => (readCell s n t h).2.2)
    let k1 := s1.track n
    if k1.poisoned then s1.setTrack n { k1 with cells := got, bad, slip := 0 }
    else
      let a := (h + k1.slip).toNat
      let d := (readCell s n k1 h).1
      saveFrom s1 n (h + 1) (if d = 0#128 then got else got ++ [(h, d)]) (if k.bad.contains (a, true) then bad ++ [(h, true)] else bad) m

/-- A save shifts the track from where it stands to position 0 and on to the last; a restore from there back to H (R128). -/
def saveShift (k : Track) : Nat := Int.natAbs k.phys + 511
def restoreShift (k : Track) : Nat := 511 + (511 - k.h)

def saveTrack (s0 : State) (n : Fin 32) : State :=
  let s := countRealigned s0 (saveShift (s0.track n))
  let k := s.track n
  if k.poisoned || (k.slip == 0 && k.bad.isEmpty) then s else saveFrom s n 0 [] [] 512

/-- A copy's stop record: its control word, operands, status with ST 0 and DONE, and in one word its area with low bits
of its sequence number beside it (R108, R112). (DEDUCED, log 60.) -/
def stopRecord (c : Copy) : List Byte :=
  bytesLE 8 c.ctl.toNat ++ c.xs.toList.flatMap (fun x => bytesLE 8 x.toNat) ++
  bytesLE 8 (copyStatus c.done (ctlTag c.ctl) 0 0).toNat ++ bytesLE 8 (c.seq % 2 ^ 10 + (c.area.getD 0#64).toNat / 1024 * 1024 + c.seq / 2 ^ 10 % 2 ^ 16 * 2 ^ 48)

/-- A load pattern's entries fetched ahead are discarded, and it reads again from its next unpopped element (R199). -/
def Stream.rewind (st : Stream) : Stream :=
  match st.bind with
  | some (.pattern o u false wide base c d _ popped ctx) => { st with q := [], bind := some (.pattern o u false wide base c d popped popped ctx) }
  | _ => st

/-- A reservation request of the observed core's team stays in its table while the team is out, and a message that has departed and not
been placed at the core's interface (R100, R324). -/
def Req.leave (a : Nat × Nat) (r : Req) : Req :=
  match r.slot with
  | some i => { r with slot := none, away := some (a.1, a.2, i) }
  | none => r

def Resv.onReqs (e : Resv) (f : Req → Req) : Resv := { e with waiters := e.waiters.map (fun w => (w.1, f w.2)) }

/-- The image of the team on the observed core, from the state in which its tracks have been saved (R344). (DEDUCED, log 60.) -/
def takeImage (s : State) (r : Nat × Nat × Nat × Nat) (l : Launch) (exile : Nat) : Image :=
  let corner := coreNum r.2.2.1 r.2.2.2
  let hit (loc : Nat) : Bool := isBank loc && teamBank l r.2.1 corner (bankCore loc)
  let mine (q : Req) : Bool := q.slot.isSome || threadOn (coreIn corner l.w l.h) l.cid.val 0 q.src || hit q.loc
  { slots := s.slots.map (fun t => { t with stop := .no })
    core := { s.core with
      streams := s.core.streams.map Stream.rewind, tlb1 := [], l1 := [], l1bad := [], icache := [], shapes := [] }
    bank := s.st.mem.filter (fun c => hit c.1)
    full := s.st.full.filter (fun w => hit (8 * w))
    marks := s.st.marks.filter (fun m => hit (8 * m.1))
    ecc := s.st.ecc.filter (fun e => hit (8 * e.1))
    hist := s.st.hist.filter (fun w => hit w.loc)
    resvs := s.st.resvs.filter (fun e => hit e.loc)
    resvWait := s.st.resvWait.filter (fun r => hit r.loc)
    tlbis := s.st.tlbis
    exile
    launch := r
    reqs := s.st.waiting.filter mine
    stops := s.core.copies.map stopRecord
    settled := []
    waits := s.net.groups.flatMap (fun g => g.waits.map (fun w => (g.key, w.1, w.2.1, w.2.2)))
    barriers := [] }

/-- Firmware reads the banks that it saves: each word's code is checked (R139, R344). -/
def saveBanks (gone : Nat → Bool) (s : State) : State := ((s.st.ecc.map (·.1)).filter (fun w => gone (8 * w))).foldl scrubWord s

/-- Firmware swaps the observed core's team out: it chooses the team, and once every thread has stopped and the units' work is
settled or recorded, it takes the image and the cores are free (R344). (DEDUCED, log 60.) -/
def execTeamSwapOut (s0 : State) : Out :=
  match s0.fw.resident with
  | none => .next s0
  | some r =>
    match s0.fw.launches[r.1]? with
    | none => .next s0
    | some l =>
      if s0.fw.chosen = false then .next { s0 with fw := { s0.fw with chosen := true } }
      else if s0.core.freezing = true ∨ s0.slots.all (fun t => t.stop == .yes && t.flight.isEmpty) = false ∨ swapSettled s0 = false then .next s0
      else
        let corner := coreNum r.2.2.1 r.2.2.2
        let exile := exileUnit * (s0.nextId + 1)
        let raise (src : Nat) : Nat := if threadOn (coreIn corner l.w l.h) l.cid.val 0 src then src + exile else src
        let woken := (List.finRange 8).foldl (fun s i => wakeSlot s i 3) s0
        let gone (loc : Nat) : Bool := isBank loc && teamBank l r.2.1 corner (bankCore loc)
        let s := saveBanks gone ((List.finRange 32).foldl saveTrack woken).bump
        let img := takeImage s r l exile
        let away : Req → Req := Req.leave (r.1, r.2.1)
        let s1 := (dropWaiting (s.core.interests.foldl dropInterest s) img.reqs.contains).onSt (fun st => { st with
          hist := st.hist.filter (fun w => !gone w.loc)
          resvs := (st.resvs.filter (fun e => !gone e.loc)).map (fun e => e.onReqs away)
          resvWait := (st.resvWait.filter (fun r => !gone r.loc)).map away
          paths := st.paths.map away
          monitors := st.monitors.filter (fun m => !coreIn corner l.w l.h m.core) })
        let s2 := vacate s1
        .next <| mapRels raise (Release.mapSrc raise) { s2 with
          images := s2.images ++ [img]
          net := { s2.net with groups := s2.net.groups.map (fun g => { g with waits := [] }) }
          fw := { s2.fw with launches := s2.fw.launches.zipIdx.map (fun l =>
            if l.2 = r.1 then { l.1 with placed := l.1.placed.filter (fun p => p.1 != r.2.1) } else l.1) } }

/-- How a team moves from its old corner to a new one, and where its placement put it (R344): a core of its rectangle, a place of its
banks, and the source number of a thread. -/
structure Move where
  from_ : Nat
  to_ : Nat
  home : Nat
  w : Nat
  h : Nat
  cid : Nat
  deriving DecidableEq, Repr

def Move.inside (m : Move) (c : Nat) : Bool := coreIn m.from_ m.w m.h c
def Move.core (m : Move) (c : Nat) : Nat := shiftCore m.from_ m.to_ c
def Move.near (m : Move) (k : Nat) : Bool := (rectClusters (coreX m.from_) (coreY m.from_) m.w m.h).contains k
/-- A bank of the team's cores goes with them; the others of the clusters in which it was placed stand there while the team does, else
apart (R54, R344). -/
def Move.bank (m : Move) (c : Nat) : Nat :=
  if m.inside c then m.core c
  else
    let own : Option Nat :=
      if m.from_ = m.home then (if m.near (clusterOf c) && decide (c < 2 ^ 20) then some c else none)
      else if 2 ^ 20 ≤ c then some (c - 2 ^ 20) else none
    (own.map (fun b => if m.to_ = m.home then b else apartBank b)).getD c
def Move.loc (m : Move) (loc : Nat) : Nat :=
  if isBank loc then bankLoc (m.bank (bankCore loc)) ((loc - bankBase) % 0x4000) else loc
def Move.src (m : Move) (src : Nat) : Nat :=
  if threadOn m.inside m.cid 0 src then m.core (src / 512) * 512 + src % 512 else src
def Move.floor (m : Move) (f : List (Nat × Nat)) : List (Nat × Nat) := f.map (fun x => (m.loc x.1, x.2))
def Move.rel (m : Move) (r : Release) : Release := { r with rel := m.floor r.rel }
/-- The source number of a thread of the team, which was raised by `exile` while the team was out, on its new core. -/
def Move.back (m : Move) (exile src : Nat) : Nat := if threadOn m.inside m.cid exile src then m.src (src - exile) else src

/-- A request on its thread's new core, to the word that it named before. -/
def Move.req (m : Move) (r : Req) : Req :=
  { r with
    src := m.src r.src, loc := m.loc r.loc, known := m.floor r.known, rel := r.rel.map m.rel
    kind := match r.kind with
      | .give nm t b => .give nm { t with rel := m.floor t.rel } { b with core := m.core b.core }
      | k => k }

/-- A thread on its new core: PX and PY, its source number, and the places of its own cluster. -/
def Move.thread (m : Move) (core : Nat) (t : Thread) : Thread :=
  let st := (t.cr[crStatus] &&& 0xFFFFF#64) ||| BitVec.ofNat 64 (coreX core * 2 ^ 20 + coreY core * 2 ^ 30)
  match t.mode with
  | .absent => { t with lost := Vector.replicate 4 0#48 }
  | _ =>
    { t.setCr crStatus st with
      floor := m.floor t.floor, relReads := t.relReads.map m.rel, psq := t.psq.map m.req, lost := Vector.replicate 4 0#48
      owed := t.owed.map (fun o => { o with rels := o.rels.map m.rel })
      resv := t.resv.map (fun r => { r with loc := m.loc r.loc }) }

/-- A track on its new core: every position of its image rewritten, its head at the recorded H, with the marker and the
retirement of the track there; one that was poisoned gives its owner kind 2 (R130, R133). A claim restored onto a track that is
retired there is restored poisoned. (DESIGN CHOICE, log 84.) -/
def Track.restore (k : Track) (hw : Bool × Bool) : Track :=
  { k with marker := hw.1, retired := hw.2, poisoned := k.poisoned || hw.2, lost := false, phys := k.h, slip := 0 }

/-- A copy as its stop record gives it (R112). The record has no place for the partial sum of a digest copy: it goes on from the one that
the image keeps beside the record. (DESIGN CHOICE, log 109.) -/
def Copy.resume (c : Copy) (b : List Byte) : Copy :=
  { c with
    ctl := BitVec.ofNat 64 (natLE (b.take 8)), xs := Vector.ofFn (fun (i : Fin 4) => BitVec.ofNat 64 (natLE ((b.drop (8 + 8 * i.val)).take 8)))
    done := natLE ((b.drop 43).take 5) }

/-- The marker and the retirement of each track of a core: of the observed core, of one that the observed team has left, or of another,
whose spare tracks the repair records map out (R116, R130, R405). -/
def trackHw (s : State) (core : Nat) : List (Bool × Bool) :=
  if core = s.coreId then s.core.tracks.toList.map (fun k => (k.marker, k.retired))
  else
    match s.fw.trackHw.find? (fun e => e.1 == core) with
    | some e => e.2
    | none => (List.range 32).map (fun n => (true, s.fw.spareTracks.contains (core, n)))

/-- The observed core as a restored team finds it, with the tracks' hardware that stands there. -/
def restoreCore (m : Move) (img : Image) (c : Core) (hw : List (Bool × Bool)) (new : Nat) : Core :=
  { img.core with
    x := BitVec.ofNat 10 (coreX new), y := BitVec.ofNat 10 (coreY new), interests := [], nrec := max c.nrec img.core.nrec
    tracks := Vector.ofFn (fun i => img.core.tracks[i].restore (hw.getD i.val (true, false)))
    copies := (img.core.copies.zip img.stops).map (fun k => let k1 := k.1.resume k.2; { k1 with floor := m.floor k1.floor, rel := m.floor k1.rel })
    mail := img.core.mail.map (fun x => { x with rel := x.rel.map m.rel })
    spill := img.core.spill.map (fun x => (x.1, { x.2 with rel := x.2.rel.map m.rel }))
    mx := { img.core.mx with flaw := c.mx.flaw, queue := img.core.mx.queue.map (fun k => { k with known := m.floor k.known, rel := m.floor k.rel }) }
    flaw := c.flaw, engFlaw := c.engFlaw, hist := Vector.replicate 9 0#48
    realigned := BitVec.ofNat 48 (img.core.tracks.foldl (fun n k => n + restoreShift k) 0), issuedNow := c.issuedNow, stopped := c.stopped, freezing := c.freezing }

/-- Memory with the banks of an image at their new places: those which go with the team there (R138, R344). -/
def restoreStore (m : Move) (img : Image) (l : Launch) (st : Store) : Store :=
  let hit (loc : Nat) : Bool := isBank loc && teamBank l img.launch.2.1 m.to_ (bankCore loc)
  let here (r : Req) : Req :=
    match r.away with
    | some a => if a.1 = img.launch.1 ∧ a.2.1 = img.launch.2.1 then m.req { r with slot := some a.2.2, away := none } else r
    | none => r
  { forgetWalks st (rectClusters (coreX m.to_) (coreY m.to_) m.w m.h) with
    mem := (img.bank.filter (fun c => hit (m.loc c.1))).foldl (fun x c => Mem.put x (m.loc c.1) c.2) (st.mem.filter (fun c => !hit c.1))
    full := ((img.full.map (fun w => m.loc (8 * w) / 8)).filter (fun w => hit (8 * w))).foldl setIns (st.full.filter (fun w => !hit (8 * w)))
    marks := (img.marks.map (fun x => (m.loc (8 * x.1) / 8, x.2))).filter (fun x => hit (8 * x.1)) ++ st.marks.filter (fun x => !hit (8 * x.1))
    ecc := (img.ecc.map (fun x => (m.loc (8 * x.1) / 8, x.2))).filter (fun x => hit (8 * x.1)) ++ st.ecc.filter (fun x => !hit (8 * x.1))
    hist := (img.hist.map (fun w => { w with loc := m.loc w.loc })).filter (fun w => hit w.loc) ++ st.hist.filter (fun w => !hit w.loc)
    resvs := (img.resvs.map (fun e => { e.onReqs m.req with loc := m.loc e.loc })).filter (fun e => hit e.loc) ++ st.resvs.map (fun e => e.onReqs here)
    resvWait := st.resvWait.map here ++ img.resvWait.map m.req
    paths := st.paths.map here
    tlbis := st.tlbis ++ img.tlbis }

/-- What a recorded request does on restore: it is entered again at its ordering point (R145). -/
def reenter (s : State) (r : Req) : State := performReq s r

/-- What became of a reservation request while its team was out reaches its thread (R98, R100). -/
def resettle (m : Move) (s : State) (x : Settled) : State :=
  let r := m.req { x.req with slot := some x.slot, away := none }
  if x.kind ≠ 0 then refuseLrw s r x.kind
  else
    (resvSettle s x.slot r true).onSlot x.slot (fun t =>
      { t.fill r.tag x.val.toList none with
        floor := floorAdd t.floor x.gain, relReads := momentRels s.st.hist x.gain ++ t.relReads })

/-- A recorded wait of a group: delivered where its generation has closed meanwhile (R309). -/
def rewait (s : State) (w : GroupKey × Fin 8 × Nat × Nat) : State :=
  match groupOf s w.1 with
  | none => s
  | some g =>
    if w.2.2.2 < g.gen then deliverWait s g w.2.1 w.2.2.1 w.2.2.2
    else putGroup s { g with waits := g.waits ++ [(w.2.1, w.2.2.1, w.2.2.2)] }

/-- An interest is issued again with its record (R178). -/
def reinterest (s : State) (i : Interest) : State :=
  pushPacket (s.onCore (fun c => { c with interests := c.interests ++ [i] })) (clusterOf s.coreId) (.interest i.nm (.waiter s.coreId i.dest i.num))

/-- The barrier writes that were recorded while a team was out are performed where its cores stand now (R360). -/
def rewriteBarriers (s : State) (img : Image) (l : Launch) (x y : Nat) : State :=
  img.barriers.foldl (fun s b =>
    match barrierLoc s b.1 (coreNum (x + b.2.1 % l.w) (y + b.2.1 / l.w)) with
    | some loc => netWrite s loc b.2.2
    | none => s) s

/-- The features that the dies of a restored team must hold: after a request for migration the union of its threads',
where some die holds it (R380). -/
def restoreUnion (img : Image) (l : Launch) : Word :=
  img.slots.foldl (fun (u : Word) t => match t.mode with | .migrate m => u ||| m | _ => u) l.words[5]
def restoreWant (s : State) (img : Image) (l : Launch) : Word :=
  if (dieFor s (restoreUnion img l)).isSome then restoreUnion img l else l.words[5]

/-- A team may be restored on any rectangle that placement allows (R339, R344). (DEDUCED, log 60.) -/
def restorable (s : State) (img : Image) (l : Launch) (x y : Nat) : Bool :=
  s.fw.resident.isNone && placeable s img.launch.1 l (restoreWant s img l) x y

/-- The first image's team restored with its corner at (x, y): its banks, its core and its threads, and the recorded work again before
they issue (R344). -/
def restoreTeam (x y : Nat) (l : Launch) (m : Move) (s : State) : Out :=
  match s.images with
  | [] => .next s
  | img :: others =>
        let new := m.core (coreNum img.core.x.toNat img.core.y.toNat)
        let union := restoreUnion img l
        let slots := img.slots.map (fun t =>
          let t1 := m.thread new t
          match t1.mode with
          | .migrate w => (t1.setCr crFeat (if (dieFor s union).isSome then w else t1.cr[crFeat])).unpark
          | _ => t1)
        let team := img.launch.2.1
        let l1 := { l with
          placed := l.placed ++ [(team, m.to_)]
          homes := (team, m.home) :: l.homes.filter (fun p => p.1 != team) }
        let s1 : State := State.reclock { s with
          slots, core := restoreCore m img s.core (trackHw s new) new, images := others
          fw := { s.fw with
            launches := s.fw.launches.set img.launch.1 l1
            resident := some (img.launch.1, team, x, y), chosen := false
            trackHw := (s.coreId, trackHw s s.coreId) :: s.fw.trackHw.filter (fun e => e.1 != s.coreId) }
          st := restoreStore m img l1 s.st } s
        let s2 := img.settled.foldl (resettle m) (rewriteBarriers s1 img l x y)
        let s2 := resvRetry s2 s2.st.resvWait.length
        let s3 := (img.reqs.map m.req).foldl reenter s2
        .next (img.core.interests.foldl reinterest (img.waits.foldl rewait s3))

/-- Firmware restores the team that has been out the longest with its corner at (x, y), its threads' source numbers those of their
cores again; after a request for migration, on dies that hold the union (R344, R380). (DEDUCED, log 60.) -/
def execTeamRestore (x y : Nat) (s : State) : Out :=
  match s.images with
  | [] => .next s
  | img :: _ =>
    match s.fw.launches[img.launch.1]? with
    | none => .next s
    | some l =>
      if s.core.freezing = true ∨ restorable s img l x y = false then .next s
      else
        let corner := coreNum img.launch.2.2.1 img.launch.2.2.2
        let m : Move := { from_ := corner, to_ := coreNum x y, home := l.homeCorner img.launch.2.1 corner, w := l.w, h := l.h, cid := l.cid.val }
        let back := m.back img.exile
        restoreTeam x y l m (mapRels back (Release.mapSrc back) s)

end Sys2Proof.Machine
end

