-- ==== Sys2Proof/Machine/Ras.lean ====
section
/-! DEFINITION. Reliability and debug steps: gleaning (R386), cross-triggers (R387), the watchpoint filter (R388), trace epochs (R392), the driver's clearing of machine-check banks (R382), and boost (R403, R404). -/

namespace Sys2Proof.Machine

-- ## Gleaning (R386)

/-- The free contents of `n` words of a bank from draw `k` on: each word's bytes and its full bit. -/
def gleanWords (st : Store) (loc k : Nat) : Nat → Store
  | 0 => st
  | n + 1 =>
    let v := Config.freeQuad k
    gleanWords { st with
      mem := Mem.write st.mem loc (bytesLE 8 (low64 v).toNat)
      full := if v.getLsbD 64 then setIns st.full (loc / 8) else setDel st.full (loc / 8) } (loc + 8) (k + 1) n

/-- A cluster's eight banks hold free contents. -/
def gleanBanks (st : Store) (k : Nat) (ctr : Nat) : Store :=
  (List.range 8).foldl (fun st b => gleanWords st (bankLoc (clusterCore k b) 0) (ctr + 2048 * b) 2048) (clearBanks st (fun c => clusterOf c == k))

/-- A track's cells hold free contents. -/
def Track.glean (t : Track) (ctr : Nat) : Track :=
  if t.retired then t else { t with cells := (List.range 512).map (fun i => (i, Config.freeQuad (ctr + i))), bad := [] }

/-- What fails for good: a track, a bank, the matrix unit, or a core's datapath, with its bank and SRC (R386). -/
def fatalSrc (part : Fin 4) : Fin 4 × Nat :=
  match part with
  | 0 => (1, 0x13)
  | 1 => (0, 0x04)
  | 2 => (2, 0x21)
  | 3 => (0, 0x02)

/-- The fatal event of a part of a cluster, with the core concerned and the place (R382, R384, R386). MCSY holds the check bits and
syndrome, or an operation number in its low byte: free values, since the self-test names no operation. (DESIGN CHOICE, log 49.) -/
def fatalEvent (cluster : Nat) (part : Fin 4) (core : Nat) (ad : Word) : McEvent :=
  { cluster, bank := (fatalSrc part).1, cls := 3, src := (fatalSrc part).2, core, cause := 0, ad, th := 0
    sy := if 2 ≤ part.val then Config.syndrome ad.toNat &&& 0xFF#64 else Config.syndrome ad.toNat }

/-- Placement no longer uses a cluster (R384). -/
def State.retireCluster (s : State) (k : Nat) : State := { s with fw := { s.fw with retired := setIns s.fw.retired k } }

/-- Whether a cluster holds no team. -/
def idleCluster (s : State) (k : Nat) : Bool :=
  s.fw.launches.all (fun l => l.placed.all (fun p => !(rectClusters (coreX p.2) (coreY p.2) l.w l.h).contains k))

/-- The self-test of a cluster leaves its banks, its crib and, of the observed core, the tracks with free contents (R386). -/
def gleanCluster (s : State) (cluster : Nat) : State :=
  let c := s.freeCtr
  { s with
    st := gleanBanks s.st cluster c
    net := { s.net with routers := s.net.routers.map (fun r => if r.cluster = cluster then { r with crib := [], flaws := [] } else r) }
    core := if clusterOf s.coreId = cluster then
        { s.core with tracks := s.core.tracks.zipIdx.map (fun k => k.1.glean (c + 16384 + 512 * k.2)) }
      else s.core
    freeCtr := c + 32768 }

/-- A part of a cluster fails its self-test: the event is fatal and the cluster is retired (R384, R386). -/
def gleanFail (s : State) (cluster : Nat) (part : Fin 4) (core : Fin 8) (ad : Word) : State :=
  (s.mcLog (fatalEvent cluster part (if part = 2 then 0xFF else core.val) ad)).retireCluster cluster

/-- The self-test of a cluster with no team (R386). (DEDUCED, log 49.) -/
def execGleaning (cluster : Nat) (failed : Option (Fin 4 × Fin 8 × Word)) (s : State) : Out :=
  if idleCluster s cluster = false ∨ 131072 ≤ cluster then .next s
  else
    match failed with
    | none => .next (gleanCluster s cluster)
    | some (part, core, ad) => .next (gleanFail (gleanCluster s cluster) cluster part core ad)

-- ## Cross-triggers, watchpoints and trace (R387, R388, R392)

/-- Traces a record in the buffer of every cluster that uses one, and in the observed cluster's. -/
def State.traceAll (s : State) (type low : Nat) (hi : Word) : State :=
  (s.dbg.bufs.filter (fun b => b.cluster != clusterOf s.coreId)).foldl (fun s b => s.traceAt b.cluster type low hi) (s.trace type low hi)

/-- A cross-trigger of the cluster, or of every cluster, stops the core's slots and freezes the copy engine (R113, R387). -/
def execCrossTriggerStop (wide : Bool) (s : State) : Out :=
  let s1 := (if wide then s.traceAll 6 1 0 else s.trace 6 1 0).onCore (fun c => { c with stopped := true, freezing := true })
  .next { s1 with dbg := { s1.dbg with wide := s1.dbg.wide || wide } }

/-- Release resumes each slot at its stopped word, and is traced where the stop was (R387, R391). -/
def execCrossTriggerRelease (s : State) : Out :=
  let s1 := (if s.dbg.wide then s.traceAll 6 0 0 else s.trace 6 0 0).onCore (fun c => { c with stopped := false, freezing := false })
  .next { s1 with dbg := { s1.dbg with wide := false } }

def execWatchpointInsert (g : BitVec 42) (s : State) : Out :=
  .next (s.onCore (fun c => { c with filter := bloomInsert c.filter g.toNat }))

def execWatchpointClear (s : State) : Out := .next (s.onCore (fun c => { c with filter := 0 }))

/-- The account of lost time as a snapshot writes it: ISS, MEM, MSG and VAC of each slot in turn, the bins, and the realignment positions
(R390, R391). -/
def lostWords (s : State) : List Nat :=
  (s.slots.toList.flatMap (fun t => t.lost.toList.map (·.toNat))) ++ s.core.hist.toList.map (·.toNat) ++ [s.core.realigned.toNat]

/-- The debug module writes words from a place on. -/
def debugWords (s : State) (loc : Nat) : List Nat → State
  | [] => s
  | w :: r => debugWords (engineWrite s srcNet loc w false [] none) (loc + 8) r

/-- A trace record's two words (R391). -/
def TraceRec.words (r : TraceRec) : List Nat := [r.delta * 2 ^ 48 + r.type * 2 ^ 40 + r.low.toNat, r.hi.toNat]

/-- The debug module writes a cluster's next trace record into its buffer in the granary, which wraps. (DESIGN CHOICE, log 25.) -/
def traceStep (s : State) (k : Nat) : State :=
  let b := s.dbg.buf k
  match b.place, b.records[b.out]? with
  | some (base, size), some r =>
    debugWords { s with dbg := s.dbg.setBuf { b with out := b.out + 1 } } (base + 16 * (b.out % size)) r.words
  | _, _ => s

/-- The same for the first cluster that has a record to write. -/
def traceWrite (s : State) : State :=
  match s.dbg.bufs.find? (fun b => b.place.isSome && decide (b.out < b.records.length)) with
  | none => s
  | some b => traceStep s b.cluster

/-- Firmware sets a cluster's buffer: the records kept for it go there, with the epoch that is first in every buffer; where it had one, that
one's last records are written, and the new one begins with an epoch record of DELTA 0 (R391, R392). (DESIGN CHOICE, log 25.) -/
def traceBuffer (s : State) (k base size : Nat) : State :=
  let b := s.dbg.buf k
  let s1 := (List.range (b.records.length - b.out)).foldl (fun s _ => traceStep s k) s
  let first := epochRec (traceRatio s k) 0 s.dbg.now
  let old := b.place.isNone && !b.records.isEmpty
  { s1 with dbg := s1.dbg.setBuf { b with
      records := if old then b.records else [first], last := if old then b.last else s.dbg.now, place := some (base, size), out := if old then b.out else 0 } }

/-- The reference counter moves on with nothing to record, and every buffer in use takes the epochs that this needs; firmware sets a
cluster's buffer in the granary; a cluster's clock stops or starts again, which is an epoch; or the debug module takes a snapshot of
the account of lost time (R391, R392). (DESIGN CHOICE, log 25.) -/
def execTraceEpochOverflow (ticks : TraceEvent) (s : State) : Out :=
  match ticks with
  | .ticks n =>
    let now := s.dbg.now + n
    .next { s with dbg := { s.dbg with now, bufs := s.dbg.bufs.map (fun b =>
        if b.records.isEmpty then b else b.catchUp now (traceRatio s b.cluster) (now - b.last)) } }
  | .buffer k base size =>
    if base % 16 ≠ 0 ∨ size = 0 ∨ (inGranary base && inGranary (base + 16 * size - 1)) = false then .next s
    else .next (traceBuffer s k base size)
  | .clock k on =>
    let off := s.dbg.off.filter (· != k)
    .next (State.reclock { s with dbg := { s.dbg with off := if on then off else k :: off } } s)
  | .snapshot block =>
    if block % 8 ≠ 0 ∨ (inGranary block && inGranary (block + 335)) = false then .next s
    else .next ((debugWords s block (lostWords s)).trace 7 (bankNo s.coreId * 2 ^ 32) (BitVec.ofNat 64 block))

/-- The driver writes MCST: VAL clears the bank, OVF and CNT clear themselves (R382). -/
def execMcstClear (cluster : Nat) (bank : Fin 4) (v : Word) (s : State) : Out :=
  let b := mcFind s.mc cluster bank
  let b1 :=
    if v.getLsbD 63 then McBank.zero cluster bank
    else
      let x := if v.getLsbD 62 then b.st &&& ~~~(1#64 <<< 62) else b.st
      { b with st := if field v 47 32 ≠ 0 then x &&& ~~~(0xFFFF#64 <<< 32) else x }
  .next { s with mc := mcPut s.mc b1 }

-- ## Boost (R403, R404)

def islandSet (s : State) (i : Nat) (x : Island) : State :=
  let r := s.host.islands.filter (fun e => e.1 != i)
  { s with host := { s.host with islands := if x = Island.reset then r else (i, x) :: r } }

/-- Permits at an interval's boundary: the island after its accounting, and whether it stops there after a fall (R404). -/
def Island.spend (x : Island) : Island × Bool :=
  if x.cur ≠ 0 then
    let y := { x with idle := 0, perm := x.perm - 1 }
    if y.perm = 0 then ({ y with cur := y.cur - 1 }, true) else (y, false)
  else if x.idle + 1 = 4 then ({ x with idle := 0, perm := min 64 (x.perm + 1) }, false)
  else ({ x with idle := x.idle + 1 }, false)

/-- The step asked for: 3 is taken as 0, and without the boost feature every island stays at step 0 (R399, R403). -/
def Island.want (x : Island) (boost : Bool) : BitVec 2 := if !boost || x.tgt = 3 then 0 else x.tgt

/-- The island after the boundary, and the step to which it asks to rise (R404). -/
def Island.next (x : Island) (boost : Bool) : Island × Option (BitVec 2) :=
  match x.spend with
  | (y, true) => (y, none)
  | (y, false) =>
    if y.trip then ({ y with cur := 0 }, none)
    else if y.want boost < y.cur then ({ y with cur := y.want boost }, none)
    else if 0 < y.perm ∧ y.cur < y.want boost then (y, some (y.want boost))
    else (y, none)

/-- Grants the rises of a die's islands in ascending order while its islands above step 0 stay within the ceiling (R404). (DEDUCED, log 50.) -/
def grantRises (ceil : Nat) : Nat → List (Nat × Island × Option (BitVec 2)) → List (Nat × Island)
  | _, [] => []
  | n, (i, x, none) :: r => (i, x) :: grantRises ceil n r
  | n, (i, x, some c) :: r =>
    if x.cur ≠ 0 then (i, { x with cur := c }) :: grantRises ceil n r
    else if n < ceil then (i, { x with cur := c }) :: grantRises ceil (n + 1) r
    else (i, x) :: grantRises ceil n r

/-- The islands of a die after a boundary. -/
def dieInterval (s : State) (d : Nat) : List (Nat × Island) :=
  let l := (List.range 128).map (fun k =>
    let i := 128 * d + k
    let n := (islandAt s i).next (s.host.featEn.getLsbD 4)
    (i, n.1, n.2))
  grantRises (Config.ceil d) (l.filter (fun e => e.2.1.cur != 0)).length l

/-- The boundary of an interval: every island proceeds, and a change of a cluster's clock is traced in its buffer (R404, R392). -/
def execIslandInterval (s : State) : Out :=
  let all := (List.range 16).flatMap (dieInterval s)
  let s1 := { s with host := { s.host with islands := all.filter (fun e => e.2 != Island.reset) } }
  let s2 := s1.reclock s
  .next { s2 with dbg := { s2.dbg with interval := s.dbg.interval + 1 } }

def execThermalOrCurrentLimit (island : Nat) (on : Bool) (s : State) : Out :=
  if 2048 ≤ island then .next s else .next (islandSet s island { islandAt s island with trip := on })

def execFirmwareTgtWrite (island : Nat) (tgt : BitVec 2) (s : State) : Out :=
  if 2048 ≤ island then .next s else .next (islandSet s island { islandAt s island with tgt })

end Sys2Proof.Machine
end

