-- ==== Sys2Proof/Machine/HostIo.lean ====
section
/-! DEFINITION. The host's and the links' steps: CXL.mem, CXL.cache and CXL.io (R393 to R397), management registers and negotiation (R398 to R400), Psipor links (R401, R402), the start and attestation (R405, R406), and the death of a context (R169, R331). -/

namespace Sys2Proof.Machine

-- ## HERR (R397)

/-- Logs a violation: the first is recorded and raises vector 1, a later one sets OVF. -/
def herrLog (s : State) (kind addr : Nat) : State :=
  if s.host.herr.getLsbD 63 then { s with host := { s.host with herr := s.host.herr ||| 1#64 <<< 62 } }
  else
    ({ s with host := { s.host with herr := BitVec.ofNat 64 (2 ^ 63 + kind * 2 ^ 58 + addr % 2 ^ 52) } }).onOut
      (fun o => { o with msix1 := o.msix1 + 1 })


-- ## CXL.mem (R394, R395, R397)

/-- The device address of a host address, where it falls into the HDM decoder's 2 TiB (R393, R394). -/
def dpaOf (s : State) (hpa : BitVec 52) : Option (BitVec 41) :=
  let d := hpa.toNat - s.host.hdmBase.toNat
  if s.host.hdmBase ≤ hpa ∧ d < 2 ^ 41 then some (BitVec.ofNat 41 d) else none

/-- The granary address of the 64-byte line of a DPA, either alias. -/
def dpaLoc (dpa : BitVec 41) : Nat := field dpa 39 6 * 64

def granted (s : State) (dpa : BitVec 41) : Bool := !s.host.ungranted.contains (field dpa 39 30)

/-- A host read returns the line, poisoned where a word of it is; full bits stay (R84, R394). -/
def execCxlMemRead (hpa : BitVec 52) (s0 : State) : Out :=
  match dpaOf s0 hpa with
  | none => .next s0
  | some dpa =>
    if recovery s0 then .next s0
    else if !granted s0 dpa then
      .next ((herrLog s0 1 dpa.toNat).onOut (fun o => { o with data := BitVec.allOnes 512, poison := true, ur := false }))
    else
      let loc := dpaLoc dpa
      let s := pointScrub s0 loc 64
      let bad := (List.range 8).any (fun k => markOf s.st.marks (loc / 8 + k) == 1#2)
      .next (s.onOut (fun o => { o with data := BitVec.ofNat 512 (natLE (Mem.read s.st.mem loc 64)), poison := bad, ur := false }))

/-- The bytes that a host write stores to word k of its line: all eight, or those enabled one by one. -/
def hostPieces (data : BitVec 512) (en : BitVec 64) (k : Nat) : List (Nat × List Byte) :=
  let at_ (i : Nat) : Byte := BitVec.ofNat 8 (field data (8 * i + 7) (8 * i))
  if (List.range 8).all (fun i => en.getLsbD (8 * k + i)) then [(8 * k, (List.range 8).map (fun i => at_ (8 * k + i)))]
  else ((List.range 8).filter (fun i => en.getLsbD (8 * k + i))).map (fun i => (8 * k + i, [at_ (8 * k + i)]))

/-- Whether a write of some bytes only meets a poisoned word, and is not performed on it (R84, R394). -/
def hostRefused (s : State) (loc : Nat) (en : BitVec 64) (k : Nat) : Bool :=
  markOf s.st.marks (loc / 8 + k) == 1#2 && (List.range 8).any (fun i => en.getLsbD (8 * k + i)) &&
  !(List.range 8).all (fun i => en.getLsbD (8 * k + i))

/-- Every word of a line that a host write enables in part is read first (R84). -/
def hostScrub (s : State) (loc : Nat) (en : BitVec 64) : State :=
  (List.range 8).foldl (fun s k =>
    let some_ := (List.range 8).any (fun i => en.getLsbD (8 * k + i))
    let all_ := (List.range 8).all (fun i => en.getLsbD (8 * k + i))
    if some_ && !all_ then pointScrub s (loc + 8 * k) 8 else s) s

/-- Of the host's CXL.mem writes whose completions the host had received, as the write says, those that no confirmation of a Shared
copy holds back any more (R82, R395). -/
def hostRel (s : State) (known : List Nat) : List (Nat × Nat) :=
  (writesOf s srcHost).filter (fun w => inGranary w.1 && known.contains w.2 && !s.st.acks.any (fun a => a.slot.isNone && a.tag == w.2))

/-- A host write performed at its home slice as one write: the words it may write, then the line, whose Shared copies are
invalidated; full words set full and served where it came through the full alias, where it is the host's release (R82, R307,
R395). -/
def hostWrite (s : State) (loc : Nat) (data : BitVec 512) (en : HostEnables) (full : Bool) : State :=
  let id := s.nextId
  let rel : Option Release :=
    if full then some { scope := BitVec.ofNat 42 (2 ^ 40), core := none, src := srcHost, rel := hostRel s en.known } else none
  let ps := ((List.range 8).filter (fun k => !hostRefused s loc en.bytes k)).flatMap (hostPieces data en.bytes)
  if ps = [] then s
  else
    let s1 := s.bump.onSt (fun st => ps.foldl (fun st p =>
      st.put { id, src := srcHost, loc := loc + p.1, data := p.2, fe := if full ∧ p.2.length = 8 then some true else none, rmw := false, known := [], rel }) st)
    let (s1a, seqTag, await) := touchLine s1 loc
    let s2 := if await = 0 then s1a
      else s1a.onSt (fun st => { st with acks := st.acks ++ [{ slot := none, tag := id, loc, amo := false, va := 0, seqTag, await }] })
    if full then (ps.filter (fun p => p.2.length == 8)).foldl (fun s p => service s (loc + p.1)) s2 else s2

/-- A CXL.mem write, through the alias that DPA[40] selects; the full one acts as the plain one until it is accepted. It is dropped
where its granule is not granted, and logged as kind 5 where it enables some bytes of a poisoned word (R394, R397, R399). The address
that HERR holds for kind 5 is not given: it is a free value. (DESIGN CHOICE, log 52.) -/
def cxlWrite (s0 : State) (hpa : BitVec 52) (data : BitVec 512) (en : HostEnables) : State :=
  match dpaOf s0 hpa with
  | none => s0
  | some dpa =>
    if recovery s0 then s0
    else if !granted s0 dpa then (herrLog s0 2 dpa.toNat).onOut (fun o => { o with ur := false })
    else
      let loc := dpaLoc dpa
      let s := hostScrub s0 loc en.bytes
      let bad := (List.range 8).any (hostRefused s loc en.bytes)
      let s1 := (hostWrite s loc data en (dpa.getLsbD 40 && s.host.featEn.getLsbD 1)).onOut (fun o => { o with ur := false })
      if bad then
        let (k, s2) := s1.draw
        herrLog s2 5 (Config.freeQuad k).toNat
      else s1

/-- A CXL.mem write that reaches the module, as a rule through the plain alias: DPA[40] says. -/
def execCxlMemWritePlain (hpa : BitVec 52) (data : BitVec 512) (en : HostEnables) (s : State) : Out := .next (cxlWrite s hpa data en)

/-- The same, as a rule through the full alias. -/
def execCxlMemWriteFull (hpa : BitVec 52) (data : BitVec 512) (en : HostEnables) (s : State) : Out := .next (cxlWrite s hpa data en)

-- ## CXL.cache (R396)

/-- Every request of a line's ordering queue is performed, in order, by fuel. -/
def drainLine (s : State) (pa : Nat) : Nat → State
  | 0 => s
  | n + 1 =>
    match s.st.queue.find? (fun r => lineOf r.loc == pa) with
    | none => s
    | some r => drainLine (performReq (s.onSt (fun st => { st with queue := st.queue.erase r })) r) pa n

def hostLine (line : BitVec 52) : Nat := lineOf line.toNat

/-- A snoop finds its line: the requests ahead of it are performed, and the line that the home slice holds is read (R84, R396). -/
def snoopLine (s : State) (pa : Nat) : State :=
  let s1 := drainLine s pa s.st.queue.length
  if (lineFind s1.st.lines pa).home then pointScrub s1 pa 128 else s1

/-- The host gets a line's data from the module. -/
def snoopAnswer (s : State) (pa : Nat) : State :=
  s.onOut (fun o => { o with snoop := (lineData s pa).1, snoopPoison := (lineData s pa).2 })

/-- A data snoop returns the line, and a Dirty line becomes Clean, no more the module's own. -/
def execSnpdata (line : BitVec 52) (s : State) : Out :=
  let pa := hostLine line
  if recovery s ∨ inHost pa = false then .next s
  else
    let s1 := snoopLine s pa
    .next (snoopAnswer (s1.onSt (fun st => { st with lines := st.lines.map (fun l => if l.pa = pa then { l with dirty := false, own := false } else l) })) pa)

/-- The bytes of a 128-byte line. -/
def lineBytes (data : BitVec 1024) : List Byte := bytesLE 128 data.toNat

/-- The host's write of a whole line, by its answer or behind a snoop: the module's copy is memory, and the line is no write of
the module's. -/
def hostLineWrite (s : State) (pa : Nat) (data : BitVec 1024) : State :=
  s.bump.onSt (fun st => st.put
    { id := s.nextId, src := srcHost, loc := pa, data := lineBytes data, fe := none, rmw := false, known := [], rel := none })

/-- An invalidating snoop: a Dirty line goes back to the host, Shared copies go and the line is dropped; it counts as the host's write
of every byte, with the value `data` that the next device read fetches. (DEDUCED, log 54.) -/
def execSnpinv (line : BitVec 52) (data : BitVec 1024) (s : State) : Out :=
  let pa := hostLine line
  if recovery s ∨ inHost pa = false then .next s
  else
    let s1 := snoopLine s pa
    let s2 := if (lineFind s1.st.lines pa).dirty then snoopAnswer s1 pa else s1
    let s3 := s2.onSt (fun st => { st with
      lines := st.lines.map (fun l => if l.pa = pa then { l.replace (homeDie pa) with shared := 0 } else l) })
    .next (wakeLine (hostLineWrite s3 pa data) pa)

/-- The host's answer in error: the words that it brings enter poisoned, with SRC 0x34 in bank 3 and kind 4 in HERR (R84, R396,
R397). -/
def hostError (s : State) (pa : Nat) (words : List Nat) : State :=
  herrLog ((words.foldl poisonWord s).mcLog (poisonEvent pa 0x34)) 4 pa

/-- The oldest request of a home slice for a host line that the host has not answered: RdShared or RdOwn (R393, R396). -/
def hostAwaited (s : State) (pa : Nat) : Option HostAsk :=
  s.host.out.asks.find? (fun k => k.pa == pa && (match k.op with | .rdShared | .rdOwn => true | _ => false))

/-- The words of a line that no write has covered whole since its request was made. -/
def hostUntouched (s : State) (k : HostAsk) : List Nat :=
  ((List.range 16).filter (fun w => (List.range 8).any (fun i => k.before[8 * w + i]? == some (newestId s.st.hist (k.pa + 8 * w + i))))).map
    (fun w => k.pa / 8 + w)

/-- The host answers a request: an error or poison makes the words that it brings poisoned; the data of RdShared is the host's value,
where it is another than the module's and no write of the module stands in the line yet; RdOwn brings the line's ownership only (R84,
R396, R397). (DEDUCED, log 53.) -/
def hostAnswer (s0 : State) (k : HostAsk) (data : BitVec 1024) (error : Bool) : State :=
  let s := s0.onOut (fun o => { o with asks := o.asks.erase k })
  if error then hostError s k.pa (hostUntouched s k)
  else if k.op = .rdOwn ∨ (lineFind s.st.lines k.pa).dirty = true ∨ Mem.read s.st.mem k.pa 128 = lineBytes data then s
  else hostLineWrite s k.pa data

/-- The host's answer to the oldest request for one of its lines; where the slice does not hold the line and has asked for nothing, it
asks now and is answered (R81, R396, R397). (DEDUCED, log 53.) -/
def execCxlCacheResponse (line : BitVec 52) (data : BitVec 1024) (error : Bool) (s : State) : Out :=
  let pa := hostLine line
  if recovery s ∨ inHost pa = false then .next s
  else
    match hostAwaited s pa with
    | some k => .next (hostAnswer s k data error)
    | none =>
      let s1 := lineEnter s pa
      .next (match hostAwaited s1 pa with | some k => hostAnswer s1 k data error | none => s1)

def execCxlIoUndefinedAccess (off : BitVec 52) (s : State) : Out :=
  .next ((herrLog s 3 off.toNat).onOut (fun o => { o with ur := true }))

-- ## Negotiation and management registers (R398 to R401)

/-- An access to a register of BAR0 other than DEVSTAT: UR in recovery (R406). -/
def barAccess (s : State) (k : State → Out) : Out :=
  if recovery s then .next (s.onOut (fun o => { o with ur := true })) else k (s.onOut (fun o => { o with ur := false }))

/-- Writing 1 to HERR's VAL clears it. -/
def execHerrClear (s : State) : Out := barAccess s (fun s => .next { s with host := { s.host with herr := 0 } })

/-- FEATEN: DEVFEAT and DRVACC, with bit 5 always 1 (R398). -/
def featEnOf (h : HostRegs) : BitVec 256 := (h.devFeat &&& h.drvAcc) ||| 32#256

/-- DEVSTAT with another STATE (R406). -/
def State.toState (s : State) (n : Word) : State := { s with host := { s.host with devStat := (s.host.devStat &&& ~~~(0xFF#64)) ||| n } }

/-- The negotiation, which the start awaits in state 3: FEATEN, DONE, the features of the dies, the measurement of FEATEN, and the running
state (R399, R405, R406). -/
def negotiate (s0 : State) : State :=
  let s := s0.toState 4
  let f := featEnOf s.host
  { s with host := { s.host with
      featEn := f
      done := true
      dieFeat := s.host.dieFeat.map (fun d => d &&& BitVec.ofNat 4 (field f 19 16))
      measured := some (BitVec.ofNat 256 (sha256 (bytesLE 32 f.toNat))) } }

/-- GO is written: the negotiation follows where the start awaits it, and otherwise once it does (R399, R405). (DESIGN CHOICE, log 97.) -/
def execNegoGo (s : State) : Out :=
  barAccess s (fun s =>
    let s1 := { s with host := { s.host with go := true } }
    .next (if devState s = 3 ∧ s.host.done = false then negotiate s1 else s1))

/-- A write of SYSINT raises a system interrupt at the thread that it names (R369, R398). -/
def execSysint (v : Word) (s : State) : Out :=
  barAccess s (fun s =>
    let slot : Fin 8 := Fin.ofNat 8 (field v 26 24)
    let s1 := { s with host := { s.host with sysint := v &&& 0x0000FFFFF70000FF#64 } }
    if field v 37 28 = s.core.x.toNat ∧ field v 47 38 = s.core.y.toNat ∧ holdsThread s.slots[slot] = true then
      .next (s1.onSlot slot (fun t => { t with sysint := some (BitVec.ofNat 8 (field v 7 0)) }))
    else .next s1)

/-- A word of a table in the granary, where it is readable and carries no mark. -/
def tableWord (s : State) (pa : Nat) : Option Word :=
  if inGranary pa && inGranary (pa + 7) && markOf s.st.marks (pa / 8) == 0#2 then some (BitVec.ofNat 64 (read64 s.st pa)) else none

/-- What a queue record comes to: nothing there, a bad one, or a queue (R400). -/
inductive QueueRec where
  | none
  | bad
  | ok (q : Queue)
  deriving DecidableEq, Repr

/-- Reads record `q` of context `c`; its counter starts at 0, or goes on where the same queue was served before. -/
def readQueue (s : State) (c : Fin 64) (ctx : Word) (q : Fin 64) : QueueRec :=
  let a := s.host.qTab.toNat + 32 * (64 * c.val + q.val)
  match tableWord s a, tableWord s (a + 8), tableWord s (a + 16), tableWord s (a + 24) with
  | some b, some head, some kvec, some v =>
    if v.getLsbD 0 = false then .none
    else
      let base : Word := BitVec.ofNat 64 (field b 47 7 * 128)
      let n := field b 4 0
      let w := fwWalker c ctx
      if field v 63 1 ≠ 0 ∨ field b 63 48 ≠ 0 ∨ field b 6 5 ≠ 0 ∨ 16 < n ∨ field head 2 0 ≠ 0 ∨
          fwRange s w true true (fun _ => true) base.toNat (128 * 2 ^ n) = false ∨ fwRange s w true true (fun _ => true) head.toNat 8 = false then .bad
      else
        let taken := match s.fw.queues.find? (fun x => x.cid == c && x.q == q && x.base == base && x.n == n && x.head == head) with
          | some x => x.taken
          | none => 0
        .ok { cid := c, q, base, n, head, kvec, taken }
  | _, _, _, _ => .bad

/-- Firmware reads words of a table: their codes are checked (R84). -/
def tableReads (s : State) (pa n : Nat) : State :=
  (touchedWords pa n).foldl (fun s k => if inGranary (8 * k) then pointScrub s (8 * k) 8 else s) s

/-- Firmware reads a context's queue records, and walks to the queue and the head word of each valid one (R72, R84, R400). -/
def queueReads (s : State) (c : Fin 64) (ctx : Word) : State :=
  let a := s.host.qTab.toNat + 2048 * c.val
  let w := fwWalker c ctx
  (List.range 64).foldl (fun s q =>
    match tableWord s (a + 32 * q), tableWord s (a + 32 * q + 8), tableWord s (a + 32 * q + 24) with
    | some b, some head, some v =>
      if v.getLsbD 0 = false ∨ 16 < field b 4 0 then s
      else fwWalk (fwWalk s w (field b 47 7 * 128) (128 * 2 ^ field b 4 0)) w head.toNat 8
    | _, _, _ => s) (tableReads s a 2048)

/-- A write of CTXCMD makes firmware read a context's entry and its queue records, and serve the valid ones (R400). (DEDUCED, log 55.)
Bits [63:1] of the entry's second word are not looked at. (DESIGN CHOICE, log 88.) Before state 3 no firmware reads them. (DESIGN CHOICE, log 97.) -/
def execCtxcmd (v : Word) (s : State) : Out :=
  barAccess s (fun s =>
    let c : Fin 64 := Fin.ofNat 64 (field v 5 0)
    let s1 := { s with host := { s.host with ctxCmd := v &&& 63#64 } }
    let a := s.host.ctxTab.toNat + 16 * c.val
    if devState s < 3 then .next s1
    else
    let s1 := tableReads s1 a 16
    match tableWord s1 a, tableWord s1 (a + 8) with
    | some ctx, some k =>
      let s1 := if k.getLsbD 0 then queueReads s1 c ctx else s1
      let s2 := { s1 with fw := { s1.fw with contexts := s1.fw.contexts.filter (fun x => x.1 != c), queues := s1.fw.queues.filter (fun x => x.cid != c) } }
      if k.getLsbD 0 = false then .next s2
      else
        let rs := (List.finRange 64).map (fun q => (q, readQueue s1 c ctx q))
        let s3 := { s2 with fw := { s2.fw with
          contexts := s2.fw.contexts ++ [(c, ctx)]
          queues := s2.fw.queues ++ rs.filterMap (fun r => match r.2 with | .ok q => some q | _ => none) } }
        .next ((rs.filter (fun r => r.2 == .bad)).foldl (fun s r => herrLog s 3 (32 * (64 * c.val + r.1.val))) s3)
    | _, _ => .next s1)

def pmapSet (l : List (Nat × Word)) (m : Nat) (v : Word) : List (Nat × Word) :=
  let r := l.filter (fun e => e.1 != m)
  if v = 0#64 then r else (m, v) :: r

/-- A quarter of DRVACC takes a value. -/
def drvAccSet (d : BitVec 256) (i : Nat) (v : Word) : BitVec 256 :=
  (d &&& ~~~(0xFFFFFFFFFFFFFFFF#256 <<< (64 * i))) ||| (v.setWidth 256 <<< (64 * i))

/-- Whether a BAR0 offset stands in the table of R398, and which registers software does not write. -/
def bar0Known (o : Nat) : Bool :=
  decide (o < 0x58) || decide (0x60 ≤ o ∧ o < 0x80) || decide (0x100 ≤ o ∧ o < 0x180) || decide (o = 0x200 ∨ o = 0x208 ∨ o = 0x210 ∨ o = 0x400) ||
  decide (0x800 ≤ o ∧ o < 0x5000)

/-- The entry of an island: PERM, TRIP, CUR, TGT (R403). -/
def Island.word (x : Island) : Word :=
  BitVec.ofNat 64 (x.perm * 2 ^ 48 + (if x.trip then 2 ^ 11 else 0) + x.cur.toNat * 2 ^ 8 + x.tgt.toNat)

/-- The value of the BAR0 register at an offset (R398, R399, R403, R406). -/
def bar0Read (s : State) (o : Nat) : Word :=
  let h := s.host
  let quarter (v : BitVec 256) (base : Nat) : Word := BitVec.ofNat 64 (field v (64 * ((o - base) / 8) + 63) (64 * ((o - base) / 8)))
  if o < 0x20 then quarter h.devFeat 0
  else if o < 0x40 then quarter h.drvAcc 0x20
  else if o = 0x40 then BitVec.ofNat 64 ((if h.done then 2 else 0) + if h.go then 1 else 0)
  else if o = 0x48 then h.devStat
  else if o = 0x50 then h.sysint
  else if o < 0x80 then quarter h.featEn 0x60
  else if o < 0x180 then (h.dieFeat[(Fin.ofNat 16 ((o - 0x100) / 8))]).setWidth 64
  else if o = 0x200 then h.ctxTab
  else if o = 0x208 then h.qTab
  else if o = 0x210 then h.ctxCmd
  else if o = 0x400 then h.herr
  else if o < 0x1000 then pmapAt s ((o - 0x800) / 8)
  else (islandAt s ((o - 0x1000) / 8)).word

/-- A write to BAR0 by its offset (R398): read-only registers keep their values, and an undefined offset is a violation. -/
def bar0Write (s : State) (o : Nat) (v : Word) : Out :=
  let set (f : HostRegs → HostRegs) : Out := barAccess s (fun s => .next { s with host := f s.host })
  if o = 0x48 then .next (s.onOut (fun o => { o with ur := false }))
  else if 0x20 ≤ o ∧ o < 0x40 then set (fun h => if h.done then h else { h with drvAcc := drvAccSet h.drvAcc ((o - 0x20) / 8) v })
  else if o = 0x40 then (if v.getLsbD 0 then execNegoGo s else set id)
  else if o = 0x50 then execSysint v s
  else if o = 0x200 then set (fun h => { h with ctxTab := v })
  else if o = 0x208 then set (fun h => { h with qTab := v })
  else if o = 0x210 then execCtxcmd v s
  else if o = 0x400 then
    (if v.getLsbD 63 then execHerrClear s else set (fun h => if v.getLsbD 62 then { h with herr := h.herr &&& ~~~(1#64 <<< 62) } else h))
  else if 0x800 ≤ o ∧ o < 0x1000 then set (fun h => { h with pmap := pmapSet h.pmap ((o - 0x800) / 8) (v &&& 0xFC8F#64) })
  else set id

/-- The register of the machine-check window at BAR1 + 128 k + 32 b + 8 r (R398). -/
def bar1Read (s : State) (o : Nat) : Word :=
  let b := mcFind s.mc (o / 128) (Fin.ofNat 4 (o / 32))
  match o / 8 % 4 with
  | 0 => b.st
  | 1 => b.ad
  | 2 => b.sy
  | _ => b.th

/-- A register over CXL.io: a write, or a read of its value. In recovery BAR0 answers UR but for DEVSTAT; an undefined BAR0 offset is
a violation (R382, R393, R397, R398, R406). -/
def execRegisterWrite (at_ : BarAccess) (v : Word) (s : State) : Out :=
  let read (x : Word) (s : State) : Out := .next (s.onOut (fun o => { o with value := x, ur := false }))
  let low (off : BitVec 16) (k : Nat → Out) : Out :=
    let o := off.toNat / 8 * 8
    if recovery s ∧ o ≠ 0x48 then .next (s.onOut (fun o => { o with ur := true }))
    else if bar0Known o = false then execCxlIoUndefinedAccess (BitVec.ofNat 52 off.toNat) s
    else k o
  match at_ with
  | .write0 off => low off (fun o => bar0Write s o v)
  | .read0 off => low off (fun o => read (bar0Read s o) s)
  | .write1 off =>
    if off.toNat / 8 % 4 = 0 then execMcstClear (off.toNat / 128) (Fin.ofNat 4 (off.toNat / 32)) v (s.onOut (fun o => { o with ur := false }))
    else .next (s.onOut (fun o => { o with ur := false }))
  | .read1 off => read (bar1Read s off.toNat) s

-- ## Links (R401, R402)

/-- A packet as it stands at the router that it enters: its face is the port (R161). -/
def packetFrom (p : Packet) (port : Fin 16) : Packet :=
  match p with
  | .interest nm _ => .interest nm (.psipor port)
  | .withdraw nm _ => .withdraw nm (.psipor port)
  | .notice _ cid => .notice port cid
  | q => q

/-- The router that a packet of a port enters: the port's edge router, or, for a give or a retirement of a tensor of this
module, its home router or steward; one of another module's tensor is discarded (R161, R166, R174, R402). -/
def enterRouter (s : State) (port : Fin 16) (p : Packet) : Option Nat :=
  match p with
  | .give nm _ _ => ((tensorOf s (edgeRouter port) nm.cid nm.tensor).filter (fun t => t.mod == 0)).map (fun t => t.home nm.tile.toNat)
  | .retire cid tensor _ _ => ((tensorOf s (edgeRouter port) cid tensor).filter (fun t => t.mod == 0)).map (fun t => t.home 0)
  | _ => some (edgeRouter port)

/-- A flit arrives: one that fails its CRC is replayed, and a good one hands its packet to the router `k` that it enters
(R161, R401). -/
def execPsiporFlitReceive (port : Fin 16) (crcOk : Bool) (k : Nat) (p : Packet) (s : State) : Out :=
  if !crcOk || s.host.down.contains port || !s.host.featEn.getLsbD 3 then .next s
  else if enterRouter s port p = some k then .next (pushPacket s k (packetFrom p port))
  else .next s

def execLinkFault (port : Fin 16) (s : State) : Out :=
  .next { s with host := { s.host with down := port :: s.host.down.filter (· != port) } }

def execLinkRetrained (port : Fin 16) (s : State) : Out :=
  .next { s with host := { s.host with down := s.host.down.filter (· != port) } }

/-- A link down for 1 ms counts as a notice for every context that PMAP maps to it (R402). -/
def execLinkRetrainTimeout (port : Fin 16) (s : State) : Out :=
  if s.host.down.contains port then
    .next ((s.host.pmap.filter (fun e => e.1 != 0 && pmValid e.2 && pmPort e.2 == port)).foldl
      (fun s e => peerWithdrawn s port (Fin.ofNat 64 (pmPcid e.2))) s)
  else .next s

-- ## Start and attestation (R405, R406)

/-- The answer to an attestation request: the block's digest, and a signature over it and the nonce; block 5 is measured
at DONE. -/
def execSpdmRequest (block : Fin 5) (nonce : Nat) (s : State) : Out :=
  let b := block.val + 1
  let digest : Option (BitVec 256) := if b = 5 then s.host.measured else some (Config.measured b)
  .next (s.onOut (fun o => { o with spdm := digest.map (fun d => (b, d, Config.signature b d.toNat nonce)) }))

def recoveryStat (code : Word) : Word := 0x80#64 ||| (code <<< 8)

/-- The repair records are read: spare cores and tracks are mapped out; no claim finds a spare track, and no team is placed on a spare core
(R339, R405). (DESIGN CHOICE, log 85.) -/
def readRepair (s : State) : State :=
  let spare (n : Nat) : Bool := Config.spareTracks.contains (s.coreId, n)
  { s with
    fw := { s.fw with spareCores := Config.spareCores, spareTracks := Config.spareTracks }
    core := { s.core with tracks := Vector.ofFn (fun (n : Fin 32) => if spare n.val then { s.core.tracks[n] with retired := true } else s.core.tracks[n]) } }

/-- The gleaning of the start: of the observed core's cluster the contents stand in the state; those of the others are initialised
before anything reads them. What fails is retired (R386, R405). (DESIGN CHOICE, log 85.) -/
def gleanStart (s : State) : State :=
  let s1 := gleanCluster s (clusterOf s.coreId)
  (Config.gleanFails.filter (fun f => decide (f.1 < 131072))).foldl (fun s f => gleanFail s f.1 f.2.1 f.2.2.1 f.2.2.2) s1

/-- The verified start goes on by one state: verifying, with the repair records loaded; gleaning; awaiting negotiation; and running, once GO
has been written; or into recovery with its FAIL code (R405, R406). -/
def startStep (s : State) : Out :=
  let fail : Word := Config.startFail.setWidth 64
  if devState s = 0 then .next (s.toState 1)
  else if devState s = 1 then
    if fail = 1 ∨ fail = 2 ∨ fail = 3 then .next { s with host := { s.host with devStat := recoveryStat fail } }
    else .next (readRepair (s.toState 2))
  else if devState s = 2 then
    let g := gleanStart s
    .next (if fail = 4 then { g with host := { g.host with devStat := recoveryStat fail } } else g.toState 3)
  else .next (if devState s = 3 ∧ s.host.go = true then negotiate s else s)

/-- Module reset: the state of reset, from which the start goes on. Host memory is not the module's; the decoder's base, the grants,
agents' steps to come and the free values already drawn stand outside it (R405, R406). (DESIGN CHOICE, log 58.) -/
def execModuleReset (s : State) : Out :=
  let r := State.reset
  .next { r with
    st := { r.st with mem := s.st.mem.filter (fun c => inHost c.1) }
    host := { r.host with ungranted := s.host.ungranted, hdmBase := s.host.hdmBase }
    freeCtr := s.freeCtr
    schedule := s.schedule }

-- ## The death of a context (R169, R331, R336, R402)

/-- A copy is cancelled: it ends with ST 3, its count ends and its notice is given (R108, R109, R112). -/
def cancelCopy (o : Out) (c : Copy) : Out :=
  match o with
  | .next s =>
    let d := { c with ended := some (3#8, 0#64) }
    copyNotice (copyUncount (dropCopy s d) d) d
  | o => o

/-- The work for a context that dies: the observed core's copies end with ST 3; its sends, receives and commands are cancelled, and
so are the requests of the context's threads on other cores that wait at an ordering point or are reads on their way there, and
the reservation requests of its teams that are out (R100, R145). -/
def cancelWork (s : State) (cid : Fin 64) : Out :=
  let reads (r : Req) : Bool := match r.kind with | .ldf | .ldt | .load _ _ | .lrw _ _ _ => true | _ => false
  let elsewhere (r : Req) : Bool := r.slot.isNone && r.away.isNone && decide (r.src < 2 ^ 40) && r.src / 8 % 64 == cid.val
  let dead (r : Req) : Bool := match r.away with
    | some a => (match s.fw.launches[a.1]? with | some l => l.cid == cid | none => true)
    | none => elsewhere r && reads r
  let s1 := (dropWaiting s elsewhere).onSt (fun st => { st with
    paths := st.paths.filter (fun r => !dead r)
    queue := st.queue.filter (fun r => !dead r)
    bankq := st.bankq.filter (fun b => !dead b.req)
    resvWait := st.resvWait.filter (fun r => !dead r)
    resvs := st.resvs.map (fun e => { e with waiters := e.waiters.filter (fun w => !dead w.2) }) })
  match s.launch? with
  | none => .next s1
  | some l =>
    if l.cid ≠ cid then .next s1
    else
      match s1.core.copies.foldl cancelCopy (.next s1) with
      | .next s2 =>
        .next (((List.finRange 8).foldl killUnits s2).onSt (fun st => { st with paths := st.paths.filter (fun r => r.slot.isNone || r.toMemory) }))
      | o => o

/-- Ends, with ST 3, every launch of a context (R336). -/
def endLaunches (s : State) (cid : Fin 64) : State :=
  s.fw.launches.zipIdx.foldl (fun s l =>
    if l.1.cid = cid ∧ l.1.st = 0#8 then endLaunch (writeRecord s cid l.1.ctx l.1.words[8] none 3) l.2 3 else s) s

/-- The ports that PMAP names. (DEDUCED, log 57.) -/
def pmapPorts (s : State) : List (Fin 16) :=
  (List.finRange 16).filter (fun p => s.host.pmap.any (fun e => e.1 != 0 && pmValid e.2 && pmPort e.2 == p))

/-- A context dies: interests in its tensors settle with kind 2 marks, its work is cancelled, its messages are discarded,
notices go out on every port that PMAP names, and its launches complete with ST 3. (DEDUCED, log 56.) -/
def contextDies (s : State) (cid : Fin 64) : Out :=
  match cancelWork (settleWhere s (fun _ nm => nm.cid == cid) (fun _ => true) true) cid with
  | .next s2 =>
    let s3 := (if s.host.featEn.getLsbD 3 then pmapPorts s else []).foldl (fun s p => leaveBy s p (.notice p cid)) s2
    .next (endLaunches s3 cid)
  | o => o

/-- The contexts that hold a core of a cluster (R384). -/
def contextsOf (s : State) (k : Nat) : List (Fin 64) :=
  (List.finRange 64).filter (fun c => s.fw.launches.any (fun l =>
    l.cid == c && l.placed.any (fun p => (rectClusters (coreX p.2) (coreY p.2) l.w l.h).contains k)))

/-- A context dies, or a part of a cluster fails for good: the event is logged, the cluster is retired, and the contexts that
hold a core of it die (R169, R384). -/
def execContextDies (why : Death) (s : State) : Out :=
  match why with
  | .context cid => contextDies s cid
  | .fatal cluster part core ad =>
    if 131072 ≤ cluster then .next s
    else
      let e := if part = 0 then { fatalEvent cluster part 0xFF ad with bank := 2, src := 0x22 }
        else fatalEvent cluster part (if part = 2 then 0xFF else core.val) ad
      (contextsOf s cluster).foldl (fun o c => match o with | .next s => contextDies s c | o => o)
        (.next ((s.mcLog e).retireCluster cluster))

end Sys2Proof.Machine
end

