-- ==== Sys2Proof/Machine/Dispatch.lean ====
section
/-! DEFINITION. The one dispatch: an arm for every constructor of Instr. -/

namespace Sys2Proof.Machine

def exec (i : Instr) (s : State) : Host.Outcome State Fault Refusal :=
  match i with
  | .transportShort sw d c => Sys2Proof.Machine.execTransportShort sw d c s
  | .transportLong sw g d x => Sys2Proof.Machine.execTransportLong sw g d x s
  | .aluAddShort sw c => Sys2Proof.Machine.execAluAddShort sw c s
  | .aluAddLong sw g x => Sys2Proof.Machine.execAluAddLong sw g x s
  | .aluSubShort sw c => Sys2Proof.Machine.execAluSubShort sw c s
  | .aluSubLong sw g x => Sys2Proof.Machine.execAluSubLong sw g x s
  | .aluAndShort sw c => Sys2Proof.Machine.execAluAndShort sw c s
  | .aluAndLong sw g x => Sys2Proof.Machine.execAluAndLong sw g x s
  | .aluOrShort sw c => Sys2Proof.Machine.execAluOrShort sw c s
  | .aluOrLong sw g x => Sys2Proof.Machine.execAluOrLong sw g x s
  | .aluXorShort sw c => Sys2Proof.Machine.execAluXorShort sw c s
  | .aluXorLong sw g x => Sys2Proof.Machine.execAluXorLong sw g x s
  | .aluShlShort sw c => Sys2Proof.Machine.execAluShlShort sw c s
  | .aluShlLong sw g x => Sys2Proof.Machine.execAluShlLong sw g x s
  | .aluShrShort sw c => Sys2Proof.Machine.execAluShrShort sw c s
  | .aluShrLong sw g x => Sys2Proof.Machine.execAluShrLong sw g x s
  | .aluSraShort sw c => Sys2Proof.Machine.execAluSraShort sw c s
  | .aluSraLong sw g x => Sys2Proof.Machine.execAluSraLong sw g x s
  | .aluSltShort sw c => Sys2Proof.Machine.execAluSltShort sw c s
  | .aluSltLong sw g x => Sys2Proof.Machine.execAluSltLong sw g x s
  | .aluSltuShort sw c => Sys2Proof.Machine.execAluSltuShort sw c s
  | .aluSltuLong sw g x => Sys2Proof.Machine.execAluSltuLong sw g x s
  | .aluSeqShort sw c => Sys2Proof.Machine.execAluSeqShort sw c s
  | .aluSeqLong sw g x => Sys2Proof.Machine.execAluSeqLong sw g x s
  | .aluMinShort sw c => Sys2Proof.Machine.execAluMinShort sw c s
  | .aluMinLong sw g x => Sys2Proof.Machine.execAluMinLong sw g x s
  | .aluMaxShort sw c => Sys2Proof.Machine.execAluMaxShort sw c s
  | .aluMaxLong sw g x => Sys2Proof.Machine.execAluMaxLong sw g x s
  | .aluMinuShort sw c => Sys2Proof.Machine.execAluMinuShort sw c s
  | .aluMinuLong sw g x => Sys2Proof.Machine.execAluMinuLong sw g x s
  | .aluMaxuShort sw c => Sys2Proof.Machine.execAluMaxuShort sw c s
  | .aluMaxuLong sw g x => Sys2Proof.Machine.execAluMaxuLong sw g x s
  | .aluSxbShort sw c => Sys2Proof.Machine.execAluSxbShort sw c s
  | .aluSxbLong sw g x => Sys2Proof.Machine.execAluSxbLong sw g x s
  | .aluSxhShort sw c => Sys2Proof.Machine.execAluSxhShort sw c s
  | .aluSxhLong sw g x => Sys2Proof.Machine.execAluSxhLong sw g x s
  | .aluClzShort sw c => Sys2Proof.Machine.execAluClzShort sw c s
  | .aluClzLong sw g x => Sys2Proof.Machine.execAluClzLong sw g x s
  | .aluPopcShort sw c => Sys2Proof.Machine.execAluPopcShort sw c s
  | .aluPopcLong sw g x => Sys2Proof.Machine.execAluPopcLong sw g x s
  | .mulMulShort sw c => Sys2Proof.Machine.execMulMulShort sw c s
  | .mulMulLong sw g x => Sys2Proof.Machine.execMulMulLong sw g x s
  | .mulMulhShort sw c => Sys2Proof.Machine.execMulMulhShort sw c s
  | .mulMulhLong sw g x => Sys2Proof.Machine.execMulMulhLong sw g x s
  | .mulMulhuShort sw c => Sys2Proof.Machine.execMulMulhuShort sw c s
  | .mulMulhuLong sw g x => Sys2Proof.Machine.execMulMulhuLong sw g x s
  | .mulMadShort sw c => Sys2Proof.Machine.execMulMadShort sw c s
  | .mulMadLong sw g x => Sys2Proof.Machine.execMulMadLong sw g x s
  | .mulDivShort sw c => Sys2Proof.Machine.execMulDivShort sw c s
  | .mulDivLong sw g x => Sys2Proof.Machine.execMulDivLong sw g x s
  | .mulDivuShort sw c => Sys2Proof.Machine.execMulDivuShort sw c s
  | .mulDivuLong sw g x => Sys2Proof.Machine.execMulDivuLong sw g x s
  | .mulRemShort sw c => Sys2Proof.Machine.execMulRemShort sw c s
  | .mulRemLong sw g x => Sys2Proof.Machine.execMulRemLong sw g x s
  | .mulRemuShort sw c => Sys2Proof.Machine.execMulRemuShort sw c s
  | .mulRemuLong sw g x => Sys2Proof.Machine.execMulRemuLong sw g x s
  | .memLd8Short sw c => Sys2Proof.Machine.execMemLd8Short sw c s
  | .memLd8Long sw g x => Sys2Proof.Machine.execMemLd8Long sw g x s
  | .memLd8sShort sw c => Sys2Proof.Machine.execMemLd8sShort sw c s
  | .memLd8sLong sw g x => Sys2Proof.Machine.execMemLd8sLong sw g x s
  | .memLd16Short sw c => Sys2Proof.Machine.execMemLd16Short sw c s
  | .memLd16Long sw g x => Sys2Proof.Machine.execMemLd16Long sw g x s
  | .memLd16sShort sw c => Sys2Proof.Machine.execMemLd16sShort sw c s
  | .memLd16sLong sw g x => Sys2Proof.Machine.execMemLd16sLong sw g x s
  | .memLd32Short sw c => Sys2Proof.Machine.execMemLd32Short sw c s
  | .memLd32Long sw g x => Sys2Proof.Machine.execMemLd32Long sw g x s
  | .memLd32sShort sw c => Sys2Proof.Machine.execMemLd32sShort sw c s
  | .memLd32sLong sw g x => Sys2Proof.Machine.execMemLd32sLong sw g x s
  | .memLd64Short sw c => Sys2Proof.Machine.execMemLd64Short sw c s
  | .memLd64Long sw g x => Sys2Proof.Machine.execMemLd64Long sw g x s
  | .memLdqShort sw c => Sys2Proof.Machine.execMemLdqShort sw c s
  | .memLdqLong sw g x => Sys2Proof.Machine.execMemLdqLong sw g x s
  | .memSt8Short sw c => Sys2Proof.Machine.execMemSt8Short sw c s
  | .memSt8Long sw g x => Sys2Proof.Machine.execMemSt8Long sw g x s
  | .memSt16Short sw c => Sys2Proof.Machine.execMemSt16Short sw c s
  | .memSt16Long sw g x => Sys2Proof.Machine.execMemSt16Long sw g x s
  | .memSt32Short sw c => Sys2Proof.Machine.execMemSt32Short sw c s
  | .memSt32Long sw g x => Sys2Proof.Machine.execMemSt32Long sw g x s
  | .memSt64Short sw c => Sys2Proof.Machine.execMemSt64Short sw c s
  | .memSt64Long sw g x => Sys2Proof.Machine.execMemSt64Long sw g x s
  | .memStqShort sw c => Sys2Proof.Machine.execMemStqShort sw c s
  | .memStqLong sw g x => Sys2Proof.Machine.execMemStqLong sw g x s
  | .memLdfShort sw c => Sys2Proof.Machine.execMemLdfShort sw c s
  | .memLdfLong sw g x => Sys2Proof.Machine.execMemLdfLong sw g x s
  | .memLdtShort sw c => Sys2Proof.Machine.execMemLdtShort sw c s
  | .memLdtLong sw g x => Sys2Proof.Machine.execMemLdtLong sw g x s
  | .memStfShort sw c => Sys2Proof.Machine.execMemStfShort sw c s
  | .memStfLong sw g x => Sys2Proof.Machine.execMemStfLong sw g x s
  | .memSteShort sw c => Sys2Proof.Machine.execMemSteShort sw c s
  | .memSteLong sw g x => Sys2Proof.Machine.execMemSteLong sw g x s
  | .prdPandShort sw c => Sys2Proof.Machine.execPrdPandShort sw c s
  | .prdPandLong sw g x => Sys2Proof.Machine.execPrdPandLong sw g x s
  | .prdPorShort sw c => Sys2Proof.Machine.execPrdPorShort sw c s
  | .prdPorLong sw g x => Sys2Proof.Machine.execPrdPorLong sw g x s
  | .prdPxorShort sw c => Sys2Proof.Machine.execPrdPxorShort sw c s
  | .prdPxorLong sw g x => Sys2Proof.Machine.execPrdPxorLong sw g x s
  | .prdPandnShort sw c => Sys2Proof.Machine.execPrdPandnShort sw c s
  | .prdPandnLong sw g x => Sys2Proof.Machine.execPrdPandnLong sw g x s
  | .ctlJmpShort sw c => Sys2Proof.Machine.execCtlJmpShort sw c s
  | .ctlJmpLong sw g x => Sys2Proof.Machine.execCtlJmpLong sw g x s
  | .ctlJrelShort sw c => Sys2Proof.Machine.execCtlJrelShort sw c s
  | .ctlJrelLong sw g x => Sys2Proof.Machine.execCtlJrelLong sw g x s
  | .ctlCallShort sw c => Sys2Proof.Machine.execCtlCallShort sw c s
  | .ctlCallLong sw g x => Sys2Proof.Machine.execCtlCallLong sw g x s
  | .ctlRetShort sw c => Sys2Proof.Machine.execCtlRetShort sw c s
  | .ctlRetLong sw g x => Sys2Proof.Machine.execCtlRetLong sw g x s
  | .ctlTrapShort sw c => Sys2Proof.Machine.execCtlTrapShort sw c s
  | .ctlTrapLong sw g x => Sys2Proof.Machine.execCtlTrapLong sw g x s
  | .idxTixShort sw c => Sys2Proof.Machine.execIdxTixShort sw c s
  | .idxTixLong sw g x => Sys2Proof.Machine.execIdxTixLong sw g x s
  | .idxAdrShort sw c => Sys2Proof.Machine.execIdxAdrShort sw c s
  | .idxAdrLong sw g x => Sys2Proof.Machine.execIdxAdrLong sw g x s
  | .idxBndShort sw c => Sys2Proof.Machine.execIdxBndShort sw c s
  | .idxBndLong sw g x => Sys2Proof.Machine.execIdxBndLong sw g x s
  | .trkClaimShort sw c => Sys2Proof.Machine.execTrkClaimShort sw c s
  | .trkClaimLong sw g x => Sys2Proof.Machine.execTrkClaimLong sw g x s
  | .trkFreeShort sw c => Sys2Proof.Machine.execTrkFreeShort sw c s
  | .trkFreeLong sw g x => Sys2Proof.Machine.execTrkFreeLong sw g x s
  | .trkSeekShort sw c => Sys2Proof.Machine.execTrkSeekShort sw c s
  | .trkSeekLong sw g x => Sys2Proof.Machine.execTrkSeekLong sw g x s
  | .trkStepShort sw c => Sys2Proof.Machine.execTrkStepShort sw c s
  | .trkStepLong sw g x => Sys2Proof.Machine.execTrkStepLong sw g x s
  | .trkRdsShort sw c => Sys2Proof.Machine.execTrkRdsShort sw c s
  | .trkRdsLong sw g x => Sys2Proof.Machine.execTrkRdsLong sw g x s
  | .trkWrsShort sw c => Sys2Proof.Machine.execTrkWrsShort sw c s
  | .trkWrsLong sw g x => Sys2Proof.Machine.execTrkWrsLong sw g x s
  | .trkRwdShort sw c => Sys2Proof.Machine.execTrkRwdShort sw c s
  | .trkRwdLong sw g x => Sys2Proof.Machine.execTrkRwdLong sw g x s
  | .trkHeadShort sw c => Sys2Proof.Machine.execTrkHeadShort sw c s
  | .trkHeadLong sw g x => Sys2Proof.Machine.execTrkHeadLong sw g x s
  | .vecAdd sw g x => Sys2Proof.Machine.execVecAdd sw g x s
  | .vecSub sw g x => Sys2Proof.Machine.execVecSub sw g x s
  | .vecMul sw g x => Sys2Proof.Machine.execVecMul sw g x s
  | .vecMad sw g x => Sys2Proof.Machine.execVecMad sw g x s
  | .vecMin sw g x => Sys2Proof.Machine.execVecMin sw g x s
  | .vecMax sw g x => Sys2Proof.Machine.execVecMax sw g x s
  | .vecAnd sw g x => Sys2Proof.Machine.execVecAnd sw g x s
  | .vecOr sw g x => Sys2Proof.Machine.execVecOr sw g x s
  | .vecXor sw g x => Sys2Proof.Machine.execVecXor sw g x s
  | .vecShl sw g x => Sys2Proof.Machine.execVecShl sw g x s
  | .vecShr sw g x => Sys2Proof.Machine.execVecShr sw g x s
  | .vecSra sw g x => Sys2Proof.Machine.execVecSra sw g x s
  | .vecCeq sw g x => Sys2Proof.Machine.execVecCeq sw g x s
  | .vecClt sw g x => Sys2Proof.Machine.execVecClt sw g x s
  | .vecSel sw g x => Sys2Proof.Machine.execVecSel sw g x s
  | .vecShf sw g x => Sys2Proof.Machine.execVecShf sw g x s
  | .vecPak sw g x => Sys2Proof.Machine.execVecPak sw g x s
  | .vecUnp sw g x => Sys2Proof.Machine.execVecUnp sw g x s
  | .vecCvt sw g x => Sys2Proof.Machine.execVecCvt sw g x s
  | .vecDot sw g x => Sys2Proof.Machine.execVecDot sw g x s
  | .vecSum sw g x => Sys2Proof.Machine.execVecSum sw g x s
  | .vecExt sw g x => Sys2Proof.Machine.execVecExt sw g x s
  | .vecRec sw g x => Sys2Proof.Machine.execVecRec sw g x s
  | .vecRun sw g x => Sys2Proof.Machine.execVecRun sw g x s
  | .fpuAdd sw g x => Sys2Proof.Machine.execFpuAdd sw g x s
  | .fpuSub sw g x => Sys2Proof.Machine.execFpuSub sw g x s
  | .fpuMul sw g x => Sys2Proof.Machine.execFpuMul sw g x s
  | .fpuFma sw g x => Sys2Proof.Machine.execFpuFma sw g x s
  | .fpuDiv sw g x => Sys2Proof.Machine.execFpuDiv sw g x s
  | .fpuSqrt sw g x => Sys2Proof.Machine.execFpuSqrt sw g x s
  | .fpuCmp sw g x => Sys2Proof.Machine.execFpuCmp sw g x s
  | .fpuToi sw g x => Sys2Proof.Machine.execFpuToi sw g x s
  | .fpuTof sw g x => Sys2Proof.Machine.execFpuTof sw g x s
  | .sfuExp2 sw g x => Sys2Proof.Machine.execSfuExp2 sw g x s
  | .sfuLog2 sw g x => Sys2Proof.Machine.execSfuLog2 sw g x s
  | .sfuRcp sw g x => Sys2Proof.Machine.execSfuRcp sw g x s
  | .sfuRsq sw g x => Sys2Proof.Machine.execSfuRsq sw g x s
  | .sfuSin sw g x => Sys2Proof.Machine.execSfuSin sw g x s
  | .sfuCos sw g x => Sys2Proof.Machine.execSfuCos sw g x s
  | .amoAdd sw g x => Sys2Proof.Machine.execAmoAdd sw g x s
  | .amoMin sw g x => Sys2Proof.Machine.execAmoMin sw g x s
  | .amoMax sw g x => Sys2Proof.Machine.execAmoMax sw g x s
  | .amoAnd sw g x => Sys2Proof.Machine.execAmoAnd sw g x s
  | .amoOr sw g x => Sys2Proof.Machine.execAmoOr sw g x s
  | .amoXor sw g x => Sys2Proof.Machine.execAmoXor sw g x s
  | .amoLrw sw g x => Sys2Proof.Machine.execAmoLrw sw g x s
  | .amoScr sw g x => Sys2Proof.Machine.execAmoScr sw g x s
  | .synFence sw g x => Sys2Proof.Machine.execSynFence sw g x s
  | .synAcq sw g x => Sys2Proof.Machine.execSynAcq sw g x s
  | .synRel sw g x => Sys2Proof.Machine.execSynRel sw g x s
  | .synArrive sw g x => Sys2Proof.Machine.execSynArrive sw g x s
  | .synWait sw g x => Sys2Proof.Machine.execSynWait sw g x s
  | .synMask sw g x => Sys2Proof.Machine.execSynMask sw g x s
  | .strBind sw g x => Sys2Proof.Machine.execStrBind sw g x s
  | .strFree sw g x => Sys2Proof.Machine.execStrFree sw g x s
  | .mxRun sw g x => Sys2Proof.Machine.execMxRun sw g x s
  | .mxCnt sw g x => Sys2Proof.Machine.execMxCnt sw g x s
  | .mxDrn sw g x => Sys2Proof.Machine.execMxDrn sw g x s
  | .mxMrg sw g x => Sys2Proof.Machine.execMxMrg sw g x s
  | .mxSt sw g x => Sys2Proof.Machine.execMxSt sw g x s
  | .mxWait sw g x => Sys2Proof.Machine.execMxWait sw g x s
  | .ndWant sw g x => Sys2Proof.Machine.execNdWant sw g x s
  | .ndGive sw g x => Sys2Proof.Machine.execNdGive sw g x s
  | .ndDrop sw g x => Sys2Proof.Machine.execNdDrop sw g x s
  | .ndCard sw g x => Sys2Proof.Machine.execNdCard sw g x s
  | .cpyGo sw g x => Sys2Proof.Machine.execCpyGo sw g x s
  | .msgSend sw g x => Sys2Proof.Machine.execMsgSend sw g x s
  | .msgRecv sw g x => Sys2Proof.Machine.execMsgRecv sw g x s
  | .msgAny sw g x => Sys2Proof.Machine.execMsgAny sw g x s
  | .tskPush sw g x => Sys2Proof.Machine.execTskPush sw g x s
  | .tskPop sw g x => Sys2Proof.Machine.execTskPop sw g x s
  | .tskPark sw g x => Sys2Proof.Machine.execTskPark sw g x s
  | .tskYield sw g x => Sys2Proof.Machine.execTskYield sw g x s
  | .sysCrr sw g x => Sys2Proof.Machine.execSysCrr sw g x s
  | .sysCrw sw g x => Sys2Proof.Machine.execSysCrw sw g x s
  | .sysEret sw g x => Sys2Proof.Machine.execSysEret sw g x s
  | .sysTlbi sw g x => Sys2Proof.Machine.execSysTlbi sw g x s
  | .sysMwait sw g x => Sys2Proof.Machine.execSysMwait sw g x s
  | .sysHalt sw g x => Sys2Proof.Machine.execSysHalt sw g x s
  | .rngNext sw g x => Sys2Proof.Machine.execRngNext sw g x s
  | .streamWordHoldRelease slot => Sys2Proof.Machine.execStreamWordHoldRelease slot s
  | .fixedResultDelivery slot => Sys2Proof.Machine.execFixedResultDelivery slot s
  | .fencedResultDelivery slot => Sys2Proof.Machine.execFencedResultDelivery slot s
  | .switchMarkerRelease slot => Sys2Proof.Machine.execSwitchMarkerRelease slot s
  | .tlbMissWalk slot va => Sys2Proof.Machine.execTlbMissWalk slot va s
  | .tlbiAcknowledge by_ => Sys2Proof.Machine.execTlbiAcknowledge by_ s
  | .postedStoreDepart slot ix => Sys2Proof.Machine.execPostedStoreDepart slot ix s
  | .requestArrive r => Sys2Proof.Machine.execRequestArrive r s
  | .homeSliceWrite ix => Sys2Proof.Machine.execHomeSliceWrite ix s
  | .sharedCopyInvalidation die line => Sys2Proof.Machine.execSharedCopyInvalidation die line s
  | .writeAcknowledge ix => Sys2Proof.Machine.execWriteAcknowledge ix s
  | .lineReadMiss die line => Sys2Proof.Machine.execLineReadMiss die line s
  | .lrwRequestArrive r => Sys2Proof.Machine.execLrwRequestArrive r s
  | .bankRequestPerform ix => Sys2Proof.Machine.execBankRequestPerform ix s
  | .copyStart ix => Sys2Proof.Machine.execCopyStart ix s
  | .copyChunk ix => Sys2Proof.Machine.execCopyChunk ix s
  | .copyComplete ix => Sys2Proof.Machine.execCopyComplete ix s
  | .trackCommandPerform n => Sys2Proof.Machine.execTrackCommandPerform n s
  | .trackClear n found => Sys2Proof.Machine.execTrackClear n found s
  | .patternElementRead n => Sys2Proof.Machine.execPatternElementRead n s
  | .patternElementWrite n => Sys2Proof.Machine.execPatternElementWrite n s
  | .vecReplayTransport slot => Sys2Proof.Machine.execVecReplayTransport slot s
  | .mxCommandPerform own => Sys2Proof.Machine.execMxCommandPerform own s
  | .mxLatchHandoff h => Sys2Proof.Machine.execMxLatchHandoff h s
  | .interestArrive k nm face => Sys2Proof.Machine.execInterestArrive k nm face s
  | .tileArrive k nm t => Sys2Proof.Machine.execTileArrive k nm t s
  | .giveArrive k nm t by_ => Sys2Proof.Machine.execGiveArrive k nm t by_ s
  | .retireNoticeArrive cid tensor iter producer => Sys2Proof.Machine.execRetireNoticeArrive cid tensor iter producer s
  | .iterationClose k cid tensor iter => Sys2Proof.Machine.execIterationClose k cid tensor iter s
  | .settleEmptyNotice k nm withdrawn => Sys2Proof.Machine.execSettleEmptyNotice k nm withdrawn s
  | .interestWithdrawal k nm face => Sys2Proof.Machine.execInterestWithdrawal k nm face s
  | .peerWithdrawalNotice port cid => Sys2Proof.Machine.execPeerWithdrawalNotice port cid s
  | .cardTaskPush id => Sys2Proof.Machine.execCardTaskPush id s
  | .messageArrive core id data => Sys2Proof.Machine.execMessageArrive core id data s
  | .barrierNetworkArrival grp thread => Sys2Proof.Machine.execBarrierNetworkArrival grp thread s
  | .generationClose grp => Sys2Proof.Machine.execGenerationClose grp s
  | .launchSlotTake cid q => Sys2Proof.Machine.execLaunchSlotTake cid q s
  | .placement launch team x y => Sys2Proof.Machine.execPlacement launch team x y s
  | .taskBegin slot => Sys2Proof.Machine.execTaskBegin slot s
  | .threadEnd slot => Sys2Proof.Machine.execThreadEnd slot s
  | .taskDispatch => Sys2Proof.Machine.execTaskDispatch s
  | .launchCompletion launch => Sys2Proof.Machine.execLaunchCompletion launch s
  | .quantumExpiry slot => Sys2Proof.Machine.execQuantumExpiry slot s
  | .teamSwapOut => Sys2Proof.Machine.execTeamSwapOut s
  | .teamRestore x y => Sys2Proof.Machine.execTeamRestore x y s
  | .impreciseFaultArrival slot seq cause => Sys2Proof.Machine.execImpreciseFaultArrival slot seq cause s
  | .trapEntry slot => Sys2Proof.Machine.execTrapEntry slot s
  | .userLevelEntry slot => Sys2Proof.Machine.execUserLevelEntry slot s
  | .threadKill slot => Sys2Proof.Machine.execThreadKill slot s
  | .gleaning cluster failed => Sys2Proof.Machine.execGleaning cluster failed s
  | .crossTriggerStop wide => Sys2Proof.Machine.execCrossTriggerStop wide s
  | .crossTriggerRelease => Sys2Proof.Machine.execCrossTriggerRelease s
  | .watchpointInsert g => Sys2Proof.Machine.execWatchpointInsert g s
  | .watchpointClear => Sys2Proof.Machine.execWatchpointClear s
  | .traceEpochOverflow ticks => Sys2Proof.Machine.execTraceEpochOverflow ticks s
  | .islandInterval => Sys2Proof.Machine.execIslandInterval s
  | .cxlMemRead hpa => Sys2Proof.Machine.execCxlMemRead hpa s
  | .cxlMemWritePlain hpa data en => Sys2Proof.Machine.execCxlMemWritePlain hpa data en s
  | .cxlMemWriteFull hpa data en => Sys2Proof.Machine.execCxlMemWriteFull hpa data en s
  | .snpdata line => Sys2Proof.Machine.execSnpdata line s
  | .snpinv line data => Sys2Proof.Machine.execSnpinv line data s
  | .cxlCacheResponse line data error => Sys2Proof.Machine.execCxlCacheResponse line data error s
  | .psiporFlitReceive port crcOk k p => Sys2Proof.Machine.execPsiporFlitReceive port crcOk k p s
  | .linkRetrainTimeout port => Sys2Proof.Machine.execLinkRetrainTimeout port s
  | .herrClear => Sys2Proof.Machine.execHerrClear s
  | .mcstClear cluster bank v => Sys2Proof.Machine.execMcstClear cluster bank v s
  | .negoGo => Sys2Proof.Machine.execNegoGo s
  | .sysint v => Sys2Proof.Machine.execSysint v s
  | .ctxcmd v => Sys2Proof.Machine.execCtxcmd v s
  | .registerWrite at_ v => Sys2Proof.Machine.execRegisterWrite at_ v s
  | .spdmRequest block nonce => Sys2Proof.Machine.execSpdmRequest block nonce s
  | .moduleReset => Sys2Proof.Machine.execModuleReset s
  | .contextDies why => Sys2Proof.Machine.execContextDies why s
  | .linkFault port => Sys2Proof.Machine.execLinkFault port s
  | .linkRetrained port => Sys2Proof.Machine.execLinkRetrained port s
  | .thermalOrCurrentLimit island on => Sys2Proof.Machine.execThermalOrCurrentLimit island on s
  | .firmwareTgtWrite island tgt => Sys2Proof.Machine.execFirmwareTgtWrite island tgt s
  | .cxlIoUndefinedAccess off => Sys2Proof.Machine.execCxlIoUndefinedAccess off s

end Sys2Proof.Machine
end

