-- ==== Sys2Proof/WellFormed.lean ====
section
/-! DEFINITION. Which terms of Instr stand for words: the sources and destinations that each form reaches (R28, R30), and the guards that a word can carry (R29). Steps that no word encodes are well-formed as they stand. -/

namespace Sys2Proof

/-- Sources of a short word: every source code, and the immediates of five bits (R28). -/
def Source.short : Source → Bool
  | .imm8 _ | .imm15 _ => false
  | _ => true

/-- Sources of a long word (R30). -/
def Source.long : Source → Bool
  | .imm5 _ => false
  | _ => true

/-- Destinations that a short word reaches, codes 0 to 63 (R28). -/
def Dest.short : Dest → Bool
  | .w _ | .q _ | .str _ | .p _ => true
  | _ => false

/-- Guards name p1 to p15 (R15, R29). -/
def Guard.ok : Guard → Bool
  | .always => true
  | .ifTrue n | .ifFalse n => n.val != 0

def Instr.wellFormed : Instr → Bool
  | .transportShort _ d c => d.short && c.short
  | .transportLong _ g _ x => g.ok && x.long
  | .aluAddShort _ c => c.short
  | .aluAddLong _ g x => g.ok && x.long
  | .aluSubShort _ c => c.short
  | .aluSubLong _ g x => g.ok && x.long
  | .aluAndShort _ c => c.short
  | .aluAndLong _ g x => g.ok && x.long
  | .aluOrShort _ c => c.short
  | .aluOrLong _ g x => g.ok && x.long
  | .aluXorShort _ c => c.short
  | .aluXorLong _ g x => g.ok && x.long
  | .aluShlShort _ c => c.short
  | .aluShlLong _ g x => g.ok && x.long
  | .aluShrShort _ c => c.short
  | .aluShrLong _ g x => g.ok && x.long
  | .aluSraShort _ c => c.short
  | .aluSraLong _ g x => g.ok && x.long
  | .aluSltShort _ c => c.short
  | .aluSltLong _ g x => g.ok && x.long
  | .aluSltuShort _ c => c.short
  | .aluSltuLong _ g x => g.ok && x.long
  | .aluSeqShort _ c => c.short
  | .aluSeqLong _ g x => g.ok && x.long
  | .aluMinShort _ c => c.short
  | .aluMinLong _ g x => g.ok && x.long
  | .aluMaxShort _ c => c.short
  | .aluMaxLong _ g x => g.ok && x.long
  | .aluMinuShort _ c => c.short
  | .aluMinuLong _ g x => g.ok && x.long
  | .aluMaxuShort _ c => c.short
  | .aluMaxuLong _ g x => g.ok && x.long
  | .aluSxbShort _ c => c.short
  | .aluSxbLong _ g x => g.ok && x.long
  | .aluSxhShort _ c => c.short
  | .aluSxhLong _ g x => g.ok && x.long
  | .aluClzShort _ c => c.short
  | .aluClzLong _ g x => g.ok && x.long
  | .aluPopcShort _ c => c.short
  | .aluPopcLong _ g x => g.ok && x.long
  | .mulMulShort _ c => c.short
  | .mulMulLong _ g x => g.ok && x.long
  | .mulMulhShort _ c => c.short
  | .mulMulhLong _ g x => g.ok && x.long
  | .mulMulhuShort _ c => c.short
  | .mulMulhuLong _ g x => g.ok && x.long
  | .mulMadShort _ c => c.short
  | .mulMadLong _ g x => g.ok && x.long
  | .mulDivShort _ c => c.short
  | .mulDivLong _ g x => g.ok && x.long
  | .mulDivuShort _ c => c.short
  | .mulDivuLong _ g x => g.ok && x.long
  | .mulRemShort _ c => c.short
  | .mulRemLong _ g x => g.ok && x.long
  | .mulRemuShort _ c => c.short
  | .mulRemuLong _ g x => g.ok && x.long
  | .memLd8Short _ c => c.short
  | .memLd8Long _ g x => g.ok && x.long
  | .memLd8sShort _ c => c.short
  | .memLd8sLong _ g x => g.ok && x.long
  | .memLd16Short _ c => c.short
  | .memLd16Long _ g x => g.ok && x.long
  | .memLd16sShort _ c => c.short
  | .memLd16sLong _ g x => g.ok && x.long
  | .memLd32Short _ c => c.short
  | .memLd32Long _ g x => g.ok && x.long
  | .memLd32sShort _ c => c.short
  | .memLd32sLong _ g x => g.ok && x.long
  | .memLd64Short _ c => c.short
  | .memLd64Long _ g x => g.ok && x.long
  | .memLdqShort _ c => c.short
  | .memLdqLong _ g x => g.ok && x.long
  | .memSt8Short _ c => c.short
  | .memSt8Long _ g x => g.ok && x.long
  | .memSt16Short _ c => c.short
  | .memSt16Long _ g x => g.ok && x.long
  | .memSt32Short _ c => c.short
  | .memSt32Long _ g x => g.ok && x.long
  | .memSt64Short _ c => c.short
  | .memSt64Long _ g x => g.ok && x.long
  | .memStqShort _ c => c.short
  | .memStqLong _ g x => g.ok && x.long
  | .memLdfShort _ c => c.short
  | .memLdfLong _ g x => g.ok && x.long
  | .memLdtShort _ c => c.short
  | .memLdtLong _ g x => g.ok && x.long
  | .memStfShort _ c => c.short
  | .memStfLong _ g x => g.ok && x.long
  | .memSteShort _ c => c.short
  | .memSteLong _ g x => g.ok && x.long
  | .prdPandShort _ c => c.short
  | .prdPandLong _ g x => g.ok && x.long
  | .prdPorShort _ c => c.short
  | .prdPorLong _ g x => g.ok && x.long
  | .prdPxorShort _ c => c.short
  | .prdPxorLong _ g x => g.ok && x.long
  | .prdPandnShort _ c => c.short
  | .prdPandnLong _ g x => g.ok && x.long
  | .ctlJmpShort _ c => c.short
  | .ctlJmpLong _ g x => g.ok && x.long
  | .ctlJrelShort _ c => c.short
  | .ctlJrelLong _ g x => g.ok && x.long
  | .ctlCallShort _ c => c.short
  | .ctlCallLong _ g x => g.ok && x.long
  | .ctlRetShort _ c => c.short
  | .ctlRetLong _ g x => g.ok && x.long
  | .ctlTrapShort _ c => c.short
  | .ctlTrapLong _ g x => g.ok && x.long
  | .idxTixShort _ c => c.short
  | .idxTixLong _ g x => g.ok && x.long
  | .idxAdrShort _ c => c.short
  | .idxAdrLong _ g x => g.ok && x.long
  | .idxBndShort _ c => c.short
  | .idxBndLong _ g x => g.ok && x.long
  | .trkClaimShort _ c => c.short
  | .trkClaimLong _ g x => g.ok && x.long
  | .trkFreeShort _ c => c.short
  | .trkFreeLong _ g x => g.ok && x.long
  | .trkSeekShort _ c => c.short
  | .trkSeekLong _ g x => g.ok && x.long
  | .trkStepShort _ c => c.short
  | .trkStepLong _ g x => g.ok && x.long
  | .trkRdsShort _ c => c.short
  | .trkRdsLong _ g x => g.ok && x.long
  | .trkWrsShort _ c => c.short
  | .trkWrsLong _ g x => g.ok && x.long
  | .trkRwdShort _ c => c.short
  | .trkRwdLong _ g x => g.ok && x.long
  | .trkHeadShort _ c => c.short
  | .trkHeadLong _ g x => g.ok && x.long
  | .vecAdd _ g x => g.ok && x.long
  | .vecSub _ g x => g.ok && x.long
  | .vecMul _ g x => g.ok && x.long
  | .vecMad _ g x => g.ok && x.long
  | .vecMin _ g x => g.ok && x.long
  | .vecMax _ g x => g.ok && x.long
  | .vecAnd _ g x => g.ok && x.long
  | .vecOr _ g x => g.ok && x.long
  | .vecXor _ g x => g.ok && x.long
  | .vecShl _ g x => g.ok && x.long
  | .vecShr _ g x => g.ok && x.long
  | .vecSra _ g x => g.ok && x.long
  | .vecCeq _ g x => g.ok && x.long
  | .vecClt _ g x => g.ok && x.long
  | .vecSel _ g x => g.ok && x.long
  | .vecShf _ g x => g.ok && x.long
  | .vecPak _ g x => g.ok && x.long
  | .vecUnp _ g x => g.ok && x.long
  | .vecCvt _ g x => g.ok && x.long
  | .vecDot _ g x => g.ok && x.long
  | .vecSum _ g x => g.ok && x.long
  | .vecExt _ g x => g.ok && x.long
  | .vecRec _ g x => g.ok && x.long
  | .vecRun _ g x => g.ok && x.long
  | .fpuAdd _ g x => g.ok && x.long
  | .fpuSub _ g x => g.ok && x.long
  | .fpuMul _ g x => g.ok && x.long
  | .fpuFma _ g x => g.ok && x.long
  | .fpuDiv _ g x => g.ok && x.long
  | .fpuSqrt _ g x => g.ok && x.long
  | .fpuCmp _ g x => g.ok && x.long
  | .fpuToi _ g x => g.ok && x.long
  | .fpuTof _ g x => g.ok && x.long
  | .sfuExp2 _ g x => g.ok && x.long
  | .sfuLog2 _ g x => g.ok && x.long
  | .sfuRcp _ g x => g.ok && x.long
  | .sfuRsq _ g x => g.ok && x.long
  | .sfuSin _ g x => g.ok && x.long
  | .sfuCos _ g x => g.ok && x.long
  | .amoAdd _ g x => g.ok && x.long
  | .amoMin _ g x => g.ok && x.long
  | .amoMax _ g x => g.ok && x.long
  | .amoAnd _ g x => g.ok && x.long
  | .amoOr _ g x => g.ok && x.long
  | .amoXor _ g x => g.ok && x.long
  | .amoLrw _ g x => g.ok && x.long
  | .amoScr _ g x => g.ok && x.long
  | .synFence _ g x => g.ok && x.long
  | .synAcq _ g x => g.ok && x.long
  | .synRel _ g x => g.ok && x.long
  | .synArrive _ g x => g.ok && x.long
  | .synWait _ g x => g.ok && x.long
  | .synMask _ g x => g.ok && x.long
  | .strBind _ g x => g.ok && x.long
  | .strFree _ g x => g.ok && x.long
  | .mxRun _ g x => g.ok && x.long
  | .mxCnt _ g x => g.ok && x.long
  | .mxDrn _ g x => g.ok && x.long
  | .mxMrg _ g x => g.ok && x.long
  | .mxSt _ g x => g.ok && x.long
  | .mxWait _ g x => g.ok && x.long
  | .ndWant _ g x => g.ok && x.long
  | .ndGive _ g x => g.ok && x.long
  | .ndDrop _ g x => g.ok && x.long
  | .ndCard _ g x => g.ok && x.long
  | .cpyGo _ g x => g.ok && x.long
  | .msgSend _ g x => g.ok && x.long
  | .msgRecv _ g x => g.ok && x.long
  | .msgAny _ g x => g.ok && x.long
  | .tskPush _ g x => g.ok && x.long
  | .tskPop _ g x => g.ok && x.long
  | .tskPark _ g x => g.ok && x.long
  | .tskYield _ g x => g.ok && x.long
  | .sysCrr _ g x => g.ok && x.long
  | .sysCrw _ g x => g.ok && x.long
  | .sysEret _ g x => g.ok && x.long
  | .sysTlbi _ g x => g.ok && x.long
  | .sysMwait _ g x => g.ok && x.long
  | .sysHalt _ g x => g.ok && x.long
  | .rngNext _ g x => g.ok && x.long
  | .streamWordHoldRelease _ => true
  | .fixedResultDelivery _ => true
  | .fencedResultDelivery _ => true
  | .switchMarkerRelease _ => true
  | .tlbMissWalk _ _ => true
  | .tlbiAcknowledge _ => true
  | .postedStoreDepart _ _ => true
  | .requestArrive _ => true
  | .homeSliceWrite _ => true
  | .sharedCopyInvalidation _ _ => true
  | .writeAcknowledge _ => true
  | .lineReadMiss _ _ => true
  | .lrwRequestArrive _ => true
  | .bankRequestPerform _ => true
  | .copyStart _ => true
  | .copyChunk _ => true
  | .copyComplete _ => true
  | .trackCommandPerform _ => true
  | .trackClear _ _ => true
  | .patternElementRead _ => true
  | .patternElementWrite _ => true
  | .vecReplayTransport _ => true
  | .mxCommandPerform _ => true
  | .mxLatchHandoff _ => true
  | .interestArrive _ _ _ => true
  | .tileArrive _ _ _ => true
  | .giveArrive _ _ _ _ => true
  | .retireNoticeArrive _ _ _ _ => true
  | .iterationClose _ _ _ _ => true
  | .settleEmptyNotice _ _ _ => true
  | .interestWithdrawal _ _ _ => true
  | .peerWithdrawalNotice _ _ => true
  | .cardTaskPush _ => true
  | .messageArrive _ _ _ => true
  | .barrierNetworkArrival _ _ => true
  | .generationClose _ => true
  | .launchSlotTake _ _ => true
  | .placement _ _ _ _ => true
  | .taskBegin _ => true
  | .threadEnd _ => true
  | .taskDispatch => true
  | .launchCompletion _ => true
  | .quantumExpiry _ => true
  | .teamSwapOut => true
  | .teamRestore _ _ => true
  | .impreciseFaultArrival _ _ _ => true
  | .trapEntry _ => true
  | .userLevelEntry _ => true
  | .threadKill _ => true
  | .gleaning _ _ => true
  | .crossTriggerStop _ => true
  | .crossTriggerRelease => true
  | .watchpointInsert _ => true
  | .watchpointClear => true
  | .traceEpochOverflow _ => true
  | .islandInterval => true
  | .cxlMemRead _ => true
  | .cxlMemWritePlain _ _ _ => true
  | .cxlMemWriteFull _ _ _ => true
  | .snpdata _ => true
  | .snpinv _ _ => true
  | .cxlCacheResponse _ _ _ => true
  | .psiporFlitReceive _ _ _ _ => true
  | .linkRetrainTimeout _ => true
  | .herrClear => true
  | .mcstClear _ _ _ => true
  | .negoGo => true
  | .sysint _ => true
  | .ctxcmd _ => true
  | .registerWrite _ _ => true
  | .spdmRequest _ _ => true
  | .moduleReset => true
  | .contextDies _ => true
  | .linkFault _ => true
  | .linkRetrained _ => true
  | .thermalOrCurrentLimit _ _ => true
  | .firmwareTgtWrite _ _ => true
  | .cxlIoUndefinedAccess _ => true

end Sys2Proof
end

