-- ==== Sys2Proof/Decode.lean ====
section
/-! DEFINITION. Decoding of 16- and 32-bit words (R24 to R31, R35, R46, R50), total on any bytes and rejecting by name; then the encoder, from the same tables. -/

namespace Sys2Proof

/-- Why a pattern is an illegal encoding (R50); `missing` says that the bytes end too early. -/
inductive BadWord where
  | reservedSource | reservedDest | guard16 | sourceBits
  | missing
  deriving DecidableEq, Repr

/-- What decoding gives: an instruction with its length in bytes, or the reason for refusing. -/
inductive Decoded where
  | ok (i : Instr) (len : Nat)
  | bad (why : BadWord)
  deriving DecidableEq, Repr

/-- Result ports by source code less 64 (R36). -/
def RPort.list : List RPort := [
  .aluO, .mulO, .mulH, .memO, .memOq, .idxO0, .idxO1, .idxO2, .idxO3, .idxO4, .vecO, .fpuO, .fpuF, .sfuO, .trkO, .trkH,
  .amoO, .synO, .ndO, .cpyO, .msgO, .msgId, .tskO, .sysO, .rngO, .mxO]

/-- Operand and configuration ports by destination code less 72 (R32). -/
def OPort.list : List OPort := [
  .aluB, .mulB, .mulC, .memD, .memQ, .vecB, .vecC, .vecTy, .fpuB, .fpuC, .fpuTy, .idxB, .idxSh, .trkN, .trkD, .amoB, .amoT,
  .synSc, .ndD, .msgD, .tskPr, .lk, .rngS]

/-- The sources of codes 0 to 89, common to both forms (R35). -/
def sourceOfCode (n : Nat) : Option Source :=
  if h : n < 24 then some (.w ⟨n, h⟩)
  else if n < 40 then some (.q (Fin.ofNat 16 (n - 24)))
  else if n < 48 then some (.str (Fin.ofNat 8 (n - 40)))
  else if n = 48 then some .pw
  else if n < 53 then some (.x (Fin.ofNat 4 (n - 49)))
  else if n = 53 then some .lk
  else if n = 54 then some .pc
  else if n < 64 then none
  else (RPort.list[n - 64]?).map .port

/-- The seven source bits of a short word (R28). -/
def shortSource (n : Nat) : Option Source :=
  if n < 96 then sourceOfCode n else some (.imm5 (BitVec.ofNat 5 (n - 96)))

/-- The nine source bits of a long word with L = 0 (R35). -/
def src9 (n : Nat) : Option Source :=
  if n < 256 then sourceOfCode n else some (.imm8 (BitVec.ofNat 8 (n - 256)))

/-- Destination codes 0 to 94 (R31). -/
def destOfCode (n : Nat) : Option Dest :=
  if h : n < 24 then some (.w ⟨n, h⟩)
  else if n < 40 then some (.q (Fin.ofNat 16 (n - 24)))
  else if n < 48 then some (.str (Fin.ofNat 8 (n - 40)))
  else if n < 64 then some (.p (Fin.ofNat 16 (n - 48)))
  else if n < 68 then some (.x (Fin.ofNat 4 (n - 64)))
  else if n < 72 then some (.xsh (Fin.ofNat 4 (n - 68)))
  else (OPort.list[n - 72]?).map .port

/-- The guard field (R29). -/
def guardOf (n : Nat) : Option Guard :=
  if n = 0 then some .always
  else if n < 16 then some (.ifTrue (Fin.ofNat 16 n))
  else if n = 16 then none
  else some (.ifFalse (Fin.ofNat 16 (n - 16)))

/-- The short form of an operation, where it has one (R46). -/
def Op.shortForm (o : Op) (s : Bool) (c : Source) : Option Instr :=
  match o with
  | .aluAdd => some (.aluAddShort s c)
  | .aluSub => some (.aluSubShort s c)
  | .aluAnd => some (.aluAndShort s c)
  | .aluOr => some (.aluOrShort s c)
  | .aluXor => some (.aluXorShort s c)
  | .aluShl => some (.aluShlShort s c)
  | .aluShr => some (.aluShrShort s c)
  | .aluSra => some (.aluSraShort s c)
  | .aluSlt => some (.aluSltShort s c)
  | .aluSltu => some (.aluSltuShort s c)
  | .aluSeq => some (.aluSeqShort s c)
  | .aluMin => some (.aluMinShort s c)
  | .aluMax => some (.aluMaxShort s c)
  | .aluMinu => some (.aluMinuShort s c)
  | .aluMaxu => some (.aluMaxuShort s c)
  | .aluSxb => some (.aluSxbShort s c)
  | .aluSxh => some (.aluSxhShort s c)
  | .aluClz => some (.aluClzShort s c)
  | .aluPopc => some (.aluPopcShort s c)
  | .mulMul => some (.mulMulShort s c)
  | .mulMulh => some (.mulMulhShort s c)
  | .mulMulhu => some (.mulMulhuShort s c)
  | .mulMad => some (.mulMadShort s c)
  | .mulDiv => some (.mulDivShort s c)
  | .mulDivu => some (.mulDivuShort s c)
  | .mulRem => some (.mulRemShort s c)
  | .mulRemu => some (.mulRemuShort s c)
  | .memLd8 => some (.memLd8Short s c)
  | .memLd8s => some (.memLd8sShort s c)
  | .memLd16 => some (.memLd16Short s c)
  | .memLd16s => some (.memLd16sShort s c)
  | .memLd32 => some (.memLd32Short s c)
  | .memLd32s => some (.memLd32sShort s c)
  | .memLd64 => some (.memLd64Short s c)
  | .memLdq => some (.memLdqShort s c)
  | .memSt8 => some (.memSt8Short s c)
  | .memSt16 => some (.memSt16Short s c)
  | .memSt32 => some (.memSt32Short s c)
  | .memSt64 => some (.memSt64Short s c)
  | .memStq => some (.memStqShort s c)
  | .memLdf => some (.memLdfShort s c)
  | .memLdt => some (.memLdtShort s c)
  | .memStf => some (.memStfShort s c)
  | .memSte => some (.memSteShort s c)
  | .prdPand => some (.prdPandShort s c)
  | .prdPor => some (.prdPorShort s c)
  | .prdPxor => some (.prdPxorShort s c)
  | .prdPandn => some (.prdPandnShort s c)
  | .ctlJmp => some (.ctlJmpShort s c)
  | .ctlJrel => some (.ctlJrelShort s c)
  | .ctlCall => some (.ctlCallShort s c)
  | .ctlRet => some (.ctlRetShort s c)
  | .ctlTrap => some (.ctlTrapShort s c)
  | .idxTix => some (.idxTixShort s c)
  | .idxAdr => some (.idxAdrShort s c)
  | .idxBnd => some (.idxBndShort s c)
  | .trkClaim => some (.trkClaimShort s c)
  | .trkFree => some (.trkFreeShort s c)
  | .trkSeek => some (.trkSeekShort s c)
  | .trkStep => some (.trkStepShort s c)
  | .trkRds => some (.trkRdsShort s c)
  | .trkWrs => some (.trkWrsShort s c)
  | .trkRwd => some (.trkRwdShort s c)
  | .trkHead => some (.trkHeadShort s c)
  | _ => none

/-- The long form of an operation. -/
def Op.longForm (o : Op) (s : Bool) (g : Guard) (x : Source) : Instr :=
  match o with
  | .aluAdd => .aluAddLong s g x
  | .aluSub => .aluSubLong s g x
  | .aluAnd => .aluAndLong s g x
  | .aluOr => .aluOrLong s g x
  | .aluXor => .aluXorLong s g x
  | .aluShl => .aluShlLong s g x
  | .aluShr => .aluShrLong s g x
  | .aluSra => .aluSraLong s g x
  | .aluSlt => .aluSltLong s g x
  | .aluSltu => .aluSltuLong s g x
  | .aluSeq => .aluSeqLong s g x
  | .aluMin => .aluMinLong s g x
  | .aluMax => .aluMaxLong s g x
  | .aluMinu => .aluMinuLong s g x
  | .aluMaxu => .aluMaxuLong s g x
  | .aluSxb => .aluSxbLong s g x
  | .aluSxh => .aluSxhLong s g x
  | .aluClz => .aluClzLong s g x
  | .aluPopc => .aluPopcLong s g x
  | .mulMul => .mulMulLong s g x
  | .mulMulh => .mulMulhLong s g x
  | .mulMulhu => .mulMulhuLong s g x
  | .mulMad => .mulMadLong s g x
  | .mulDiv => .mulDivLong s g x
  | .mulDivu => .mulDivuLong s g x
  | .mulRem => .mulRemLong s g x
  | .mulRemu => .mulRemuLong s g x
  | .memLd8 => .memLd8Long s g x
  | .memLd8s => .memLd8sLong s g x
  | .memLd16 => .memLd16Long s g x
  | .memLd16s => .memLd16sLong s g x
  | .memLd32 => .memLd32Long s g x
  | .memLd32s => .memLd32sLong s g x
  | .memLd64 => .memLd64Long s g x
  | .memLdq => .memLdqLong s g x
  | .memSt8 => .memSt8Long s g x
  | .memSt16 => .memSt16Long s g x
  | .memSt32 => .memSt32Long s g x
  | .memSt64 => .memSt64Long s g x
  | .memStq => .memStqLong s g x
  | .memLdf => .memLdfLong s g x
  | .memLdt => .memLdtLong s g x
  | .memStf => .memStfLong s g x
  | .memSte => .memSteLong s g x
  | .prdPand => .prdPandLong s g x
  | .prdPor => .prdPorLong s g x
  | .prdPxor => .prdPxorLong s g x
  | .prdPandn => .prdPandnLong s g x
  | .ctlJmp => .ctlJmpLong s g x
  | .ctlJrel => .ctlJrelLong s g x
  | .ctlCall => .ctlCallLong s g x
  | .ctlRet => .ctlRetLong s g x
  | .ctlTrap => .ctlTrapLong s g x
  | .idxTix => .idxTixLong s g x
  | .idxAdr => .idxAdrLong s g x
  | .idxBnd => .idxBndLong s g x
  | .trkClaim => .trkClaimLong s g x
  | .trkFree => .trkFreeLong s g x
  | .trkSeek => .trkSeekLong s g x
  | .trkStep => .trkStepLong s g x
  | .trkRds => .trkRdsLong s g x
  | .trkWrs => .trkWrsLong s g x
  | .trkRwd => .trkRwdLong s g x
  | .trkHead => .trkHeadLong s g x
  | .vecAdd => .vecAdd s g x
  | .vecSub => .vecSub s g x
  | .vecMul => .vecMul s g x
  | .vecMad => .vecMad s g x
  | .vecMin => .vecMin s g x
  | .vecMax => .vecMax s g x
  | .vecAnd => .vecAnd s g x
  | .vecOr => .vecOr s g x
  | .vecXor => .vecXor s g x
  | .vecShl => .vecShl s g x
  | .vecShr => .vecShr s g x
  | .vecSra => .vecSra s g x
  | .vecCeq => .vecCeq s g x
  | .vecClt => .vecClt s g x
  | .vecSel => .vecSel s g x
  | .vecShf => .vecShf s g x
  | .vecPak => .vecPak s g x
  | .vecUnp => .vecUnp s g x
  | .vecCvt => .vecCvt s g x
  | .vecDot => .vecDot s g x
  | .vecSum => .vecSum s g x
  | .vecExt => .vecExt s g x
  | .vecRec => .vecRec s g x
  | .vecRun => .vecRun s g x
  | .fpuAdd => .fpuAdd s g x
  | .fpuSub => .fpuSub s g x
  | .fpuMul => .fpuMul s g x
  | .fpuFma => .fpuFma s g x
  | .fpuDiv => .fpuDiv s g x
  | .fpuSqrt => .fpuSqrt s g x
  | .fpuCmp => .fpuCmp s g x
  | .fpuToi => .fpuToi s g x
  | .fpuTof => .fpuTof s g x
  | .sfuExp2 => .sfuExp2 s g x
  | .sfuLog2 => .sfuLog2 s g x
  | .sfuRcp => .sfuRcp s g x
  | .sfuRsq => .sfuRsq s g x
  | .sfuSin => .sfuSin s g x
  | .sfuCos => .sfuCos s g x
  | .amoAdd => .amoAdd s g x
  | .amoMin => .amoMin s g x
  | .amoMax => .amoMax s g x
  | .amoAnd => .amoAnd s g x
  | .amoOr => .amoOr s g x
  | .amoXor => .amoXor s g x
  | .amoLrw => .amoLrw s g x
  | .amoScr => .amoScr s g x
  | .synFence => .synFence s g x
  | .synAcq => .synAcq s g x
  | .synRel => .synRel s g x
  | .synArrive => .synArrive s g x
  | .synWait => .synWait s g x
  | .synMask => .synMask s g x
  | .strBind => .strBind s g x
  | .strFree => .strFree s g x
  | .mxRun => .mxRun s g x
  | .mxCnt => .mxCnt s g x
  | .mxDrn => .mxDrn s g x
  | .mxMrg => .mxMrg s g x
  | .mxSt => .mxSt s g x
  | .mxWait => .mxWait s g x
  | .ndWant => .ndWant s g x
  | .ndGive => .ndGive s g x
  | .ndDrop => .ndDrop s g x
  | .ndCard => .ndCard s g x
  | .cpyGo => .cpyGo s g x
  | .msgSend => .msgSend s g x
  | .msgRecv => .msgRecv s g x
  | .msgAny => .msgAny s g x
  | .tskPush => .tskPush s g x
  | .tskPop => .tskPop s g x
  | .tskPark => .tskPark s g x
  | .tskYield => .tskYield s g x
  | .sysCrr => .sysCrr s g x
  | .sysCrw => .sysCrw s g x
  | .sysEret => .sysEret s g x
  | .sysTlbi => .sysTlbi s g x
  | .sysMwait => .sysMwait s g x
  | .sysHalt => .sysHalt s g x
  | .rngNext => .rngNext s g x

/-- The fields of a short word (R28). -/
def decodeShortFields (s : Bool) (d c : Nat) : Decoded :=
  match shortSource c with
  | none => .bad .reservedSource
  | some x =>
    if d < 64 then
      match destOfCode d with
      | some t => .ok (.transportShort s t x) 2
      | none => .bad .reservedDest
    else
      match (Op.ofCode (d - 64)).bind (fun o => o.shortForm s x) with
      | some i => .ok i 2
      | none => .bad .reservedDest

/-- The fields of a long word (R29, R30). -/
def decodeLongFields (s : Bool) (g d l src : Nat) : Decoded :=
  match guardOf g with
  | none => .bad .guard16
  | some gd =>
    match (if l = 1 then some (.imm15 (BitVec.ofNat 15 src)) else if 512 ≤ src then none else src9 src) with
    | none => .bad (if l = 0 ∧ 512 ≤ src then .sourceBits else .reservedSource)
    | some x =>
      if d < 128 then
        match destOfCode d with
        | some t => .ok (.transportLong s gd t x) 4
        | none => .bad .reservedDest
      else
        match Op.ofCode (d - 128) with
        | some o => .ok (o.longForm s gd x) 4
        | none => .bad .reservedDest

def decodeShort (h : Nat) : Decoded := decodeShortFields (h / 2 ^ 14 % 2 == 1) (h / 2 ^ 7 % 128) (h % 128)

def decodeLong (w : Nat) : Decoded :=
  decodeLongFields (w / 2 ^ 30 % 2 == 1) (w / 2 ^ 25 % 32) (w / 2 ^ 16 % 512) (w / 2 ^ 15 % 2) (w % 2 ^ 15)

/-- Whether a halfword starts a long word (R24). -/
def isLong (h : Nat) : Bool := h / 2 ^ 15 % 2 == 1

/-- The halfword at the lower address gives bits [31:16] (R24). -/
def decodeHalves (h0 h1 : Nat) : Decoded := if isLong h0 then decodeLong (h0 * 2 ^ 16 + h1) else decodeShort h0

def half (lo hi : Byte) : Nat := lo.toNat + 256 * hi.toNat

/-- Decodes the word at the front of a sequence of bytes. -/
def decode : List Byte → Decoded
  | b0 :: b1 :: r =>
    if isLong (half b0 b1) then
      match r with
      | b2 :: b3 :: _ => decodeLong (half b0 b1 * 2 ^ 16 + half b2 b3)
      | _ => .bad .missing
    else decodeShort (half b0 b1)
  | _ => .bad .missing

-- ## The encoder, from the same tables

def Source.code : Source → Nat
  | .w i => i.val
  | .q i => 24 + i.val
  | .str i => 40 + i.val
  | .pw => 48
  | .x i => 49 + i.val
  | .lk => 53
  | .pc => 54
  | .port r => 64 + r.ctorIdx
  | .imm5 v => 96 + v.toNat
  | .imm8 v => 256 + v.toNat
  | .imm15 v => v.toNat

/-- L of a long word (R30). -/
def Source.l : Source → Nat
  | .imm15 _ => 1
  | _ => 0

def Dest.code : Dest → Nat
  | .w i => i.val
  | .q i => 24 + i.val
  | .str i => 40 + i.val
  | .p i => 48 + i.val
  | .x i => 64 + i.val
  | .xsh i => 68 + i.val
  | .port r => 72 + r.ctorIdx

def Guard.code : Guard → Nat
  | .always => 0
  | .ifTrue n => n.val
  | .ifFalse n => 16 + n.val

def shortWord (s : Bool) (d c : Nat) : Nat := s.toNat * 2 ^ 14 + d * 2 ^ 7 + c
def longWord (s : Bool) (g d l src : Nat) : Nat := 2 ^ 31 + s.toNat * 2 ^ 30 + g * 2 ^ 25 + d * 2 ^ 16 + l * 2 ^ 15 + src

/-- An encoded word: its bits, with the halfword of the lower address on top where it has two. -/
inductive Encoded where
  | short (h : Nat)
  | long (w : Nat)
  deriving DecidableEq, Repr

def encShort (s : Bool) (o : Op) (c : Source) : Option Encoded := some (.short (shortWord s (64 + o.code) c.code))
def encLong (s : Bool) (g : Guard) (o : Op) (x : Source) : Option Encoded := some (.long (longWord s g.code (128 + o.code) x.l x.code))

/-- The word of an instruction; none for a step that no word encodes. -/
def encodeWord : Instr → Option Encoded
  | .transportShort s d c => some (.short (shortWord s d.code c.code))
  | .transportLong s g d x => some (.long (longWord s g.code d.code x.l x.code))
  | .aluAddShort s c => encShort s .aluAdd c
  | .aluAddLong s g x => encLong s g .aluAdd x
  | .aluSubShort s c => encShort s .aluSub c
  | .aluSubLong s g x => encLong s g .aluSub x
  | .aluAndShort s c => encShort s .aluAnd c
  | .aluAndLong s g x => encLong s g .aluAnd x
  | .aluOrShort s c => encShort s .aluOr c
  | .aluOrLong s g x => encLong s g .aluOr x
  | .aluXorShort s c => encShort s .aluXor c
  | .aluXorLong s g x => encLong s g .aluXor x
  | .aluShlShort s c => encShort s .aluShl c
  | .aluShlLong s g x => encLong s g .aluShl x
  | .aluShrShort s c => encShort s .aluShr c
  | .aluShrLong s g x => encLong s g .aluShr x
  | .aluSraShort s c => encShort s .aluSra c
  | .aluSraLong s g x => encLong s g .aluSra x
  | .aluSltShort s c => encShort s .aluSlt c
  | .aluSltLong s g x => encLong s g .aluSlt x
  | .aluSltuShort s c => encShort s .aluSltu c
  | .aluSltuLong s g x => encLong s g .aluSltu x
  | .aluSeqShort s c => encShort s .aluSeq c
  | .aluSeqLong s g x => encLong s g .aluSeq x
  | .aluMinShort s c => encShort s .aluMin c
  | .aluMinLong s g x => encLong s g .aluMin x
  | .aluMaxShort s c => encShort s .aluMax c
  | .aluMaxLong s g x => encLong s g .aluMax x
  | .aluMinuShort s c => encShort s .aluMinu c
  | .aluMinuLong s g x => encLong s g .aluMinu x
  | .aluMaxuShort s c => encShort s .aluMaxu c
  | .aluMaxuLong s g x => encLong s g .aluMaxu x
  | .aluSxbShort s c => encShort s .aluSxb c
  | .aluSxbLong s g x => encLong s g .aluSxb x
  | .aluSxhShort s c => encShort s .aluSxh c
  | .aluSxhLong s g x => encLong s g .aluSxh x
  | .aluClzShort s c => encShort s .aluClz c
  | .aluClzLong s g x => encLong s g .aluClz x
  | .aluPopcShort s c => encShort s .aluPopc c
  | .aluPopcLong s g x => encLong s g .aluPopc x
  | .mulMulShort s c => encShort s .mulMul c
  | .mulMulLong s g x => encLong s g .mulMul x
  | .mulMulhShort s c => encShort s .mulMulh c
  | .mulMulhLong s g x => encLong s g .mulMulh x
  | .mulMulhuShort s c => encShort s .mulMulhu c
  | .mulMulhuLong s g x => encLong s g .mulMulhu x
  | .mulMadShort s c => encShort s .mulMad c
  | .mulMadLong s g x => encLong s g .mulMad x
  | .mulDivShort s c => encShort s .mulDiv c
  | .mulDivLong s g x => encLong s g .mulDiv x
  | .mulDivuShort s c => encShort s .mulDivu c
  | .mulDivuLong s g x => encLong s g .mulDivu x
  | .mulRemShort s c => encShort s .mulRem c
  | .mulRemLong s g x => encLong s g .mulRem x
  | .mulRemuShort s c => encShort s .mulRemu c
  | .mulRemuLong s g x => encLong s g .mulRemu x
  | .memLd8Short s c => encShort s .memLd8 c
  | .memLd8Long s g x => encLong s g .memLd8 x
  | .memLd8sShort s c => encShort s .memLd8s c
  | .memLd8sLong s g x => encLong s g .memLd8s x
  | .memLd16Short s c => encShort s .memLd16 c
  | .memLd16Long s g x => encLong s g .memLd16 x
  | .memLd16sShort s c => encShort s .memLd16s c
  | .memLd16sLong s g x => encLong s g .memLd16s x
  | .memLd32Short s c => encShort s .memLd32 c
  | .memLd32Long s g x => encLong s g .memLd32 x
  | .memLd32sShort s c => encShort s .memLd32s c
  | .memLd32sLong s g x => encLong s g .memLd32s x
  | .memLd64Short s c => encShort s .memLd64 c
  | .memLd64Long s g x => encLong s g .memLd64 x
  | .memLdqShort s c => encShort s .memLdq c
  | .memLdqLong s g x => encLong s g .memLdq x
  | .memSt8Short s c => encShort s .memSt8 c
  | .memSt8Long s g x => encLong s g .memSt8 x
  | .memSt16Short s c => encShort s .memSt16 c
  | .memSt16Long s g x => encLong s g .memSt16 x
  | .memSt32Short s c => encShort s .memSt32 c
  | .memSt32Long s g x => encLong s g .memSt32 x
  | .memSt64Short s c => encShort s .memSt64 c
  | .memSt64Long s g x => encLong s g .memSt64 x
  | .memStqShort s c => encShort s .memStq c
  | .memStqLong s g x => encLong s g .memStq x
  | .memLdfShort s c => encShort s .memLdf c
  | .memLdfLong s g x => encLong s g .memLdf x
  | .memLdtShort s c => encShort s .memLdt c
  | .memLdtLong s g x => encLong s g .memLdt x
  | .memStfShort s c => encShort s .memStf c
  | .memStfLong s g x => encLong s g .memStf x
  | .memSteShort s c => encShort s .memSte c
  | .memSteLong s g x => encLong s g .memSte x
  | .prdPandShort s c => encShort s .prdPand c
  | .prdPandLong s g x => encLong s g .prdPand x
  | .prdPorShort s c => encShort s .prdPor c
  | .prdPorLong s g x => encLong s g .prdPor x
  | .prdPxorShort s c => encShort s .prdPxor c
  | .prdPxorLong s g x => encLong s g .prdPxor x
  | .prdPandnShort s c => encShort s .prdPandn c
  | .prdPandnLong s g x => encLong s g .prdPandn x
  | .ctlJmpShort s c => encShort s .ctlJmp c
  | .ctlJmpLong s g x => encLong s g .ctlJmp x
  | .ctlJrelShort s c => encShort s .ctlJrel c
  | .ctlJrelLong s g x => encLong s g .ctlJrel x
  | .ctlCallShort s c => encShort s .ctlCall c
  | .ctlCallLong s g x => encLong s g .ctlCall x
  | .ctlRetShort s c => encShort s .ctlRet c
  | .ctlRetLong s g x => encLong s g .ctlRet x
  | .ctlTrapShort s c => encShort s .ctlTrap c
  | .ctlTrapLong s g x => encLong s g .ctlTrap x
  | .idxTixShort s c => encShort s .idxTix c
  | .idxTixLong s g x => encLong s g .idxTix x
  | .idxAdrShort s c => encShort s .idxAdr c
  | .idxAdrLong s g x => encLong s g .idxAdr x
  | .idxBndShort s c => encShort s .idxBnd c
  | .idxBndLong s g x => encLong s g .idxBnd x
  | .trkClaimShort s c => encShort s .trkClaim c
  | .trkClaimLong s g x => encLong s g .trkClaim x
  | .trkFreeShort s c => encShort s .trkFree c
  | .trkFreeLong s g x => encLong s g .trkFree x
  | .trkSeekShort s c => encShort s .trkSeek c
  | .trkSeekLong s g x => encLong s g .trkSeek x
  | .trkStepShort s c => encShort s .trkStep c
  | .trkStepLong s g x => encLong s g .trkStep x
  | .trkRdsShort s c => encShort s .trkRds c
  | .trkRdsLong s g x => encLong s g .trkRds x
  | .trkWrsShort s c => encShort s .trkWrs c
  | .trkWrsLong s g x => encLong s g .trkWrs x
  | .trkRwdShort s c => encShort s .trkRwd c
  | .trkRwdLong s g x => encLong s g .trkRwd x
  | .trkHeadShort s c => encShort s .trkHead c
  | .trkHeadLong s g x => encLong s g .trkHead x
  | .vecAdd s g x => encLong s g .vecAdd x
  | .vecSub s g x => encLong s g .vecSub x
  | .vecMul s g x => encLong s g .vecMul x
  | .vecMad s g x => encLong s g .vecMad x
  | .vecMin s g x => encLong s g .vecMin x
  | .vecMax s g x => encLong s g .vecMax x
  | .vecAnd s g x => encLong s g .vecAnd x
  | .vecOr s g x => encLong s g .vecOr x
  | .vecXor s g x => encLong s g .vecXor x
  | .vecShl s g x => encLong s g .vecShl x
  | .vecShr s g x => encLong s g .vecShr x
  | .vecSra s g x => encLong s g .vecSra x
  | .vecCeq s g x => encLong s g .vecCeq x
  | .vecClt s g x => encLong s g .vecClt x
  | .vecSel s g x => encLong s g .vecSel x
  | .vecShf s g x => encLong s g .vecShf x
  | .vecPak s g x => encLong s g .vecPak x
  | .vecUnp s g x => encLong s g .vecUnp x
  | .vecCvt s g x => encLong s g .vecCvt x
  | .vecDot s g x => encLong s g .vecDot x
  | .vecSum s g x => encLong s g .vecSum x
  | .vecExt s g x => encLong s g .vecExt x
  | .vecRec s g x => encLong s g .vecRec x
  | .vecRun s g x => encLong s g .vecRun x
  | .fpuAdd s g x => encLong s g .fpuAdd x
  | .fpuSub s g x => encLong s g .fpuSub x
  | .fpuMul s g x => encLong s g .fpuMul x
  | .fpuFma s g x => encLong s g .fpuFma x
  | .fpuDiv s g x => encLong s g .fpuDiv x
  | .fpuSqrt s g x => encLong s g .fpuSqrt x
  | .fpuCmp s g x => encLong s g .fpuCmp x
  | .fpuToi s g x => encLong s g .fpuToi x
  | .fpuTof s g x => encLong s g .fpuTof x
  | .sfuExp2 s g x => encLong s g .sfuExp2 x
  | .sfuLog2 s g x => encLong s g .sfuLog2 x
  | .sfuRcp s g x => encLong s g .sfuRcp x
  | .sfuRsq s g x => encLong s g .sfuRsq x
  | .sfuSin s g x => encLong s g .sfuSin x
  | .sfuCos s g x => encLong s g .sfuCos x
  | .amoAdd s g x => encLong s g .amoAdd x
  | .amoMin s g x => encLong s g .amoMin x
  | .amoMax s g x => encLong s g .amoMax x
  | .amoAnd s g x => encLong s g .amoAnd x
  | .amoOr s g x => encLong s g .amoOr x
  | .amoXor s g x => encLong s g .amoXor x
  | .amoLrw s g x => encLong s g .amoLrw x
  | .amoScr s g x => encLong s g .amoScr x
  | .synFence s g x => encLong s g .synFence x
  | .synAcq s g x => encLong s g .synAcq x
  | .synRel s g x => encLong s g .synRel x
  | .synArrive s g x => encLong s g .synArrive x
  | .synWait s g x => encLong s g .synWait x
  | .synMask s g x => encLong s g .synMask x
  | .strBind s g x => encLong s g .strBind x
  | .strFree s g x => encLong s g .strFree x
  | .mxRun s g x => encLong s g .mxRun x
  | .mxCnt s g x => encLong s g .mxCnt x
  | .mxDrn s g x => encLong s g .mxDrn x
  | .mxMrg s g x => encLong s g .mxMrg x
  | .mxSt s g x => encLong s g .mxSt x
  | .mxWait s g x => encLong s g .mxWait x
  | .ndWant s g x => encLong s g .ndWant x
  | .ndGive s g x => encLong s g .ndGive x
  | .ndDrop s g x => encLong s g .ndDrop x
  | .ndCard s g x => encLong s g .ndCard x
  | .cpyGo s g x => encLong s g .cpyGo x
  | .msgSend s g x => encLong s g .msgSend x
  | .msgRecv s g x => encLong s g .msgRecv x
  | .msgAny s g x => encLong s g .msgAny x
  | .tskPush s g x => encLong s g .tskPush x
  | .tskPop s g x => encLong s g .tskPop x
  | .tskPark s g x => encLong s g .tskPark x
  | .tskYield s g x => encLong s g .tskYield x
  | .sysCrr s g x => encLong s g .sysCrr x
  | .sysCrw s g x => encLong s g .sysCrw x
  | .sysEret s g x => encLong s g .sysEret x
  | .sysTlbi s g x => encLong s g .sysTlbi x
  | .sysMwait s g x => encLong s g .sysMwait x
  | .sysHalt s g x => encLong s g .sysHalt x
  | .rngNext s g x => encLong s g .rngNext x
  | .streamWordHoldRelease _ => none
  | .fixedResultDelivery _ => none
  | .fencedResultDelivery _ => none
  | .switchMarkerRelease _ => none
  | .tlbMissWalk _ _ => none
  | .tlbiAcknowledge _ => none
  | .postedStoreDepart _ _ => none
  | .requestArrive _ => none
  | .homeSliceWrite _ => none
  | .sharedCopyInvalidation _ _ => none
  | .writeAcknowledge _ => none
  | .lineReadMiss _ _ => none
  | .lrwRequestArrive _ => none
  | .bankRequestPerform _ => none
  | .copyStart _ => none
  | .copyChunk _ => none
  | .copyComplete _ => none
  | .trackCommandPerform _ => none
  | .trackClear _ _ => none
  | .patternElementRead _ => none
  | .patternElementWrite _ => none
  | .vecReplayTransport _ => none
  | .mxCommandPerform _ => none
  | .mxLatchHandoff _ => none
  | .interestArrive _ _ _ => none
  | .tileArrive _ _ _ => none
  | .giveArrive _ _ _ _ => none
  | .retireNoticeArrive _ _ _ _ => none
  | .iterationClose _ _ _ _ => none
  | .settleEmptyNotice _ _ _ => none
  | .interestWithdrawal _ _ _ => none
  | .peerWithdrawalNotice _ _ => none
  | .cardTaskPush _ => none
  | .messageArrive _ _ _ => none
  | .barrierNetworkArrival _ _ => none
  | .generationClose _ => none
  | .launchSlotTake _ _ => none
  | .placement _ _ _ _ => none
  | .taskBegin _ => none
  | .threadEnd _ => none
  | .taskDispatch => none
  | .launchCompletion _ => none
  | .quantumExpiry _ => none
  | .teamSwapOut => none
  | .teamRestore _ _ => none
  | .impreciseFaultArrival _ _ _ => none
  | .trapEntry _ => none
  | .userLevelEntry _ => none
  | .threadKill _ => none
  | .gleaning _ _ => none
  | .crossTriggerStop _ => none
  | .crossTriggerRelease => none
  | .watchpointInsert _ => none
  | .watchpointClear => none
  | .traceEpochOverflow _ => none
  | .islandInterval => none
  | .cxlMemRead _ => none
  | .cxlMemWritePlain _ _ _ => none
  | .cxlMemWriteFull _ _ _ => none
  | .snpdata _ => none
  | .snpinv _ _ => none
  | .cxlCacheResponse _ _ _ => none
  | .psiporFlitReceive _ _ _ _ => none
  | .linkRetrainTimeout _ => none
  | .herrClear => none
  | .mcstClear _ _ _ => none
  | .negoGo => none
  | .sysint _ => none
  | .ctxcmd _ => none
  | .registerWrite _ _ => none
  | .spdmRequest _ _ => none
  | .moduleReset => none
  | .contextDies _ => none
  | .linkFault _ => none
  | .linkRetrained _ => none
  | .thermalOrCurrentLimit _ _ => none
  | .firmwareTgtWrite _ _ => none
  | .cxlIoUndefinedAccess _ => none

/-- The bytes of a word, halfwords little-endian, the first at the lower address (R24). -/
def Encoded.bytes : Encoded → List Byte
  | .short h => bytesLE 2 h
  | .long w => bytesLE 2 (w / 2 ^ 16) ++ bytesLE 2 w

def encode (i : Instr) : Option (List Byte) := (encodeWord i).map Encoded.bytes

/-- The bytes of an instruction whose bits are `w` in the opcode table's numbering, with zeros above `nbits`: a row of 16
bits is one halfword, a row of 32 bits has its first halfword in bits [31:16]. -/
def tableBytes (nbits w : Nat) : List Byte :=
  if nbits ≤ 16 then bytesLE 2 w ++ [0#8, 0#8] else bytesLE 2 (w / 2 ^ 16) ++ bytesLE 2 w

/-- The instruction that the decoder reads from an opcode-table word. -/
def decodeTableWord (nbits w : Nat) : Option Instr :=
  match decode (tableBytes nbits w) with
  | .ok i _ => some i
  | .bad _ => none

end Sys2Proof
end

