-- ==== Sys2Proof/Machine/Fetch.lean ====
section
/-! DEFINITION. Fetching a word's halfwords (R24, R27, R56, R148), and the account of a cycle (R179, R390, R392). -/

namespace Sys2Proof.Machine

/-- What the fetch of a halfword, or of a word, gives. -/
inductive Fetched (α : Type) where
  | ok (x : α) (s : State)
  | bad (cause : Word) (s : State)
  /-- it waits for the walk of a translation (R67) -/
  | miss (va : Nat) (s : State)
  | stop (f : Fault)

/-- The fetch of a halfword misses both TLBs and waits for its walk (R67). -/
def fetchWalk (s : State) (va : Word) : Option Nat :=
  if field va 63 48 ≠ 0 ∨ field va 47 41 = 0x7F then none else walkNeeded s s.thr.walker va

/-- Fills a line of the instruction cache through the die's slice (R81, R148). A poisoned word that the fetch needs stops it with
0x11 kind 2. (DESIGN CHOICE, logs 17 and 76.) -/
def fetchFill (s0 : State) (va : Word) (loc : Nat) : Fetched (List Byte) :=
  let s := lineRead s0 (dieOf s0.coreId) (lineOf loc)
  if markOf (soundMarks s.st (some (dieOf s.coreId))) (loc / 8) = 1#2 then .bad (causeVa 0x11 2 0 (va &&& ~~~(7#64))) s
  else
    let bytes := Mem.read s.st.mem (lineOf loc) 128
    .ok bytes (s.onCore (fun c => { c with icache := ((lineOf loc, bytes) :: c.icache).take 64 }))

/-- Reads two bytes of a paged place through the instruction cache, which keeps the line as it was filled (R148). -/
def fetchHalf (s : State) (va : Word) : Fetched Nat :=
  match fetchWalk s va with
  | some a => .miss a s
  | none =>
  match translateFetch s s.thr.walker va with
  | .bad c s1 => .bad c s1
  | .stop f => .stop f
  | .ok loc _ s1 =>
    let line := lineOf loc
    match s1.core.icache.find? (fun l => l.1 == line) with
    | some l => .ok (natLE ((l.2.drop (loc - line)).take 2)) s1
    | none =>
      match fetchFill s1 va loc with
      | .ok bytes s2 => .ok (natLE ((bytes.drop (loc - line)).take 2)) s2
      | .bad c s2 => .bad c s2
      | .miss a s2 => .miss a s2
      | .stop f => .stop f

/-- Fetches and decodes the word at the current slot's pc: both halfwords before the word issues, an illegal pattern as
cause 0x01 (R24, R27, R50, R51). -/
def fetchWord (s : State) : Fetched Instr :=
  match fetchHalf s s.thr.pc with
  | .bad c s1 => .bad c s1
  | .miss a s1 => .miss a s1
  | .stop f => .stop f
  | .ok h0 s1 =>
    if isLong h0 then
      match fetchHalf s1 (s.thr.pc + 2#64) with
      | .bad c s2 => .bad c s2
      | .miss a s2 => .miss a s2
      | .stop f => .stop f
      | .ok h1 s2 =>
        match decodeHalves h0 h1 with
        | .ok i _ => .ok i s2
        | .bad _ => .bad (causeOf 1) s2
    else
      match decodeHalves h0 0 with
      | .ok i _ => .ok i s1
      | .bad _ => .bad (causeOf 1) s1

/-- Ports whose fenced results count as waiting for memory (R390). -/
def memPort (p : RPort) : Bool := [.memO, .memOq, .trkO, .trkH, .amoO, .ndO, .cpyO, .mxO].contains p

/-- The row of a slot that waits for owed results: those of the area in use, or all, as the next task does (R341). -/
def Thread.owedTurn (t : Thread) (all : Bool) : Turn :=
  let ps := (t.owed.filter (fun o => all || t.reaches o.tag o.area)).flatMap (·.ports)
  if ps.any memPort then .mem
  else if ps.any (fun p => p = .msgO ∨ p = .synO) then .msg else .vac

/-- The counter of R390 that the cycle of a parked slot adds to: the first row that applies. -/
def Thread.parkTurn (t : Thread) : Turn :=
  match t.mode with
  | .fence _ | .acq _ => .mem
  | .mwait => .msg
  | .dispatch => if t.owedTurn true = .mem then .mem else .msg
  | .taskEnd => t.owedTurn true
  | .marker | .ereting | .ending => t.owedTurn false
  | _ => .vac

/-- The end of a cycle: the slot's counter, the core's histogram at the end of a rotation, the slot's rotation, the
reference ticks, and the next slot's cycle (R179, R390, R392). A stopped core's cycles are none of its slot's rotations, so that no
word reads a later result for the stop (R22, R387). (DESIGN CHOICE, log 5.) -/
def advance (s : State) : State :=
  let t := s.thr
  let k : Turn := if s.turn = .vac then t.parkTurn else s.turn
  let i : Fin 4 := match k with | .iss => 0 | .mem => 1 | .msg => 2 | .vac => 3
  let s1 := s.setThr { t with lost := t.lost.set i (t.lost[i] + 1#48), rot := if s.core.stopped then t.rot else t.rot + 1 }
  let n := s.core.issuedNow + (if k = .iss then 1 else 0)
  let last := s.cur.val = 7
  let c := s1.core
  let b : Fin 9 := Fin.ofNat 9 n
  let c1 := { c with
    issuedNow := if last then 0 else n
    hist := if last then c.hist.set b (c.hist[b] + 1#48) else c.hist }
  let tick := s.dbg.ratio ≤ s.dbg.phase + 4
  { s1 with
    core := c1
    cycle := s.cycle + 1
    cur := Fin.ofNat 8 (s.cur.val + 1)
    gap := true
    turn := .vac
    dbg := { s.dbg with
      now := if tick then s.dbg.now + 1 else s.dbg.now
      phase := if tick then s.dbg.phase + 4 - s.dbg.ratio else s.dbg.phase + 4 } }

/-- Where the model's own placement of a single word puts its tables, its code and its save area (withFetchWord). -/
def fetchRoot : Nat := 0x10000
def fetchPage : Nat := 0x20000
def fetchVa : Word := 0x10000#64

/-- Page tables that map `fetchVa` to `fetchPage` for user reads and fetches, and the instruction's bytes. -/
def fetchMemory (m : List Host.Cell) (bytes : List Byte) : List Host.Cell :=
  let m1 := Mem.write m fetchRoot (bytesLE 8 (fetchRoot + 0x1000 + 1))
  let m2 := Mem.write m1 (fetchRoot + 0x1000) (bytesLE 8 (fetchRoot + 0x2000 + 1))
  let m3 := Mem.write m2 (fetchRoot + 0x2000) (bytesLE 8 (fetchRoot + 0x3000 + 1))
  let m4 := Mem.write m3 (fetchRoot + 0x3008) (bytesLE 8 (fetchPage + 0x1B))
  Mem.write m4 fetchPage bytes

end Sys2Proof.Machine
end

