-- ==== Sys2Proof/Machine/Policy.lean ====
section
/-! DEFINITION. Which step comes next where the spec leaves it to timing (log 2): the agents' steps to come and one enabled step of the units between two cycles, what is due in this cycle, then the slot's own cycle. -/

namespace Sys2Proof.Machine

/-- A step that changes something: an event that is not enabled leaves the state as it is. -/
def does (s : State) (o : Out) : Option Out :=
  match o with
  | .next s1 => if s1 = s then none else some o
  | _ => some o

def firstDoes (s : State) : List Out → Option Out
  | [] => none
  | o :: r => (does s o).or (firstDoes s r)

/-- Work that is due in this cycle: window requests in the order of R137, and the slot's results of R22. -/
def due? (s : State) : Option Out :=
  match firstDoes s ((List.range s.st.bankq.length).map (fun i => execBankRequestPerform i s)) with
  | some o => some o
  | none =>
    if !(dueFlights s.thr).isEmpty then some (execFixedResultDelivery s.cur s) else none

/-- The boundary of an interval of the reference counter (R404). -/
def interval? (s : State) : Option Out := if s.dbg.interval < s.dbg.now / 1000 then some (execIslandInterval s) else none

/-- What a request at the head of its path comes to. -/
def pathStep (s : State) (i : Nat) (r : Req) : Out :=
  match r.kind with
  | .msg _ _ _ id data => (match r.msgTo s with | some c => execMessageArrive c id { data, sender := s.coreId, known := [] } s | none => .next s)
  | .arrive g => (match r.slot with | some k => execBarrierNetworkArrival g { thread := s.threadNo k, known := [] } s | none => .next s)
  | .lrw _ _ _ => execLrwRequestArrive (.path i) s
  | _ => execRequestArrive (.path i) s

/-- What a packet does at its router. -/
def packetStep (s : State) (k : Nat) (p : Packet) : Out :=
  match p with
  | .interest nm f => execInterestArrive k nm f s
  | .tile nm t => execTileArrive k nm t s
  | .give nm t b => execGiveArrive k nm t b s
  | .empty nm w => execSettleEmptyNotice k nm w s
  | .withdraw nm f => execInterestWithdrawal k nm f s
  | .retire cid tensor iter n => execRetireNoticeArrive cid tensor iter n s
  | .notice port cid => execPeerWithdrawalNotice port cid s

/-- The steps of a slot's requests and results. -/
def slotSteps (s : State) (i : Fin 8) : List Out :=
  (List.range s.slots[i].psq.length).map (fun k => execPostedStoreDepart i k s) ++
  (match s.slots[i].miss with | some m => [execTlbMissWalk i (BitVec.ofNat 64 m.va) s] | none => []) ++
  [execFencedResultDelivery i s, execVecReplayTransport i s, execQuantumExpiry i s, execTlbiAcknowledge (.own i) s]

/-- The steps of memory: paths, ordering queues, invalidations and acknowledgements. -/
def memorySteps (s : State) : List Out :=
  s.st.paths.zipIdx.map (fun r => pathStep s r.2 r.1) ++
  (List.range s.st.queue.length).map (fun i => execHomeSliceWrite i s) ++
  s.st.acks.flatMap (fun a => ((List.finRange 16).filter (fun d => a.await.getLsbD d.val)).map (fun d => execSharedCopyInvalidation d (lineOf a.loc) s)) ++
  (List.range s.st.acks.length).map (fun i => execWriteAcknowledge i s)

/-- The steps of the core's engines: tracks, streams, copies, the matrix unit, cards and the dispatcher, which gives a stopped slot no
task (R387). -/
def engineSteps (s : State) : List Out :=
  (List.finRange 32).flatMap (fun n => [execTrackCommandPerform n s, execTrackClear n (s.track n).marker s]) ++
  (List.finRange 8).flatMap (fun n => [execPatternElementRead n s, execPatternElementWrite n s]) ++
  (List.range s.core.copies.length).flatMap (fun i => [execCopyStart i s, execCopyChunk i s, execCopyComplete i s]) ++
  [execMxCommandPerform true s, execMxLatchHandoff .out s] ++ (if s.core.stopped then [] else [execTaskDispatch s]) ++
  s.core.cards.map (fun c => execCardTaskPush c.id s)

/-- The steps of the tile network and of barrier groups. A group whose members have all gone closes generation after
generation (R308); that is stepped only while somebody awaits it. (DESIGN CHOICE, log 59.) -/
def netSteps (s : State) : List Out :=
  s.net.packets.map (fun p => packetStep s p.1 p.2) ++
  s.core.retires.map (fun r => execRetireNoticeArrive r.cid r.tensor r.iter (s.threadNo r.slot) s) ++
  s.net.routers.flatMap (fun r => r.pit.map (fun e => execIterationClose r.cluster e.nm.cid e.nm.tensor e.nm.iter s)) ++
  (s.net.groups.filter (fun g => !g.arrived.isEmpty || !g.waits.isEmpty || s.st.resvs.any (fun e => e.grp == g.key))).map
    (fun g => execGenerationClose g.key s)

/-- The corners that firmware tries for a team, from (x, y) on, a whole number of clusters apart: the first that serves, by
fuel (R339). -/
def findCorner (ok : Nat → Nat → Bool) (x y w h k : Nat) : Nat → Option (Nat × Nat)
  | 0 => none
  | n + 1 =>
    let dx := (w + 3) / 4 * 4
    let dy := (h + 1) / 2 * 2
    let cx := (x + k % (1024 / dx) * dx) % (1024 / dx * dx)
    let cy := (y + k / (1024 / dx) * dy) % (1024 / dy * dy)
    if ok cx cy then some (cx, cy) else findCorner ok x y w h (k + 1) n

def corners (l : Launch) : Nat := 1024 / ((l.w + 3) / 4 * 4) * (1024 / ((l.h + 1) / 2 * 2))

/-- Where the next team of launch `n` goes: the first free rectangle from the observed core on (R339). -/
def nextPlace (s : State) (n : Nat) (l : Launch) : Option (Nat × Nat × Nat) :=
  if l.st ≠ 0#8 ∨ l.teams ≤ (s.corners n).length then none
  else
    let ok (x y : Nat) : Bool := placeable s n l l.words[5] x y && !(inRect s x y l.w l.h && s.fw.resident.isSome)
    match (List.range ((s.corners n).length + 1)).find? (fun t => !(s.corners n).any (fun p => p.1 == t)),
        findCorner ok (s.core.x.toNat / l.w * l.w) (s.core.y.toNat / l.h * l.h) l.w l.h 0 (corners l) with
    | some t, some c => some (t, c)
    | _, _ => none

/-- A team waits for the cores of the resident one: one that is out, one with no free rectangle, or the resident team itself, to
migrate (R315, R344, R380). -/
def wantsSwap (s : State) : Bool :=
  !s.images.isEmpty || s.slots.any (fun t => match t.mode with | .migrate _ => true | _ => false) ||
  s.fw.launches.zipIdx.any (fun l => l.1.st == 0#8 && decide ((s.corners l.2).length < l.1.teams) && (nextPlace s l.2 l.1).isNone)

/-- Firmware swaps: it looks once in 2^16 cycles whether a team waits, and carries a swap that it has begun through; with the cores
free, it restores the team that has been out the longest, at its old corner where that serves (R315, R344, R345). (DESIGN CHOICE, log 59.) -/
def swapSteps (s : State) : List Out :=
  match s.fw.resident, s.images with
  | some _, _ => if s.fw.chosen || (decide (s.cycle % 65536 < 8) && wantsSwap s) then [execTeamSwapOut s] else []
  | none, img :: _ =>
    match s.fw.launches[img.launch.1]? with
    | some l =>
      match findCorner (restorable s img l) img.launch.2.2.1 img.launch.2.2.2 l.w l.h 0 (corners l) with
      | some c => [execTeamRestore c.1 c.2 s]
      | none => []
    | none => []
  | none, [] => []

/-- Firmware's steps: the verified start, the completion of the launch whose team stands on the observed core, the taking of launch slots,
placements, and swaps. When a launch elsewhere completes is an agent's step. -/
def firmwareSteps (s : State) : List Out :=
  [startStep s] ++
  (match s.fw.resident with | some r => [execLaunchCompletion r.1 s] | none => []) ++
  s.fw.queues.map (fun q => execLaunchSlotTake q.cid q.q s) ++
  s.fw.launches.zipIdx.filterMap (fun l => (nextPlace s l.2 l.1).map (fun p => execPlacement l.2 p.1 p.2.1 p.2.2 s)) ++
  swapSteps s

/-- Whether the clock of the observed cluster is stopped (R392). -/
def State.clockOff (s : State) : Bool := s.dbg.off.contains (clusterOf s.coreId)

/-- The units' steps; those of the core and its engines need its clock. -/
def unitSteps (s : State) : List Out :=
  (if s.clockOff then [] else (List.finRange 8).flatMap (slotSteps s) ++ engineSteps s) ++
  memorySteps s ++ netSteps s ++ firmwareSteps s ++ [.next (traceWrite s)]

/-- The step of a unit that comes next, if one is enabled: the search starts at a place that moves on with the cycle. -/
def unitStep? (s : State) : Option Out :=
  let l := unitSteps s
  let k := s.cycle % l.length
  firstDoes s (l.drop k ++ l.take k)

/-- What stands before the slot's own cycle: one step of the units, and then what is due, so that a write of an engine falls
before the window requests of the cycle (R137). -/
def pick? (s : State) : Option Out :=
  let s1 := { s with gap := false }
  (if s.gap && !s.wrote then unitStep? s1 else none).or ((if s.clockOff then none else due? s1).or (interval? s1))

/-- What the current slot does in its cycle: a step for `exec`, a precise fault of its fetch, or nothing. -/
inductive SlotTurn where
  | word (i : Instr) (s : State)
  | again (o : Out)
  | event (o : Out)
  | bad (cause : Word) (s : State)
  | vacant (s : State)
  | stop (f : Fault)

/-- How the current slot's park ends, once what it waits for has come (R44, R304, R306, R314, R341, R377, R380). -/
def parkEnd? (s : State) : Option Out :=
  let t := s.thr
  let owes (tag : Nat) : Bool := t.owed.any (fun o => o.tag == tag) || t.flight.any (fun f => f.tag == tag) || (pendingReqs s s.cur).any (fun r => r.tag == tag)
  match t.mode with
  | .marker => if t.pending then none else some (execSwitchMarkerRelease s.cur s)
  | .fence tags => if tags.any (fun g => t.counted.any (fun c => c.tag == g)) then none else some (.next (s.onThr Thread.unpark))
  | .acq tags =>
    if tags.any owes then none else some (.next ((acquire s s.cur ((t.opw .synSc).setWidth 42)).onThr Thread.unpark))
  | .ereting => if returnWaits s s.cur then none else some (returnFromException s s.cur)
  | .migrate want => if (dieFor s want).isSome then none else some (.next (s.onThr Thread.unpark))
  | .taskEnd => if t.idle then does s (execTaskBegin s.cur s) else none
  | .ending => if endReady s s.cur then some (execThreadEnd s.cur s) else none
  | _ => none

/-- The row of R390 for a slot whose word is held, a stop of the core notwithstanding. -/
def heldTurn (s : State) : Turn :=
  let t := s.thr
  match t.mode, t.held with
  | .run, some h => h.why
  | .run, none => if t.miss.isSome then .mem else .vac
  | _, _ => .vac

/-- The word misses a translation: its boundary's event is taken, or it waits for the walk (R67, R368). -/
def missTurn (s : State) (m : TlbMiss) : SlotTurn :=
  if s.thr.event?.isSome then .event (takeEvent s s.cur)
  else .vacant { s.onThr (fun t => { t with miss := some m }) with turn := .mem }

/-- What becomes of a slot whose team is to be swapped out: it has stopped, it stops now, or it is noted at supervisor level
(R344). -/
def stopTurn? (s : State) : Option SlotTurn :=
  let t := s.thr
  if t.stop = .yes then some (.vacant s)
  else if s.fw.chosen && t.mayStop then some (.again (.next (s.onThr Thread.stopHere)))
  else if s.fw.chosen && t.sup && t.stop == .no then some (.again (.next (s.onThr (fun t => { t with stop := .sup }))))
  else none

/-- The current slot's cycle. A stopped clock has no cycles: only the reference counter moves on (R392). In recovery nothing of a launch
runs (R406). -/
def slotTurn (s : State) : SlotTurn :=
  let t := s.thr
  if s.clockOff then .again (.next { s with gap := true, dbg := { s.dbg with now := s.dbg.now + 1 } })
  else if recovery s then .vacant s
  else if s.core.stopped then .vacant { s with turn := heldTurn s }
  else
    match stopTurn? s with
    | some r => r
    | none =>
    match t.mode with
    | .run =>
      match t.held, t.miss with
      | some h, _ =>
        if mayRelease s h || t.event?.isSome then .again (execStreamWordHoldRelease s.cur s) else .vacant { s with turn := heldTurn s }
      | none, some { va, result := none } => missTurn s { va, result := none }
      | none, _ =>
        match fetchWord s with
        | .ok i s1 => .word i s1
        | .bad c s1 => .bad c s1
        | .miss va s1 => missTurn s1 { va, result := none }
        | .stop f => .stop f
    | .absent | .killed => .vacant s
    | .ended =>
      match (if t.faults.isEmpty then none else does s (execThreadEnd s.cur s)) with
      | some o => .again o
      | none => .vacant s
    | .dying => .event (execThreadKill s.cur s)
    | .entering _ => if entryWaits s s.cur then .vacant s else .event (execTrapEntry s.cur s)
    | .userEntering => if entryWaits s s.cur then .vacant s else .event (execUserLevelEntry s.cur s)
    | _ =>
      match (if atBoundary t then t.event? else none) with
      | some .user => .event (execUserLevelEntry s.cur s)
      | some _ => .event (execTrapEntry s.cur s)
      | none =>
        match parkEnd? s with
        | some o => .again o
        | none => .vacant s

/-- The thread and the tables that let the next step fetch one instruction, in a module whose start is past (log 13). -/
def placeWord (s : State) (bytes : List Byte) : State :=
  let psave : Word := 0xFE0000003000#64
  let t0 := s.thr
  let t := ((t0.setCr crCtx (BitVec.ofNat 64 fetchRoot)).setCr crPsave psave)
  let t1 := { t with
    mode := .run, pc := fetchVa, held := none, miss := none, stop := .no, flight := [], areaUse := some psave, areaOld := [], late := []
    seqr := { t.seqr with left := 0 } }
  let e : TlbEntry := { cluster := clusterOf s.coreId, cid := BitVec.ofNat 6 t.cid.val, va := fetchVa.toNat, size := 65536, pa := fetchPage, attr := 6 }
  let here (w : Nat) : Bool := 8 * w / 65536 == fetchPage / 65536
  let s1 := s.setThr t1
  { s1 with
    gap := false
    wrote := false
    schedule := []
    core := { s1.core with icache := [], tlb1 := [e], stopped := false }
    dbg := { s1.dbg with off := s1.dbg.off.filter (· != clusterOf s1.coreId) }
    host := { s1.host with devStat := 4 }
    st := { s1.st with
      mem := fetchMemory s1.st.mem bytes, marks := s1.st.marks.filter (fun m => !here m.1), ecc := s1.st.ecc.filter (fun m => !here m.1)
      tlb2 := [], walkc := [], bankq := [] } }

/-- The bytes of a table word with zeros above it, up to the longest instruction (R24). -/
def wordBytes (nbits w : Nat) : List Byte := tableBytes nbits w

end Sys2Proof.Machine
end

