-- ==== Sys2Proof/Machine/Step.lean ====
section
/-! DEFINITION. One step of the machine: an agent's step, a unit's step, a step that is due, or the current slot's cycle; and where a single word is put to be fetched next. -/

namespace Sys2Proof.Machine

/-- The end of the cycle after a step of the slot. -/
def ending (o : Host.Outcome State Fault Refusal) : Host.Outcome State Fault Refusal :=
  match o with
  | .next s => .next (advance s)
  | .fault f => .fault f
  | .refused r => .refused r

/-- The current slot's cycle: the word at its pc is fetched, decoded and executed, and the cycle ends (R37, R179). -/
def turnStep (s : State) : Host.Outcome State Fault Refusal :=
  match slotTurn s with
  | .word i s1 => ending (exec i s1)
  | .again o => o
  | .event o => ending o
  | .bad c s1 => ending (takePrecise s1 s.cur c)
  | .vacant s1 => .next (advance s1)
  | .stop f => .fault f

def step (s : State) : Host.Outcome State Fault Refusal :=
  match (if s.gap && !s.wrote then s.schedule else []) with
  | i :: r => exec i { s with schedule := r }
  | [] =>
    match pick? s with
    | some o => o
    | none => turnStep { s with gap := false, wrote := false }

/-- The state in which the next step fetches and runs the instruction whose table bits are `w` (log 13). -/
def State.withFetchWord (s : State) (nbits w : Nat) : State := placeWord s (wordBytes nbits w)

end Sys2Proof.Machine
end

