-- ==== Sys2Proof/Safety.lean ====
section
/-! DEFINITION. What counts as a safe run, and the words that claims are stated in: memory's canonical form, the conditions under which a word comes to its own effect, the parts of the machine that a step may keep, and what every issued word leaves behind. -/

namespace Sys2Proof.Safety

open Sys2Proof.Machine

/-- `n` steps from `s` end in a next state. -/
def Runs (n : Nat) (s : State) : Prop := ∃ s', Sys2Proof.core.run n s = .next s'

/-- Memory keeps its canonical form. -/
def MemoryOk (s : State) : Prop := Mem.wf s.st.mem = true

/-- The value that a source delivers, and the state after its pop (R35). -/
abbrev operand (s : State) (x : Source) : Quad := (readSource s x).1
abbrev popped (s : State) (x : Source) : State := (readSource s x).2

/-- A word of this guard and source comes to its operation's own checks and effect: its slot runs, no event is pending, no
capture or run claims the word, its guard holds, its source can be read, and no check of the core is about to fail (R37, R51,
R253, R368, R381). -/
structure CanIssue (g : Guard) (x : Source) (s : State) : Prop where
  runs : s.thr.mode = .run
  quiet : s.thr.event? = none
  noCapture : s.thr.seqr.left = 0
  noRun : s.thr.seqr.run = none
  guarded : guardHolds g s.thr = true
  readable : sourceFault s x = none
  filled : (popOf x).any (popHeld s) = false
  sound : s.core.flaw = 0

/-- Parts of the machine: of the current slot's thread, of its core, and of the rest. -/
inductive Part where
  | mode | w (i : Fin 24) | q (i : Fin 16) | p (i : Fin 16) | x (i : Fin 4) | pc
  | op (r : OPort) | rp (r : RPort) | fence | marks | cr (i : Fin 25)
  | flight | owed | psq | counted | ring | resv | floor | releases | relMark | arrivals | seqr | faults | ints | expiry
  | shadow | areaUse | book | task | matrix | rot
  | others
  | stream (i : Fin 8) | track (i : Fin 32) | l1 | tlbs | shapes | mx | copies | mail | ready | tiles | coreRegs | debugCounts
  | memory | errors | history | lines | requests | monitors
  | net | fw | host | mc | dbg | image | ids | turns
  deriving DecidableEq, Repr

/-- A part is the same in two states. -/
def same (s t : State) : Part → Prop
  | .mode => t.thr.mode = s.thr.mode
  | .w i => t.thr.w[i] = s.thr.w[i]
  | .q i => t.thr.q[i] = s.thr.q[i]
  | .p i => t.thr.pred i = s.thr.pred i
  | .x i => t.thr.x[i] = s.thr.x[i]
  | .pc => t.thr.pc = s.thr.pc
  | .op r => t.thr.opq r = s.thr.opq r
  | .rp r => t.thr.rpq r = s.thr.rpq r
  | .fence => t.thr.fence = s.thr.fence
  | .marks => t.thr.poison = s.thr.poison ∧ t.thr.np = s.thr.np ∧ t.thr.cause4 = s.thr.cause4 ∧ t.thr.headLost = s.thr.headLost
  | .cr i => t.thr.cr[i] = s.thr.cr[i]
  | .flight => t.thr.flight = s.thr.flight
  | .owed => t.thr.owed = s.thr.owed
  | .psq => t.thr.psq = s.thr.psq
  | .counted => t.thr.counted = s.thr.counted
  | .ring => t.thr.ring = s.thr.ring
  | .resv => t.thr.resv = s.thr.resv
  | .floor => t.thr.floor = s.thr.floor
  | .releases => t.thr.relReads = s.thr.relReads
  | .relMark => t.thr.relMark = s.thr.relMark
  | .arrivals => t.thr.arrivals = s.thr.arrivals
  | .seqr => t.thr.seqr = s.thr.seqr
  | .faults => t.thr.faults = s.thr.faults
  | .ints => t.thr.sysint = s.thr.sysint ∧ t.thr.msgint = s.thr.msgint ∧ t.thr.uints = s.thr.uints ∧ t.thr.ucur = s.thr.ucur
  | .expiry => t.thr.expiry = s.thr.expiry
  | .shadow => t.thr.shadow = s.thr.shadow
  | .areaUse => t.thr.areaUse = s.thr.areaUse ∧ t.thr.areaOld = s.thr.areaOld ∧ t.thr.late = s.thr.late
  | .book => t.thr.wordPc = s.thr.wordPc ∧ t.thr.reissue = s.thr.reissue ∧ t.thr.sAfter = s.thr.sAfter ∧
      t.thr.held = s.thr.held ∧ t.thr.miss = s.thr.miss
  | .task => t.thr.task = s.thr.task ∧ t.thr.ntask = s.thr.ntask ∧ t.thr.stride = s.thr.stride ∧
      t.thr.dispatched = s.thr.dispatched ∧ t.thr.stop = s.thr.stop
  | .matrix => t.thr.mxOpen = s.thr.mxOpen ∧ t.thr.mxWaits = s.thr.mxWaits
  | .rot => t.thr.rot = s.thr.rot ∧ t.thr.lost = s.thr.lost
  | .others => ∀ i : Fin 8, i ≠ s.cur → t.slots[i] = s.slots[i]
  | .stream i => t.core.streams[i] = s.core.streams[i]
  | .track i => t.core.tracks[i] = s.core.tracks[i]
  | .l1 => t.core.l1 = s.core.l1 ∧ t.core.l1bad = s.core.l1bad ∧ t.core.icache = s.core.icache
  | .tlbs => t.core.tlb1 = s.core.tlb1 ∧ t.st.tlb2 = s.st.tlb2 ∧ t.st.walkc = s.st.walkc
  | .shapes => t.core.shapes = s.core.shapes
  | .mx => t.core.mx = s.core.mx
  | .copies => t.core.copies = s.core.copies
  | .mail => t.core.mail = s.core.mail ∧ t.core.spill = s.core.spill ∧
      t.core.spillTold = s.core.spillTold ∧ t.core.arrivals = s.core.arrivals ∧ t.core.receives = s.core.receives
  | .ready => t.core.ready = s.core.ready
  | .tiles => t.core.cards = s.core.cards ∧ t.core.ncard = s.core.ncard ∧ t.core.interests = s.core.interests ∧
      t.core.nrec = s.core.nrec ∧ t.core.gives = s.core.gives ∧ t.core.retires = s.core.retires
  | .coreRegs => t.core.x = s.core.x ∧ t.core.y = s.core.y ∧ t.core.bar = s.core.bar ∧ t.core.mboxBase = s.core.mboxBase ∧
      t.core.mboxSz = s.core.mboxSz ∧ t.core.tables = s.core.tables ∧ t.core.filter = s.core.filter ∧
      t.core.flaw = s.core.flaw ∧ t.core.engFlaw = s.core.engFlaw
  | .debugCounts => t.core.hist = s.core.hist ∧ t.core.realigned = s.core.realigned ∧ t.core.issuedNow = s.core.issuedNow ∧
      t.core.stopped = s.core.stopped ∧ t.core.freezing = s.core.freezing
  | .memory => t.st.mem = s.st.mem ∧ t.st.full = s.st.full
  | .errors => t.st.marks = s.st.marks ∧ t.st.ecc = s.st.ecc ∧ t.st.sound = s.st.sound
  | .history => t.st.hist = s.st.hist
  | .lines => t.st.lines = s.st.lines
  | .requests => t.st.paths = s.st.paths ∧ t.st.queue = s.st.queue ∧ t.st.bankq = s.st.bankq ∧ t.st.acks = s.st.acks ∧
      t.st.waiters = s.st.waiters ∧ t.st.resvs = s.st.resvs ∧ t.st.resvWait = s.st.resvWait ∧ t.st.tlbis = s.st.tlbis
  | .monitors => t.st.monitors = s.st.monitors
  | .net => t.net = s.net
  | .fw => t.fw = s.fw
  | .host => t.host = s.host
  | .mc => t.mc = s.mc
  | .dbg => t.dbg = s.dbg
  | .image => t.images = s.images
  | .ids => t.nextId = s.nextId ∧ t.freeCtr = s.freeCtr
  | .turns => t.cycle = s.cycle ∧ t.gap = s.gap ∧ t.wrote = s.wrote ∧ t.turn = s.turn ∧ t.schedule = s.schedule

/-- The frame: every part but those listed is the same. -/
def Keeps (ex : List Part) (s t : State) : Prop := t.cur = s.cur ∧ ∀ p : Part, p ∉ ex → same s t p

/-- What issuing a word may always change: the pc, the quantum's count and its pending expiry (R342, R343), SKIP of cr.wp
(R388), the mark of a syn.rel before it (R305), the bookkeeping of the issue, the stream that its source pops, and, with
S = 1, the park and the fence bits (R44). -/
def issued (sw : Bool) (x : Source) : List Part :=
  [.pc, .cr crQleft, .cr crWp, .expiry, .relMark, .book, .turns] ++
  (match popOf x with | some i => [.stream i] | none => []) ++ (if sw then [.mode, .fence] else [])

/-- What a translation may change: the structures it fills, and the bank log, where a structure it checks was found damaged
(R70, R72, R381). -/
def walks : List Part := [.tlbs, .mc, .host]

/-- What a word that reads memory may change beside its ports: what its translation changes, the lines and the corrections of
what is read, and what its thread knows (R81, R139, R297). -/
def reads : List Part := walks ++ [.lines, .errors, .dbg, .floor, .releases, .ids]

/-- What every completed word leaves: the next pc; and with S = 1 the slot parked where results are owed, and otherwise
running with its fence bits clear (R37, R44). -/
structure Passed (sw : Bool) (next : Word) (t : State) : Prop where
  pc : t.thr.pc = next
  mode : t.thr.mode = if sw && t.thr.pending then .marker else .run
  clears : sw = true → t.thr.pending = false → t.thr.fence = 0

/-- A fixed-latency result under way: `lat` rotations after the trigger, to these ports with these values (R22, R36). -/
def Sends (lat : Nat) (ports : List (RPort × Quad)) (s t : State) : Prop :=
  t.thr.flight = s.thr.flight ++ [{ due := s.thr.rot + lat, tag := s.nextId, ports := ports.map (·.1)
                                    vals := some (ports.map (fun p => { port := p.1, val := p.2, mark := none })), flags := none }]

/-- A fenced result owed: its fence bits are set, and it is tied to the area in use (R42, R371). -/
def Owes (ports : List RPort) (s t : State) : Prop :=
  ∃ o : Owed, t.thr.owed = s.thr.owed ++ [o] ∧ o.tag = s.nextId ∧ o.ports = ports ∧ o.area = s.thr.areaUse

/-- The outcome is a next state of which `P` holds. -/
def Completes (o : Host.Outcome State Fault Refusal) (P : State → Prop) : Prop := ∃ t, o = .next t ∧ P t

/-- A precise fault is taken: the slot enters the exception with the cause, and with the address of the word in cr.epc,
and the word has no other effect (R52, R370). -/
def TakesPrecise (o : Host.Outcome State Fault Refusal) (s : State) (cause : Word) : Prop := o = takePrecise s s.cur cause

end Sys2Proof.Safety
end

