-- ==== Sys2Proof/Certificates/Slice0/Obligations.lean ====
section
/-! DEFINITION. The statements for the provers. Vocabulary: `CanIssue`, `Keeps`, `Passed`, `Sends`, `Owes`, `Completes` of Safety.lean; below, the shapes that several statements share. -/

namespace Sys2Proof.Slice0

open Sys2Proof.Machine Sys2Proof.Safety

/-- A word of length `len` completes: the next pc, the frame with the parts `ex` besides what issuing may change, and `P`. -/
def Done (len : Nat) (sw : Bool) (x : Source) (ex : List Part) (s : State) (P : State → Prop) (o : Host.Outcome State Fault Refusal) : Prop :=
  Completes o (fun t => Passed sw (s.thr.pc + BitVec.ofNat 64 len) t ∧ Keeps (issued sw x ++ ex) s t ∧ P t)

/-- The 64-bit operand of a word. -/
abbrev operand64 (s : State) (x : Source) : Word := low64 (operand s x)

/-- An operation's short and long words. -/
abbrev Words := (Bool → Source → Instr) × (Bool → Guard → Source → Instr)

/-- Both words of an operation complete, each under its own conditions of issue. -/
def BothDone (i : Words) (sw : Bool) (g : Guard) (c x : Source) (s : State) (ex : List Part) (P : Source → State → Prop) : Prop :=
  (CanIssue .always c s → Done 2 sw c ex s (P c) (exec (i.1 sw c) s)) ∧
  (CanIssue g x s → Done 4 sw x ex s (P x) (exec (i.2 sw g x) s))

-- ## Integer operations

/-- The alu operations with the value that R202 gives from the trigger value and alu.b. -/
def aluOps : List (Words × (Word → Word → Word)) :=
  [((.aluAddShort, .aluAddLong), fun a b => a + b), ((.aluSubShort, .aluSubLong), fun a b => a - b),
   ((.aluAndShort, .aluAndLong), fun a b => a &&& b), ((.aluOrShort, .aluOrLong), fun a b => a ||| b),
   ((.aluXorShort, .aluXorLong), fun a b => a ^^^ b),
   ((.aluShlShort, .aluShlLong), fun a b => if 64 ≤ b.toNat then 0 else a <<< b.toNat),
   ((.aluShrShort, .aluShrLong), fun a b => if 64 ≤ b.toNat then 0 else a >>> b.toNat),
   ((.aluSraShort, .aluSraLong), fun a b => a.sshiftRight (min b.toNat 64)),
   ((.aluSltShort, .aluSltLong), fun a b => if a.toInt < b.toInt then 1 else 0),
   ((.aluSltuShort, .aluSltuLong), fun a b => if a.toNat < b.toNat then 1 else 0),
   ((.aluSeqShort, .aluSeqLong), fun a b => if a = b then 1 else 0),
   ((.aluMinShort, .aluMinLong), fun a b => if b.toInt < a.toInt then b else a),
   ((.aluMaxShort, .aluMaxLong), fun a b => if a.toInt < b.toInt then b else a),
   ((.aluMinuShort, .aluMinuLong), fun a b => if b.toNat < a.toNat then b else a),
   ((.aluMaxuShort, .aluMaxuLong), fun a b => if a.toNat < b.toNat then b else a),
   ((.aluSxbShort, .aluSxbLong), fun a _ => (a.setWidth 8).signExtend 64),
   ((.aluSxhShort, .aluSxhLong), fun a _ => (a.setWidth 16).signExtend 64),
   ((.aluClzShort, .aluClzLong), fun a _ => BitVec.ofNat 64 (clzFrom a.toNat 64)),
   ((.aluPopcShort, .aluPopcLong), fun a _ => BitVec.ofNat 64 (popFrom a.toNat 64))]

/-- The low and high halves of an exact product or sum. -/
def lowHalf (p : Int) : Word := (BitVec.ofInt 128 p).setWidth 64
def highHalf (p : Int) : Word := ((BitVec.ofInt 128 p) >>> 64).setWidth 64

/-- Signed quotient and remainder, truncated toward zero; by zero, all ones and the dividend (R203). -/
def quot (a b : Word) : Word := if b = 0 then BitVec.allOnes 64 else BitVec.ofInt 64 (a.toInt.tdiv b.toInt)
def rest (a b : Word) : Word := if b = 0 then a else BitVec.ofInt 64 (a.toInt.tmod b.toInt)
def quotU (a b : Word) : Word := if b = 0 then BitVec.allOnes 64 else BitVec.ofNat 64 (a.toNat / b.toNat)
def restU (a b : Word) : Word := if b = 0 then a else BitVec.ofNat 64 (a.toNat % b.toNat)

/-- The mul operations with their latency and the values of mul.o and mul.h from the trigger value, mul.b and mul.c. -/
def mulOps : List (Words × Nat × (Word → Word → Word → Word × Word)) :=
  [((.mulMulShort, .mulMulLong), 1, fun a b _ => (lowHalf (a.toInt * b.toInt), highHalf (a.toInt * b.toInt))),
   ((.mulMulhShort, .mulMulhLong), 1, fun a b _ => (highHalf (a.toInt * b.toInt), lowHalf (a.toInt * b.toInt))),
   ((.mulMulhuShort, .mulMulhuLong), 1, fun a b _ => (highHalf (a.toNat * b.toNat), lowHalf (a.toNat * b.toNat))),
   ((.mulMadShort, .mulMadLong), 1, fun a b c => (lowHalf (a.toInt * b.toInt + c.toInt), highHalf (a.toInt * b.toInt + c.toInt))),
   ((.mulDivShort, .mulDivLong), 5, fun a b _ => (quot a b, rest a b)),
   ((.mulDivuShort, .mulDivuLong), 5, fun a b _ => (quotU a b, restU a b)),
   ((.mulRemShort, .mulRemLong), 5, fun a b _ => (rest a b, quot a b)),
   ((.mulRemuShort, .mulRemuLong), 5, fun a b _ => (restU a b, quotU a b))]

/-- The predicate operations. -/
def prdOps : List (Words × (Bool → Bool → Bool)) :=
  [((.prdPandShort, .prdPandLong), fun a b => a && b), ((.prdPorShort, .prdPorLong), fun a b => a || b),
   ((.prdPxorShort, .prdPxorLong), fun a b => a != b), ((.prdPandnShort, .prdPandnLong), fun a b => a && !b)]

/-- The index operations of one operand and idx.b: idx.adr and idx.bnd, with their conditions on idx.b (R204, R212). -/
def idxOps : List (Words × (Word → Prop) × (Word → Word → Word)) :=
  [((.idxAdrShort, .idxAdrLong), fun b => field b 63 52 = 0, fun a b => a + (((b.setWidth 48).signExtend 64) <<< field b 51 48)),
   ((.idxBndShort, .idxBndLong), fun b => 0 < b.toInt, fun a b => if a.toInt < 0 then 0 else if b.toInt ≤ a.toInt then b - 1 else a)]

/-- The coordinates that idx.tix gives, from the shape entry's words, outermost quotient last (R210). -/
def tixPorts (i : Nat) (dims : List (Nat × Nat × Nat)) : List (RPort × Quad) :=
  [(RPort.idxO0, quad ((tixFrom i dims).getD 0 0)), (RPort.idxO1, quad ((tixFrom i dims).getD 1 0)),
   (RPort.idxO2, quad ((tixFrom i dims).getD 2 0)), (RPort.idxO3, quad ((tixFrom i dims).getD 3 0)),
   (RPort.idxO4, quad ((tixFrom i dims).getD 4 0))]

-- ## Transports

/-- A destination's part of the machine. -/
def destPart : Dest → Part
  | .w i => .w i
  | .q i => .q i
  | .str i => .stream i
  | .p i => .p i
  | .x i => .x i
  | .xsh i => .x i
  | .port r => .op r

/-- What a destination other than a stream holds after a write of a value, converted to its width (R31, R38). -/
def Written (d : Dest) (v : Quad) (s t : State) : Prop :=
  match d with
  | .w i => t.thr.w[i] = low64 v
  | .q i => t.thr.q[i] = v
  | .str _ => True
  | .p i => t.thr.pred i = (i.val == 0 || low64 v != 0)
  | .x i => t.thr.x[i] = low64 v
  | .xsh i => t.thr.x[i] = (s.thr.x[i] <<< 15) ||| ((v.setWidth 15).setWidth 64)
  | .port r => t.thr.opq r = if r.wide then v else quad (low64 v)

/-- The destination is no stream. -/
def plainDest : Dest → Bool
  | .str _ => false
  | _ => true

end Sys2Proof.Slice0

open Sys2Proof Sys2Proof.Machine Sys2Proof.Safety Sys2Proof.Slice0

/-- R28, R29, R31: a transport writes its source's value to its destination, converted to its width, and nothing else. -/
def Obligations.TransportWritesDestination : Prop :=
  ∀ (sw : Bool) (g : Guard) (d : Dest) (c x : Source) (s : State), plainDest d = true →
    (CanIssue .always c s → Done 2 sw c [destPart d] s (Written d (operand s c) s) (exec (.transportShort sw d c) s)) ∧
    (CanIssue g x s → Done 4 sw x [destPart d] s (Written d (operand s x) s) (exec (.transportLong sw g d x) s))

/-- R190, R194, R196: a transport to a queue that the slot produces, with room, appends the value to it; to a store
pattern, it makes the value the next element, a store of the thread, translated and counted now and performed later. -/
def Obligations.StreamPushAppends : Prop :=
  (∀ (sw : Bool) (g : Guard) (n k : Fin 8) (c x : Source) (s : State),
    s.core.streams[n].bind = some (.queue s.cur k) → s.core.streams[n].q.length < 8 →
    let P (y : Source) (t : State) : Prop := t.core.streams[n] = { (popped s y).core.streams[n] with
      q := (popped s y).core.streams[n].q ++ [{ val := operand s y, fault := none }] }
    (CanIssue .always c s → Done 2 sw c [.stream n] s (P c) (exec (.transportShort sw (.str n) c) s)) ∧
    (CanIssue g x s → Done 4 sw x [.stream n] s (P x) (exec (.transportLong sw g (.str n) x) s))) ∧
  (∀ (sw : Bool) (g : Guard) (n : Fin 8) (user wide : Bool) (base : Word) (counts : Vector Nat 4) (strides : Vector Int 4)
      (next popd loc : Nat) (ctx : Word) (attr : BitVec 5) (s1 : State) (x : Source) (s : State),
    s.core.streams[n].bind = some (.pattern s.cur user true wide base counts strides next popd ctx) → next < patternSize counts →
    s.core.streams[n].out.length < 8 → s.thr.ringFull = false → popOf x = none →
    let va := patternAddr base counts strides next
    dataWalk s s.thr.walker va = none → elementTrans s va = .ok loc attr s1 → (isOwn va && mxReading s) = false →
    let r : Req := { slot := some s.cur, src := s.src s.cur, tag := s.nextId, counted := true, loc, va, known := s.thr.floor, rel := none
                     kind := .store (bytesLE (if wide then 16 else 8) (operand s x).toNat) false, waits := [], own := isOwn va }
    let P (t : State) : Prop :=
      (if isOwn va && s.core.streams[n].out.isEmpty && departsAtIssue s loc none then
        t.core.streams[n].out = s.core.streams[n].out ∧
        t.st.bankq = s.st.bankq ++ [{ due := s.cycle + 8, mesh := false, bank := bankNo s.coreId, req := r }]
      else t.core.streams[n].out = s.core.streams[n].out ++ [r] ∧ t.st.bankq = s.st.bankq) ∧
      t.core.streams[n].bind = some (.pattern s.cur user true wide base counts strides (next + 1) popd ctx) ∧
      t.thr.counted.map (·.tag) = s.thr.counted.map (·.tag) ++ [s.nextId]
    let ex := walks ++ [.stream n, .counted, .ring, .cr crSeq, .floor, .l1, .requests, .ids]
    (CanIssue .always x s → Done 2 sw x ex s P (exec (.transportShort sw (.str n) x) s)) ∧
    (CanIssue g x s → Done 4 sw x ex s P (exec (.transportLong sw g (.str n) x) s)))

/-- R202: each alu operation delivers its value to alu.o one rotation after its trigger; the value of clz is the number of
zero bits above the highest set bit. -/
def Obligations.AluResults : Prop :=
  (∀ op ∈ aluOps, ∀ (sw : Bool) (g : Guard) (c x : Source) (s : State), s.thr.orderHold 1 [.aluO] = false →
    BothDone op.1 sw g c x s [.flight, .ids] (fun y t => Sends 1 [(.aluO, quad (op.2 (operand64 s y) (s.thr.opw .aluB)))] s t)) ∧
  (∀ a : Word, clzFrom a.toNat 64 ≤ 64 ∧ a.toNat < 2 ^ (64 - clzFrom a.toNat 64) ∧ (a ≠ 0 → 2 ^ (63 - clzFrom a.toNat 64) ≤ a.toNat))

/-- R203: each mul operation delivers mul.o and mul.h, products after one rotation and divisions after five. -/
def Obligations.MulResults : Prop :=
  ∀ op ∈ mulOps, ∀ (sw : Bool) (g : Guard) (c x : Source) (s : State), s.thr.orderHold op.2.1 [.mulO, .mulH] = false →
    BothDone op.1 sw g c x s [.flight, .ids] (fun y t =>
      let r := op.2.2 (operand64 s y) (s.thr.opw .mulB) (s.thr.opw .mulC)
      Sends op.2.1 [(.mulO, quad r.1), (.mulH, quad r.2)] s t)

/-- R213: a predicate operation whose trigger value names three predicates writes the first from the other two, before the
next word; p0 stays true. A reserved bit of the trigger value raises reserved port. -/
def Obligations.PredicateResults : Prop :=
  (∀ op ∈ prdOps, ∀ (sw : Bool) (g : Guard) (c x : Source) (d a b : Fin 16) (s : State),
    let v : Word := BitVec.ofNat 64 (d.val + 16 * a.val + 256 * b.val)
    let P (t : State) : Prop := t.thr.pred d = (d.val == 0 || op.2 (s.thr.pred a) (s.thr.pred b))
    (CanIssue .always c s → operand64 s c = v → Done 2 sw c [.p d] s P (exec (op.1.1 sw c) s)) ∧
    (CanIssue g x s → operand64 s x = v → Done 4 sw x [.p d] s P (exec (op.1.2 sw g x) s))) ∧
  (∀ op ∈ prdOps, ∀ (sw : Bool) (g : Guard) (c x : Source) (s : State),
    (CanIssue .always c s → field (operand64 s c) 63 12 ≠ 0 → TakesPrecise (exec (op.1.1 sw c) s) s reservedPort) ∧
    (CanIssue g x s → field (operand64 s x) 63 12 ≠ 0 → TakesPrecise (exec (op.1.2 sw g x) s) s reservedPort))

/-- R214 to R217: a transfer to an even target goes there; ctl.jrel counts halfwords from its own address; ctl.call leaves
the address of the word after it in lk, and ctl.ret with trigger value 0 goes to lk. -/
def Obligations.TransfersGoToTarget : Prop :=
  ∀ (sw : Bool) (g : Guard) (c x : Source) (s : State),
    let Go (x : Source) (ex : List Part) (dest : Word) (P : State → Prop) (o : Host.Outcome State Fault Refusal) : Prop :=
      Completes o (fun t => Passed sw dest t ∧ Keeps (issued sw x ++ ex) s t ∧ P t)
    (CanIssue .always c s →
      ((operand64 s c).getLsbD 0 = false → Go c [] (operand64 s c) (fun _ => True) (exec (.ctlJmpShort sw c) s)) ∧
      Go c [] (s.thr.pc + 2 * operand64 s c) (fun _ => True) (exec (.ctlJrelShort sw c) s) ∧
      ((operand64 s c).getLsbD 0 = false →
        Go c [.op .lk] (operand64 s c) (fun t => t.thr.lk = s.thr.pc + 2) (exec (.ctlCallShort sw c) s)) ∧
      (operand64 s c = 0 → s.thr.lk.getLsbD 0 = false → Go c [] s.thr.lk (fun _ => True) (exec (.ctlRetShort sw c) s))) ∧
    (CanIssue g x s →
      ((operand64 s x).getLsbD 0 = false → Go x [] (operand64 s x) (fun _ => True) (exec (.ctlJmpLong sw g x) s)) ∧
      Go x [] (s.thr.pc + 2 * operand64 s x) (fun _ => True) (exec (.ctlJrelLong sw g x) s) ∧
      ((operand64 s x).getLsbD 0 = false →
        Go x [.op .lk] (operand64 s x) (fun t => t.thr.lk = s.thr.pc + 4) (exec (.ctlCallLong sw g x) s)) ∧
      (operand64 s x = 0 → s.thr.lk.getLsbD 0 = false → Go x [] s.thr.lk (fun _ => True) (exec (.ctlRetLong sw g x) s)))

/-- R214 to R216: ctl.jmp and ctl.call to an odd target, and ctl.ret with an odd lk, take the alignment fault 0x06, kind 2, with the
target as address; ctl.ret with a trigger value other than 0 raises reserved port. -/
def Obligations.OddTargetsFault : Prop :=
  ∀ (sw : Bool) (g : Guard) (c x : Source) (s : State),
    (CanIssue .always c s →
      ((operand64 s c).getLsbD 0 = true →
        TakesPrecise (exec (.ctlJmpShort sw c) s) s (causeVa 6 2 0 (operand64 s c)) ∧
        TakesPrecise (exec (.ctlCallShort sw c) s) s (causeVa 6 2 0 (operand64 s c))) ∧
      (operand64 s c ≠ 0 → TakesPrecise (exec (.ctlRetShort sw c) s) s reservedPort) ∧
      (operand64 s c = 0 → s.thr.lk.getLsbD 0 = true → TakesPrecise (exec (.ctlRetShort sw c) s) s (causeVa 6 2 0 s.thr.lk))) ∧
    (CanIssue g x s →
      ((operand64 s x).getLsbD 0 = true →
        TakesPrecise (exec (.ctlJmpLong sw g x) s) s (causeVa 6 2 0 (operand64 s x)) ∧
        TakesPrecise (exec (.ctlCallLong sw g x) s) s (causeVa 6 2 0 (operand64 s x))) ∧
      (operand64 s x ≠ 0 → TakesPrecise (exec (.ctlRetLong sw g x) s) s reservedPort) ∧
      (operand64 s x = 0 → s.thr.lk.getLsbD 0 = true → TakesPrecise (exec (.ctlRetLong sw g x) s) s (causeVa 6 2 0 s.thr.lk)))

/-- R204, R210 to R212: idx.adr, idx.bnd and idx.tix deliver their values two rotations after their trigger. -/
def Obligations.IndexResults : Prop :=
  (∀ op ∈ idxOps, ∀ (sw : Bool) (g : Guard) (c x : Source) (s : State), op.2.1 (s.thr.opw .idxB) → s.thr.orderHold 2 [.idxO0] = false →
    BothDone op.1 sw g c x s [.flight, .ids] (fun y t => Sends 2 [(.idxO0, quad (op.2.2 (operand64 s y) (s.thr.opw .idxB)))] s t)) ∧
  (∀ (sw : Bool) (g : Guard) (x : Source) (s s1 : State) (ws : List Word) (dims : List (Nat × Nat × Nat)),
    let va := BitVec.ofNat 64 (field s.thr.cr[crShape] 47 7 * 128 + 128 * (s.thr.opw .idxSh).toNat)
    field (s.thr.opw .idxSh) 63 12 = 0 → (s.thr.opw .idxSh).toNat < field s.thr.cr[crShape] 60 48 → (operand64 s x).toNat < 2 ^ 40 →
    (∀ k, shapeRead (popped s x) va k = k s1 ws) → shapeDims ws = some dims →
    s.thr.orderHold 2 [.idxO0, .idxO1, .idxO2, .idxO3, .idxO4] = false →
    BothDone (.idxTixShort, .idxTixLong) sw g x x s (reads ++ [.flight, .shapes])
      (fun _ t => Sends 2 (tixPorts (operand64 s x).toNat dims) s t))

-- ## Taking an exception and returning

/-- What stands in a save area at `loc` for a thread, with a pending user-level interrupt `u` (R182): the operand ports, the result
ports, the causes of the marks, the fence bits, the marks and the owed marks, the reservation record, and zeros in the reserved
entries. -/
def Sys2Proof.Slice0.AreaHolds (a : Thread) (u : Option (Word × Word)) (mem : List Host.Cell) (loc : Nat) : Prop :=
  let at_ (i o n : Nat) : Nat := natLE (Mem.read mem (loc + 16 * i + o) n)
  (∀ p ∈ OPort.saved.zipIdx, at_ p.2 0 16 = (a.opq p.1).toNat) ∧
  (∀ p ∈ RPort.all.zipIdx, at_ (24 + p.2) 0 16 = (a.rpq p.1).toNat) ∧
  (∀ i : Fin 4, at_ (50 + i.val / 2) (8 * (i.val % 2)) 8 = a.cause4[i].toNat) ∧
  at_ 56 0 4 = a.fence.toNat ∧ at_ 56 4 4 = a.poison.toNat ∧ at_ 56 8 4 = a.np.toNat ∧
  (∀ p : RPort, (at_ 56 12 4).testBit p.fin.val = a.owed.any (fun o => o.area == a.areaUse && o.ports.contains p)) ∧
  (∀ i : Nat, i < 4 → at_ (57 + i) 0 8 = (match a.resv[i]? with | some r => r.va.toNat | none => 0) ∧
    at_ (57 + i) 8 8 = (match a.resv[i]? with | some r => r.granted.toNat | none => 0)) ∧
  at_ 61 0 8 = (match u with | some p => p.1.toNat | none => 0) ∧ at_ 61 8 8 = (match u with | some p => p.2.toNat | none => 0) ∧
  (∀ i ∈ ([22, 23, 52, 53, 54, 55, 62, 63] : List Nat), at_ i 0 16 = 0)

/-- R182, R362, R370: trap entry, once the results in flight have drained and the ports stand in the area: cr.epc holds the next
word's address with PSUP, PIE and MK, cr.cause the cause (with MORE where a refusal is taken and another fault is pending), the level is supervisor with IE = 0, and the next word is at KVEC;
the general registers are kept. Where the area lies in the own-cluster window with no request of the thread on its way there, the
area's 1024 bytes then hold the ports, marks, record and pending interrupt of R182, and every other byte of memory is kept. It rests in
part on the model's own reading: log 15. -/
def Obligations.TrapEntrySavesAndVectors : Prop :=
  ∀ (s s1 : State) (slot : Fin 8) (e : Entry) (loc : Nat) (attr : BitVec 5),
    entryWaits s slot = false → s.slots[slot].uh = false →
    saveArea s slot (s.slots[slot].uintOf s.slots[slot].areaUse) = .ok loc attr s1 →
    Completes (takeException s slot e) (fun t =>
      let a := s1.slots[slot]
      let b := t.slots[slot]
      field b.cr[crEpc] 47 1 = field e.epc 47 1 ∧ b.cr[crEpc].getLsbD 48 = a.sup ∧ b.cr[crEpc].getLsbD 49 = a.ie ∧
      b.cr[crEpc].getLsbD 50 = false ∧ b.cr[crEpc].getLsbD 51 = e.marker ∧ b.cr[crCause] = a.causeNow e.cause ∧
      b.sup = true ∧ b.ie = false ∧ b.uie = a.uie ∧ b.uh = false ∧
      b.pc = BitVec.ofNat 64 (field a.cr[crKvec] 47 1 * 2) ∧ b.mode = .run ∧
      b.w = a.w ∧ b.q = a.q ∧ b.p = a.p ∧ b.x = a.x ∧ b.op = a.op ∧ b.rp = a.rp ∧
      (∀ i : Fin 25, i ≠ crEpc → i ≠ crCause → i ≠ crStatus → b.cr[i] = a.cr[i]) ∧
      (∀ i : Fin 8, i ≠ slot → t.slots[i] = s1.slots[i]) ∧ t.core = s1.core ∧ t.st = s1.st ∧
      (∀ off, classify s.slots[slot].psave = .own off → ownPending s slot (winLoc s off) = false → MemoryOk s →
        AreaHolds s.slots[slot] (s.slots[slot].uintOf s.slots[slot].areaUse) t.st.mem (winLoc s off) ∧
        ∀ c : Nat, c < winLoc s off ∨ winLoc s off + 1024 ≤ c → Mem.get t.st.mem c = Mem.get s.st.mem c))

/-- A killed thread: its registers, ports, fence bits, marks and control registers are 0, and it has and owes nothing (R385). -/
def Sys2Proof.Slice0.Killed (a : Thread) : Prop :=
  a.mode = .killed ∧ (∀ i : Fin 24, a.w[i] = 0) ∧ (∀ i : Fin 16, a.q[i] = 0) ∧ (∀ i : Fin 16, a.pred i = (i.val == 0)) ∧ (∀ i : Fin 4, a.x[i] = 0) ∧
  (∀ r : OPort, a.opq r = 0) ∧ (∀ r : RPort, a.rpq r = 0) ∧ a.fence = 0 ∧ a.poison = 0 ∧ a.np = 0 ∧ (∀ i : Fin 4, a.cause4[i] = 0) ∧
  (∀ i : Fin 25, a.cr[i] = 0) ∧ a.flight = [] ∧ a.owed = [] ∧ a.psq = [] ∧ a.counted = [] ∧ a.ring = [] ∧ a.resv = []

/-- R370, R385: at SUP = 1 with IE = 0 a precise fault is a double fault: the thread is killed, its state set to 0. -/
def Obligations.DoubleFaultKills : Prop :=
  ∀ (s : State) (slot : Fin 8) (cause : Word), s.slots[slot].sup = true → s.slots[slot].ie = false →
    Completes (takePrecise s slot cause) (fun t => Killed t.slots[slot] ∧
      (∀ i : Fin 8, i ≠ slot → t.slots[i].w = s.slots[i].w ∧ t.slots[i].pc = s.slots[i].pc) ∧ (s.st.waitq = [] → t.st.mem = s.st.mem))

/-- R218: ctl.trap raises 0x13 with the 48-bit value of its trigger, and cr.epc names the word after it: it issues, and
then the slot takes that exception, at once where its entry waits for nothing; a user-level handler ends with it, and cr.epc still names the word
after the trap. It rests in part on the model's own reading: log 15 and 94. -/
def Obligations.TrapWordsTakeException : Prop :=
  ∀ (sw : Bool) (g : Guard) (c x : Source) (s : State),
    let After (x : Source) (len : Nat) : State := finish s (popped s x) (s.thr.pc + BitVec.ofNat 64 len) false false
    let Entry0 (x : Source) (len : Nat) : Entry :=
      { cause := BitVec.ofNat 64 (0x13 + field (operand64 s x) 47 0 * 2 ^ 16), epc := s.thr.pc + BitVec.ofNat 64 len, marker := false }
    let Takes (x : Source) (len : Nat) (o : Host.Outcome State Fault Refusal) : Prop :=
      o = takeException (After x len) s.cur (Entry0 x len) ∧
      ((After x len).thr.draining = true → Completes o (fun t => t.thr.mode = .entering (Entry0 x len) ∧ t.thr.pc = s.thr.pc + BitVec.ofNat 64 len)) ∧
      (∀ loc attr s1, entryWaits (After x len) s.cur = false → s.thr.uh = false →
        saveArea (After x len) s.cur ((After x len).thr.uintOf (After x len).thr.areaUse) = .ok loc attr s1 →
        Completes o (fun t => t.thr.cr[crCause] = (Entry0 x len).cause ∧ t.thr.sup = true ∧ t.thr.ie = false ∧
          t.thr.pc = BitVec.ofNat 64 (field s1.slots[s.cur].cr[crKvec] 47 1 * 2))) ∧
      (∀ loc attr s1, entryWaits (After x len) s.cur = false → s.thr.uh = true → areaPlace (After x len) s.cur (After x len).thr.psave true = .ok loc attr s1 →
        Completes o (fun t => field t.thr.cr[crEpc] 47 1 = field (s.thr.pc + BitVec.ofNat 64 len) 47 1 ∧ t.thr.cr[crEpc].getLsbD 50 = true ∧
          t.thr.cr[crEpc].getLsbD 51 = false ∧ t.thr.cr[crCause] = (Entry0 x len).cause ∧ t.thr.sup = true ∧ t.thr.ie = false ∧ t.thr.uh = false ∧
          t.thr.cr[crKvec] = s.thr.cr[crKvec] ∧ t.thr.pc = BitVec.ofNat 64 (field s.thr.cr[crKvec] 47 1 * 2)))
    (CanIssue .always c s → Takes c 2 (exec (.ctlTrapShort sw c) s)) ∧ (CanIssue g x s → Takes x 4 (exec (.ctlTrapLong sw g x) s))

/-- R182, R257, R372, R377: sys.eret with nothing owed, and with its area unmarked in the own-cluster window and none of the thread's posted
atomics under way on it, completes: the operand ports hold the area's entries 0 to 21 and the result ports its entries 24 to 49, in
their widths, fpu.f its six flags, with the thread's own stores under way in place. At supervisor level the next word stands at EPC, at the
level and with the interrupt enable that cr.epc holds, and MK is clear; out of a user-level handler it stands at UEPC at the same level, with UH and UMK
clear and w20 to w23 exchanged with their shadows. With MK or UMK, or with S, the slot parks while a result is owed whose mark the area holds, and else goes on
with the fence bits clear; without, the fence bits are the area's. It rests in part on the model's own reading: log 15 and 24. -/
def Obligations.EretRestores : Prop :=
  ∀ (sw : Bool) (g : Guard) (x : Source) (s : State) (off : Nat),
    CanIssue g x s → operand64 s x = 0 → (s.thr.sup = true ∨ s.thr.uh = true) → s.thr.pending = false → s.thr.flight = [] →
    s.thr.seqr.run.any (fun r => r.area.isNone) = false → classify s.thr.psave = .own off →
    let loc := winLoc s off
    amoPending (popped s x) s.cur loc 1024 = false →
    let y := scrub (popped s x) loc 1024
    let b := forwardOwn y s.cur y.nextId loc (Mem.read y.st.mem loc 1024)
    let entry (i n : Nat) : Nat := natLE ((b.drop (16 * i)).take n)
    firstMark (ownMarks y s.cur y.nextId y.st.marks) loc 1024 = none →
    let park : Bool := sw || (if s.thr.uh then s.thr.cr[crUepc].getLsbD 48 else s.thr.cr[crEpc].getLsbD 51)
    Completes (exec (.sysEret sw g x) s) (fun t =>
      (s.thr.uh = false → t.thr.pc = BitVec.ofNat 64 (field s.thr.cr[crEpc] 47 1 * 2) ∧ t.thr.sup = s.thr.cr[crEpc].getLsbD 48 ∧
        t.thr.ie = s.thr.cr[crEpc].getLsbD 49 ∧ t.thr.cr[crEpc].getLsbD 51 = false ∧ t.thr.w = s.thr.w) ∧
      (s.thr.uh = true → t.thr.pc = BitVec.ofNat 64 (field s.thr.cr[crUepc] 47 1 * 2) ∧ t.thr.sup = s.thr.sup ∧ t.thr.ie = s.thr.ie ∧
        t.thr.cr[crUepc].getLsbD 48 = false ∧ t.thr.cr[crEpc] = s.thr.cr[crEpc] ∧ t.thr.ucur = none ∧
        (∀ i : Fin 24, i.val < 20 → t.thr.w[i] = s.thr.w[i]) ∧
        ∀ i : Fin 4, t.thr.w[20 + i.val] = s.thr.shadow[i] ∧ t.thr.shadow[i] = s.thr.w[20 + i.val]) ∧
      t.thr.uh = false ∧ t.thr.q = s.thr.q ∧ t.thr.p = s.thr.p ∧ t.thr.x = s.thr.x ∧ t.thr.areaUse = some s.thr.psave ∧
      (∀ p ∈ OPort.saved.zipIdx, t.thr.opq p.1 = if p.1.wide then BitVec.ofNat 128 (entry p.2 16) else quad (BitVec.ofNat 64 (entry p.2 8))) ∧
      (∀ p ∈ RPort.all.zipIdx, t.thr.rpq p.1 =
        if p.1 = .fpuF then BitVec.ofNat 128 (entry (24 + p.2) 8 % 64)
        else if p.1.wide then BitVec.ofNat 128 (entry (24 + p.2) 16) else quad (BitVec.ofNat 64 (entry (24 + p.2) 8))) ∧
      (park = true → (t.thr.pending = true → t.thr.mode = .marker ∧ t.thr.fence = BitVec.ofNat 26 (entry 56 4)) ∧
        (t.thr.pending = false → t.thr.mode = .run ∧ t.thr.fence = 0)) ∧
      (park = false → s.thr.sAfter = false → t.thr.mode = .run ∧ t.thr.fence = BitVec.ofNat 26 (entry 56 4)) ∧
      (∀ o ∈ t.thr.owed, o.area = some s.thr.psave → o.marked = o.ports.any (fun p => (entry 56 16).testBit (96 + p.fin.val))) ∧
      t.st.mem = s.st.mem ∧ t.st.full = s.st.full)

/-- R48, R50, R51: a word that needs supervisor level is refused at user level with 0x03: sys.tlbi, sys.mwait, syn.mask,
msg.any, tsk.push, tsk.pop, and sys.eret outside a user-level handler. -/
def Obligations.PrivilegedWordsFaultAtUser : Prop :=
  ∀ (sw : Bool) (g : Guard) (x : Source) (s : State), CanIssue g x s → s.thr.sup = false →
    TakesPrecise (exec (.sysTlbi sw g x) s) s (causeOf 3) ∧ TakesPrecise (exec (.sysMwait sw g x) s) s (causeOf 3) ∧
    TakesPrecise (exec (.synMask sw g x) s) s (causeOf 3) ∧ TakesPrecise (exec (.msgAny sw g x) s) s (causeOf 3) ∧
    TakesPrecise (exec (.tskPush sw g x) s) s (causeOf 3) ∧ TakesPrecise (exec (.tskPop sw g x) s) s (causeOf 3) ∧
    (s.thr.uh = false → TakesPrecise (exec (.sysEret sw g x) s) s (causeOf 3))

/-- The long words of every operation (R46). -/
def Sys2Proof.Slice0.longWords : List (Bool → Guard → Source → Instr) :=
   [.aluAddLong, .aluSubLong, .aluAndLong, .aluOrLong, .aluXorLong, .aluShlLong, .aluShrLong, .aluSraLong, .aluSltLong, .aluSltuLong,
    .aluSeqLong, .aluMinLong, .aluMaxLong, .aluMinuLong, .aluMaxuLong, .aluSxbLong, .aluSxhLong, .aluClzLong, .aluPopcLong, .mulMulLong,
    .mulMulhLong, .mulMulhuLong, .mulMadLong, .mulDivLong, .mulDivuLong, .mulRemLong, .mulRemuLong, .memLd8Long, .memLd8sLong, .memLd16Long,
    .memLd16sLong, .memLd32Long] ++
   [.memLd32sLong, .memLd64Long, .memLdqLong, .memSt8Long, .memSt16Long, .memSt32Long, .memSt64Long, .memStqLong, .memLdfLong, .memLdtLong,
    .memStfLong, .memSteLong, .prdPandLong, .prdPorLong, .prdPxorLong, .prdPandnLong, .ctlJmpLong, .ctlJrelLong, .ctlCallLong, .ctlRetLong,
    .ctlTrapLong, .idxTixLong, .idxAdrLong, .idxBndLong, .trkClaimLong, .trkFreeLong, .trkSeekLong, .trkStepLong, .trkRdsLong, .trkWrsLong,
    .trkRwdLong, .trkHeadLong] ++
   [.vecAdd, .vecSub, .vecMul, .vecMad, .vecMin, .vecMax, .vecAnd, .vecOr, .vecXor, .vecShl, .vecShr, .vecSra, .vecCeq, .vecClt, .vecSel,
    .vecShf, .vecPak, .vecUnp, .vecCvt, .vecDot, .vecSum, .vecExt, .vecRec, .vecRun, .fpuAdd, .fpuSub, .fpuMul, .fpuFma, .fpuDiv, .fpuSqrt,
    .fpuCmp, .fpuToi] ++
   [.fpuTof, .sfuExp2, .sfuLog2, .sfuRcp, .sfuRsq, .sfuSin, .sfuCos, .amoAdd, .amoMin, .amoMax, .amoAnd, .amoOr, .amoXor, .amoLrw, .amoScr,
    .synFence, .synAcq, .synRel, .synArrive, .synWait, .synMask, .strBind, .strFree, .mxRun, .mxCnt, .mxDrn, .mxMrg, .mxSt, .mxWait, .ndWant,
    .ndGive, .ndDrop] ++
   [.ndCard, .cpyGo, .msgSend, .msgRecv, .msgAny, .tskPush, .tskPop, .tskPark, .tskYield, .sysCrr, .sysCrw, .sysEret, .sysTlbi, .sysMwait,
    .sysHalt, .rngNext]

/-- R37: a long word whose guard is false issues with no effect, whatever its operation and source, transports and all 144 operations
alike: the next pc, and nothing else but what issuing leaves. -/
def Obligations.FalseGuardHasNoEffect : Prop :=
  ∀ (sw : Bool) (g : Guard) (x : Source) (s : State), s.thr.mode = .run → s.thr.event? = none → s.thr.seqr.left = 0 → guardHolds g s.thr = false →
    let No (o : Host.Outcome State Fault Refusal) : Prop :=
      Completes o (fun t => Passed sw (s.thr.pc + 4) t ∧ Keeps (issued sw (.pc)) s t)
    (∀ d, No (exec (.transportLong sw g d x) s)) ∧ (∀ w ∈ longWords, No (exec (w sw g x) s))

/-- The short words of the operations that have one (R46). -/
def Sys2Proof.Slice0.shortWords : List (Bool → Source → Instr) :=
   [.aluAddShort, .aluSubShort, .aluAndShort, .aluOrShort, .aluXorShort, .aluShlShort, .aluShrShort, .aluSraShort, .aluSltShort,
    .aluSltuShort, .aluSeqShort, .aluMinShort, .aluMaxShort, .aluMinuShort, .aluMaxuShort, .aluSxbShort, .aluSxhShort, .aluClzShort,
    .aluPopcShort, .mulMulShort, .mulMulhShort, .mulMulhuShort, .mulMadShort, .mulDivShort, .mulDivuShort, .mulRemShort, .mulRemuShort,
    .memLd8Short, .memLd8sShort, .memLd16Short, .memLd16sShort, .memLd32Short] ++
   [.memLd32sShort, .memLd64Short, .memLdqShort, .memSt8Short, .memSt16Short, .memSt32Short, .memSt64Short, .memStqShort, .memLdfShort,
    .memLdtShort, .memStfShort, .memSteShort, .prdPandShort, .prdPorShort, .prdPxorShort, .prdPandnShort, .ctlJmpShort, .ctlJrelShort,
    .ctlCallShort, .ctlRetShort, .ctlTrapShort, .idxTixShort, .idxAdrShort, .idxBndShort, .trkClaimShort, .trkFreeShort, .trkSeekShort,
    .trkStepShort, .trkRdsShort, .trkWrsShort, .trkRwdShort, .trkHeadShort]

/-- The level and the features that a long word's operation asks for before its source is read (R48, R49, R51). -/
def Sys2Proof.Slice0.Admitted (w : Bool → Guard → Source → Instr) (s : State) : Prop :=
  let On (b : Nat) : Prop := featOn s (dieOf s.coreId) b = true
  (w ∈ ([.synMask, .msgAny, .tskPush, .tskPop, .sysTlbi, .sysMwait] : List (Bool → Guard → Source → Instr)) → s.thr.sup = true) ∧
  (w = .sysEret → s.thr.sup = true ∨ s.thr.uh = true) ∧
  (w ∈ ([.fpuAdd, .fpuSub, .fpuMul, .fpuFma, .fpuDiv, .fpuSqrt, .fpuCmp, .fpuToi, .fpuTof] : List (Bool → Guard → Source → Instr)) →
    (s.thr.opw .fpuTy).getLsbD 0 = true → On 2) ∧
  (w ∈ ([.sfuExp2, .sfuLog2, .sfuRcp, .sfuRsq, .sfuSin, .sfuCos] : List (Bool → Guard → Source → Instr)) → On 0) ∧
  (w ∈ ([.mxCnt, .mxDrn, .mxMrg] : List (Bool → Guard → Source → Instr)) → On 1) ∧ (w = .mxRun → mxPat s.thr.x[(1 : Fin 4)] ≠ 0 → On 3)

/-- R42, R51: a word that reads a result port whose fence bit is set raises 0x04 with the port's code, before its operation's own
checks: every short and long word, transports and all operations, whatever guard holds, where its level and features admit it. -/
def Obligations.FenceBitFaults : Prop :=
  ∀ (sw : Bool) (g : Guard) (r : RPort) (s : State), s.thr.mode = .run → s.thr.seqr.left = 0 ∨ s.thr.seqr.paused ≠ 0 → s.thr.seqr.run = none →
    s.thr.fenced r = true →
    let Raises (o : Host.Outcome State Fault Refusal) : Prop := TakesPrecise o s (causeOf 4 (64 + r.fin.val))
    (∀ d, Raises (exec (.transportShort sw d (.port r)) s)) ∧ (∀ w ∈ shortWords, Raises (exec (w sw (.port r)) s)) ∧
    (guardHolds g s.thr = true →
      (∀ d, Raises (exec (.transportLong sw g d (.port r)) s)) ∧ (∀ w ∈ longWords, Admitted w s → Raises (exec (w sw g (.port r)) s)))

-- ## Loads, stores, operations at memory

/-- A data address translates for the current thread, to a place, with no walk to wait for (R64, R67, R150), and no watchpoint
stops the word (R389). -/
def Sys2Proof.Slice0.Lands (x : Source) (write sync lrw : Bool) (loc : Nat) (s1 s : State) : Prop :=
  dataWalk (popped s x) s.thr.walker (operand64 s x) = none ∧
  (∃ attr, translate (popped s x) s.thr.walker { user := !s.thr.sup, fetch := false, write, sync } (operand64 s x) = .ok loc attr s1) ∧
  watched s1 (!write || lrw) write (operand64 s x) = none

/-- R64, R70, R72, R81: a translation of a core that needs no walk and gives a place changes nothing but the TLBs, and the bank log where
an entry's parity fails; one that walks also changes what reading the tables does: the lines that come into their slices, with what
their codes report, and what the thread for which it walks knows. Memory is kept. -/
def Obligations.TranslationKeepsTheRest : Prop :=
  ∀ (s s1 : State) (w : Walker) (a : Acc) (va : Word) (loc : Nat) (attr : BitVec 5),
    translate s w a va = .ok loc attr s1 →
    (w.l1 = true → dataWalk s w va = none → Keeps walks s s1) ∧
    Keeps (.others :: reads) s s1 ∧ ∀ i : Fin 8, i ∉ w.slots → s1.slots[i] = s.slots[i]

/-- The loads with their width in bytes and whether they sign-extend (R152). -/
def Sys2Proof.Slice0.loadOps : List (Words × Nat × Bool) :=
  [((.memLd8Short, .memLd8Long), 1, false), ((.memLd8sShort, .memLd8sLong), 1, true),
   ((.memLd16Short, .memLd16Long), 2, false), ((.memLd16sShort, .memLd16sLong), 2, true),
   ((.memLd32Short, .memLd32Long), 4, false), ((.memLd32sShort, .memLd32sLong), 4, true),
   ((.memLd64Short, .memLd64Long), 8, false), ((.memLdqShort, .memLdqLong), 16, false)]

def Sys2Proof.Slice0.loadPort (n : Nat) : RPort := if n = 16 then .memOq else .memO

/-- R43, R136, R147, R152: an aligned load that translates is sent: in the own-cluster window to its bank, as a result two
rotations away or, behind a set fence bit, as an owed one; from paged memory as an owed view read of its bytes; from a mesh
window as an owed read on its path. Memory and every register are kept. -/
def Obligations.LoadsIssue : Prop :=
  ∀ op ∈ loadOps, ∀ (sw : Bool) (g : Guard) (x : Source) (loc : Nat) (s s1 : State),
    let n := op.2.1
    let va := operand64 s x
    let port := loadPort n
    Lands x false false false loc s1 s → va.toNat % n = 0 → amoPending s1 s1.cur loc n = false →
    let All (ex : List Part) (P : State → Prop) : Prop := BothDone op.1 sw g x x s (walks ++ [.ids] ++ ex) (fun _ => P)
    (isOwn va = true → s.thr.fenced port = false → s.thr.orderHold 2 [port] = false →
      All [.flight, .requests] (fun t =>
        t.thr.flight = s.thr.flight ++ [{ due := s.thr.rot + 2, tag := s.nextId, ports := [port], vals := none, flags := none }] ∧
        ∃ b : BankReq, t.st.bankq = s.st.bankq ++ [b] ∧ b.req.kind = .load n op.2.2 ∧ b.req.loc = loc ∧ b.req.tag = s.nextId)) ∧
    (isOwn va = true → s.thr.fenced port = true →
      All [.owed, .fence, .requests] (fun t => Owes [port] s t ∧
        ∃ b : BankReq, t.st.bankq = s.st.bankq ++ [b] ∧ b.req.kind = .load n op.2.2 ∧ b.req.loc = loc ∧ b.req.tag = s.nextId)) ∧
    (isPaged va = true → s.thr.ringFull = false →
      All [.owed, .fence, .ring, .cr crSeq] (fun t => Owes [port] s t ∧
        ∃ o : Owed, t.thr.owed.getLast? = some o ∧ o.read = some { loc, va, bytes := n, ext := op.2.2 })) ∧
    (isOwn va = false → isPaged va = false → s.thr.ringFull = false →
      All [.owed, .fence, .ring, .cr crSeq, .requests] (fun t => Owes [port] s t ∧
        ∃ r : Req, t.st.paths = s.st.paths ++ [r] ∧ r.kind = .load n op.2.2 ∧ r.loc = loc ∧ r.tag = s.nextId))

/-- R85, R142, R153: mem.ldf and mem.ldt are fenced on mem.o at every address, and their request goes to the word's ordering
point: in the own-cluster window to its bank, but that mem.ldt waits on its path behind the thread's writes on their way to that
bank. -/
def Obligations.WaitingLoadsIssue : Prop :=
  ∀ op ∈ ([((.memLdfShort, .memLdfLong), .ldf), ((.memLdtShort, .memLdtLong), .ldt)] : List (Words × ReqKind)),
  ∀ (sw : Bool) (g : Guard) (x : Source) (loc : Nat) (s s1 : State),
    let va := operand64 s x
    Lands x false true false loc s1 s → va.toNat % 8 = 0 → amoPending s1 s1.cur loc 8 = false →
    let All (ex : List Part) (P : State → Prop) : Prop := BothDone op.1 sw g x x s (walks ++ [.ids, .owed, .fence, .requests] ++ ex) (fun _ => P)
    let OnPath (t : State) : Prop := ∃ r : Req, t.st.paths = s.st.paths ++ [r] ∧ r.kind = op.2 ∧ r.loc = loc ∧ r.tag = s.nextId
    (isOwn va = true → (op.2 = .ldf ∨ departsAtIssue s1 loc none = true) → All [] (fun t => Owes [.memO] s t ∧
      ∃ b : BankReq, t.st.bankq = s.st.bankq ++ [b] ∧ b.req.kind = op.2 ∧ b.req.loc = loc ∧ b.req.tag = s.nextId)) ∧
    (isOwn va = true → op.2 = .ldt → departsAtIssue s1 loc none = false → All [] (fun t => Owes [.memO] s t ∧ OnPath t)) ∧
    (isOwn va = false → s.thr.ringFull = false → All [.ring, .cr crSeq, .l1] (fun t => Owes [.memO] s t ∧ OnPath t))

/-- A write of the current slot is on its way: at its bank, or in the posted-store queue, with its place and data; a counted
one counts in cr.rsv with a place in the ring (R154, R298, R364). -/
def Sys2Proof.Slice0.SendsWrite (counted : Bool) (kind : ReqKind) (loc : Nat) (s t : State) : Prop :=
  (∃ r : Req, r.kind = kind ∧ r.loc = loc ∧ r.tag = s.nextId ∧ r.slot = some s.cur ∧ r.counted = counted ∧
    ((t.thr.psq = s.thr.psq ++ [r] ∧ t.st.bankq = s.st.bankq) ∨
     (t.thr.psq = s.thr.psq ∧ ∃ b : BankReq, b.req = r ∧ t.st.bankq = s.st.bankq ++ [b]))) ∧
  t.thr.counted.map (·.tag) = s.thr.counted.map (·.tag) ++ (if counted then [s.nextId] else []) ∧
  t.thr.ring.map (·.tag) = s.thr.ring.map (·.tag) ++ (if counted then [s.nextId] else [])

/-- The parts that sending a write may change. -/
def Sys2Proof.Slice0.writeParts : List Part := walks ++ [.psq, .requests, .floor, .counted, .ring, .cr crSeq, .l1, .ids]

/-- The stores with their width and whether they set the word full (R152, R153). -/
def Sys2Proof.Slice0.storeOps : List (Words × Nat × Bool) :=
  [((.memSt8Short, .memSt8Long), 1, false), ((.memSt16Short, .memSt16Long), 2, false), ((.memSt32Short, .memSt32Long), 4, false),
   ((.memSt64Short, .memSt64Long), 8, false), ((.memStqShort, .memStqLong), 16, false), ((.memStfShort, .memStfLong), 8, true)]

/-- The bytes that a store of `n` bytes takes from mem.d, or from mem.q for 16 (R152). -/
def Sys2Proof.Slice0.storeBytes (n : Nat) (t : Thread) : List Byte := bytesLE n (if n = 16 then (t.opq .memQ).toNat else (t.opw .memD).toNat)

/-- R152 to R154, R298: an aligned store that translates, with room in its queues, is sent to the place of its address with
the bytes of mem.d or mem.q; it counts in cr.rsv unless it is in the own-cluster window. Every byte of memory is kept: the
store is performed at its ordering point. -/
def Obligations.StoresAreSent : Prop :=
  ∀ op ∈ storeOps, ∀ (sw : Bool) (g : Guard) (x : Source) (loc : Nat) (s s1 : State),
    let n := op.2.1
    let va := operand64 s x
    Lands x true op.2.2 false loc s1 s → va.toNat % n = 0 → storeHeld s.thr (!isOwn va) = false → (isOwn va && mxReading s1) = false →
    BothDone op.1 sw g x x s writeParts (fun _ => SendsWrite (!isOwn va) (.store (storeBytes n s.thr) op.2.2) loc s)

/-- R153, R154: mem.ste is sent like a store, counted at every address, as a request that waits for its word to be empty. -/
def Obligations.SteIsSent : Prop :=
  ∀ (sw : Bool) (g : Guard) (x : Source) (loc : Nat) (s s1 : State),
    Lands x true true false loc s1 s → (operand64 s x).toNat % 8 = 0 → storeHeld s.thr true = false →
    (isOwn (operand64 s x) && mxReading s1) = false →
    BothDone (.memSteShort, .memSteLong) sw g x x s writeParts (fun _ => SendsWrite true (.ste (s.thr.opw .memD)) loc s)

/-- R151: a load, a store, an operation on a word's full bit, a posted or reservation operation whose address is no multiple of its
width takes the alignment fault 0x06, kind 1, with the width and the address, and sends nothing; bit 0 of the trigger value of amo.scr
is no part of its address. It rests in part on the model's own reading: log 28. -/
def Obligations.MisalignedAccessFaults : Prop :=
  (∀ op ∈ (loadOps.map (fun o => (o.1, o.2.1)) ++ storeOps.map (fun o => (o.1, o.2.1)) ++
      [((.memLdfShort, .memLdfLong), 8), ((.memLdtShort, .memLdtLong), 8), ((.memSteShort, .memSteLong), 8)] : List (Words × Nat)),
    ∀ (sw : Bool) (g : Guard) (c x : Source) (s : State),
      (CanIssue .always c s → (operand64 s c).toNat % op.2 ≠ 0 → TakesPrecise (exec (op.1.1 sw c) s) s (causeVa 6 1 (log2w op.2) (operand64 s c))) ∧
      (CanIssue g x s → (operand64 s x).toNat % op.2 ≠ 0 → TakesPrecise (exec (op.1.2 sw g x) s) s (causeVa 6 1 (log2w op.2) (operand64 s x)))) ∧
  (∀ w ∈ ([.amoAdd, .amoMin, .amoMax, .amoAnd, .amoOr, .amoXor, .amoLrw] : List (Bool → Guard → Source → Instr)),
    ∀ (sw : Bool) (g : Guard) (x : Source) (s : State), CanIssue g x s → (operand64 s x).toNat % 8 ≠ 0 →
      TakesPrecise (exec (w sw g x) s) s (causeVa 6 1 3 (operand64 s x))) ∧
  (∀ (sw : Bool) (g : Guard) (x : Source) (s : State), CanIssue g x s → (operand64 s x).toNat % 8 ≠ 0 → (operand64 s x).toNat % 8 ≠ 1 →
    TakesPrecise (exec (.amoScr sw g x) s) s (causeVa 6 1 3 (operand64 s x)))

/-- R92, R93: a posted operation is sent like a counted store, with the value of amo.b; what it makes of the word at its
ordering point, where min and max compare as signed numbers. -/
def Obligations.PostedAtomicsAreSent : Prop :=
  (∀ m b : Word, amoOp .add m b = m + b ∧ amoOp .and m b = m &&& b ∧ amoOp .or m b = m ||| b ∧ amoOp .xor m b = m ^^^ b ∧
    (amoOp .min m b).toInt = min m.toInt b.toInt ∧ (amoOp .max m b).toInt = max m.toInt b.toInt) ∧
  ∀ op ∈ ([(.amoAdd, .add), (.amoMin, .min), (.amoMax, .max), (.amoAnd, .and), (.amoOr, .or), (.amoXor, .xor)] :
      List ((Bool → Guard → Source → Instr) × AmoKind)),
  ∀ (sw : Bool) (g : Guard) (x : Source) (loc : Nat) (s s1 : State),
    CanIssue g x s → Lands x true false false loc s1 s → (operand64 s x).toNat % 8 = 0 → storeHeld s.thr true = false →
    (isOwn (operand64 s x) && mxReading s1) = false →
    Done 4 sw x writeParts s (SendsWrite true (.amo op.2 (s.thr.opw .amoB)) loc s) (exec (op.1 sw g x) s)

/-- R95 to R98: amo.lrw with a legal amo.t and room in the record adds its word to the record, waiting, owes amo.o, and
sends its request with the group, the generation not yet arrived at, and the ticket; amo.scr of a held word removes it from
the record and sends its write with amo.b and the bit that says last. -/
def Obligations.ReservationWordsAreSent : Prop :=
  ∀ (sw : Bool) (g : Guard) (x : Source) (loc : Nat) (s s1 : State), CanIssue g x s →
    let va := operand64 s x
    let a := s.thr.opw .amoT
    let key : GroupKey := groupKey s (a.getLsbD 24) (field a 23 16)
    (Lands x true false true loc s1 s → va.toNat % 8 = 0 → field a 63 25 = 0 → selectorBad s key.wide key.grp = false →
      s.thr.resv.length < 4 → s.thr.resv.any (fun e => e.va == va) = false → s.thr.ringFull = false → amoPending s1 s1.cur loc 8 = false →
      Done 4 sw x (walks ++ [.owed, .fence, .resv, .ring, .cr crSeq, .requests, .l1, .ids]) s (fun t =>
        Owes [.amoO] s t ∧ t.thr.resv = s.thr.resv ++ [{ va, loc, granted := false }] ∧
        ∃ r : Req, r.kind = .lrw key (openGen s key) (field a 15 0) ∧ r.loc = loc ∧ r.tag = s.nextId ∧
          ((∃ b : BankReq, b.req = r ∧ t.st.bankq = s.st.bankq ++ [b] ∧ t.st.paths = s.st.paths) ∨
           (t.st.paths = s.st.paths ++ [r] ∧ t.st.bankq = s.st.bankq))) (exec (.amoLrw sw g x) s)) ∧
    (∀ (last : Bool) (word : Word), va = word ||| (if last then 1 else 0) → word.toNat % 8 = 0 → dataWalk (popped s x) s.thr.walker word = none →
      (∃ attr, translate (popped s x) s.thr.walker { user := !s.thr.sup, fetch := false, write := true, sync := false } word = .ok loc attr s1) →
      watched s1 false true word = none → s.thr.fenced .amoO = false → s.thr.resv.any (fun e => e.va == word) = true →
      storeHeld s.thr true = false → (isOwn word && mxReading s1) = false →
      Done 4 sw x (.resv :: writeParts) s (fun t =>
        SendsWrite true (.scr (s.thr.opw .amoB) last) loc s t ∧ t.thr.resv = s.thr.resv.filter (fun e => e.va != word))
        (exec (.amoScr sw g x) s))

-- ## Order, barriers

/-- R304 to R306: syn.fence goes on where no counted request's reach meets its scope, and otherwise parks on those that do;
syn.acq with no read outstanding drops the L1's lines and adds Rel of every release that pairs to the floor, and otherwise
parks; syn.rel marks the next word with its scope. It rests in part on the model's own reading: log 21 and 22. -/
def Obligations.FenceWordsOrder : Prop :=
  ∀ (sw : Bool) (g : Guard) (x : Source) (s : State), CanIssue g x s → operand64 s x = 0 → scBad (s.thr.opw .synSc) = false →
    let sc : Scope := (s.thr.opw .synSc).setWidth 42
    let Parks (m : Mode) (o : Host.Outcome State Fault Refusal) : Prop :=
      Completes o (fun t => t.thr.mode = m ∧ t.thr.pc = s.thr.pc + 4 ∧ Keeps (.mode :: issued sw x) s t)
    ((∀ c ∈ s.thr.counted, meets sc s.home c.reach = false) → Done 4 sw x [] s (fun _ => True) (exec (.synFence sw g x) s)) ∧
    ((∃ c ∈ s.thr.counted, meets sc s.home c.reach = true) → Parks (.fence (fenceTags s sc)) (exec (.synFence sw g x) s)) ∧
    (readTags s = [] → Done 4 sw x [.floor, .l1] s (fun t => t.core.l1 = [] ∧ (∀ e ∈ s.thr.floor, e ∈ t.thr.floor) ∧
      ∀ r ∈ s.thr.relReads, pairs sc s.home (s.src s.cur) r = true → ∀ e ∈ r.rel, e.2 ≠ 0 → e ∈ t.thr.floor) (exec (.synAcq sw g x) s)) ∧
    (readTags s ≠ [] → Parks (.acq (readTags s)) (exec (.synAcq sw g x) s)) ∧
    Done 4 sw x [] s (fun t => t.thr.relMark = some sc) (exec (.synRel sw g x) s)

/-- R308 to R310: a member's syn.arrive is a release write on its way to the group, with its floor and its writes not yet served as Rel, and counts for the
open generation; syn.wait on a closed generation drops the L1's lines and is answered with its number, on an open one it is
owed and listed with the group; the wait on a closed generation adds the Rel of that generation's arrivals to the floor; syn.mask takes
effect at once while no member has arrived and is kept for the close otherwise. It rests in part on the model's own reading: log 43, 45 and 72. -/
def Obligations.BarrierWordsAct : Prop :=
  ∀ (sw : Bool) (g : Guard) (x : Source) (s : State) (grp : Group), CanIssue g x s →
    let k := selector s (operand64 s x)
    field (operand64 s x) 63 9 = 0 → selectorBad s k.wide k.grp = false → groupOf s k = some grp →
    (s.thr.uh = false → s.isMember grp (s.threadNo s.cur) = true → grp.arrived.any (fun y => y.1 == s.threadNo s.cur) = false →
      (pendingReqs s s.cur).any (fun r => match r.kind with | .arrive k' => k' == k | _ => false) = false →
      Done 4 sw x [.psq, .arrivals, .ids] s (fun t =>
        (∃ r : Req, t.thr.psq = s.thr.psq ++ [r] ∧ r.kind = .arrive k ∧ r.tag = s.nextId ∧ r.slot = some s.cur ∧ r.waits = s.waitAll ∧
          r.rel = some { scope := grp.rect.setWidth 42, core := some s.home, src := s.src s.cur, rel := relOf s s.cur }) ∧
        t.thr.arrivals = (k, grp.gen) :: s.thr.arrivals.filter (fun y => y.1 != k)) (exec (.synArrive sw g x) s)) ∧
    (∀ k' gen, s.thr.arrivals.find? (fun y => y.1 == k) = some (k', gen) →
      (gen < grp.gen → Done 4 sw x [.owed, .fence, .floor, .l1, .ids] s (fun t => t.core.l1 = [] ∧
        (∀ e ∈ s.thr.floor, e ∈ t.thr.floor) ∧
        (∀ p ∈ grp.past, p.1 = gen → ∀ r ∈ p.2, ∀ e ∈ r.rel, e.2 ≠ 0 → e ∈ t.thr.floor) ∧
        ∃ o : Owed, t.thr.owed.getLast? = some o ∧ o.tag = s.nextId ∧ o.ports = [.synO] ∧
          o.vals = some [{ port := .synO, val := BitVec.ofNat 128 (gen % 2 ^ 32), mark := none }]) (exec (.synWait sw g x) s)) ∧
      (grp.gen ≤ gen → Done 4 sw x [.owed, .fence, .net, .ids] s (fun t => Owes [.synO] s t ∧
        groupOf t k = some { grp with waits := grp.waits ++ [(s.cur, s.nextId, gen)] }) (exec (.synWait sw g x) s))) ∧
    (let x0 := s.thr.x[(0 : Fin 4)]
     let x1 := s.thr.x[(1 : Fin 4)]
     s.thr.sup = true → field x0 63 40 = 0 → field x1 63 8 = 0 →
     (k.wide = false → field x0 9 0 / 256 = dieOf s.home % 4 ∧ field x0 29 20 / 256 = dieOf s.home % 4 ∧
       field x0 19 10 / 256 = dieOf s.home / 4 ∧ field x0 39 30 / 256 = dieOf s.home / 4) →
     field x0 9 0 ≤ field x0 29 20 → field x0 19 10 ≤ field x0 39 30 →
     (grp.arrived ≠ [] → Done 4 sw x [.net] s (fun t => groupOf t k = some { grp with pending := some (x0.setWidth 40, x1.setWidth 8) })
       (exec (.synMask sw g x) s)) ∧
     (grp.arrived = [] → exec (.synMask sw g x) s =
       .next (finish s (applyMask (popped s x) grp (x0.setWidth 40) (x1.setWidth 8)) (s.thr.pc + 4) sw false)))

-- ## Shift tracks

/-- Both words of an operation complete for the trigger value `v`. -/
def Sys2Proof.Slice0.BothDoneAt (i : Words) (v : Word) (sw : Bool) (g : Guard) (c x : Source) (s : State) (ex : List Part) (P : State → Prop) : Prop :=
  (CanIssue .always c s → operand64 s c = v → Done 2 sw c ex s P (exec (i.1 sw c) s)) ∧
  (CanIssue g x s → operand64 s x = v → Done 4 sw x ex s P (exec (i.2 sw g x) s))

/-- R118 to R130: on a track that the thread owns, with room in the command queue, each trk word moves the head it keeps,
queues its command behind the earlier ones and charges its distance to cr.shift; a read and a head are owed. trk.claim takes
a free track, trk.free gives it back. The cells stay: the unit performs the command. It rests in part on the model's own reading: log 34. -/
def Obligations.TrackWordsQueue : Prop :=
  ∀ (sw : Bool) (g : Guard) (c x : Source) (s : State), field (s.thr.opw .trkN) 63 5 = 0 → trackQueued s < 16 →
    let n := s.thr.trackNo
    let k := s.track n
    let st := s.thr.trackStep
    let Track' (k' : Track) (t : State) : Prop := t.core.tracks[n] = k'
    let Charged (d : Nat) (t : State) : Prop := t.thr.cr[crShift] = BitVec.ofNat 64 ((field s.thr.cr[crShift] 47 0 + d) % 2 ^ 48)
    (k.owner = none → k.retired = false → k.clearing = false →
      BothDoneAt (.trkClaimShort, .trkClaimLong) 0 sw g c x s [.track n] (Track' { k with owner := some (ownerOf s s.cur) })) ∧
    (k.owner = some (ownerOf s s.cur) → onTrack k.h = true →
      BothDoneAt (.trkFreeShort, .trkFreeLong) 0 sw g c x s [.track n]
        (Track' { k with owner := none, clearing := k.poisoned, queue := if k.poisoned then k.queue else k.queue ++ [.release s.cur] })) ∧
    (k.owner = some (ownerOf s s.cur) → k.poisoned = false →
      (∀ h : Nat, h < 512 → BothDoneAt (.trkSeekShort, .trkSeekLong) (BitVec.ofNat 64 h) sw g c x s [.track n, .cr crShift] (fun t =>
        Track' { k with h, queue := k.queue ++ [.shift h s.cur] } t ∧ Charged (Int.natAbs ((h : Int) - k.h)) t)) ∧
      (∀ h : Nat, h < 512 → k.h < 512 → BothDoneAt (.trkStepShort, .trkStepLong) (BitVec.ofInt 64 ((h : Int) - k.h)) sw g c x s [.track n, .cr crShift] (fun t =>
        Track' { k with h, queue := k.queue ++ [.shift h s.cur] } t ∧ Charged (Int.natAbs ((h : Int) - k.h)) t)) ∧
      (∀ h : Nat, h < 512 → (h : Int) = k.h + st → field s.thr.x[(0 : Fin 4)] 63 4 = 0 →
        BothDoneAt (.trkRdsShort, .trkRdsLong) 0 sw g c x s [.track n, .cr crShift, .owed, .fence, .ids] (fun t =>
          Track' { k with h, queue := k.queue ++ [.read k.h st s.cur s.nextId] } t ∧ Charged st.natAbs t ∧ Owes [.trkO] s t) ∧
        BothDoneAt (.trkWrsShort, .trkWrsLong) 0 sw g c x s [.track n, .cr crShift] (fun t =>
          Track' { k with h, queue := k.queue ++ [.write k.h st (s.thr.opq .trkD) s.cur] } t ∧ Charged st.natAbs t)) ∧
      BothDoneAt (.trkRwdShort, .trkRwdLong) 0 sw g c x s [.track n, .cr crShift] (fun t =>
        Track' { k with h := 0, queue := k.queue ++ [.rewind s.cur] } t ∧ Charged k.h t) ∧
      (onTrack k.h = true → BothDoneAt (.trkHeadShort, .trkHeadLong) 0 sw g c x s [.track n, .owed, .fence, .ids] (fun t =>
        Track' { k with queue := k.queue ++ [.head k.h s.cur s.nextId] } t ∧ Owes [.trkH] s t)))

/-- The words that move or access a track (R125). -/
def Sys2Proof.Slice0.trkOps : List Words :=
  [(.trkSeekShort, .trkSeekLong), (.trkStepShort, .trkStepLong), (.trkRdsShort, .trkRdsLong), (.trkWrsShort, .trkWrsLong),
   (.trkRwdShort, .trkRwdLong), (.trkHeadShort, .trkHeadLong)]

/-- Both words of an operation take a precise fault for the trigger value `v`. -/
def Sys2Proof.Slice0.BothFault (i : Words) (v : Word) (sw : Bool) (g : Guard) (c x : Source) (s : State) (cause : Word) : Prop :=
  (CanIssue .always c s → operand64 s c = v → popOf c = none → TakesPrecise (exec (i.1 sw c) s) s cause) ∧
  (CanIssue g x s → operand64 s x = v → popOf x = none → TakesPrecise (exec (i.2 sw g x) s) s cause)

/-- R120, R124, R130: a trk word, short or long, on a track of another owner, of none, retired or poisoned raises the track fault with its
kind, its track and its head, and changes no track; a head outside 0 to 511 and a reserved bit raise reserved port. It rests in part on
the model's own reading: log 30. -/
def Obligations.TrackFaultsReported : Prop :=
  ∀ (sw : Bool) (g : Guard) (c x : Source) (s : State) (v : Word),
    let n := s.thr.trackNo
    let k := s.track n
    let mine := k.owner = some (ownerOf s s.cur)
    let Faults (i : Words) (v cause : Word) : Prop := BothFault i v sw g c x s cause
    let claim : Words := (.trkClaimShort, .trkClaimLong)
    let free : Words := (.trkFreeShort, .trkFreeLong)
    let seek : Words := (.trkSeekShort, .trkSeekLong)
    let step : Words := (.trkStepShort, .trkStepLong)
    let access : List Words := [(.trkRdsShort, .trkRdsLong), (.trkWrsShort, .trkWrsLong)]
    (field (s.thr.opw .trkN) 63 5 ≠ 0 → ∀ i ∈ claim :: free :: trkOps, Faults i v reservedPort) ∧
    (field (s.thr.opw .trkN) 63 5 = 0 →
      (v ≠ 0 → ∀ i ∈ claim :: free :: (.trkRwdShort, .trkRwdLong) :: (.trkHeadShort, .trkHeadLong) :: access, Faults i v reservedPort) ∧
      (field s.thr.x[(0 : Fin 4)] 63 4 ≠ 0 → ∀ i ∈ access, Faults i 0 reservedPort) ∧
      (field s.thr.x[(0 : Fin 4)] 63 4 = 0 →
        (k.owner = none → (∀ i ∈ trkOps, Faults i 0 (trackCause 0x0A 1 n k.h)) ∧ Faults seek v (trackCause 0x0A 1 n k.h) ∧
          Faults step v (trackCause 0x0A 1 n k.h) ∧ Faults free 0 (trackCause 0x0A 1 n k.h)) ∧
        (∀ o, k.owner = some o → o ≠ ownerOf s s.cur → (∀ i ∈ trkOps, Faults i 0 (trackCause 0x0A 2 n k.h)) ∧ Faults seek v (trackCause 0x0A 2 n k.h) ∧
          Faults step v (trackCause 0x0A 2 n k.h) ∧ Faults free 0 (trackCause 0x0A 2 n k.h) ∧ Faults claim 0 (trackCause 0x0A 2 n k.h)) ∧
        (mine → k.poisoned = true → ∀ kind, kind = (if k.lost then 1 else 2) → (∀ i ∈ trkOps, Faults i 0 (trackCause 0x0B kind n k.h)) ∧
          Faults seek v (trackCause 0x0B kind n k.h) ∧ Faults step v (trackCause 0x0B kind n k.h)) ∧
        (mine → k.poisoned = false → (∀ i ∈ access, onTrack (k.h + s.thr.trackStep) = false → Faults i 0 reservedPort))) ∧
      (mine → k.poisoned = false → (512 ≤ v.toNat → Faults seek v reservedPort) ∧ (onTrack (k.h + v.toInt) = false → Faults step v reservedPort)) ∧
      (mine → Faults claim 0 (trackCause 0x0A 3 n k.h)) ∧
      (k.owner = none → k.retired = true → Faults claim 0 (trackCause 0x0B 3 n k.h)))

-- ## Vector, floating point, function units, random numbers

/-- The vec operations with a value, and their latencies (R239 to R249). -/
def Sys2Proof.Slice0.vecOps : List ((Bool → Guard → Source → Instr) × Op × Nat) :=
  [(.vecAdd, .vecAdd, 1), (.vecSub, .vecSub, 1), (.vecMul, .vecMul, 1), (.vecMad, .vecMad, 1), (.vecMin, .vecMin, 1), (.vecMax, .vecMax, 1),
   (.vecAnd, .vecAnd, 1), (.vecOr, .vecOr, 1), (.vecXor, .vecXor, 1), (.vecShl, .vecShl, 1), (.vecShr, .vecShr, 1), (.vecSra, .vecSra, 1),
   (.vecCeq, .vecCeq, 1), (.vecClt, .vecClt, 1), (.vecSel, .vecSel, 1), (.vecShf, .vecShf, 1), (.vecPak, .vecPak, 1), (.vecUnp, .vecUnp, 1),
   (.vecCvt, .vecCvt, 2), (.vecDot, .vecDot, 2), (.vecSum, .vecSum, 2), (.vecExt, .vecExt, 1)]

/-- R239, R240: a vec operation whose type word it accepts sends its value to vec.o after its latency, and CL with it where
an element clamped; one whose type word or index it does not accept raises reserved port. -/
def Obligations.VecResults : Prop :=
  ∀ op ∈ vecOps, ∀ (sw : Bool) (g : Guard) (x : Source) (s : State), CanIssue g x s →
    let r := vecCompute s.core s.thr.cr[crFmt] op.2.1 (s.thr.opw .vecTy) (operand s x) (s.thr.opq .vecB) (s.thr.opq .vecC)
    (∀ v cl, r = some (v, cl) → s.thr.orderHold op.2.2 [.vecO] = false →
      Done 4 sw x [.flight, .ids] s (fun t => t.thr.flight = s.thr.flight ++
        [{ due := s.thr.rot + op.2.2, tag := s.nextId, ports := [.vecO], vals := some [{ port := .vecO, val := v, mark := none }]
           flags := if cl then some (flagCL, false) else none }]) (exec (op.1 sw g x) s)) ∧
    (r = none → TakesPrecise (exec (op.1 sw g x) s) s reservedPort)

/-- R236 to R238, R242, R245: on integer elements of each width, add, sub, mul and mad compute exactly and then wrap, or
clamp where SAT is set; min and max choose by order; ceq and clt give all ones or zeros. -/
def Obligations.VecIntegerElements : Prop :=
  ∀ (core : Core) (fmt ty : Word) (a b z : Quad) (i : Nat), field ty 63 12 = 0 → ty.getLsbD 7 = false → field ty 2 0 ≤ 3 →
    let w := tyWidth (field ty 2 0)
    let u := ty.getLsbD 3
    i < 128 / w →
    let U (v : Quad) : Nat := v.toNat / 2 ^ (w * i) % 2 ^ w
    let E (v : Quad) : Int := if u then (U v : Int) else Int.bmod (U v) (2 ^ w)
    let Is (o : Op) (P : Quad → Prop) : Prop := ∃ r, vecCompute core fmt o ty a b z = some (r, false) ∧ P r
    let Fixed (e : Int) (r : Quad) : Prop :=
      E r = if ty.getLsbD 4 then (if u then max 0 (min e (2 ^ w - 1)) else max (-(2 ^ (w - 1))) (min e (2 ^ (w - 1) - 1)))
            else if u then e % 2 ^ w else Int.bmod e (2 ^ w)
    Is .vecAdd (Fixed (E a + E b)) ∧ Is .vecSub (Fixed (E a - E b)) ∧ Is .vecMul (Fixed (E a * E b)) ∧ Is .vecMad (Fixed (E a * E b + E z)) ∧
    Is .vecMin (fun r => E r = min (E a) (E b)) ∧ Is .vecMax (fun r => E r = max (E a) (E b)) ∧
    Is .vecCeq (fun r => U r = if U a = U b then 2 ^ w - 1 else 0) ∧ Is .vecClt (fun r => U r = if E a < E b then 2 ^ w - 1 else 0)

/-- A source that a capture admits, as the buffer keeps it; an immediate is kept as its 64-bit value (R35, R250). -/
def Sys2Proof.Slice0.Captures (x : Source) (s : State) (k : CapSrc) : Prop :=
  (∃ i, x = .q i ∧ k = .q i) ∨ (∃ i, x = .str i ∧ k = .str i) ∨ (x = .port .vecO ∧ k = .vecO) ∨
  ((∃ v, x = .imm5 v) ∨ (∃ v, x = .imm8 v) ∨ (∃ v, x = .imm15 v)) ∧ k = .imm (operand64 s x)

/-- The destinations that a capture admits beside the triggers (R250). -/
def Sys2Proof.Slice0.captureDests : List (Dest × CapDest) :=
  (List.finRange 16).map (fun i => (.q i, .q i)) ++ (List.finRange 8).map (fun i => (.str i, .str i)) ++
  [(.port .vecB, .vecB), (.port .vecC, .vecC), (.port .vecTy, .vecTy)]

/-- R250, R251: vec.rec captures the next 1 to 16 words; a word under capture joins the buffer and has no effect: a transport or a trigger
of a vec operation, unguarded and with S = 0, of every source and destination that R250 admits; a guarded word, one with S = 1 and one of
another source raises reserved port, and the capture ends with an empty buffer; vec.run of
0 passes has no effect, and of more starts the run with a ring entry, every other word going on. It rests in part on the model's own
choices: log 92 (a vec.rec in a trap handler) and 98 (the order of a capture's conditions). -/
def Obligations.SequencerCapturesAndRuns : Prop :=
  ∀ (sw : Bool) (g : Guard) (x : Source) (s : State),
    (CanIssue g x s → ∀ m : Nat, 0 < m → m ≤ 16 → operand64 s x = BitVec.ofNat 64 m →
      Done 4 sw x [.seqr] s (fun t => t.thr.seqr = { s.thr.seqr with left := m, buf := [], paused := 0 }) (exec (.vecRec sw g x) s)) ∧
    (s.thr.mode = .run → s.thr.seqr.left ≠ 0 → s.thr.seqr.paused = 0 →
      let Joins (len : Nat) (k : CapSrc) (d : CapDest) (o : Host.Outcome State Fault Refusal) : Prop :=
        Done len false (.pc) [.seqr] s (fun t => t.thr.seqr = { s.thr.seqr with
          left := s.thr.seqr.left - 1, buf := s.thr.seqr.buf ++ [{ src := k, dst := d }] }) o
      let Ends (o : Host.Outcome State Fault Refusal) : Prop :=
        o = takePrecise (s.setThr { s.thr with seqr := { s.thr.seqr with left := 0, buf := [] } }) s.cur reservedPort
      (∀ k, s.thr.event? = none → Captures x s k →
        (∀ d ∈ captureDests, Joins 2 k d.2 (exec (.transportShort false d.1 x) s) ∧ Joins 4 k d.2 (exec (.transportLong false .always d.1 x) s)) ∧
        (∀ op ∈ vecOps, Joins 4 k (.trig op.2.1) (exec (op.1 false .always x) s))) ∧
      (sw = true ∨ g ≠ .always ∨ (∃ i, x = .w i) → (∀ w ∈ longWords, Ends (exec (w sw g x) s)) ∧ ∀ d, Ends (exec (.transportLong sw g d x) s))) ∧
    (CanIssue g x s → s.thr.seqr.buf ≠ [] → runStreamFault (popped s x) s.thr.seqr.buf = none → ∀ n : Nat, n < 2 ^ 16 → operand64 s x = BitVec.ofNat 64 n →
      (n = 0 → Done 4 sw x [] s (fun _ => True) (exec (.vecRun sw g x) s)) ∧
      (0 < n → s.thr.ringFull = false → Done 4 sw x [.seqr, .ring, .cr crSeq, .ids] s (fun t =>
        ∃ r : Run, t.thr.seqr = { s.thr.seqr with run := some r } ∧ r.n = n ∧ r.it = 1 ∧ r.j = 0 ∧ r.tag = s.nextId ∧ r.sup = s.thr.sup ∧ r.fmt = s.thr.cr[crFmt])
        (exec (.vecRun sw g x) s)))

/-- The fpu operations with their latency and their value and flags from the format, fpu.ty and the trigger value, fpu.b and
fpu.c (R256 to R261). -/
def Sys2Proof.Slice0.fpuOps : List ((Bool → Guard → Source → Instr) × Nat × (FFmt → Word → Nat → Nat → Nat → Nat × BitVec 6)) :=
  [(.fpuAdd, 1, fun f ty a b _ => fAdd f (field ty 6 5) (fArg f a) (fArg f b)),
   (.fpuSub, 1, fun f ty a b _ => fSub f (field ty 6 5) (fArg f a) (fArg f b)),
   (.fpuMul, 1, fun f ty a b _ => fMul f (field ty 6 5) (fArg f a) (fArg f b)),
   (.fpuFma, 1, fun f ty a b c => fFma f (field ty 6 5) (fArg f a) (fArg f b) (fArg f c)),
   (.fpuDiv, 6, fun f ty a b _ => fDiv f (field ty 6 5) (fArg f a) (fArg f b)),
   (.fpuSqrt, 6, fun f ty a _ _ => fSqrt f (field ty 6 5) (fArg f a)),
   (.fpuCmp, 1, fun f ty a b _ => fCompare (field ty 11 10) (fArg f a) (fArg f b)),
   (.fpuToi, 1, fun f ty a _ _ => let r := fToInt (field ty 6 5) (if ty.getLsbD 8 then 64 else 32) (ty.getLsbD 9) (fArg f a); (wrapTo 64 r.1, r.2)),
   (.fpuTof, 1, fun f ty a _ _ => let w := if ty.getLsbD 8 then 64 else 32
      fOfInt f (field ty 6 5) (if ty.getLsbD 9 then ((a % 2 ^ w : Nat) : Int) else signedAt w a))]

/-- R256 to R261: an fpu operation with a legal fpu.ty sends its value to fpu.o after its latency, and with it its exception
flags, which join fpu.f or, with FC, replace it; at binary64 it needs feature F2. It rests in part on the model's own reading: log 63. -/
def Obligations.FpuResults : Prop :=
  ∀ op ∈ fpuOps, ∀ (sw : Bool) (g : Guard) (x : Source) (s : State), CanIssue g x s →
    let ty := s.thr.opw .fpuTy
    let d := ty.getLsbD 0
    let r := op.2.2 (if d then .b64 else .b32) ty (operand64 s x).toNat (s.thr.opw .fpuB).toNat (s.thr.opw .fpuC).toNat
    (field ty 63 12 = 0 → field ty 4 1 = 0 → (d = true → featOn s (dieOf s.coreId) 2 = true) → s.thr.orderHold op.2.1 [.fpuO] = false →
      (ty.getLsbD 7 = true → flagsOwed s.thr = false) →
      Done 4 sw x [.flight, .ids] s (fun t => t.thr.flight = s.thr.flight ++
        [{ due := s.thr.rot + op.2.1, tag := s.nextId, ports := [.fpuO], vals := some [{ port := .fpuO, val := BitVec.ofNat 128 r.1, mark := none }]
           flags := some (r.2, ty.getLsbD 7) }]) (exec (op.1 sw g x) s)) ∧
    (d = true → featOn s (dieOf s.coreId) 2 = false → TakesPrecise (exec (op.1 sw g x) s) s (causeOf 5 2))

/-- R262 to R269: with F0, each function unit sends its function of a binary32 trigger value to sfu.o after three
rotations; rng.next sends the draw of its key, stream and counter after two, and a counter of 2^48 or more raises 0x10. -/
def Obligations.FunctionUnitResults : Prop :=
  ∀ (sw : Bool) (g : Guard) (x : Source) (s : State), CanIssue g x s →
    (∀ op ∈ ([(.sfuExp2, sfuExp2), (.sfuLog2, sfuLog2), (.sfuRcp, sfuRcp), (.sfuRsq, sfuRsq), (.sfuSin, sfuSin), (.sfuCos, sfuCos)] :
        List ((Bool → Guard → Source → Instr) × (FVal → Nat))),
      (featOn s (dieOf s.coreId) 0 = true → s.thr.orderHold 3 [.sfuO] = false →
        Done 4 sw x [.flight, .ids] s (Sends 3 [(.sfuO, BitVec.ofNat 128 (op.2 (fDecode .b32 ((operand s x).toNat % 2 ^ 32))))] s) (exec (op.1 sw g x) s)) ∧
      (featOn s (dieOf s.coreId) 0 = false → TakesPrecise (exec (op.1 sw g x) s) s (causeOf 5 0))) ∧
    (field (s.thr.opw .rngS) 63 48 = 0 →
      ((operand64 s x).toNat < 2 ^ 48 → s.thr.orderHold 2 [.rngO] = false →
        Done 4 sw x [.flight, .ids] s (Sends 2 [(.rngO, quad (rngDraw s.thr.cr[crRng] (s.thr.opw .rngS) (operand64 s x)))] s) (exec (.rngNext sw g x) s)) ∧
      (2 ^ 48 ≤ (operand64 s x).toNat →
        TakesPrecise (exec (.rngNext sw g x) s) s (BitVec.ofNat 64 (0x10 + field (s.thr.opw .rngS) 47 0 * 2 ^ 16))))

-- ## Streams

/-- R190 to R197: str.bind of a free stream between two slots of the context binds it empty; of a pattern, from x0 to x3, it
binds the pattern with no element read; str.free by the queue's end with nothing in it, or by the pattern's slot, unbinds. -/
def Obligations.StreamsBindAndFree : Prop :=
  ∀ (sw : Bool) (g : Guard) (x : Source) (n p c : Fin 8) (s : State), CanIssue g x s → popOf x = none →
    (operand64 s x = BitVec.ofNat 64 (n.val + 8 + 16 * p.val + 128 * c.val) → (p = s.cur ∨ c = s.cur) →
      (p ≠ s.cur → slotHolds s p s.thr.cid = true) → (c ≠ s.cur → slotHolds s c s.thr.cid = true) → s.core.streams[n].bind = none →
      Done 4 sw x [.stream n] s (fun t => t.core.streams[n] = { s.core.streams[n] with bind := some (.queue p c), q := [] }) (exec (.strBind sw g x) s)) ∧
    (∀ store wide : Bool, operand64 s x = BitVec.ofNat 64 (n.val + 1024 * store.toNat + 2048 * wide.toNat) →
      let r := s.thr.x
      let size := if wide then 16 else 8
      let counts : Vector Nat 4 := #v[field r[(1 : Fin 4)] 15 0, field r[(1 : Fin 4)] 31 16, field r[(1 : Fin 4)] 47 32, field r[(1 : Fin 4)] 63 48]
      let strides : Vector Int 4 := #v[stride r[(2 : Fin 4)] false, stride r[(2 : Fin 4)] true, stride r[(3 : Fin 4)] false, stride r[(3 : Fin 4)] true]
      (∀ i : Fin 4, counts[i] ≠ 0 ∧ strides[i] % size = 0) → r[(0 : Fin 4)].toNat % size = 0 →
      classify r[(0 : Fin 4)] ≠ .nonCanon → classify r[(0 : Fin 4)] ≠ .hole → s.core.streams[n].bind = none → (store = false → s.thr.counted = []) →
      Done 4 sw x [.stream n] s (fun t => t.core.streams[n] = { s.core.streams[n] with
        bind := some (.pattern s.cur (!s.thr.sup) store wide r[(0 : Fin 4)] counts strides 0 0 s.thr.cr[crCtx]), q := [] }) (exec (.strBind sw g x) s)) ∧
    (operand64 s x = BitVec.ofNat 64 n.val →
      ((∃ k, s.core.streams[n].bind = some (.queue s.cur k) ∨ s.core.streams[n].bind = some (.queue k s.cur)) ∧ s.core.streams[n].q = [] ∨
       (∃ user store wide base counts strides next popd ctx, s.core.streams[n].bind = some (.pattern s.cur user store wide base counts strides next popd ctx))) →
      Done 4 sw x [.stream n] s (fun t => t.core.streams[n] = { s.core.streams[n] with bind := none, q := [] }) (exec (.strFree sw g x) s))

-- ## The matrix unit

/-- R272 to R277, R287: a matrix command without an operand fault, with room in the queue and the ring, is queued with the
values sampled at its trigger; mx.st counts in cr.rsv; mx.run with a pattern needs F3, mx.cnt, mx.drn and mx.mrg need F1, and on a
die without it they take 0x05 with the feature's number. C and the banks stay: the unit performs the command. -/
def Obligations.MatrixCommandsQueue : Prop :=
  ∀ (sw : Bool) (g : Guard) (x : Source) (s : State), CanIssue g x s →
    let On (b : Nat) : Prop := featOn s (dieOf s.coreId) b = true
    (mxPat s.thr.x[(1 : Fin 4)] ≠ 0 → ¬ On 3 → TakesPrecise (exec (.mxRun sw g x) s) s (causeOf 5 3)) ∧
    (¬ On 1 → ∀ i ∈ ([.mxCnt, .mxDrn, .mxMrg] : List (Bool → Guard → Source → Instr)), TakesPrecise (exec (i sw g x) s) s (causeOf 5 1)) ∧
    (s.core.mx.queue.length < 4 → s.thr.ringFull = false →
    let Queued (o : Op) (st : Bool) (r : Host.Outcome State Fault Refusal) : Prop :=
      Done 4 sw x ([.mx, .ring, .cr crSeq, .matrix, .ids] ++ (if st then [.counted] else [])) s (fun t =>
        (∃ c : MxCmd, t.core.mx = { s.core.mx with queue := s.core.mx.queue ++ [c] } ∧ c.op = o ∧ c.slot = s.cur ∧ c.tag = s.nextId ∧
          c.a = operand64 s x ∧ c.xs = s.thr.x ∧ c.fmt = s.thr.cr[crFmt] ∧ c.scale = s.thr.cr[crScale] ∧ c.born = s.cycle) ∧
        (st = true → t.thr.counted.map (·.tag) = s.thr.counted.map (·.tag) ++ [s.nextId])) r
    ((mxPat s.thr.x[(1 : Fin 4)] ≠ 0 → On 3) → mxOperandFault true (operand64 s x) s.thr.x = none → Queued .mxRun false (exec (.mxRun sw g x) s)) ∧
    (On 1 → mxOperandFault false (operand64 s x) s.thr.x = none → Queued .mxCnt false (exec (.mxCnt sw g x) s)) ∧
    (On 1 → operand64 s x = 0 → Queued .mxDrn false (exec (.mxDrn sw g x) s) ∧ Queued .mxMrg false (exec (.mxMrg sw g x) s)) ∧
    (mxStoreFault (operand64 s x) s.thr.x[(0 : Fin 4)] = none → Queued .mxSt true (exec (.mxSt sw g x) s)))

/-- R289: mx.wait owes mx.o and fpu.f; with no command of the slot queued it is answered at once, with the last number,
the first fault code, CL and F of the commands since the mx.wait before it. -/
def Obligations.MatrixWaitReports : Prop :=
  ∀ (sw : Bool) (g : Guard) (x : Source) (s : State), CanIssue g x s → operand64 s x = 0 → s.thr.mxWaits = [] →
    let b := s.thr.mxOpen
    ((∀ c ∈ s.core.mx.queue, c.slot ≠ s.cur) → Done 4 sw x [.owed, .fence, .matrix, .ids] s (fun t =>
      t.thr.mxWaits = [] ∧ ∃ o : Owed, t.thr.owed.getLast? = some o ∧ o.tag = s.nextId ∧ o.ports = [.mxO, .fpuF] ∧
        o.vals = some [{ port := .mxO, val := mxStatus b, mark := none }] ∧ o.flags = some (if b.clamp then flagCL else 0)) (exec (.mxWait sw g x) s)) ∧
    ((∃ c ∈ s.core.mx.queue, c.slot = s.cur ∧ c.tag < s.nextId) → Done 4 sw x [.owed, .fence, .matrix, .ids] s (fun t =>
      Owes [.mxO, .fpuF] s t ∧ t.thr.mxWaits = [(s.nextId, b)]) (exec (.mxWait sw g x) s))

-- ## Tiles and job cards

/-- R171 to R175: an nd.want that passes its checks takes a record and an interest to the cluster's router; nd.give sends
the tile as it stands in the window to its home router, counted, and with LAST retires the iteration after the gives before
it; nd.drop of kind 1 retires it, and of kind 0 withdraws an interest of the thread, where it has one. It rests in part on the model's own reading: log 37 and 77, and on its
choice in log 101 (the nd.drop of kind 0 that finds two interests alike withdraws the older one). -/
def Obligations.TileWordsAct : Prop :=
  ∀ (sw : Bool) (g : Guard) (x : Source) (s : State) (r : Tensor), CanIssue g x s →
    let va := operand64 s x
    let nm := s.thr.tileName
    let ops := s.thr.opw .ndD
    field s.thr.x[(0 : Fin 4)] 63 40 = 0 → field s.thr.x[(1 : Fin 4)] 63 32 = 0 →
    (nameRecord s nm true = some r → windowFault va 128 r.size = none →
      (ops = 0 → s.core.interests.length < 32 → s.thr.ringFull = false →
        Done 4 sw x [.tiles, .net, .ring, .cr crSeq, .ids] s (fun t =>
          t.core.interests = s.core.interests ++ [{ num := s.core.nrec, slot := s.cur, nm, dest := field va 16 0, card := none, tag := s.nextId, area := some s.thr.psave }] ∧
          t.core.nrec = s.core.nrec + 1 ∧
          t.net.packets = s.net.packets ++ [(clusterOf s.coreId, .interest nm (.waiter s.coreId (field va 16 0) s.core.nrec))]) (exec (.ndWant sw g x) s)) ∧
      (ops &&& ~~~(1#64) = 0 → r.hasCore s.home = true → r.mod = 0 → s.thr.ringFull = false →
        (∀ k < r.size / 8, amoPending (popped s x) s.cur (winLoc s (field va 16 0 + 8 * k)) 8 = false) →
        Done 4 sw x [.psq, .counted, .ring, .cr crSeq, .tiles, .floor, .releases, .errors, .mc, .host, .ids] s (fun t =>
          (∃ q : Req, t.thr.psq = s.thr.psq ++ [q] ∧ q.tag = s.nextId ∧ q.counted = true ∧
            q.kind = .give nm (readTile (winScrub (popped s x) (field va 16 0) r.size) (field va 16 0) r.size)
              { core := s.coreId, slot := s.cur, seq := (field s.thr.cr[crSeq] 47 0 + 1) % 2 ^ 48, tag := s.nextId, va }) ∧
          t.core.gives = s.core.gives ++ [(s.cur, s.nextId)] ∧
          t.core.retires = s.core.retires ++ (if ops.getLsbD 0 then
            [{ slot := s.cur, cid := nm.cid, tensor := nm.tensor, iter := nm.iter, waits := (t.core.gives.filter (fun y => y.1 == s.cur)).map (·.2) }] else [])) (exec (.ndGive sw g x) s)) ∧
      (ops = 0 → s.core.interests.find? (fun i => i.slot == s.cur && i.nm == nm && i.dest == field va 16 0 && i.card.isNone) = none →
        Done 4 sw x [] s (fun _ => True) (exec (.ndDrop sw g x) s)) ∧
      (∀ i, ops = 0 → s.core.interests.find? (fun i => i.slot == s.cur && i.nm == nm && i.dest == field va 16 0 && i.card.isNone) = some i →
        Done 4 sw x [.tiles, .net, .ring] s (fun t => t.core.interests = s.core.interests.filter (fun y => y.num != i.num) ∧
          t.thr.ring = s.thr.ring.filter (fun e => e.tag != i.tag || e.refused)) (exec (.ndDrop sw g x) s))) ∧
    (nameRecord s nm false = some r → ops = 1 → va = 0 → r.hasCore s.home = true → r.mod = 0 →
      Done 4 sw x [.tiles] s (fun t => t.core.retires = s.core.retires ++
        [{ slot := s.cur, cid := nm.cid, tensor := nm.tensor, iter := nm.iter, waits := (s.core.gives.filter (fun y => y.1 == s.cur)).map (·.2) }]) (exec (.ndDrop sw g x) s))

/-- R172, R176, R177: an nd.card whose record is legal, with no poisoned word among those it reads, and with room, takes the next card id, an interest record
for each name, and owes nd.o, which is answered with the id. It rests in part on the model's choice in log 100 (a card word that nothing has produced raises
nothing). -/
def Obligations.CardTakesInterests : Prop :=
  ∀ (sw : Bool) (g : Guard) (x : Source) (s : State), CanIssue g x s →
    let va := operand64 s x
    let y := winScrub (popped s x) (field va 16 0) 128
    let W (k : Nat) : List Byte × BitVec 2 := bankWord y s.cur s.nextId (winLoc s (field va 16 0 + 8 * k))
    let b := (List.range 16).flatMap (fun k => (W k).1)
    let n := field (cardWord b 1) 4 2
    let id : Fin 32 := Fin.ofNat 32 s.core.ncard
    windowFault va 128 128 = none → (∀ k ∈ cardReads n, amoPending y s.cur (winLoc s (field va 16 0 + 8 * k)) 8 = false ∧ (W k).2 ≠ 1) →
    entryOk (cardWord b 0) = true → field (cardWord b 1) 63 5 = 0 → n ≤ 4 → cardWord b 3 = 0 → (∀ j < n, (cardName y b j).isSome = true) →
    s.thr.ringFull = false → s.core.interests.length + n ≤ 32 → s.core.cards.any (fun c => c.id == id) = false →
    Done 4 sw x [.tiles, .net, .owed, .fence, .ring, .cr crSeq, .floor, .releases, .errors, .mc, .host, .ids] s (fun t =>
      (∃ c : Card, t.core.cards = s.core.cards ++ [c] ∧ c.id = id ∧ c.slot = s.cur ∧ c.pending = n ∧ c.task.entry = cardWord b 0 ∧
        c.task.hint = cardWord b 2 ∧ c.task.args = #v[cardWord b 12, cardWord b 13, cardWord b 14, cardWord b 15]) ∧
      t.core.ncard = s.core.ncard + 1 ∧ t.core.interests.length = s.core.interests.length + n ∧
      ∃ o : Owed, t.thr.owed.getLast? = some o ∧ o.tag = s.nextId ∧ o.ports = [.ndO] ∧
        o.vals = some [{ port := .ndO, val := BitVec.ofNat 128 id.val, mark := none }]) (exec (.ndCard sw g x) s)

-- ## Copies, messages, tasks

/-- R101 to R105, R109, R114, R128, R134: cpy.go completes where no reserved field is set and no combination refused, its track sides
(without SWP) stay in their tracks and belong to the thread, its addresses are aligned and of a class that an address may have,
SWP is used by the supervisor, and there is room in the queues: the copy enters the core's copy queue with the operands sampled
at its trigger, counts in cr.rsv, and owes cpy.o: until it completes with NOTE 0, and answered with ST 1 at once otherwise. A
track side takes its place in the track's queue and, without SWP, moves the head to its last position and charges cr.shift with
|start − H| + N/2 − 1; with SWP neither. -/
def Obligations.CopyEntersQueue : Prop :=
  ∀ (sw : Bool) (g : Guard) (x : Source) (s : State), CanIssue g x s →
    let c := operand64 s x
    let v := s.thr.x
    let half := x2Rows v[(2 : Fin 4)] * x2Len v[(2 : Fin 4)] / 16
    let sides := (if ctlStrk c then [v[(0 : Fin 4)]] else []) ++ (if ctlDtrk c then [v[(1 : Fin 4)]] else [])
    let addrs := (if ctlStrk c then [] else [v[(0 : Fin 4)]]) ++ (if ctlDtrk c then [] else [v[(1 : Fin 4)]])
    cpyBad c v = false → cpyClash c v = false → (ctlSwp c = true → s.thr.sup = true) →
    (ctlSwp c = false → ∀ y ∈ sides, selStart y + half ≤ 512 ∧ (s.track (selTrack y)).owner = some (ownerOf s s.cur)) →
    (∀ y ∈ addrs, field y 2 0 = 0 ∧ classify y ≠ .nonCanon ∧ classify y ≠ .hole) → s.core.copies.length < 4 → s.thr.ringFull = false → (sides = [] ∨ trackQueued s + sides.length ≤ 16) →
    Done 4 sw x ([.copies, .ring, .cr crSeq, .cr crShift, .counted, .owed, .fence, .ids] ++ sides.map (fun y => .track (selTrack y))) s (fun t =>
      (∃ k : Copy, t.core.copies = s.core.copies ++ [k] ∧ k.slot = s.cur ∧ k.tag = s.nextId ∧ k.ctl = c ∧ k.xs = v ∧ k.sup = s.thr.sup ∧
        k.ctx = s.thr.cr[crCtx] ∧ k.area = s.thr.areaUse ∧ k.done = 0 ∧ k.started = false ∧ k.ended = none) ∧
      t.thr.counted.map (·.tag) = s.thr.counted.map (·.tag) ++ [s.nextId] ∧
      (∃ o : Owed, t.thr.owed.getLast? = some o ∧ o.tag = s.nextId ∧ o.ports = [.cpyO] ∧
        (ctlNote c ≠ 0 → o.vals = some [{ port := .cpyO, val := quad (copyStatus 0 (ctlTag c) 0 1), mark := none }])) ∧
      (∀ y ∈ sides, let k := s.track (selTrack y)
        t.track (selTrack y) = { k with h := if ctlSwp c then k.h else selStart y + half - 1, queue := k.queue ++ [.copy s.nextId] }) ∧
      (ctlSwp c = true ∨ sides = [] → t.thr.cr[crShift] = s.thr.cr[crShift]) ∧
      (ctlSwp c = false → sides ≠ [] → t.thr.cr[crShift] = BitVec.ofNat 64 ((field s.thr.cr[crShift] 47 0 +
        (sides.map (fun y => Int.natAbs ((selStart y : Int) - (s.track (selTrack y)).h) + half - 1)).foldl (· + ·) 0) % 2 ^ 48))) (exec (.cpyGo sw g x) s)

/-- R318, R322 to R327: msg.send without a fault is sent with its identity and msg.d, counted in cr.rsv, and departs behind
what was counted before it; msg.recv and msg.any owe msg.o and msg.id, and take the earliest message that fits, or wait. -/
def Obligations.MessageWordsAct : Prop :=
  ∀ (sw : Bool) (g : Guard) (x : Source) (s : State), CanIssue g x s →
    let v := operand64 s x
    let Receives (r : Receive) (o : Host.Outcome State Fault Refusal) : Prop :=
      (earliest s (fun m => r.takes m.id) (s.core.mail ++ s.core.spill.map (·.2)) = none →
        Done 4 sw x [.mail, .owed, .fence, .ids] s (fun t => Owes [.msgO, .msgId] s t ∧ t.core.receives = s.core.receives ++ [r] ∧ t.core.mail = s.core.mail) o) ∧
      (∀ m, s.core.spill = [] → earliest s (fun m => r.takes m.id) s.core.mail = some m →
        Done 4 sw x [.mail, .owed, .fence, .ids] s (fun t => t.core.mail = s.core.mail.erase m ∧ t.core.receives = s.core.receives ∧
          ∃ w : Owed, t.thr.owed.getLast? = some w ∧ w.tag = s.nextId ∧ w.ports = [.msgO, .msgId] ∧
            w.vals = some [{ port := .msgO, val := m.data, mark := none }, { port := .msgId, val := quad m.id, mark := none }]) o)
    (sendFault s v = none → s.thr.ringFull = false →
      Done 4 sw x [.psq, .counted, .ring, .cr crSeq, .ids] s (fun t =>
        (∃ q : Req, t.thr.psq = s.thr.psq ++ [q] ∧ q.tag = s.nextId ∧ q.slot = some s.cur ∧ q.waits = s.waitAll ∧
          q.kind = .msg (v.getLsbD 63) (field v 59 40) (if v.getLsbD 63 then coreNum (field v 29 20) (field v 39 30) else field v 39 20)
            (sendId s.thr (field v 3 0)) (s.thr.opq .msgD)) ∧
        t.thr.counted.map (·.tag) = s.thr.counted.map (·.tag) ++ [s.nextId]) (exec (.msgSend sw g x) s)) ∧
    ((s.thr.owed.filter (fun o => o.ports.contains .msgO)).length < 4 →
      (v.getLsbD 63 = false → logicalBad s (field v 55 36) (field v 35 16) = false → field v 58 56 < (shapeOf s).2.2 →
        Receives { slot := s.cur, tag := s.nextId, ident := some v, mask := 0 } (exec (.msgRecv sw g x) s)) ∧
      (s.thr.sup = true → field v 63 16 = 0 → v ≠ 0 →
        Receives { slot := s.cur, tag := s.nextId, ident := none, mask := v.setWidth 16 } (exec (.msgAny sw g x) s)))

/-- R350 to R355: tsk.push of a legal record with no poisoned word, with no card waiting to be inserted, joins the ready queue at its priority; tsk.pop of an empty queue gives
0, and otherwise takes the oldest entry of the highest priority, whose words it writes, no other byte of memory, and whose status it gives; tsk.park
waits for the dispatcher; tsk.yield makes the quantum's expiry pending with Y. It rests in part on the model's own reading: log 37. -/
def Obligations.TaskWordsAct : Prop :=
  ∀ (sw : Bool) (g : Guard) (x : Source) (s : State), CanIssue g x s →
    let v := operand64 s x
    let off := field v 16 0
    let y := winScrub (popped s x) off 64
    let W (k : Nat) : List Byte × BitVec 2 := bankWord y s.cur s.nextId (winLoc s (off + 8 * k))
    let b := (List.range 8).flatMap (fun k => (W k).1)
    let Gives (st : Nat) (t : State) : Prop := ∃ o : Owed, t.thr.owed.getLast? = some o ∧ o.tag = s.nextId ∧ o.ports = [.tskO] ∧
      o.vals = some [{ port := .tskO, val := BitVec.ofNat 128 st, mark := none }]
    (s.thr.sup = true → field (s.thr.opw .tskPr) 63 2 = 0 → recordFault v = none →
      (∀ k < 8, amoPending y s.cur (winLoc s (off + 8 * k)) 8 = false ∧ (W k).2 ≠ 1) → cardWord b 3 = 0 → entryOk (cardWord b 0) = true →
      s.core.ready.length < 64 → cardReady s = none →
      Done 4 sw x [.ready, .floor, .releases, .errors, .mc, .host] s (fun t => t.core.ready = s.core.ready ++
        [{ entry := cardWord b 0, hint := cardWord b 1, tagw := cardWord b 2, prio := (s.thr.opw .tskPr).setWidth 2, card := none, byp := 0, args := #v[cardWord b 4, cardWord b 5, cardWord b 6, cardWord b 7] }])
        (exec (.tskPush sw g x) s)) ∧
    (s.thr.sup = true → recordFault v = none → s.core.ready = [] → Done 4 sw x [.owed, .fence, .ids] s (Gives 0) (exec (.tskPop sw g x) s)) ∧
    (∀ r rest, MemoryOk s → s.thr.sup = true → recordFault v = none → topEntries s.core.ready = r :: rest → s.st.waiting = [] →
      Done 4 sw x [.ready, .owed, .fence, .ids, .memory, .errors, .history] s (fun t => Gives (readyStatus r.1) t ∧ t.core.ready = s.core.ready.eraseIdx r.2 ∧
        (∀ k < 8, (read64 t.st (winLoc s (off + 8 * k)), 0#2) = (readyWords r.1).getD k (0, 0#2)) ∧
        ∀ c : Nat, c < winLoc s off ∨ winLoc s off + 64 ≤ c → Mem.get t.st.mem c = Mem.get s.st.mem c) (exec (.tskPop sw g x) s)) ∧
    (v = 0 → s.thr.more = false → Completes (exec (.tskPark sw g x) s) (fun t =>
      t.thr.mode = .dispatch ∧ t.thr.pc = s.thr.pc + 4 ∧ Keeps (.mode :: issued sw x) s t)) ∧
    (v = 0 → Done 4 sw x [] s (fun t => t.thr.expiry = some true ∧ field t.thr.cr[crQleft] 31 0 = 0) (exec (.tskYield sw g x) s))

-- ## Control registers and the rest of sys

/-- R184, R188, R189: sys.crr of a register that the level may read sends its value to sys.o after one rotation; one that
it may not read is privileged, and an index above 24 reserved. It rests in part on the model's own reading: log 23. -/
def Obligations.ControlRegistersRead : Prop :=
  ∀ (sw : Bool) (g : Guard) (x : Source) (s : State), CanIssue g x s →
    (∀ i : Fin 25, operand64 s x = BitVec.ofNat 64 i.val → (s.thr.sup = true ∨ (crUser i).1 = true) → s.thr.orderHold 1 [.sysO] = false →
      Done 4 sw x [.flight, .ids] s (Sends 1 [(.sysO, quad (crRead (popped s x) i))] s) (exec (.sysCrr sw g x) s)) ∧
    (∀ i : Fin 25, operand64 s x = BitVec.ofNat 64 i.val → s.thr.sup = false → (crUser i).1 = false →
      TakesPrecise (exec (.sysCrr sw g x) s) s (causeOf 3) ∧ TakesPrecise (exec (.sysCrw sw g x) s) s (causeOf 3)) ∧
    (25 ≤ (operand64 s x).toNat → TakesPrecise (exec (.sysCrr sw g x) s) s reservedPort ∧ TakesPrecise (exec (.sysCrw sw g x) s) s reservedPort)

/-- R184 to R189, R204, R388: sys.crw completes for every register that the level may write, writes the bits that the level may write and
keeps the others: of every register of the thread; of cr.shape, its BASE too, with COUNT at most 4096, which empties the shape cache; of
cr.psave, the area that later triggers are tied to; of cr.bar and the mailbox fields of the core, and nothing else of the core; of cr.wp,
its GRAN, SKIP, XT, ST and LD, where CMD reads 0, and 1 inserts a granule into the filter and 2 clears it. It rests in part on the model's
own reading: log 23. -/
def Obligations.ControlRegistersWrite : Prop :=
  ∀ (sw : Bool) (g : Guard) (x : Source) (s : State), CanIssue g x s →
    let v := s.thr.x[(0 : Fin 4)]
    let new (i : Fin 25) (sup : Bool) : Word := (s.thr.cr[i] &&& ~~~(crMask i sup)) ||| (v &&& crMask i sup)
    let k := (popped s x).core
    (∀ i : Fin 25, i ≠ crShape → i ≠ crBar → i ≠ crMbox → i ≠ crWp → i ≠ crPsave → operand64 s x = BitVec.ofNat 64 i.val → (s.thr.sup = true ∨ (crUser i).1 = true) →
      Done 4 sw x [.cr i] s (fun t => t.thr.cr[i] = new i s.thr.sup) (exec (.sysCrw sw g x) s)) ∧
    (s.thr.sup = true →
      (operand64 s x = BitVec.ofNat 64 13 → Done 4 sw x [.cr crShape, .shapes] s (fun t => t.core = { k with shapes := [] } ∧
        t.thr.cr[crShape] = BitVec.ofNat 64 (field (new crShape true) 47 0 + min (field (new crShape true) 60 48) 4096 * 2 ^ 48)) (exec (.sysCrw sw g x) s)) ∧
      (operand64 s x = BitVec.ofNat 64 24 → Done 4 sw x [.cr crPsave, .areaUse] s (fun t => t.thr.cr[crPsave] = new crPsave true ∧
        t.thr.areaUse = s.thr.areaUse.map (fun _ => t.thr.psave) ∧
        ∀ a, s.thr.areaUse = some a → t.thr.inUse (some a) = true ∧
          (s.thr.inUse (some t.thr.psave) = false → ∀ o ∈ s.thr.owed, o.area = some t.thr.psave → t.thr.reaches o.tag o.area = false)) (exec (.sysCrw sw g x) s)) ∧
      (operand64 s x = BitVec.ofNat 64 20 → Done 4 sw x [.coreRegs] s (fun t => t.core = { k with bar := v &&& 0x7FFFF8#64 }) (exec (.sysCrw sw g x) s)) ∧
      (operand64 s x = BitVec.ofNat 64 21 → Done 4 sw x [.coreRegs, .cr crMbox] s (fun t => t.core = { k with mboxBase := t.core.mboxBase, mboxSz := t.core.mboxSz } ∧
        t.core.mboxBase.toNat = field v 63 24 ∧ t.core.mboxSz.toNat = field v 23 20 ∧ t.thr.cr[crMbox] = v &&& 0xFFFF#64) (exec (.sysCrw sw g x) s)) ∧
      (operand64 s x = BitVec.ofNat 64 23 → Done 4 sw x [.coreRegs, .cr crWp] s (fun t => t.thr.cr[crWp] = new crWp true &&& ~~~(0x30#64) ∧
        t.core = { k with filter := if field v 5 4 = 1 then bloomInsert k.filter (field v 47 6) else if field v 5 4 = 2 then 0 else k.filter })
        (exec (.sysCrw sw g x) s)))

/-- R389: a granule inserted into the watchpoint filter is found there, and stays found after every later insertion. -/
def Obligations.WatchpointFilterHolds : Prop :=
  ∀ (f : BitVec 4096) (a b : Nat), bloomHit (bloomInsert f a) a = true ∧ (bloomHit f b = true → bloomHit (bloomInsert f a) b = true)

/-- R75 to R77, R87, R88, R314, R376 to R380: sys.tlbi is listed as a shootdown and counted; sys.mwait monitors its
line, in a full table of 64 in place of the oldest, whose waiter wakes; with another value in memory it then gives 4, monitors nothing and goes on, and with that
value it waits; sys.halt 0 ends the task, and sys.halt 1 asks for a
die with the features. It rests in part on the model's own reading: log 19, 66 and 70. -/
def Obligations.SystemWordsAct : Prop :=
  ∀ (sw : Bool) (g : Guard) (x : Source) (s : State), CanIssue g x s →
    let v := operand64 s x
    let x0 := s.thr.x[(0 : Fin 4)]
    let Parks (m : Mode) (ex : List Part) (P : State → Prop) (o : Host.Outcome State Fault Refusal) : Prop :=
      Completes o (fun t => t.thr.mode = m ∧ t.thr.pc = s.thr.pc + 4 ∧ Keeps (.mode :: issued sw x ++ ex) s t ∧ P t)
    (s.thr.sup = true → tlbiBad v x0 s.thr.x[(1 : Fin 4)] = false → s.thr.ringFull = false →
      Done 4 sw x [.ring, .cr crSeq, .counted, .requests, .ids] s (fun t =>
        t.st.tlbis = s.st.tlbis ++
          [{ slot := s.cur, tag := s.nextId, kind := x0.setWidth 2, cid := BitVec.ofNat 6 (field x0 13 8), va := v, scope := s.thr.x[(1 : Fin 4)].setWidth 42, sent := false, waits := [] }] ∧
        t.thr.counted = s.thr.counted ++ [{ tag := s.nextId, reach := .scope (s.thr.x[(1 : Fin 4)].setWidth 42), refused := false }]) (exec (.sysTlbi sw g x) s)) ∧
    (∀ loc attr s1, s.thr.sup = true → ¬(field v 63 48 = 0 ∧ field v 47 41 = 0x7F) → v.toNat % 8 = 0 → dataWalk (popped s x) s.thr.walker v = none →
      translate (popped s x) s.thr.walker { user := !s.thr.sup, fetch := false, write := false, sync := false } v = .ok loc attr s1 →
      let mon := v &&& 0x0000FFFFFFFFFF80#64
      let old := s.st.monitors.filter (fun m => !(m.core == s.coreId && m.slot == s.cur))
      let table := old.filter (fun m => pointOf m.line == pointOf (lineOf loc))
      let new : Monitor := { line := lineOf loc, core := s.coreId, slot := s.cur }
      let ex := walks ++ [.lines, .errors, .dbg, .monitors, .cr crMon]
      let Goes (o : Host.Outcome State Fault Refusal) (kept : List Monitor) (more : List Part) (P : State → Prop) : Prop :=
        Done 4 sw x (ex ++ [.flight, .ids] ++ more) s (fun t => t.thr.cr[crMon] = mon ∧ t.st.monitors = kept ∧ P t ∧ ∃ tag,
          t.thr.flight = s.thr.flight ++ [{ due := s.thr.rot + 1, tag, ports := [.sysO], vals := some [{ port := .sysO, val := 4#128, mark := none }], flags := none }]) o
      let Wakes (m : Monitor) (t : State) : Prop := m.core = s.coreId → s.slots[m.slot].mode = .mwait → t.slots[m.slot].mode ≠ .mwait
      (BitVec.ofNat 64 (read64 s.st loc) ≠ x0 →
        (table.length < 64 → Goes (exec (.sysMwait sw g x) s) old [] (fun _ => True)) ∧
        (∀ m, 64 ≤ table.length → table.head? = some m → Goes (exec (.sysMwait sw g x) s) (old.erase m) [.others] (Wakes m))) ∧
      (BitVec.ofNat 64 (read64 s.st loc) = x0 →
        (table.length < 64 → Parks .mwait ex (fun t => t.thr.cr[crMon] = mon ||| 1#64 ∧ t.st.monitors = old ++ [new]) (exec (.sysMwait sw g x) s)) ∧
        (∀ m, 64 ≤ table.length → table.head? = some m → Parks .mwait (ex ++ [.others, .ids]) (fun t =>
          t.thr.cr[crMon] = mon ||| 1#64 ∧ t.st.monitors = old.erase m ++ [new] ∧ Wakes m t) (exec (.sysMwait sw g x) s)))) ∧
    (v = 0 → s.thr.uh = false →
      Parks (if s.thr.dispatched then .dispatch else if s.thr.more then .taskEnd else .ending) [] (fun _ => True) (exec (.sysHalt sw g x) s)) ∧
    (v = 1 → s.thr.sup = true → s.thr.uh = false →
      Parks (.migrate (s.thr.cr[crFeat] ||| x0)) [] (fun _ => True) (exec (.sysHalt sw g x) s))

-- ## The steps of the units

/-- R22, R40, R42, R44, R39, R147, R152, R182, R258, R371: a result reaches its port, converted to its width, with its flags: a fixed-latency
one when it is due; an owed one while its area is in use, and otherwise its area, where its entry, its mark with its cause, and its owed mark clear then stand and
every other byte is kept; a paged load's read returns a permitted moment of its bytes, the memory's own where no write is recorded on them, with the thread's own
writes before it forwarded, zero- or sign-extended; a fence bit stays until the marker,
where a slot that nothing is owed goes on with the bits clear; a held word whose streams allow it is held no longer. It rests in part on the model's own reading: log 12 and 15. -/
def Obligations.ResultsReachPorts : Prop :=
  ∀ (slot : Fin 8) (s : State),
    let a := s.slots[slot]
    let Rest (t : State) : Prop := (∀ i : Fin 8, i ≠ slot → t.slots[i] = s.slots[i]) ∧ t.core = s.core ∧ t.st = s.st ∧ t.cur = s.cur
    let Val (v : PortVal) : Quad := if v.port.wide then v.val else quad (low64 v.val)
    (∀ f v, a.flight = [f] → f.due ≤ a.rot → f.vals = some [v] → v.port ≠ .fpuF →
      Completes (exec (.fixedResultDelivery slot) s) (fun t =>
        let b := t.slots[slot]
        b.flight = [] ∧ b.rpq v.port = Val v ∧ (∀ r : RPort, r ≠ v.port → r ≠ .fpuF → b.rpq r = a.rpq r) ∧
        b.rpq .fpuF = (match f.flags with
          | none => a.rpq .fpuF
          | some (g, clear) => (if clear then 0 else a.rpq .fpuF) ||| g.setWidth 128) ∧
        b.fence = a.fence ∧ b.w = a.w ∧ b.q = a.q ∧ b.pc = a.pc ∧ Rest t)) ∧
    (∀ o v, a.owed = [o] → a.flight = [] → o.vals = some [v] → o.flags = none → o.work = [] → o.rels = [] →
      (a.reaches o.tag o.area = true → Completes (exec (.fencedResultDelivery slot) s) (fun t =>
        let b := t.slots[slot]
        b.owed = [] ∧ b.rpq v.port = Val v ∧ (∀ r : RPort, r ≠ v.port → b.rpq r = a.rpq r) ∧ b.fence = a.fence ∧ b.w = a.w ∧ b.q = a.q ∧
        b.pc = a.pc ∧ b.mode = a.mode ∧ Rest t)) ∧
      (∀ area, o.area = some area → a.reaches o.tag o.area = false →
        exec (.fencedResultDelivery slot) s = deliverToArea (owedDone s slot o) slot area [v] ∧
        ∀ off, classify area = .own off → field area 9 0 = 0 → MemoryOk s → ownPending s slot (winLoc s off) = false → (∀ q ∈ pendingReqs s slot, q.stores? = none) →
          Completes (exec (.fencedResultDelivery slot) s) (fun t =>
            let loc := winLoc s off
            let at_ (u : State) (i k n : Nat) : Nat := natLE (Mem.read u.st.mem (loc + 16 * i + k) n)
            let bit (u : State) (k : Nat) (i : Fin 26) : Bool := (at_ u 56 (4 * k) 4).testBit i.val
            at_ t (24 + v.port.fin.val) 0 16 = (Val v).toNat ∧ at_ t 56 0 4 = at_ s 56 0 4 ∧
            (∀ i : Fin 26, bit t 1 i = (if i = v.port.fin then v.mark.any (fun m => !m.1) else bit s 1 i) ∧
              bit t 2 i = (if i = v.port.fin then v.mark.any (fun m => m.1) else bit s 2 i) ∧ bit t 3 i = (decide (i ≠ v.port.fin) && bit s 3 i)) ∧
            (∀ k : Fin 4, at_ t (50 + k.val / 2) (8 * (k.val % 2)) 8 = if v.port.mark? = some k then (match v.mark with | some m => m.2.toNat | none => 0)
              else at_ s (50 + k.val / 2) (8 * (k.val % 2)) 8) ∧
            (∀ c : Nat, (c < loc + 16 * (24 + v.port.fin.val) ∨ loc + 16 * (25 + v.port.fin.val) ≤ c) → (c < loc + 800 ∨ loc + 832 ≤ c) →
              (c < loc + 896 ∨ loc + 912 ≤ c) → Mem.get t.st.mem c = Mem.get s.st.mem c) ∧
            (∀ r : RPort, t.slots[slot].rpq r = a.rpq r) ∧ t.slots[slot].w = a.w ∧ t.slots[slot].pc = a.pc))) ∧
    (∀ o r, a.owed = [o] → a.flight = [] → o.vals = none → o.read = some r → o.flags = none → o.work = [] → o.rels = [] → a.reaches o.tag o.area = true →
      isBank r.loc = false → s.core.l1.contains (lineOf r.loc) = true → s.core.l1bad.contains (lineOf r.loc) = false →
      let ms := viewMoments { s.st with marks := soundMarks s.st none } a.floor (s.src slot) (forwarded s slot o.tag) r.loc r.bytes
      ms ≠ [] → Completes (exec (.fencedResultDelivery slot) s) (fun t =>
        let b := t.slots[slot]
        let port := o.ports.headD .memO
        b.owed = [] ∧ (∀ p : RPort, p ≠ port → b.rpq p = a.rpq p) ∧ b.fence = a.fence ∧ b.w = a.w ∧ b.q = a.q ∧ b.pc = a.pc ∧ b.mode = a.mode ∧ Rest t ∧
        ∃ m ∈ ms,
          let n := natLE (forwardOwn s slot o.tag r.loc m.bytes)
          let v : Quad := if r.ext then quad (BitVec.ofInt 64 (signedAt (8 * r.bytes) n)) else BitVec.ofNat 128 n
          b.rpq port = (if port.wide then v else quad (low64 v)) ∧
          ((∀ w ∈ s.st.hist, w.loc + w.old.length ≤ r.loc ∨ r.loc + r.bytes ≤ w.loc) → m.bytes = Mem.read s.st.mem r.loc r.bytes))) ∧
    (a.mode = .marker → a.pending = false → Completes (exec (.switchMarkerRelease slot) s) (fun t =>
      t.slots[slot] = { a with mode := .run, fence := 0 } ∧ Rest t)) ∧
    (∀ h, a.held = some h → mayRelease { s with cur := slot } h = true → Completes (exec (.streamWordHoldRelease slot) s) (fun t =>
      t.slots[slot] = { a with held := none } ∧ Rest t))

/-- R342, R343, R365, R368, R370, R372, R385: an expiry becomes pending; an imprecise fault joins those pending; an entry whose
results have drained is completed; a user-level interrupt saves to cr.uepc and enters at cr.uvec with UH = 1; a precise fault inside a user-level
handler ends it: cr.epc holds UEPC with UMK and UHF, w20 to w23 and their shadows change back, and the handler's completion stands in entry 61 of the area; a killed thread's
state is 0, and every other thread and memory stay. It rests in part on the model's own reading: log 15. -/
def Obligations.SlotEventsAct : Prop :=
  ∀ (slot : Fin 8) (s : State),
    let a := s.slots[slot]
    let Rest (t : State) : Prop := ∀ i : Fin 8, i ≠ slot → t.slots[i] = s.slots[i]
    (holdsThread a = true →
      (field a.cr[crQuant] 31 0 ≠ 0 → field a.cr[crQleft] 31 0 = 0 → a.expiry = none →
        Completes (exec (.quantumExpiry slot) s) (fun t => t.slots[slot] = { a with expiry := some false } ∧ Rest t)) ∧
      (∀ seq cause, impreciseCode (field cause 7 0) = true → Completes (exec (.impreciseFaultArrival slot seq cause) s) (fun t =>
        (∀ f, f ∈ t.slots[slot].faults ↔ f = (seq, cause) ∨ f ∈ a.faults) ∧ t.slots[slot] = { a with faults := t.slots[slot].faults } ∧ Rest t)) ∧
      Completes (exec (.threadKill slot) s) (fun t => Killed t.slots[slot] ∧
        (s.st.waitq = [] → t.st.mem = s.st.mem ∧ t.st.full = s.st.full) ∧ ∀ i : Fin 8, i ≠ slot → t.slots[i].w = s.slots[i].w ∧ t.slots[i].pc = s.slots[i].pc)) ∧
    (∀ (e : Entry) (s1 : State) (loc : Nat) (attr : BitVec 5), a.mode = .entering e → entryWaits s slot = false → a.uh = false →
      saveArea s slot (a.uintOf a.areaUse) = .ok loc attr s1 → Completes (exec (.trapEntry slot) s) (fun t =>
        t.slots[slot].cr[crCause] = s1.slots[slot].causeNow e.cause ∧ t.slots[slot].sup = true ∧ t.slots[slot].ie = false ∧ t.slots[slot].mode = .run ∧
        t.slots[slot].pc = BitVec.ofNat 64 (field s1.slots[slot].cr[crKvec] 47 1 * 2))) ∧
    (∀ (u : Word × Word) (s1 : State) (loc : Nat) (attr : BitVec 5), a.mode = .userEntering → entryWaits s slot = false → a.uintOf a.areaUse = some u →
      saveArea s slot none = .ok loc attr s1 → Completes (exec (.userLevelEntry slot) s) (fun t =>
        let b := t.slots[slot]
        field b.cr[crUepc] 47 1 = field a.pc 47 1 ∧ b.cr[crUepc].getLsbD 48 = a.sAfter ∧ b.uh = true ∧ b.mode = .run ∧
        b.pc = BitVec.ofNat 64 (field a.cr[crUvec] 47 1 * 2) ∧ b.ucur = some u)) ∧
    (∀ (cause : Word) (s1 : State) (loc : Nat) (attr : BitVec 5), a.uh = true → (a.sup = false ∨ a.ie = true) → field cause 7 0 ≠ 0x13 → field cause 7 0 ≠ 0x0B →
      entryWaits s slot = false → areaPlace s slot a.psave true = .ok loc attr s1 → Completes (takePrecise s slot cause) (fun t =>
        let b := t.slots[slot]
        field b.cr[crEpc] 47 1 = field a.cr[crUepc] 47 1 ∧ b.cr[crEpc].getLsbD 48 = a.sup ∧ b.cr[crEpc].getLsbD 49 = a.ie ∧ b.cr[crEpc].getLsbD 50 = true ∧
        b.cr[crEpc].getLsbD 51 = a.cr[crUepc].getLsbD 48 ∧ b.cr[crCause] = a.causeNow cause ∧ b.sup = true ∧ b.ie = false ∧ b.uh = false ∧ b.mode = .run ∧
        b.pc = BitVec.ofNat 64 (field a.cr[crKvec] 47 1 * 2) ∧ b.ucur = none ∧ (∀ i : Fin 24, i.val < 20 → b.w[i] = a.w[i]) ∧
        (∀ i : Fin 4, b.w[20 + i.val] = a.shadow[i] ∧ b.shadow[i] = a.w[20 + i.val]) ∧
        ∀ (off : Nat) (u : Word × Word), MemoryOk s → classify a.psave = .own off → ownPending s slot (winLoc s off) = false → a.ucur = some u →
          Rest t ∧ natLE (Mem.read t.st.mem (winLoc s off + 976) 8) = u.1.toNat ∧ natLE (Mem.read t.st.mem (winLoc s off + 984) 8) = u.2.toNat ∧
          ∀ c : Nat, c < winLoc s off + 976 ∨ winLoc s off + 992 ≤ c → Mem.get t.st.mem c = Mem.get s.st.mem c))

/-- No word that `n` bytes touch is poisoned, or holds an error that its code would report (R139). -/
def Sys2Proof.Slice0.Sound (s : State) (loc n : Nat) : Prop :=
  ∀ w ∈ touchedWords loc n, markOf s.st.marks w ≠ 1#2 ∧ ∀ e ∈ s.st.ecc, e.1 ≠ w

/-- The result that slot's thread awaits with a tag has its value, and nothing else of its registers, and no other slot, has changed. -/
def Sys2Proof.Slice0.Answered (s t : State) (slot : Fin 8) (tag : Nat) (v : PortVal) : Prop :=
  t.slots[slot].owed = s.slots[slot].owed.map (fun o => if o.tag = tag then { o with vals := some [v], flags := none, work := [], rels := [] } else o) ∧
  t.slots[slot].w = s.slots[slot].w ∧ t.slots[slot].q = s.slots[slot].q ∧ t.slots[slot].pc = s.slots[slot].pc ∧ t.slots[slot].rp = s.slots[slot].rp ∧
  ∀ j : Fin 8, j ≠ slot → t.slots[j] = s.slots[j]

/-- No word that `n` bytes touch carries a mark, or holds an error (R139, R140). -/
def Sys2Proof.Slice0.Plain (s : State) (loc n : Nat) : Prop :=
  ∀ w ∈ touchedWords loc n, markOf s.st.marks w = 0#2 ∧ ∀ e ∈ s.st.ecc, e.1 ≠ w

/-- R82, R86, R93, R96, R98, R136, R137, R142, R144, R147, R153, R298, R63, R77, R80, R81, R84, R99, R141, R143, R145: requests go from their thread to their path, from their path to their
ordering point, and are performed there: a store puts its bytes and changes no other byte, a posted operation puts its value;
a load takes the bytes at its place, zero- or sign-extended, with its thread's own writes before it forwarded; a stf sets its word full
and serves an ldf that waits there, an ldf takes a full word's value, an ldt empties it too, a ste fills an empty one, and each waits otherwise, in an entry of
its point or for one; an amo.scr puts its value and hands the word to the next ticket, whose amo.lrw takes it, or frees the reservation and strands its waiters, and an
amo.lrw waits for its ticket, or is stranded where its generation has closed; a Shared copy goes when it is invalidated; an acknowledgement ends its request's count; a read miss brings the line into the
slice; a walk installs what it finds and serves its slot; a shootdown removes what it matches, and its count ends when the
accesses issued before that have been ordered. It rests in part on the model's own reading: log 18, 19 and 104. -/
def Obligations.OrderingPointsPerform : Prop :=
  ∀ (s : State),
    (∀ (slot : Fin 8) (i : Nat) (r : Req), s.slots[slot].psq[i]? = some r → mayDepart s s.slots[slot] i r = true → r.toMemory = true → r.own = false →
      let after (x : Req) : Bool := x.slot == r.slot && decide (r.tag < x.tag) && samePath s x r
      Completes (exec (.postedStoreDepart slot i) s) (fun t => t.slots[slot].psq = s.slots[slot].psq.eraseIdx i ∧ t.st.mem = s.st.mem ∧
        ∃ l1 l2, s.st.paths = l1 ++ l2 ∧ t.st.paths = l1 ++ r :: l2 ∧ (∀ x ∈ l1, after x = false) ∧ ∀ x, l2.head? = some x → after x = true)) ∧
    (∀ (i : Nat) (r : Req), s.st.paths[i]? = some r → r.toMemory = true → behindOwn s r = false → (s.st.paths.take i).any (fun x => x.src == r.src && samePath s x r) = false →
      isBank r.loc = false →
      Completes (exec (.requestArrive (.path i)) s) (fun t => t.st.queue = s.st.queue ++ [r] ∧ t.st.paths = s.st.paths.eraseIdx i ∧ t.st.mem = s.st.mem) ∧
      (∀ grp gen, r.kind = .lrw grp gen 0 → s.st.queue.any (fun x => lineOf x.loc == lineOf r.loc) = false →
        s.st.resvs.find? (fun e => e.loc == r.loc) = none → resvFull s.st r.loc = false → genClosed s grp gen = false →
        Completes (exec (.lrwRequestArrive (.path i)) s) (fun t =>
          ∃ e ∈ t.st.resvs, e.loc = r.loc ∧ e.grp = grp ∧ e.gen = gen ∧ e.held = some 0)) ∧
      (∀ grp gen tkt, r.kind = .lrw grp gen tkt → s.st.queue.any (fun x => lineOf x.loc == lineOf r.loc) = false →
        (∀ j, genClosed s grp gen = true → r.away = none → r.slot = some j → (∀ o ∈ s.slots[j].owed, o.tag = r.tag → s.slots[j].reaches o.tag o.area = true) →
          Completes (exec (.lrwRequestArrive (.path i)) s) (fun t => t.st.resvs = s.st.resvs ∧ t.slots[j].owed = s.slots[j].owed.filter (fun o => o.tag != r.tag) ∧
            ∃ n, (n, causeVa 0x0F 1 0 (r.va &&& ~~~(1#64))) ∈ t.slots[j].faults)) ∧
        (∀ e, genClosed s grp gen = false → s.st.resvs.find? (fun e => e.loc == r.loc) = some e → e.grp = grp → e.gen = gen → e.next ≤ tkt → e.held ≠ some tkt →
          e.waiters.any (fun w => w.1 == tkt) = false → (e.held.isSome = true ∨ (e.next < tkt ∧ ∀ w ∈ e.waiters, w.1 ≠ e.next)) →
          Completes (exec (.lrwRequestArrive (.path i)) s) (fun t => t.slots = s.slots ∧
            t.st.resvs = s.st.resvs.map (fun x => if x.loc = r.loc then { e with waiters := e.waiters ++ [(tkt, r)] } else x))))) ∧
    (∀ (i : Nat) (r : Req) (d : List Byte), MemoryOk s → s.st.queue[i]? = some r → (s.st.queue.take i).any (fun x => lineOf x.loc == lineOf r.loc) = false →
      r.kind = .store d false → Sound s r.loc d.length →
      Completes (exec (.homeSliceWrite i) s) (fun t => Mem.read t.st.mem r.loc d.length = d ∧ t.st.full = s.st.full ∧
        (∀ b : Nat, b < r.loc ∨ r.loc + d.length ≤ b → Mem.get t.st.mem b = Mem.get s.st.mem b) ∧ t.st.queue = s.st.queue.eraseIdx i)) ∧
    (∀ (i : Nat) (q : BankReq) (k : AmoKind) (b : Word), MemoryOk s → s.st.bankq[i]? = some q → q.due ≤ s.cycle →
      s.st.bankq.zipIdx.any (fun y => bankCore y.1.req.loc == bankCore q.req.loc && y.1.before q y.2 i) = false →
      q.req.kind = .amo k b → Sound s q.req.loc 8 →
      Completes (exec (.bankRequestPerform i) s) (fun t =>
        BitVec.ofNat 64 (read64 t.st q.req.loc) = amoOp k (BitVec.ofNat 64 (read64 s.st q.req.loc)) b ∧ t.st.bankq = s.st.bankq.eraseIdx i ∧
        (∀ c : Nat, c < q.req.loc ∨ q.req.loc + 8 ≤ c → Mem.get t.st.mem c = Mem.get s.st.mem c))) ∧
    (∀ (i : Nat) (q : BankReq), s.st.bankq[i]? = some q → q.due ≤ s.cycle →
      s.st.bankq.zipIdx.any (fun y => bankCore y.1.req.loc == bankCore q.req.loc && y.1.before q y.2 i) = false → isBank q.req.loc = true →
      let r := q.req
      let u : State := s.onSt (fun st => { st with bankq := st.bankq.eraseIdx i })
      let Runs (P : State → Prop) : Prop := Completes (exec (.bankRequestPerform i) s) (fun t => t.st.bankq = s.st.bankq.eraseIdx i ∧ P t)
      let value (slot : Fin 8) (tag n : Nat) (b : List Byte) : Nat := natLE (forwardOwn u slot tag r.loc (b.take n))
      let Kept (t : State) (n : Nat) : Prop := ∀ c : Nat, c < r.loc ∨ r.loc + n ≤ c → Mem.get t.st.mem c = Mem.get s.st.mem c
      (∀ n ext slot, r.kind = .load n ext → r.slot = some slot → 0 < n → Plain s r.loc n → Runs (fun t => t.st.mem = s.st.mem ∧
        Answered s t slot r.tag { port := if n = 16 then .memOq else .memO, mark := none
                                  val := (let v := value slot r.tag n (Mem.read s.st.mem r.loc n)
                                    if ext then quad (BitVec.ofInt 64 (signedAt (8 * n) v)) else BitVec.ofNat 128 v) })) ∧
      (r.loc % 8 = 0 →
        let here := s.st.waiters.filter (fun w => w.req.loc / 8 == r.loc / 8)
        let got (slot : Fin 8) : PortVal := { port := .memO, val := BitVec.ofNat 128 (value slot r.tag 8 (Mem.read s.st.mem r.loc 8)), mark := none }
        (s.st.waitq = [] → (∀ w ∈ s.st.waiters, w.req.tag ≠ r.tag) →
          (∀ slot, here = [] → r.slot = some slot → Plain s r.loc 8 → isFull s r.loc = true →
            (r.kind = .ldf → Runs (fun t => Answered s t slot r.tag (got slot) ∧ t.st.mem = s.st.mem ∧ t.st.full = s.st.full ∧ t.st.waiters = s.st.waiters)) ∧
            (r.kind = .ldt → MemoryOk s → Runs (fun t => Answered s t slot r.tag (got slot) ∧ (∀ c : Nat, Mem.get t.st.mem c = Mem.get s.st.mem c) ∧
              isFull t r.loc = false ∧ (∀ c : Nat, c / 8 ≠ r.loc / 8 → isFull t c = isFull s c) ∧ t.st.waiters = s.st.waiters))) ∧
          (∀ d, here = [] → r.kind = .ste d → isFull s r.loc = false → MemoryOk s → Runs (fun t => BitVec.ofNat 64 (read64 t.st r.loc) = d ∧ Kept t 8 ∧
            isFull t r.loc = true ∧ (∀ c : Nat, c / 8 ≠ r.loc / 8 → isFull t c = isFull s c) ∧ t.st.waiters = s.st.waiters)) ∧
          ((((r.kind = .ldf ∨ r.kind = .ldt) ∧ isFull s r.loc = false ∧ ∀ w ∈ here, ∀ d, w.req.kind ≠ .ste d) ∨
            ((∃ d, r.kind = .ste d) ∧ isFull s r.loc = true ∧ ∀ w ∈ here, w.req.kind ≠ .ldf ∧ w.req.kind ≠ .ldt)) →
            (waitersFull s.st r.loc = false → Runs (fun t => t.st.waiters = s.st.waiters ++ [{ req := r }] ∧ t.st.waitq = [] ∧ t.slots = s.slots ∧ t.st.mem = s.st.mem ∧ t.st.full = s.st.full)) ∧
            (waitersFull s.st r.loc = true → Runs (fun t => t.st.waiters = s.st.waiters ∧ t.st.waitq = [r] ∧ t.slots = s.slots ∧ t.st.mem = s.st.mem ∧ t.st.full = s.st.full)))) ∧
        (∀ d : List Byte, r.kind = .store d true → d.length = 8 → MemoryOk s → s.st.waitq = [] →
          (here = [] → Runs (fun t => Mem.read t.st.mem r.loc 8 = d ∧ Kept t 8 ∧ isFull t r.loc = true ∧ (∀ c : Nat, c / 8 ≠ r.loc / 8 → isFull t c = isFull s c) ∧ t.st.waiters = s.st.waiters)) ∧
          (∀ w slot, s.st.waiters = [w] → w.req.kind = .ldf → w.req.loc = r.loc → w.req.slot = some slot → Runs (fun t => Mem.read t.st.mem r.loc 8 = d ∧ Kept t 8 ∧ isFull t r.loc = true ∧
            t.st.waiters = [] ∧ Answered s t slot w.req.tag { port := .memO, val := BitVec.ofNat 128 (value slot w.req.tag 8 d), mark := none }))) ∧
        (∀ b last e, r.kind = .scr b last → MemoryOk s → Sound s r.loc 8 → s.st.resvs.find? (fun e => e.loc == r.loc) = some e → s.st.resvWait = [] →
          (∀ w ∈ e.waiters, w.2.away = none ∧ w.2.loc = r.loc ∧ ∀ j, w.2.slot = some j → ∀ o ∈ s.slots[j].owed, o.tag = w.2.tag → s.slots[j].reaches o.tag o.area = true) →
          Runs (fun t => BitVec.ofNat 64 (read64 t.st r.loc) = b ∧ Kept t 8 ∧
            (last = true → t.st.resvs = s.st.resvs.filter (fun x => x.loc != r.loc) ∧ ∀ w ∈ e.waiters, ∀ j, w.2.slot = some j →
              ∃ n, (n, causeVa 0x0F 3 0 (w.2.va &&& ~~~(1#64))) ∈ t.slots[j].faults) ∧
            (last = false → e.waiters.find? (fun w => w.1 == e.next + 1) = none →
              t.st.resvs = s.st.resvs.map (fun x => if x.loc = r.loc then { e with next := e.next + 1, held := none, holder := none } else x)) ∧
            (∀ w j, last = false → e.waiters.find? (fun w => w.1 == e.next + 1) = some w → w.2.slot = some j →
              (∃ e' ∈ t.st.resvs, e'.loc = r.loc ∧ e'.next = e.next + 1 ∧ e'.held = some w.1 ∧ e'.waiters = e.waiters.filter (fun x => x.1 != w.1)) ∧
              Answered s t j w.2.tag { port := .amoO, val := BitVec.ofNat 128 (value j w.2.tag 8 (bytesLE 8 b.toNat)), mark := none } ∧
              ∀ x ∈ t.slots[j].resv, x.loc = r.loc → x.granted = true))))) ∧
    (∀ (die : Fin 16) (line : Nat), Completes (exec (.sharedCopyInvalidation die line) s) (fun t =>
      (∀ l ∈ t.st.lines, l.pa = line → l.shared.getLsbD die.val = false) ∧ (∀ a ∈ t.st.acks, lineOf a.loc = line → a.await.getLsbD die.val = false) ∧
      t.st.acks.length = s.st.acks.length ∧ t.st.mem = s.st.mem)) ∧
    (∀ (i : Nat) (a : Ack) (slot : Fin 8), s.st.acks[i]? = some a → a.await = 0 → a.slot = some slot →
      Completes (exec (.writeAcknowledge i) s) (fun t => t.st.acks = s.st.acks.eraseIdx i ∧
        t.slots[slot].counted = s.slots[slot].counted.filter (fun c => c.tag != a.tag) ∧
        (s.slots[slot].counted.any (fun c => c.tag == a.tag) = true → t.slots[slot].ring = s.slots[slot].ring.filter (fun e => e.tag != a.tag || e.refused)) ∧
        (s.slots[slot].counted.any (fun c => c.tag == a.tag) = false → t.slots = s.slots))) ∧
    (∀ (die : Fin 16) (line : Nat) (bad : List (Fin 16)),
      let pa := lineOf line
      let l := lineFind s.st.lines pa
      isBank pa = false → exists? pa = true → l.heldAt die.val = false →
      Completes (exec (.lineReadMiss die { line, bad }) s) (fun t =>
        let l' := lineFind t.st.lines pa
        l'.home = true ∧ l'.heldAt die.val = true ∧ (homeDie pa ≠ die.val → l'.sharers.getLsbD die.val = true) ∧
        (l.home = false → ∀ i ∈ bad, markOf t.st.marks (pa / 8 + i.val) = 1#2) ∧ t.st.mem = s.st.mem)) ∧
    (∀ (slot : Fin 8) (va : Word) (m : TlbMiss) (pa size : Nat) (attr : BitVec 5) (seen : List WalkEntry) (s1 : State),
      let a := s.slots[slot]
      a.mode = .run → a.miss = some m → m.result = none → m.serves (field va 47 0) = true →
      walkNow s (missWalker s slot m.va) m.va = (.leaf pa size attr seen, s1) →
      Completes (exec (.tlbMissWalk slot va) s) (fun t => t.slots[slot].miss = none ∧ t.st.mem = s.st.mem ∧
        ∃ e ∈ t.core.tlb1, e.cid.toNat = a.cid.val ∧ e.va = m.va / size * size ∧ e.size = size ∧ e.pa = pa ∧ e.attr = attr)) ∧
    (∀ (slot : Fin 8) (e : Tlbi), s.st.tlbis.find? (fun y => y.slot == slot) = some e → e.sent = true → (unordered s).any e.waits.contains = false →
      Completes (exec (.tlbiAcknowledge (.own slot)) s) (fun t => t.st.tlbis = s.st.tlbis.filter (fun y => y.tag != e.tag) ∧
        t.slots[slot].counted = s.slots[slot].counted.filter (fun c => c.tag != e.tag) ∧ t.st.mem = s.st.mem)) ∧
    (∀ (slot : Fin 8) (e : Tlbi), s.st.tlbis.find? (fun y => y.slot == slot) = some e → e.sent = false →
      s.slots[slot].counted.any (fun c => decide (c.tag < e.tag)) = false →
      Completes (exec (.tlbiAcknowledge (.own slot)) s) (fun t => (∃ y ∈ t.st.tlbis, y.tag = e.tag ∧ y.sent = true ∧ y.waits = unordered s) ∧ (inScope e.scope s.coreId s.coreId = true → ∀ y ∈ t.core.tlb1, e.hits y = false) ∧
        (meets e.scope s.coreId (.cluster (clusterOf s.coreId)) = true → ∀ y ∈ t.st.tlb2, e.hits y = false) ∧ t.slots = s.slots))

/-- R125 to R130, R194 to R196, R252: the track unit shifts and writes one position and keeps the others; a freed poisoned
track is cleaned or retired, behind the copies on it; a load pattern reads its next element in order, a store pattern sends its
oldest, as a store of its thread in the order of issue; the sequencer
performs a captured transport. It rests in part on the model's choice in log 84 (a track that is retired where its claim was restored poisoned is
retired again when it is freed). -/
def Obligations.CoreUnitsPerform : Prop :=
  ∀ (s : State),
    (∀ (n : Fin 32) (r : List TrkCmd),
      let k := s.track n
      (∀ (h : Nat) (i : Fin 8), k.queue = .shift h i :: r → Completes (exec (.trackCommandPerform n) s) (fun t => t.track n = { k with queue := r, phys := h } ∧ t.st = s.st)) ∧
      (∀ (p : Nat) (step : Int) (d : Quad) (i : Fin 8), k.queue = .write p step d i :: r → p < 512 → k.slip = 0 → k.bad = [] →
        Completes (exec (.trackCommandPerform n) s) (fun t => (t.track n).cell p = d ∧ (∀ c : Nat, c ≠ p → (t.track n).cell c = k.cell c) ∧
          (t.track n).queue = r ∧ (t.track n).phys = p + step ∧ (t.track n).owner = k.owner ∧ ∀ m : Fin 32, m ≠ n → t.track m = s.track m)) ∧
      (k.clearing = true → k.queue = [] → k.marker = true → Completes (exec (.trackClear n true) s) (fun t => t.track n = { Track.clean with retired := k.retired })) ∧
      (k.clearing = true → k.queue = [] → Completes (exec (.trackClear n false) s) (fun t => (t.track n).retired = true ∧ (t.track n).owner = none))) ∧
    (∀ (n o : Fin 8) (user wide : Bool) (base : Word) (counts : Vector Nat 4) (strides : Vector Int 4) (next popd loc : Nat) (ctx : Word) (attr : BitVec 5) (s1 : State),
      let st := s.core.streams[n]
      let va := patternAddr base counts strides next
      let size := if wide then 16 else 8
      st.bind = some (.pattern o user false wide base counts strides next popd ctx) → next < patternSize counts → st.q.length < 8 →
      translate s { cid := field ctx 5 0, root := field ctx 51 12 * 4096, user, l1 := false, th := s.slots[o].mcth o, slots := [o] }
        { user, fetch := false, write := false, sync := false } va = .ok loc attr s1 →
      isBank loc = true → meshRefused s1 (field ctx 5 0) va loc = false → amoPending s1 o loc size = false →
      firstMark (ownMarks s1 o s1.nextId s1.st.marks) loc size = none → (∀ w ∈ touchedWords loc size, ∀ e ∈ s1.st.ecc, e.1 ≠ w) →
      Completes (exec (.patternElementRead n) s) (fun t => t.core.streams[n] = { st with
        bind := some (.pattern o user false wide base counts strides (next + 1) popd ctx)
        q := st.q ++ [{ val := BitVec.ofNat 128 (natLE (forwardOwn s1 o s1.nextId loc (Mem.read s.st.mem loc size))), fault := none }] } ∧
        t.st.mem = s.st.mem)) ∧
    (∀ (n o : Fin 8) (q : Req) (r : List Req), s.core.streams[n].out = q :: r → q.slot = some o → s.slots[o].queuedStores < 16 →
      Completes (exec (.patternElementWrite n) s) (fun t => t.core.streams[n] = { s.core.streams[n] with out := r } ∧
        t.slots[o].psq = insReq s.slots[o].psq q ∧ t.slots[o].counted = s.slots[o].counted ∧ t.st = s.st)) ∧
    (∀ (slot : Fin 8) (r : Run) (i j : Fin 16), s.slots[slot].seqr.run = some r → s.slots[slot].seqr.buf[r.j]? = some { src := .q i, dst := .q j } →
      s.slots[slot].flight = [] → r.clamp = false →
      Completes (exec (.vecReplayTransport slot) s) (fun t => t.slots[slot].q[j] = s.slots[slot].q[i] ∧
        (∀ k : Fin 16, k ≠ j → t.slots[slot].q[k] = s.slots[slot].q[k]) ∧ t.slots[slot].w = s.slots[slot].w ∧ t.slots[slot].cr = s.slots[slot].cr ∧
        (r.j + 1 < s.slots[slot].seqr.buf.length → t.slots[slot].seqr.run = some { r with j := r.j + 1 }) ∧
        (s.slots[slot].seqr.buf.length ≤ r.j + 1 → r.n ≤ r.it → t.slots[slot].seqr.run = none)))

/-- The merged value of a counter (R281). -/
def Sys2Proof.Slice0.counterSum (m : MxState) (k : Nat) : Int := counterAt m.bank[(0 : Fin 2)] k + counterAt m.bank[(1 : Fin 2)] k

/-- A bank lists its counters that are not 0 in ascending order. -/
def Sys2Proof.Slice0.BankOk (b : List (Nat × Int)) : Prop := b.Pairwise (fun x y => x.1 < y.1)

/-- R105, R106, R107, R109, R113, R279 to R283, R285, R287: a copy starts when its turn and the writes before it have come, goes on by
chunks, and when complete, behind its thread's earlier copies and with its writes confirmed, leaves its queue, its count and, with NOTE 0,
its status. A run leaves its sum in C; a count its counters in its bank, and nothing where one overflows; a merge adds bank 1 to bank 0
and empties it; a drain empties bank 0 into C; a store writes one word after another, each full, and completes behind its last, with C
zeros where it says so. A tile comes into an empty latch, and the held tile goes on to the next unit. It rests in part on the model's own
reading: log 32, 37, 72, 74 and 78. -/
def Obligations.EnginesPerform : Prop :=
  ∀ (s : State),
    (∀ (i : Nat) (c : Copy), s.core.copies[i]? = some c →
      (s.core.freezing = false → c.started = false → c.ended = none → (s.core.copies.take i).any (fun x => x.slot == c.slot) = false → writesBefore s c.slot c.tag = false →
        c.tracks.all (copyHeads s c) = true → exec (.copyStart i) s = .next (putCopy s { c with started := true, floor := s.slots[c.slot].floor, rel := relOf s c.slot })) ∧
      (∀ s1 c1, c.started = true → s.core.freezing = false → s.core.engFlaw = 0 → copyRun s c (if ctlDtrk c.ctl then 32 else 64) = .inl (s1, c1) →
        exec (.copyChunk i) s = .next (putCopy s1 c1)) ∧
      (s.core.freezing = true → exec (.copyStart i) s = .next s ∧ exec (.copyChunk i) s = .next s ∧ exec (.copyComplete i) s = .next s) ∧
      (s.core.freezing = false → c.started = true → c.ended = none → c.n ≤ c.done → ctlDg c.ctl = false → ctlNote c.ctl = 0 →
        (s.core.copies.take i).any (fun x => x.slot == c.slot) = false → s.st.acks.any (fun a => a.slot.isNone && a.tag == c.tag) = false →
        Completes (exec (.copyComplete i) s) (fun t => t.core.copies = s.core.copies.filter (fun x => x.tag != c.tag) ∧
          t.slots[c.slot].counted = s.slots[c.slot].counted.filter (fun x => x.tag != c.tag) ∧ t.st = s.st ∧
          ∀ o ∈ t.slots[c.slot].owed, o.tag = c.tag → o.vals = some [{ port := .cpyO, val := quad (copyStatus c.done (ctlTag c.ctl) 0 0), mark := none }]))) ∧
    (∀ (c : Copy) (v : Nat) (s1 s2 : State) (loc : Nat) (attr : BitVec 5), MemoryOk s1 → c.ended = none → c.done < c.n → ctlDg c.ctl = false → ctlDtrk c.ctl = false → copyHeld s c c.done = false →
      copyRead s c c.done = .inl (s1, .inl v) → v < 2 ^ 64 →
      copyPlace s1 c true (sideVa c.xs[(1 : Fin 4)] c.xs[(2 : Fin 4)] (stride c.xs[(3 : Fin 4)] true) c.done) = .ok loc attr s2 → s2.st.waiting = [] →
      ∃ t, copyUnit s c = .inl (t, { c with done := c.done + 1 }) ∧ read64 t.st loc = v ∧
        ∀ b : Nat, b < loc ∨ loc + 8 ≤ b → Mem.get t.st.mem b = Mem.get s1.st.mem b) ∧
    (∀ (c : MxCmd) (r : List MxCmd), s.core.mx.queue = c :: r → mxReady s c = true → s.core.mx.flaw = 0 → s.core.engFlaw = 0 →
      let m := s.core.mx
      let x1 := c.xs[(1 : Fin 4)]
      let rest := m.queue.filter (fun x => x.tag != c.tag)
      let Performs (P : State → Prop) : Prop := Completes (exec (.mxCommandPerform true) s) P
      (∀ o, c.op = .mxRun → mxRead (mxReads s c (mxSpans c true)) c true = .inr o → (mxHand x1 = true → inTeam s (nextUnit s) = true) →
        Performs (fun t => t.core.mx.c = mxRunC s.core c o m.c ∧ t.core.mx.bank = m.bank ∧ t.st.mem = s.st.mem ∧
          t.core.mx.latch = (if mxBsrc x1 = 2 then Latch.empty else m.latch) ∧
          (mxHand x1 = false → t.core.mx.queue = rest) ∧
          (mxHand x1 = true → t.core.mx.queue = m.queue ∧ t.core.mx.hand = some { full := true, k := mxK x1, bits := mxBits true x1, tile := o.tile }))) ∧
      (∀ o, c.op = .mxCnt → mxHand x1 = false → mxRead (mxReads s c (mxSpans c false)) c false = .inr o →
        let b : Fin 2 := if x1.getLsbD 20 then 1 else 0
        let n := mxCount c o m.bank[b]
        (overflowAt n = none → Performs (fun t => t.core.mx.bank[b] = n ∧ (∀ a : Fin 2, a ≠ b → t.core.mx.bank[a] = m.bank[a]) ∧
          t.core.mx.c = m.c ∧ t.core.mx.queue = rest ∧ t.st.mem = s.st.mem)) ∧
        (∀ k, overflowAt n = some k → Performs (fun t => t.core.mx.bank = m.bank ∧ t.core.mx.c = m.c ∧ (∀ x ∈ t.core.mx.queue, x.slot ≠ c.slot) ∧
          (c.seq, mxOverflow c k 1) ∈ t.slots[c.slot].faults ∧ t.st.mem = s.st.mem))) ∧
      (c.op = .mxMrg → BankOk m.bank[(0 : Fin 2)] → BankOk m.bank[(1 : Fin 2)] → (∀ k, -2048 ≤ counterSum m k ∧ counterSum m k ≤ 2047) →
        Performs (fun t => (∀ k, counterAt t.core.mx.bank[(0 : Fin 2)] k = counterSum m k) ∧ t.core.mx.bank[(1 : Fin 2)] = [] ∧
          t.core.mx.c = m.c ∧ t.core.mx.queue = rest ∧ t.st = s.st)) ∧
      (c.op = .mxDrn → c.scale.getLsbD 32 = false → c.scale.getLsbD 33 = false →
        Performs (fun t => t.core.mx.c = mxDrainC s.core c none none m.bank[(0 : Fin 2)] m.c ∧
          t.core.mx.bank[(0 : Fin 2)] = [] ∧ t.core.mx.bank[(1 : Fin 2)] = m.bank[(1 : Fin 2)] ∧ t.core.mx.queue = rest ∧ t.st = s.st)) ∧
      (c.op = .mxSt → MemoryOk s → s.st.waiting = [] →
        let w := mxStoreWord s.core c c.written
        let loc := winLoc s w.1
        let last := decide (8 * (if field c.xs[(0 : Fin 4)] 1 0 = 0 then 4 else if field c.xs[(0 : Fin 4)] 1 0 = 1 then 2 else 1) ≤ c.written + 1)
        loc % 8 = 0 →
        (field c.xs[(0 : Fin 4)] 1 0 = 0 → c.written < 32 →
          w = (field c.a 16 0 + c.written / 4 * field c.xs[(0 : Fin 4)] 31 16 + 8 * (c.written % 4),
            (m.c.toList.getD (2 * c.written) 0).toNat + (m.c.toList.getD (2 * c.written + 1) 0).toNat * 2 ^ 32, false)) ∧
        Performs (fun t => read64 t.st loc = w.2.1 % 2 ^ 64 ∧ isFull t loc = true ∧
          (∀ b : Nat, b < loc ∨ loc + 8 ≤ b → Mem.get t.st.mem b = Mem.get s.st.mem b) ∧ t.core.mx.bank = m.bank ∧
          (last = false → t.core.mx.c = m.c ∧ ∃ c1, t.core.mx.queue.head? = some c1 ∧ c1.tag = c.tag ∧ c1.written = c.written + 1) ∧
          (last = true → t.core.mx.queue = rest ∧ t.core.mx.c = (if c.xs[(0 : Fin 4)].getLsbD 2 then Vector.replicate 64 0#32 else m.c))))) ∧
    Completes (exec (.mxCommandPerform false) s) (fun t => t.core.mx = { s.core.mx with next := Latch.empty } ∧ t.slots = s.slots ∧ t.st = s.st) ∧
    (∀ (k bits : Nat) (tile : List Nat), s.core.mx.latch.full = false →
      Completes (exec (.mxLatchHandoff (.inn k bits tile)) s) (fun t => t.core.mx = { s.core.mx with latch := { full := true, k, bits, tile } } ∧ t.slots = s.slots)) ∧
    (∀ (c : MxCmd) (r : List MxCmd) (l : Latch), s.core.mx.queue = c :: r → s.core.mx.hand = some l → s.core.mx.next.full = false →
      Completes (exec (.mxLatchHandoff .out) s) (fun t => t.core.mx.next = l ∧ t.core.mx.hand = none ∧ t.core.mx.latch = s.core.mx.latch))

/-- R308 to R310, R314, R325, R341, R346 to R348, R177: an arrival counts for the open generation; a complete generation
closes; a message goes to a waiting receive or to its mailbox; the next task begins with its arguments; the dispatcher gives
an entry to a waiting slot; a thread whose work has settled ends; the first card whose interests have settled pushes its task. It rests in part on the model's own reading: log 45 and 81. -/
def Obligations.GroupsMailboxesTasksProceed : Prop :=
  ∀ (s : State),
    (∀ (k : GroupKey) (g : Group), groupOf s k = some g →
      (∀ (n : Nat) (known : List (Nat × Nat)), s.threadNo (Fin.ofNat 8 n) ≠ n → g.arrived.any (fun y => y.1 == n) = false → s.isMember g n = true →
        Completes (exec (.barrierNetworkArrival k { thread := n, known }) s) (fun t =>
          (∃ rel : Release, rel.rel = known ∧ groupOf t k = some { g with arrived := g.arrived ++ [(n, rel)] }) ∧
          ∀ i : Fin 8, t.slots[i].w = s.slots[i].w ∧ t.slots[i].pc = s.slots[i].pc)) ∧
      (g.complete = true → g.pending = none → (∀ i : Fin 8, g.gone.contains (s.threadNo i) = true → arrivalOnWay s k i = false) →
        Completes (exec (.generationClose k) s) (fun t =>
        ∃ g', groupOf t k = some g' ∧ g'.gen = g.gen + 1 ∧ g'.arrived = [] ∧ g'.rect = g.rect ∧ g'.mask = g.mask ∧ g'.need = g.need))) ∧
    (∀ (id : Word) (data : Quad) (sender : Nat) (known : List (Nat × Nat)), arriving s s.coreId id data = none → underWay s id data = false →
      (∀ r, s.core.receives.find? (fun r => r.takes id) = some r → Completes (exec (.messageArrive s.coreId id { data, sender, known }) s) (fun t =>
        t.core.receives = s.core.receives.filter (fun y => y.tag != r.tag) ∧ t.core.mail = s.core.mail ∧ t.core.arrivals = s.core.arrivals ∧
        ∀ o ∈ t.slots[r.slot].owed, o.tag = r.tag →
          o.vals = some [{ port := .msgO, val := data, mark := none }, { port := .msgId, val := quad id, mark := none }])) ∧
      (s.core.receives.find? (fun r => r.takes id) = none → (s.core.mail.filter (fun y => idMbox y.id == idMbox id)).length < 4 →
        Completes (exec (.messageArrive s.coreId id { data, sender, known }) s) (fun t => t.core.arrivals = s.core.arrivals + 1 ∧ t.core.receives = s.core.receives ∧
          ∃ m : Message, t.core.mail = s.core.mail ++ [m] ∧ m.id = id ∧ m.data = data ∧ m.num = s.core.arrivals))) ∧
    (∀ (slot : Fin 8) (l : Launch), s.launch? = some l → s.slots[slot].mode = .taskEnd → s.slots[slot].idle = true →
      Completes (exec (.taskBegin slot) s) (fun t => let b := t.slots[slot]
        let k := s.slots[slot].task + s.slots[slot].stride
        b.mode = .run ∧ b.pc = l.words[0] ∧ b.w[(0 : Fin 24)] = l.words[3] ∧ b.w[(1 : Fin 24)] = BitVec.ofNat 64 k ∧ b.w[(2 : Fin 24)] = BitVec.ofNat 64 l.nt ∧
        (∀ i : Fin 24, 3 ≤ i.val → b.w[i] = 0) ∧ (∀ i : Fin 16, b.q[i] = 0) ∧ b.fence = 0 ∧ b.task = k ∧ b.cr = s.slots[slot].cr)) ∧
    (∀ (slot : Fin 8), s.slots[slot].mode = .ending → endReady s slot = true →
      Completes (exec (.threadEnd slot) s) (fun t => t.slots[slot].mode = .ended ∧
        (∀ c ∈ t.slots[slot].counted, c.refused = false) ∧ (∀ r ∈ t.slots[slot].psq, ∀ c ∈ s.slots[slot].counted, c.refused = true → c.tag ∉ r.waits) ∧
        ∀ i : Fin 8, i ≠ slot → t.slots[i].pc = s.slots[i].pc ∧ t.slots[i].w = s.slots[i].w)) ∧
    (∀ (slot : Fin 8) (r : Ready) (i : Nat), dispatchSlot s = some slot → dispatchPick s slot = some (r, i) →
      Completes (exec .taskDispatch s) (fun t => let b := t.slots[slot]
        b.mode = .run ∧ b.pc = r.entry ∧ (∀ j : Fin 4, b.w[j.val] = r.args[j]) ∧ b.w[(4 : Fin 24)] = r.tagw ∧
        b.w[(5 : Fin 24)] = BitVec.ofNat 64 (readyStatus r) ∧ b.dispatched = true ∧ t.core.ready.length + 1 = s.core.ready.length)) ∧
    (∀ (id : Fin 32) (c : Card), s.core.cards.find? (fun y => y.id == id) = some c → cardReady s = some id → s.core.ready.length < 64 →
      Completes (exec (.cardTaskPush id) s) (fun t => t.core.ready = s.core.ready ++ [c.task] ∧ t.core.cards = s.core.cards.filter (fun y => y.id != id) ∧ t.slots = s.slots))

/-- The TLB of router `k`'s cluster translates a backing address of the context, to a place that may be written (R73, R158). -/
def Sys2Proof.Slice0.Backed (s : State) (k : Nat) (cid : Fin 64) (va loc : Nat) : Prop :=
  let a := field (BitVec.ofNat 64 va) 47 0
  classify (BitVec.ofNat 64 va) = .paged ∧ (∀ e ∈ s.st.tlb2, e.hits k cid.val a = true → e.flaw = false) ∧
  ∃ e, s.st.tlb2.find? (fun e => e.hits k cid.val a) = some e ∧ e.attr.getLsbD 0 = true ∧ loc = e.pa + a % e.size

/-- R158, R161 to R164, R166 to R168, R174, R175, R382, R402: a router takes its packets in their order; it answers an interest from its
crib, merges it, or enters it and sends it on, toward its home or by the edge router of its module's port; an entry that fails its parity
is fetched again; a tile settles its entry and stays in the crib; a give to an open iteration is written to the backing region, with its
header, settles its entry, stays in the crib and is acknowledged; one to a closed iteration faults, and one to a VALID header is only
acknowledged; a retirement counts for its iteration; a close, a settle-empty notice and a withdrawal settle or drop entries, and an entry
left with no face withdraws its own interest; a notice settles what its port's edge router holds for its tensors. It rests in part on the model's own reading: log
35, 36, 37, 43, 64 and 79, and on its choice in log 96 (a backing page that user level may not touch takes a user thread's give). -/
def Obligations.TileNetworkProceeds : Prop :=
  ∀ (s : State) (k : Nat) (nm : TileName) (t : Tensor), tensorOf s k nm.cid nm.tensor = some t →
    let r := routerAt s k
    let Next (p : Packet) : Prop := inOrder s k p = true
    let crib := (r.flaws.contains nm && decide (k < 131072)) = false
    let whole := crib ∧ ∀ e ∈ r.pit, e.flaw = false
    let missed := cribFind r nm = none ∧ pitFind r nm = none
    let home := t.home nm.tile.toNat
    let p := pmPort (pmapAt s t.mod)
    let Less (q : Packet) (more : List (Nat × Packet)) (u : State) : Prop := u.net.packets = s.net.packets.erase (k, q) ++ more
    (∀ (f : Face), inOrder s k (.interest nm f) = false → exec (.interestArrive k nm f) s = .next s) ∧
    (∀ (f : Face), Next (.interest nm f) → whole →
      (∀ tile, cribFind r nm = some tile → exec (.interestArrive k nm f) s = .next (answerFace (takePacket s k (.interest nm f)) k nm (.inl tile) f)) ∧
      (∀ fs, cribFind r nm = none → pitFind r nm = some fs → Completes (exec (.interestArrive k nm f) s) (fun u =>
        pitFind (routerAt u k) nm = some (if fs.contains f then fs else fs ++ [f]) ∧ Less (.interest nm f) [] u)) ∧
      (missed → t.mod ≠ 0 → Completes (exec (.interestArrive k nm f) s) (fun u => pitFind (routerAt u k) nm = some [f] ∧
        (k = edgeRouter p → Less (.interest nm f) [] u ∧ u.net.left = s.net.left ++ [(p, .interest nm (.psipor p))]) ∧
        (k = edgeCluster p → Less (.interest nm f) [(edgeRouter p, .interest nm (.cluster k))] u ∧ u.net.left = s.net.left) ∧
        (∀ k' g, k ≠ edgeRouter p → k ≠ edgeCluster p → hop k (edgeCluster p) f = some (k', g) → Less (.interest nm f) [(k', .interest nm g)] u))) ∧
      (∀ k' g, missed → t.mod = 0 → k ≠ home → hop k home f = some (k', g) → Completes (exec (.interestArrive k nm f) s) (fun u =>
        pitFind (routerAt u k) nm = some [f] ∧ Less (.interest nm f) [(k', .interest nm g)] u))) ∧
    (∀ (f : Face) (e : PitEntry), Next (.interest nm f) → crib → cribFind r nm = none → pitEntry r nm = some e → e.flaw = true → k < 131072 →
      Completes (exec (.interestArrive k nm f) s) (fun u => ∃ e', pitEntry (routerAt u k) nm = some e' ∧ e'.flaw = false ∧
        e'.faces = (if e.faces.contains f then e.faces else e.faces ++ [f]))) ∧
    (∀ tile : Tile, Next (.tile nm tile) → t.mod = 0 → Completes (exec (.tileArrive k nm tile) s) (fun u =>
      cribFind (routerAt u k) nm = some tile ∧ pitFind (routerAt u k) nm = none)) ∧
    (∀ (tile : Tile) (b : Giver), Next (.give nm tile b) → whole → isClosed s t nm.cid nm.tensor nm.iter = true →
      exec (.giveArrive k nm tile b) s = .next (ackGive (giveFault (takePacket s k (.give nm tile b)) b (causeVa 0x0C 3 0 b.va)) b)) ∧
    (∀ (tile : Tile) (b : Giver) (s1 : State), Next (.give nm tile b) → whole → isClosed s t nm.cid nm.tensor nm.iter = false →
      headerValid (takePacket s k (.give nm tile b)) k t nm = .inl (s1, true) → exec (.giveArrive k nm tile b) s = .next (ackGive s1 b)) ∧
    (∀ (tile : Tile) (b : Giver) (data head : Nat), MemoryOk s → Next (.give nm tile b) → isClosed s t nm.cid nm.tensor nm.iter = false →
      (∀ j < t.size / 8, Backed s k nm.cid (t.dataVa nm.iter.toNat nm.tile.toNat + 8 * j) (data + 8 * j)) →
      Backed s k nm.cid (t.headVa nm.iter.toNat nm.tile.toNat) head →
      data + t.size ≤ bankBase → head + 8 ≤ bankBase → (data + t.size ≤ head ∨ head + 8 ≤ data) →
      read64 s.st head % 2 ^ 17 ≠ 2 ^ 16 + nm.iter.toNat →
      Completes (exec (.giveArrive k nm tile b) s) (fun u =>
        (∀ j < t.size / 8, read64 u.st (data + 8 * j) = natLE ((tile.data.drop (8 * j)).take 8)) ∧
        read64 u.st head = 2 ^ 16 + nm.iter.toNat ∧
        cribFind (routerAt u k) nm = some tile ∧ pitFind (routerAt u k) nm = none ∧
        (b.core = s.coreId → u.slots[b.slot].counted = s.slots[b.slot].counted.filter (fun c => c.tag != b.tag) ∧
          u.core.gives = s.core.gives.filter (fun g => g.2 != b.tag) ∧ u.slots[b.slot].faults = s.slots[b.slot].faults))) ∧
    (∀ (n : Nat) (i : Iter), s.threadNo (Fin.ofNat 8 n) ≠ n → tensorOf s (clusterOf ((s.coreOf n).getD 0)) nm.cid nm.tensor = some t → isProducer s t n = true → iterFind s t.launch nm.cid nm.tensor nm.iter = some i →
      Completes (exec (.retireNoticeArrive nm.cid nm.tensor nm.iter n) s) (fun u =>
        ∃ j, iterFind u t.launch nm.cid nm.tensor nm.iter = some j ∧ n ∈ j.retired ∧ ∀ m ∈ i.retired, m ∈ j.retired)) ∧
    (t.mod = 0 → isClosed s t nm.cid nm.tensor nm.iter = true → home = k →
      Completes (exec (.iterationClose k nm.cid nm.tensor nm.iter) s) (fun u => pitFind (routerAt u k) nm = none)) ∧
    (∀ w : Bool, Next (.empty nm w) → Completes (exec (.settleEmptyNotice k nm w) s) (fun u => pitFind (routerAt u k) nm = none)) ∧
    (∀ (f g : Face) (fs : List Face), Next (.withdraw nm f) → pitFind r nm = some (f :: g :: fs) → Completes (exec (.interestWithdrawal k nm f) s) (fun u =>
      pitFind (routerAt u k) nm = some (g :: fs) ∧ Less (.withdraw nm f) [] u)) ∧
    (∀ (f : Face) (e : PitEntry), Next (.withdraw nm f) → pitEntry r nm = some e → e.faces = [f] → Completes (exec (.interestWithdrawal k nm f) s) (fun u =>
      pitFind (routerAt u k) nm = none ∧
      (e.up = none → Less (.withdraw nm f) [] u) ∧
      (∀ k' q, e.up = some (k', .psipor q) → Less (.withdraw nm f) [] u ∧ u.net.left = s.net.left ++ [(q, .withdraw nm (.psipor q))]) ∧
      (∀ k' g, e.up = some (k', g) → (∀ q, g ≠ .psipor q) → Less (.withdraw nm f) [(k', .withdraw nm g)] u))) ∧
    (∀ (port : Fin 16) (cid : Fin 64), inOrder s (edgeRouter port) (.notice port cid) = true → Completes (exec (.peerWithdrawalNotice port cid) s) (fun u =>
      (port, cid.val) ∈ u.net.withdrawn ∧
      (k = edgeRouter port → t.mod ≠ 0 → pmValid (pmapAt s t.mod) = true → p = port → pmPcid (pmapAt s t.mod) = cid.val → pitFind (routerAt u k) nm = none)))

/-- R333 to R345, R349: firmware takes a launch's slot, and refuses the launch or has it wait for placement; a placed team's
threads stand at ENTRY with their arguments; a launch whose threads have ended completes; a team is chosen for the swap and, once its
threads have stopped and its work has settled, leaves its core, and a restored one has its registers. It rests in part on the model's own reading: log 43, 44, 59, 60 and 61. -/
def Obligations.LaunchesProceed : Prop :=
  ∀ (s : State),
    (∀ (cid q : Fin 64) (qu : Queue) (c : Fin 64) (ctx : Word) (loc head : Nat) (a1 a2 : BitVec 5) (ws : List Word),
      s.fw.queues.find? (fun y => y.cid == cid && y.q == q) = some qu → s.fw.contexts.find? (fun y => y.1 == cid) = some (c, ctx) →
      fwPlace s (fwWalker cid ctx) false true (qu.base.toNat + 128 * (qu.taken % 2 ^ qu.n)) = some (loc, a1) →
      fwPlace (slotReads s (fwWalker cid ctx) qu) (fwWalker cid ctx) true false qu.head.toNat = some (head, a2) →
      fwWords (slotReads s (fwWalker cid ctx) qu) (fwWalker cid ctx) (qu.base.toNat + 128 * (qu.taken % 2 ^ qu.n)) 16 = some ws → serving s = true → isFull s loc = true →
      s.fw.launches.any (fun l => l.cid == cid && l.q == q && l.st == 0#8) = false →
      Completes (exec (.launchSlotTake cid q) s) (fun t =>
        (∃ y ∈ t.fw.queues, y.cid = cid ∧ y.q = q ∧ y.taken = (qu.taken + 1) % 2 ^ 32) ∧
        (t.fw.launches = s.fw.launches ∨ ∃ l : Launch, t.fw.launches = s.fw.launches ++ [l] ∧ l.cid = cid ∧ l.q = q ∧ l.ctx = ctx ∧
          l.words = Vector.ofFn (fun i => ws.getD i.val 0) ∧ l.placed = [] ∧ l.st = 0))) ∧
    (∀ (n team x y : Nat) (l : Launch), s.fw.launches[n]? = some l → l.st = 0 → team < l.teams → (s.corners n).any (fun p => p.1 == team) = false →
      placeable s n l l.words[5] x y = true → s.fw.resident = none → serving s = true →
      Completes (exec (.placement n team x y) s) (fun t =>
        (t.fw.launches[n]?).map (fun m => m.placed) = some (l.placed ++ [(team, coreNum x y)]) ∧
        (inRect s x y l.w l.h = true → t.fw.resident = some (n, team, x, y) ∧ ∀ i : Fin 8, i.val < l.s →
          let k := ((s.core.y.toNat - y) * l.w + (s.core.x.toNat - x)) * l.s + i.val
          (k < l.nt → t.slots[i].mode = .run ∧ t.slots[i].pc = l.words[0] ∧ t.slots[i].w[(0 : Fin 24)] = l.words[3] ∧
            t.slots[i].w[(1 : Fin 24)] = BitVec.ofNat 64 k ∧ t.slots[i].sup = false) ∧
          (l.nt ≤ k → t.slots[i].mode = .ended)))) ∧
    (∀ (n : Nat) (l : Launch), s.fw.launches[n]? = some l → l.st = 0 → teamsDone s n l = true →
      (∀ r, s.fw.resident = some r → r.1 = n → coreFinished s = true ∧ coreSettled s = true) →
      Completes (exec (.launchCompletion n) s) (fun t => (t.fw.launches[n]?).map (fun m => (m.st, m.placed)) = some (1, []) ∧
        ∀ r, s.fw.resident = some r → r.1 = n → t.fw.resident = none)) ∧
    (∀ r l, s.fw.resident = some r → s.fw.launches[r.1]? = some l →
      (s.fw.chosen = false → exec .teamSwapOut s = .next { s with fw := { s.fw with chosen := true } }) ∧
      (s.fw.chosen = true → s.core.freezing = false → s.slots.all (fun t => t.stop == .yes && t.flight.isEmpty) = true → swapSettled s = true →
        Completes (exec .teamSwapOut s) (fun t => t.images.map (·.launch) = s.images.map (·.launch) ++ [r] ∧
          (∀ img, t.images.getLast? = some img → ∀ i : Fin 8, img.slots[i].w = s.slots[i].w ∧ img.slots[i].pc = s.slots[i].pc) ∧ t.fw.resident = none ∧
          ∀ i : Fin 8, t.slots[i].mode = .absent))) ∧
    (∀ (x y : Nat) (img : Image) (others : List Image) (l : Launch), s.images = img :: others → s.fw.launches[img.launch.1]? = some l →
      restorable s img l x y = true → s.core.freezing = false → img.reqs = [] → img.waits = [] → img.settled = [] → img.resvWait = [] → s.st.resvWait = [] → s.st.waiting = [] →
      Completes (exec (.teamRestore x y) s) (fun t => t.images.map (·.launch) = others.map (·.launch) ∧ t.fw.resident = some (img.launch.1, img.launch.2.1, x, y) ∧
        ∀ i : Fin 8, t.slots[i].w = img.slots[i].w ∧ t.slots[i].q = img.slots[i].q ∧ t.slots[i].pc = img.slots[i].pc))

/-- R386 to R392, R403, R404: gleaning changes no memory outside its cluster and retires it on failure; a cross-trigger stops
and releases the core; a granule joins the filter, or it is cleared; the reference counter moves on; a limit and a step asked
for are kept; at an interval's boundary an island above step 0 spends a permit and falls by a step with none left, one at step 0 gains a permit in
four intervals, an island goes down to the step asked for, or to 0 under a limit, and rises to it while it has permits and its die's ceiling allows; none rises
without the boost feature or under a limit; firmware sets a trace buffer, whose first record is an epoch, a cluster's clock stops and
starts, and a snapshot writes the account of lost time. It rests in part on the model's own reading: log 25, 49 and 50. -/
def Obligations.DebugAndPowerAct : Prop :=
  ∀ (s : State),
    (∀ (k : Nat) (failed : Option (Fin 4 × Fin 8 × Word)), MemoryOk s → idleCluster s k = true → k < 131072 → Completes (exec (.gleaning k failed) s) (fun t =>
      t.slots = s.slots ∧ (∀ b : Nat, (isBank b && clusterOf (bankCore b) == k) = false → Mem.get t.st.mem b = Mem.get s.st.mem b) ∧
      (failed = none → t.fw = s.fw) ∧ (failed ≠ none → k ∈ t.fw.retired))) ∧
    (∀ wide : Bool, Completes (exec (.crossTriggerStop wide) s) (fun t => t.core.stopped = true ∧ t.core.freezing = true ∧ t.slots = s.slots ∧ t.st = s.st)) ∧
    Completes (exec .crossTriggerRelease s) (fun t => t.core.stopped = false ∧ t.core.freezing = false ∧ t.slots = s.slots ∧ t.st = s.st) ∧
    (∀ g : BitVec 42, Completes (exec (.watchpointInsert g) s) (fun t => bloomHit t.core.filter g.toNat = true ∧
      (∀ h, bloomHit s.core.filter h = true → bloomHit t.core.filter h = true) ∧ t.slots = s.slots ∧ t.st = s.st)) ∧
    Completes (exec .watchpointClear s) (fun t => t.core.filter = 0 ∧ t.slots = s.slots ∧ t.st = s.st) ∧
    (∀ n : Nat, Completes (exec (.traceEpochOverflow (.ticks n)) s) (fun t => t.dbg.now = s.dbg.now + n ∧ t.slots = s.slots ∧ t.core = s.core ∧ t.st = s.st)) ∧
    (∀ k base size : Nat, base % 16 = 0 → 0 < size → inGranary base = true → inGranary (base + 16 * size - 1) = true →
      Completes (exec (.traceEpochOverflow (.buffer k base size)) s) (fun t => (t.dbg.buf k).place = some (base, size) ∧
        ((s.dbg.buf k).place ≠ none ∨ (s.dbg.buf k).records = [] → (t.dbg.buf k).records = [epochRec (traceRatio s k) 0 s.dbg.now] ∧ (t.dbg.buf k).out = 0) ∧
        ((s.dbg.buf k).place = none ∨ (s.dbg.buf k).records.length ≤ (s.dbg.buf k).out → t.slots = s.slots ∧ t.st = s.st ∧ t.core = s.core))) ∧
    (∀ k : Nat, Completes (exec (.traceEpochOverflow (.clock k false)) s) (fun t => k ∈ t.dbg.off ∧ t.slots = s.slots ∧ t.core = s.core ∧ t.st = s.st) ∧
      Completes (exec (.traceEpochOverflow (.clock k true)) s) (fun t => k ∉ t.dbg.off ∧ t.slots = s.slots ∧ t.core = s.core ∧ t.st = s.st)) ∧
    (∀ block : Nat, MemoryOk s → block % 8 = 0 → inGranary block = true → inGranary (block + 335) = true →
      Completes (exec (.traceEpochOverflow (.snapshot block)) s) (fun t => (lostWords s).length = 42 ∧ (∀ j < 42, read64 t.st (block + 8 * j) = (lostWords s).getD j 0) ∧
        ∀ b : Nat, b < block ∨ block + 336 ≤ b → Mem.get t.st.mem b = Mem.get s.st.mem b)) ∧
    (∀ i : Nat, i < 2048 →
      (∀ on : Bool, Completes (exec (.thermalOrCurrentLimit i on) s) (fun t => (islandAt t i).trip = on ∧ (islandAt t i).cur = (islandAt s i).cur ∧
        ∀ j : Nat, j ≠ i → islandAt t j = islandAt s j)) ∧
      (∀ v : BitVec 2, Completes (exec (.firmwareTgtWrite i v) s) (fun t => (islandAt t i).tgt = v ∧ (islandAt t i).cur = (islandAt s i).cur ∧
        ∀ j : Nat, j ≠ i → islandAt t j = islandAt s j))) ∧
    Completes (exec .islandInterval s) (fun t => t.dbg.interval = s.dbg.interval + 1 ∧ t.slots = s.slots ∧ t.st = s.st ∧
      (∀ i : Nat, i < 2048 → (islandAt s i).cur = 0 → ((islandAt s i).trip = true ∨ s.host.featEn.getLsbD 4 = false) → (islandAt t i).cur = 0) ∧
      ∀ d k : Nat, d < 16 → k < 128 →
        let i := 128 * d + k
        let x := islandAt s i
        let y := islandAt t i
        let want : BitVec 2 := if s.host.featEn.getLsbD 4 = false ∨ x.tgt = 3 then 0 else x.tgt
        let up (u : State) (l : List Nat) : Nat := (l.filter (fun j => (islandAt u (128 * d + j)).cur != 0)).length
        (0 < x.cur → y.idle = 0 ∧ y.perm = x.perm - 1) ∧
        (x.cur = 0 → x.idle + 1 = 4 → y.idle = 0 ∧ y.perm = min 64 (x.perm + 1)) ∧
        (x.cur = 0 → x.idle + 1 ≠ 4 → y.idle = x.idle + 1 ∧ y.perm = x.perm) ∧
        (0 < x.cur → x.perm ≤ 1 → y.cur = x.cur - 1) ∧
        ((x.cur = 0 ∨ 1 < x.perm) → x.trip = true → y.cur = 0) ∧
        ((x.cur = 0 ∨ 1 < x.perm) → x.trip = false → want < x.cur → y.cur = want) ∧
        (1 < x.perm → x.trip = false → 0 < x.cur → x.cur < want → y.cur = want) ∧
        (x.trip = false → x.cur = 0 → 0 < y.perm → 0 < want →
          (up s (List.range 128) + ((List.range k).filter (fun j => (islandAt s (128 * d + j)).cur == 0)).length < Config.ceil d → y.cur = want) ∧
          (y.cur = want ∨ y.cur = 0 ∧ Config.ceil d ≤ up s (List.range 128) + up t (List.range k))))

/-- R393 to R397, R401, R402: a host read returns the line, poisoned where a word of it is, and changes no byte; a host write puts the
bytes that it enables, and no others, and sets whole words full through the accepted full alias; where its granule is not granted it has no
effect but the violation; an address outside the decoder's range is none of the module's; a snoop cleans or drops a line, which goes back to the host; a
the host answers the oldest request of the home slice for a line: one for the line's data brings it where no write of the module stands in
it, one for its ownership brings no data, and an answer in error poisons the words that no write has covered since, with kind 4 in HERR; a
good flit hands its packet on; a port's link goes down, comes back, and after its time counts as a notice. It rests in part on the model's own reading: log 35, 53 and 54. -/
def Obligations.HostMemoryAndLinksAct : Prop :=
  ∀ (s : State), recovery s = false →
    (∀ (hpa : BitVec 52) (data : BitVec 512) (en : HostEnables), dpaOf s hpa = none →
      exec (.cxlMemRead hpa) s = .next s ∧ exec (.cxlMemWritePlain hpa data en) s = .next s ∧ exec (.cxlMemWriteFull hpa data en) s = .next s) ∧
    (∀ (hpa : BitVec 52) (dpa : BitVec 41), dpaOf s hpa = some dpa →
      let loc := dpaLoc dpa
      (granted s dpa = true → Completes (exec (.cxlMemRead hpa) s) (fun t =>
        t.host.out.data = BitVec.ofNat 512 (natLE (Mem.read s.st.mem loc 64)) ∧
        t.host.out.poison = (List.range 8).any (fun k => markOf (pointScrub s loc 64).st.marks (loc / 8 + k) == 1#2) ∧
        t.st.mem = s.st.mem ∧ t.st.full = s.st.full ∧ t.slots = s.slots)) ∧
      (granted s dpa = false → Completes (exec (.cxlMemRead hpa) s) (fun t =>
        t.host.out.data = BitVec.allOnes 512 ∧ t.host.out.poison = true ∧ t.host.herr.getLsbD 63 = true ∧ t.st = s.st)) ∧
      (∀ (data : BitVec 512) (en : HostEnables), ∀ i ∈ [Instr.cxlMemWritePlain hpa data en, Instr.cxlMemWriteFull hpa data en],
        let alias_ := dpa.getLsbD 40 && s.host.featEn.getLsbD 1
        (granted s dpa = false → Completes (exec i s) (fun t => t.st = s.st ∧ t.slots = s.slots ∧ t.host.herr.getLsbD 63 = true)) ∧
        (MemoryOk s → granted s dpa = true → (List.range 8).any (hostRefused (hostScrub s loc en.bytes) loc en.bytes) = false → (alias_ = true → s.st.waiting = []) →
          Completes (exec i s) (fun t =>
            (∀ b : Nat, Mem.get t.st.mem b = if loc ≤ b ∧ b < loc + 64 ∧ en.bytes.getLsbD (b - loc) = true then BitVec.ofNat 8 (field data (8 * (b - loc) + 7) (8 * (b - loc))) else Mem.get s.st.mem b) ∧
            (alias_ = false → t.st.full = s.st.full) ∧
            (alias_ = true → ∀ k < 8, (∀ j < 8, en.bytes.getLsbD (8 * k + j) = true) → isFull t (loc + 8 * k) = true))))) ∧
    (∀ (line : BitVec 52) (data : BitVec 1024), MemoryOk s → inHost (hostLine line) = true →
      let pa := hostLine line
      let l := lineFind s.st.lines pa
      let old := BitVec.ofNat 1024 (natLE (Mem.read s.st.mem pa 128))
      (s.st.queue = [] → Completes (exec (.snpdata line) s) (fun t => t.st.mem = s.st.mem ∧
        t.host.out.snoop = old ∧ ∀ l ∈ t.st.lines, l.pa = pa → l.dirty = false ∧ l.own = false)) ∧
      (s.st.queue = [] → Completes (exec (.snpinv line data) s) (fun t => Mem.read t.st.mem pa 128 = lineBytes data ∧
        (l.dirty = true → t.host.out.snoop = old) ∧ ∀ l ∈ t.st.lines, l.pa = pa → l.home = false ∧ l.dirty = false)) ∧
      let Logged (t : State) : Prop := t.host.herr.getLsbD 63 = true ∧ (s.host.herr.getLsbD 63 = false → field t.host.herr 60 58 = 4)
      (∀ k, hostAwaited s pa = some k →
        Completes (exec (.cxlCacheResponse line data false) s) (fun t => t.host.out.asks = s.host.out.asks.erase k ∧
          (k.op = .rdOwn ∨ l.dirty = true → t.st.mem = s.st.mem) ∧
          (k.op = .rdShared → l.dirty = false → Mem.read t.st.mem pa 128 = lineBytes data)) ∧
        Completes (exec (.cxlCacheResponse line data true) s) (fun t => t.host.out.asks = s.host.out.asks.erase k ∧ t.st.mem = s.st.mem ∧
          (∀ w ∈ hostUntouched s k, markOf t.st.marks w = 1#2) ∧ Logged t)) ∧
      (hostAwaited s pa = none → l.home = true → exec (.cxlCacheResponse line data false) s = .next s) ∧
      (hostAwaited s pa = none → l.home = false →
        Completes (exec (.cxlCacheResponse line data false) s) (fun t => Mem.read t.st.mem pa 128 = lineBytes data ∧ (lineFind t.st.lines pa).home = true) ∧
        Completes (exec (.cxlCacheResponse line data true) s) (fun t => t.st.mem = s.st.mem ∧ (∀ k < 16, markOf t.st.marks (pa / 8 + k) = 1#2) ∧
          Logged t))) ∧
    (∀ (port : Fin 16),
      (∀ (k : Nat) (p : Packet), s.host.down.contains port = false → s.host.featEn.getLsbD 3 = true → enterRouter s port p = some k →
        Completes (exec (.psiporFlitReceive port true k p) s) (fun t => t.net.packets = s.net.packets ++ [(k, packetFrom p port)])) ∧
      Completes (exec (.linkFault port) s) (fun t => port ∈ t.host.down ∧ t.net = s.net) ∧
      Completes (exec (.linkRetrained port) s) (fun t => port ∉ t.host.down ∧ t.net = s.net) ∧
      (s.host.down.contains port = true → Completes (exec (.linkRetrainTimeout port) s) (fun t =>
        ∀ e ∈ s.host.pmap, e.1 ≠ 0 → pmValid e.2 = true → pmPort e.2 = port → (port, pmPcid e.2 % 64) ∈ t.net.withdrawn)))

/-- R369, R382, R384, R397 to R400, R405, R406, R336: the driver clears HERR and a machine-check bank; GO fixes the accepted features where the
start awaits it, and before or after that is only remembered;
SYSINT reaches its thread; CTXCMD serves or drops a context by bit 0 of its entry's second word, whatever the bits above it; BAR0's registers take their writes and give their values, as the
machine-check window does, and an undefined offset is a
violation; attestation answers; module reset leaves the reset state with host memory, in which the start begins; a dead context has no live launch, and a fatal event retires its cluster and
ends the contexts that hold it. It rests in part on the model's own reading: log 8, 55, 56 and 58, and on its choices in log 88 (bits [63:1] of a
context's second word) and 97 (GO and CTXCMD before their state). -/
def Obligations.HostRegistersAct : Prop :=
  ∀ (s : State),
    (recovery s = false → Completes (exec .herrClear s) (fun t => t.host = { s.host with herr := 0, out := { s.host.out with ur := false } } ∧
      t.slots = s.slots ∧ t.st = s.st)) ∧
    (∀ (c : Nat) (b : Fin 4) (v : Word), v.getLsbD 63 = true → Completes (exec (.mcstClear c b v) s) (fun t => mcFind t.mc c b = McBank.zero c b)) ∧
    (∀ off : BitVec 52, Completes (exec (.cxlIoUndefinedAccess off) s) (fun t => t.host.out.ur = true ∧ t.host.herr.getLsbD 63 = true ∧
      (s.host.herr.getLsbD 63 = false → field t.host.herr 60 58 = 3 ∧ field t.host.herr 51 0 = off.toNat) ∧ t.st = s.st ∧ t.slots = s.slots)) ∧
    (∀ (b : Fin 5) (nonce : Nat), Completes (exec (.spdmRequest b nonce) s) (fun t => t.host.out.spdm =
      (if b.val = 4 then s.host.measured else some (Config.measured (b.val + 1))).map (fun d => (b.val + 1, d, Config.signature (b.val + 1) d.toNat nonce)))) ∧
    Completes (exec .moduleReset s) (fun t => t.slots = State.reset.slots ∧ t.core = Core.reset ∧ t.fw = State.reset.fw ∧ t.mc = [] ∧
      t.st.mem = s.st.mem.filter (fun c => inHost c.1) ∧ t.st.full = [] ∧ t.host.done = false ∧ field t.host.devStat 7 0 = 0) ∧
    (∀ cid : Fin 64, (∀ c ∈ s.core.copies, ∀ a, c.area = some a → s.slots[c.slot].reaches c.tag (some a) = true) →
      Completes (exec (.contextDies (.context cid)) s) (fun t => ∀ l ∈ t.fw.launches, l.cid = cid → l.st ≠ 0)) ∧
    (∀ (cluster : Nat) (part : Fin 4) (core : Fin 8) (ad : Word), cluster < 131072 → s.core.copies = [] →
      Completes (exec (.contextDies (.fatal cluster part core ad)) s) (fun t => cluster ∈ t.fw.retired ∧
        ∀ c ∈ contextsOf s cluster, ∀ l ∈ t.fw.launches, l.cid = c → l.st ≠ 0)) ∧
    (recovery s = false →
      (devState s = 3 → s.host.done = false → Completes (exec .negoGo s) (fun t => t.host.done = true ∧ t.host.featEn = ((s.host.devFeat &&& s.host.drvAcc) ||| 32#256) ∧
        (∀ d : Fin 16, t.host.dieFeat[d] = s.host.dieFeat[d] &&& BitVec.ofNat 4 (field t.host.featEn 19 16)) ∧ t.host.go = true ∧ devState t = 4)) ∧
      (devState s ≠ 3 ∨ s.host.done = true → Completes (exec .negoGo s) (fun t => t.host = { s.host with go := true, out := { s.host.out with ur := false } } ∧
        t.slots = s.slots ∧ t.st = s.st ∧ t.fw = s.fw)) ∧
      (∀ v : Word, field v 37 28 = s.core.x.toNat → field v 47 38 = s.core.y.toNat → holdsThread s.slots[Fin.ofNat 8 (field v 26 24)] = true →
        Completes (exec (.sysint v) s) (fun t => t.slots[Fin.ofNat 8 (field v 26 24)] =
          { s.slots[Fin.ofNat 8 (field v 26 24)] with sysint := some (BitVec.ofNat 8 (field v 7 0)) })) ∧
      (∀ (v ctx k : Word), let c : Fin 64 := Fin.ofNat 64 (field v 5 0)
        3 ≤ devState s → tableWord s (s.host.ctxTab.toNat + 16 * c.val) = some ctx → tableWord s (s.host.ctxTab.toNat + 16 * c.val + 8) = some k →
        Completes (exec (.ctxcmd v) s) (fun t => (k.getLsbD 0 = true → (c, ctx) ∈ t.fw.contexts) ∧
          (k.getLsbD 0 = false → (∀ y ∈ t.fw.contexts, y.1 ≠ c) ∧ ∀ y ∈ t.fw.queues, y.cid ≠ c))) ∧
      (∀ v : Word, Completes (exec (.registerWrite (.write0 0x200) v) s) (fun t => t.host.ctxTab = v) ∧
        Completes (exec (.registerWrite (.write0 0x208) v) s) (fun t => t.host.qTab = v) ∧
        (s.host.done = false → Completes (exec (.registerWrite (.write0 0x20) v) s) (fun t => t.host.drvAcc.setWidth 64 = v)) ∧
        Completes (exec (.registerWrite (.write0 0x808) v) s) (fun t => pmapAt t 1 = v &&& 0xFC8F#64) ∧
        Completes (exec (.registerWrite (.write0 0x48) v) s) (fun t => t.host.devStat = s.host.devStat ∧ t.st = s.st ∧ t.slots = s.slots) ∧
        Completes (exec (.registerWrite (.write0 0x5008) v) s) (fun t => t.host.out.ur = true) ∧
        Completes (exec (.registerWrite (.read0 0x48) v) s) (fun t => t.host.out.value = s.host.devStat ∧ t.st = s.st ∧ t.slots = s.slots) ∧
        Completes (exec (.registerWrite (.read0 0x400) v) s) (fun t => t.host.out.value = s.host.herr) ∧
        (∀ i : Fin 2048, Completes (exec (.registerWrite (.read0 (BitVec.ofNat 16 (0x1000 + 8 * i.val))) v) s) (fun t =>
          t.host.out.value = BitVec.ofNat 64 ((islandAt s i.val).perm * 2 ^ 48 + (if (islandAt s i.val).trip then 2 ^ 11 else 0) + (islandAt s i.val).cur.toNat * 2 ^ 8 + (islandAt s i.val).tgt.toNat)))) ∧
      (∀ (k : Fin 131072) (b : Fin 4) (v : Word), Completes (exec (.registerWrite (.read1 (BitVec.ofNat 24 (128 * k.val + 32 * b.val))) v) s) (fun t =>
        t.host.out.value = (mcFind s.mc k.val b).st ∧ t.mc = s.mc)))

-- ## The machine as a whole

/-- R24, R27, R37, R50, R51, R67, R179: where no agent's and no unit's step comes first, the slot whose cycle it is runs the
instruction that its pc's bytes decode to, and its cycle ends; a fetch or a pattern that is none takes its precise fault, and one
whose translation misses waits for the walk. A
halfword that the instruction cache does not hold is the two bytes of memory at its place. It rests in part on the model's own reading: log 2, 14, 17 and 68. -/
def Obligations.StepRunsDecoded : Prop :=
  (∀ (s : State), s.schedule = [] → pick? s = none → s.clockOff = false → recovery s = false → s.core.stopped = false → s.thr.mode = .run → s.thr.held = none →
    (∀ m, s.thr.miss = some m → m.result.isSome = true) → s.thr.stop ≠ .yes → s.fw.chosen = false →
    (∀ i s1, fetchWord { s with gap := false, wrote := false } = .ok i s1 → step s = ending (exec i s1)) ∧
    (∀ c s1, fetchWord { s with gap := false, wrote := false } = .bad c s1 → step s = ending (takePrecise s1 s1.cur c)) ∧
    (∀ va s1, fetchWord { s with gap := false, wrote := false } = .miss va s1 → s1.thr.event? = none →
      step s = .next (advance { s1.onThr (fun t => { t with miss := some { va, result := none } }) with turn := .mem }))) ∧
  (∀ t : State, ending (.next t) = .next (advance t)) ∧
  (∀ (s s1 s2 : State) (h0 h1 : Nat), fetchHalf s s.thr.pc = .ok h0 s1 →
    (isLong h0 = false → fetchWord s = (match decodeHalves h0 0 with | .ok i _ => .ok i s1 | .bad _ => .bad (causeOf 1) s1)) ∧
    (isLong h0 = true → fetchHalf s1 (s.thr.pc + 2) = .ok h1 s2 →
      fetchWord s = (match decodeHalves h0 h1 with | .ok i _ => .ok i s2 | .bad _ => .bad (causeOf 1) s2))) ∧
  (∀ (s s1 : State) (va : Word) (loc : Nat) (attr : BitVec 5), fetchWalk s va = none → translateFetch s s.thr.walker va = .ok loc attr s1 → loc % 2 = 0 →
    s1.core.icache.find? (fun l => l.1 == lineOf loc) = none → Sound s1 loc 2 →
    ∃ s2, fetchHalf s va = .ok (natLE (Mem.read s1.st.mem loc 2)) s2 ∧ s2.slots = s1.slots ∧ s2.st.mem = s1.st.mem)

/-- R24 to R36, R46: words that the spec's own chapters write out decode to the instructions that they name. -/
def Obligations.SpecWordsDecode : Prop :=
  decodeHalves 0x8040 0x0187 = .ok (.transportLong false .always (.x 0) (.imm8 135#8)) 4 ∧
  decodeHalves 0x8044 0xF800 = .ok (.transportLong false .always (.xsh 0) (.imm15 0x7800#15)) 4 ∧
  decodeHalves 0x8042 0xFC18 = .ok (.transportLong false .always (.x 2) (.imm15 0x7C18#15)) 4 ∧
  decodeHalves 0x8603 0x0181 = .ok (.transportLong false (.ifTrue 3) (.w 3) (.imm8 129#8)) 4 ∧
  decodeHalves 0x80F5 0x018A = .ok (.strBind false .always (.imm8 138#8)) 4 ∧
  decodeHalves 0x810E 0x0180 = .ok (.sysHalt false .always (.imm8 128#8)) 4 ∧
  decodeHalves 0x810C 0x000A = .ok (.sysTlbi false .always (.w 10)) 4 ∧
  decodeHalves 0x80BA 0x01E4 = .ok (.trkSeekLong false .always (.imm8 228#8)) 4 ∧
  decodeHalves 0xC101 0x9000 = .ok (.cpyGo true .always (.imm15 0x1000#15)) 4 ∧
  (∃ x, decodeHalves 0x3C70 0 = .ok (.trkClaimShort false x) 2)

/-- R24 to R36, R46: the encoding of every well-formed instruction decodes to it, with every operand, whatever follows it. -/
def Obligations.EncodingRoundTrips : Prop :=
  ∀ (i : Instr) (bytes more : List Byte), i.wellFormed = true → encode i = some bytes → decode (bytes ++ more) = .ok i bytes.length

/-- Every step keeps memory in the canonical form that is the model's own (log 7), from every state that has it. -/
def Obligations.StepKeepsMemoryCanonical : Prop :=
  ∀ s t : State, MemoryOk s → step s = .next t → MemoryOk t

/-- R10, R65, R117, R225, R398, R403, R404: right after module reset no slot holds a thread, nothing is negotiated, no context
or launch is served, every track and table is clear, every island stands at step 0 with 64 permits, and memory, listing
nothing, is canonical. It rests in part on the model's own reading: log 3 and 4. -/
def Obligations.ResetState : Prop :=
  MemoryOk State.reset ∧ State.reset.st.full = [] ∧ (∀ i : Fin 8, State.reset.slots[i].mode = .absent ∧ State.reset.slots[i].pred 0 = true) ∧
  State.reset.host.drvAcc = 0 ∧ State.reset.host.done = false ∧ State.reset.host.featEn = 0 ∧ State.reset.host.herr = 0 ∧
  State.reset.host.pmap = [] ∧ State.reset.fw.contexts = [] ∧ State.reset.fw.launches = [] ∧
  (∀ n : Fin 32, State.reset.core.tracks[n].h = 0 ∧ State.reset.core.tracks[n].owner = none ∧ State.reset.core.tracks[n].cells = []) ∧
  (∀ i : Fin 8, State.reset.core.streams[i].bind = none) ∧ State.reset.core.tables = [] ∧
  (∀ i : Nat, (islandAt State.reset i).cur = 0 ∧ (islandAt State.reset i).perm = 64) ∧ State.reset.st.tlb2 = [] ∧ State.reset.core.tlb1 = []
end

