-- ==== Sys2Proof/Laws/State.lean ====
section
/-! SUPPORT. One lemma per field for each update of the machine's state and of a thread: what the update writes, and that every other field stays. -/

namespace Sys2Proof.Machine

@[simp] theorem State.setSlot_slots (s : State) (i : Fin 8) (t : Thread) : (s.setSlot i t).slots = s.slots.set i t := rfl
@[simp] theorem State.setSlot_cur (s : State) (i : Fin 8) (t : Thread) : (s.setSlot i t).cur = s.cur := rfl
@[simp] theorem State.setSlot_cycle (s : State) (i : Fin 8) (t : Thread) : (s.setSlot i t).cycle = s.cycle := rfl
@[simp] theorem State.setSlot_gap (s : State) (i : Fin 8) (t : Thread) : (s.setSlot i t).gap = s.gap := rfl
@[simp] theorem State.setSlot_wrote (s : State) (i : Fin 8) (t : Thread) : (s.setSlot i t).wrote = s.wrote := rfl
@[simp] theorem State.setSlot_core (s : State) (i : Fin 8) (t : Thread) : (s.setSlot i t).core = s.core := rfl
@[simp] theorem State.setSlot_st (s : State) (i : Fin 8) (t : Thread) : (s.setSlot i t).st = s.st := rfl
@[simp] theorem State.setSlot_net (s : State) (i : Fin 8) (t : Thread) : (s.setSlot i t).net = s.net := rfl
@[simp] theorem State.setSlot_fw (s : State) (i : Fin 8) (t : Thread) : (s.setSlot i t).fw = s.fw := rfl
@[simp] theorem State.setSlot_host (s : State) (i : Fin 8) (t : Thread) : (s.setSlot i t).host = s.host := rfl
@[simp] theorem State.setSlot_mc (s : State) (i : Fin 8) (t : Thread) : (s.setSlot i t).mc = s.mc := rfl
@[simp] theorem State.setSlot_dbg (s : State) (i : Fin 8) (t : Thread) : (s.setSlot i t).dbg = s.dbg := rfl
@[simp] theorem State.setSlot_images (s : State) (i : Fin 8) (t : Thread) : (s.setSlot i t).images = s.images := rfl
@[simp] theorem State.setSlot_turn (s : State) (i : Fin 8) (t : Thread) : (s.setSlot i t).turn = s.turn := rfl
@[simp] theorem State.setSlot_nextId (s : State) (i : Fin 8) (t : Thread) : (s.setSlot i t).nextId = s.nextId := rfl
@[simp] theorem State.setSlot_freeCtr (s : State) (i : Fin 8) (t : Thread) : (s.setSlot i t).freeCtr = s.freeCtr := rfl
@[simp] theorem State.setSlot_schedule (s : State) (i : Fin 8) (t : Thread) : (s.setSlot i t).schedule = s.schedule := rfl
@[simp] theorem State.setThr_slots (s : State) (t : Thread) : (s.setThr t).slots = s.slots.set s.cur t := rfl
@[simp] theorem State.setThr_cur (s : State) (t : Thread) : (s.setThr t).cur = s.cur := rfl
@[simp] theorem State.setThr_cycle (s : State) (t : Thread) : (s.setThr t).cycle = s.cycle := rfl
@[simp] theorem State.setThr_gap (s : State) (t : Thread) : (s.setThr t).gap = s.gap := rfl
@[simp] theorem State.setThr_wrote (s : State) (t : Thread) : (s.setThr t).wrote = s.wrote := rfl
@[simp] theorem State.setThr_core (s : State) (t : Thread) : (s.setThr t).core = s.core := rfl
@[simp] theorem State.setThr_st (s : State) (t : Thread) : (s.setThr t).st = s.st := rfl
@[simp] theorem State.setThr_net (s : State) (t : Thread) : (s.setThr t).net = s.net := rfl
@[simp] theorem State.setThr_fw (s : State) (t : Thread) : (s.setThr t).fw = s.fw := rfl
@[simp] theorem State.setThr_host (s : State) (t : Thread) : (s.setThr t).host = s.host := rfl
@[simp] theorem State.setThr_mc (s : State) (t : Thread) : (s.setThr t).mc = s.mc := rfl
@[simp] theorem State.setThr_dbg (s : State) (t : Thread) : (s.setThr t).dbg = s.dbg := rfl
@[simp] theorem State.setThr_images (s : State) (t : Thread) : (s.setThr t).images = s.images := rfl
@[simp] theorem State.setThr_turn (s : State) (t : Thread) : (s.setThr t).turn = s.turn := rfl
@[simp] theorem State.setThr_nextId (s : State) (t : Thread) : (s.setThr t).nextId = s.nextId := rfl
@[simp] theorem State.setThr_freeCtr (s : State) (t : Thread) : (s.setThr t).freeCtr = s.freeCtr := rfl
@[simp] theorem State.setThr_schedule (s : State) (t : Thread) : (s.setThr t).schedule = s.schedule := rfl
@[simp] theorem State.onThr_slots (s : State) (f : Thread → Thread) : (s.onThr f).slots = s.slots.set s.cur (f s.thr) := rfl
@[simp] theorem State.onThr_cur (s : State) (f : Thread → Thread) : (s.onThr f).cur = s.cur := rfl
@[simp] theorem State.onThr_cycle (s : State) (f : Thread → Thread) : (s.onThr f).cycle = s.cycle := rfl
@[simp] theorem State.onThr_gap (s : State) (f : Thread → Thread) : (s.onThr f).gap = s.gap := rfl
@[simp] theorem State.onThr_wrote (s : State) (f : Thread → Thread) : (s.onThr f).wrote = s.wrote := rfl
@[simp] theorem State.onThr_core (s : State) (f : Thread → Thread) : (s.onThr f).core = s.core := rfl
@[simp] theorem State.onThr_st (s : State) (f : Thread → Thread) : (s.onThr f).st = s.st := rfl
@[simp] theorem State.onThr_net (s : State) (f : Thread → Thread) : (s.onThr f).net = s.net := rfl
@[simp] theorem State.onThr_fw (s : State) (f : Thread → Thread) : (s.onThr f).fw = s.fw := rfl
@[simp] theorem State.onThr_host (s : State) (f : Thread → Thread) : (s.onThr f).host = s.host := rfl
@[simp] theorem State.onThr_mc (s : State) (f : Thread → Thread) : (s.onThr f).mc = s.mc := rfl
@[simp] theorem State.onThr_dbg (s : State) (f : Thread → Thread) : (s.onThr f).dbg = s.dbg := rfl
@[simp] theorem State.onThr_images (s : State) (f : Thread → Thread) : (s.onThr f).images = s.images := rfl
@[simp] theorem State.onThr_turn (s : State) (f : Thread → Thread) : (s.onThr f).turn = s.turn := rfl
@[simp] theorem State.onThr_nextId (s : State) (f : Thread → Thread) : (s.onThr f).nextId = s.nextId := rfl
@[simp] theorem State.onThr_freeCtr (s : State) (f : Thread → Thread) : (s.onThr f).freeCtr = s.freeCtr := rfl
@[simp] theorem State.onThr_schedule (s : State) (f : Thread → Thread) : (s.onThr f).schedule = s.schedule := rfl
@[simp] theorem State.onSlot_slots (s : State) (i : Fin 8) (f : Thread → Thread) : (s.onSlot i f).slots = s.slots.set i (f s.slots[i]) := rfl
@[simp] theorem State.onSlot_cur (s : State) (i : Fin 8) (f : Thread → Thread) : (s.onSlot i f).cur = s.cur := rfl
@[simp] theorem State.onSlot_cycle (s : State) (i : Fin 8) (f : Thread → Thread) : (s.onSlot i f).cycle = s.cycle := rfl
@[simp] theorem State.onSlot_gap (s : State) (i : Fin 8) (f : Thread → Thread) : (s.onSlot i f).gap = s.gap := rfl
@[simp] theorem State.onSlot_wrote (s : State) (i : Fin 8) (f : Thread → Thread) : (s.onSlot i f).wrote = s.wrote := rfl
@[simp] theorem State.onSlot_core (s : State) (i : Fin 8) (f : Thread → Thread) : (s.onSlot i f).core = s.core := rfl
@[simp] theorem State.onSlot_st (s : State) (i : Fin 8) (f : Thread → Thread) : (s.onSlot i f).st = s.st := rfl
@[simp] theorem State.onSlot_net (s : State) (i : Fin 8) (f : Thread → Thread) : (s.onSlot i f).net = s.net := rfl
@[simp] theorem State.onSlot_fw (s : State) (i : Fin 8) (f : Thread → Thread) : (s.onSlot i f).fw = s.fw := rfl
@[simp] theorem State.onSlot_host (s : State) (i : Fin 8) (f : Thread → Thread) : (s.onSlot i f).host = s.host := rfl
@[simp] theorem State.onSlot_mc (s : State) (i : Fin 8) (f : Thread → Thread) : (s.onSlot i f).mc = s.mc := rfl
@[simp] theorem State.onSlot_dbg (s : State) (i : Fin 8) (f : Thread → Thread) : (s.onSlot i f).dbg = s.dbg := rfl
@[simp] theorem State.onSlot_images (s : State) (i : Fin 8) (f : Thread → Thread) : (s.onSlot i f).images = s.images := rfl
@[simp] theorem State.onSlot_turn (s : State) (i : Fin 8) (f : Thread → Thread) : (s.onSlot i f).turn = s.turn := rfl
@[simp] theorem State.onSlot_nextId (s : State) (i : Fin 8) (f : Thread → Thread) : (s.onSlot i f).nextId = s.nextId := rfl
@[simp] theorem State.onSlot_freeCtr (s : State) (i : Fin 8) (f : Thread → Thread) : (s.onSlot i f).freeCtr = s.freeCtr := rfl
@[simp] theorem State.onSlot_schedule (s : State) (i : Fin 8) (f : Thread → Thread) : (s.onSlot i f).schedule = s.schedule := rfl
@[simp] theorem State.onCore_slots (s : State) (f : Core → Core) : (s.onCore f).slots = s.slots := rfl
@[simp] theorem State.onCore_cur (s : State) (f : Core → Core) : (s.onCore f).cur = s.cur := rfl
@[simp] theorem State.onCore_cycle (s : State) (f : Core → Core) : (s.onCore f).cycle = s.cycle := rfl
@[simp] theorem State.onCore_gap (s : State) (f : Core → Core) : (s.onCore f).gap = s.gap := rfl
@[simp] theorem State.onCore_wrote (s : State) (f : Core → Core) : (s.onCore f).wrote = s.wrote := rfl
@[simp] theorem State.onCore_core (s : State) (f : Core → Core) : (s.onCore f).core = f s.core := rfl
@[simp] theorem State.onCore_st (s : State) (f : Core → Core) : (s.onCore f).st = s.st := rfl
@[simp] theorem State.onCore_net (s : State) (f : Core → Core) : (s.onCore f).net = s.net := rfl
@[simp] theorem State.onCore_fw (s : State) (f : Core → Core) : (s.onCore f).fw = s.fw := rfl
@[simp] theorem State.onCore_host (s : State) (f : Core → Core) : (s.onCore f).host = s.host := rfl
@[simp] theorem State.onCore_mc (s : State) (f : Core → Core) : (s.onCore f).mc = s.mc := rfl
@[simp] theorem State.onCore_dbg (s : State) (f : Core → Core) : (s.onCore f).dbg = s.dbg := rfl
@[simp] theorem State.onCore_images (s : State) (f : Core → Core) : (s.onCore f).images = s.images := rfl
@[simp] theorem State.onCore_turn (s : State) (f : Core → Core) : (s.onCore f).turn = s.turn := rfl
@[simp] theorem State.onCore_nextId (s : State) (f : Core → Core) : (s.onCore f).nextId = s.nextId := rfl
@[simp] theorem State.onCore_freeCtr (s : State) (f : Core → Core) : (s.onCore f).freeCtr = s.freeCtr := rfl
@[simp] theorem State.onCore_schedule (s : State) (f : Core → Core) : (s.onCore f).schedule = s.schedule := rfl
@[simp] theorem State.onSt_slots (s : State) (f : Store → Store) : (s.onSt f).slots = s.slots := rfl
@[simp] theorem State.onSt_cur (s : State) (f : Store → Store) : (s.onSt f).cur = s.cur := rfl
@[simp] theorem State.onSt_cycle (s : State) (f : Store → Store) : (s.onSt f).cycle = s.cycle := rfl
@[simp] theorem State.onSt_gap (s : State) (f : Store → Store) : (s.onSt f).gap = s.gap := rfl
@[simp] theorem State.onSt_wrote (s : State) (f : Store → Store) : (s.onSt f).wrote = s.wrote := rfl
@[simp] theorem State.onSt_core (s : State) (f : Store → Store) : (s.onSt f).core = s.core := rfl
@[simp] theorem State.onSt_st (s : State) (f : Store → Store) : (s.onSt f).st = f s.st := rfl
@[simp] theorem State.onSt_net (s : State) (f : Store → Store) : (s.onSt f).net = s.net := rfl
@[simp] theorem State.onSt_fw (s : State) (f : Store → Store) : (s.onSt f).fw = s.fw := rfl
@[simp] theorem State.onSt_host (s : State) (f : Store → Store) : (s.onSt f).host = s.host := rfl
@[simp] theorem State.onSt_mc (s : State) (f : Store → Store) : (s.onSt f).mc = s.mc := rfl
@[simp] theorem State.onSt_dbg (s : State) (f : Store → Store) : (s.onSt f).dbg = s.dbg := rfl
@[simp] theorem State.onSt_images (s : State) (f : Store → Store) : (s.onSt f).images = s.images := rfl
@[simp] theorem State.onSt_turn (s : State) (f : Store → Store) : (s.onSt f).turn = s.turn := rfl
@[simp] theorem State.onSt_nextId (s : State) (f : Store → Store) : (s.onSt f).nextId = s.nextId := rfl
@[simp] theorem State.onSt_freeCtr (s : State) (f : Store → Store) : (s.onSt f).freeCtr = s.freeCtr := rfl
@[simp] theorem State.onSt_schedule (s : State) (f : Store → Store) : (s.onSt f).schedule = s.schedule := rfl
@[simp] theorem State.onOut_slots (s : State) (f : HostOut → HostOut) : (s.onOut f).slots = s.slots := rfl
@[simp] theorem State.onOut_cur (s : State) (f : HostOut → HostOut) : (s.onOut f).cur = s.cur := rfl
@[simp] theorem State.onOut_cycle (s : State) (f : HostOut → HostOut) : (s.onOut f).cycle = s.cycle := rfl
@[simp] theorem State.onOut_gap (s : State) (f : HostOut → HostOut) : (s.onOut f).gap = s.gap := rfl
@[simp] theorem State.onOut_wrote (s : State) (f : HostOut → HostOut) : (s.onOut f).wrote = s.wrote := rfl
@[simp] theorem State.onOut_core (s : State) (f : HostOut → HostOut) : (s.onOut f).core = s.core := rfl
@[simp] theorem State.onOut_st (s : State) (f : HostOut → HostOut) : (s.onOut f).st = s.st := rfl
@[simp] theorem State.onOut_net (s : State) (f : HostOut → HostOut) : (s.onOut f).net = s.net := rfl
@[simp] theorem State.onOut_fw (s : State) (f : HostOut → HostOut) : (s.onOut f).fw = s.fw := rfl
@[simp] theorem State.onOut_host (s : State) (f : HostOut → HostOut) : (s.onOut f).host = { s.host with out := f s.host.out } := rfl
@[simp] theorem State.onOut_mc (s : State) (f : HostOut → HostOut) : (s.onOut f).mc = s.mc := rfl
@[simp] theorem State.onOut_dbg (s : State) (f : HostOut → HostOut) : (s.onOut f).dbg = s.dbg := rfl
@[simp] theorem State.onOut_images (s : State) (f : HostOut → HostOut) : (s.onOut f).images = s.images := rfl
@[simp] theorem State.onOut_turn (s : State) (f : HostOut → HostOut) : (s.onOut f).turn = s.turn := rfl
@[simp] theorem State.onOut_nextId (s : State) (f : HostOut → HostOut) : (s.onOut f).nextId = s.nextId := rfl
@[simp] theorem State.onOut_freeCtr (s : State) (f : HostOut → HostOut) : (s.onOut f).freeCtr = s.freeCtr := rfl
@[simp] theorem State.onOut_schedule (s : State) (f : HostOut → HostOut) : (s.onOut f).schedule = s.schedule := rfl
@[simp] theorem State.bump_slots (s : State) : (s.bump).slots = s.slots := rfl
@[simp] theorem State.bump_cur (s : State) : (s.bump).cur = s.cur := rfl
@[simp] theorem State.bump_cycle (s : State) : (s.bump).cycle = s.cycle := rfl
@[simp] theorem State.bump_gap (s : State) : (s.bump).gap = s.gap := rfl
@[simp] theorem State.bump_wrote (s : State) : (s.bump).wrote = s.wrote := rfl
@[simp] theorem State.bump_core (s : State) : (s.bump).core = s.core := rfl
@[simp] theorem State.bump_st (s : State) : (s.bump).st = s.st := rfl
@[simp] theorem State.bump_net (s : State) : (s.bump).net = s.net := rfl
@[simp] theorem State.bump_fw (s : State) : (s.bump).fw = s.fw := rfl
@[simp] theorem State.bump_host (s : State) : (s.bump).host = s.host := rfl
@[simp] theorem State.bump_mc (s : State) : (s.bump).mc = s.mc := rfl
@[simp] theorem State.bump_dbg (s : State) : (s.bump).dbg = s.dbg := rfl
@[simp] theorem State.bump_images (s : State) : (s.bump).images = s.images := rfl
@[simp] theorem State.bump_turn (s : State) : (s.bump).turn = s.turn := rfl
@[simp] theorem State.bump_nextId (s : State) : (s.bump).nextId = s.nextId + 1 := rfl
@[simp] theorem State.bump_freeCtr (s : State) : (s.bump).freeCtr = s.freeCtr := rfl
@[simp] theorem State.bump_schedule (s : State) : (s.bump).schedule = s.schedule := rfl
@[simp] theorem State.setSlot_coreId (s : State) (i : Fin 8) (t : Thread) : (s.setSlot i t).coreId = s.coreId := rfl
@[simp] theorem State.setThr_coreId (s : State) (t : Thread) : (s.setThr t).coreId = s.coreId := rfl
@[simp] theorem State.onThr_coreId (s : State) (f : Thread → Thread) : (s.onThr f).coreId = s.coreId := rfl
@[simp] theorem State.onSlot_coreId (s : State) (i : Fin 8) (f : Thread → Thread) : (s.onSlot i f).coreId = s.coreId := rfl
@[simp] theorem State.onCore_thr (s : State) (f : Core → Core) : (s.onCore f).thr = s.thr := rfl
@[simp] theorem State.onSt_thr (s : State) (f : Store → Store) : (s.onSt f).thr = s.thr := rfl
@[simp] theorem State.onSt_coreId (s : State) (f : Store → Store) : (s.onSt f).coreId = s.coreId := rfl
@[simp] theorem State.onOut_thr (s : State) (f : HostOut → HostOut) : (s.onOut f).thr = s.thr := rfl
@[simp] theorem State.onOut_coreId (s : State) (f : HostOut → HostOut) : (s.onOut f).coreId = s.coreId := rfl
@[simp] theorem State.bump_thr (s : State) : (s.bump).thr = s.thr := rfl
@[simp] theorem State.bump_coreId (s : State) : (s.bump).coreId = s.coreId := rfl
@[simp] theorem State.setThr_thr (s : State) (t : Thread) : (s.setThr t).thr = t := by simp [State.thr]
@[simp] theorem State.onThr_thr (s : State) (f : Thread → Thread) : (s.onThr f).thr = f s.thr := by simp [State.thr]
@[simp] theorem Thread.setOp_mode (t : Thread) (p : OPort) (v : Quad) : (t.setOp p v).mode = t.mode := rfl
@[simp] theorem Thread.setOp_w (t : Thread) (p : OPort) (v : Quad) : (t.setOp p v).w = t.w := rfl
@[simp] theorem Thread.setOp_q (t : Thread) (p : OPort) (v : Quad) : (t.setOp p v).q = t.q := rfl
@[simp] theorem Thread.setOp_p (t : Thread) (p : OPort) (v : Quad) : (t.setOp p v).p = t.p := rfl
@[simp] theorem Thread.setOp_x (t : Thread) (p : OPort) (v : Quad) : (t.setOp p v).x = t.x := rfl
@[simp] theorem Thread.setOp_pc (t : Thread) (p : OPort) (v : Quad) : (t.setOp p v).pc = t.pc := rfl
@[simp] theorem Thread.setOp_op (t : Thread) (p : OPort) (v : Quad) : (t.setOp p v).op = t.op.set p.fin (if p.wide then v else quad (low64 v)) := rfl
@[simp] theorem Thread.setOp_rp (t : Thread) (p : OPort) (v : Quad) : (t.setOp p v).rp = t.rp := rfl
@[simp] theorem Thread.setOp_fence (t : Thread) (p : OPort) (v : Quad) : (t.setOp p v).fence = t.fence := rfl
@[simp] theorem Thread.setOp_poison (t : Thread) (p : OPort) (v : Quad) : (t.setOp p v).poison = t.poison := rfl
@[simp] theorem Thread.setOp_np (t : Thread) (p : OPort) (v : Quad) : (t.setOp p v).np = t.np := rfl
@[simp] theorem Thread.setOp_cause4 (t : Thread) (p : OPort) (v : Quad) : (t.setOp p v).cause4 = t.cause4 := rfl
@[simp] theorem Thread.setOp_headLost (t : Thread) (p : OPort) (v : Quad) : (t.setOp p v).headLost = t.headLost := rfl
@[simp] theorem Thread.setOp_cr (t : Thread) (p : OPort) (v : Quad) : (t.setOp p v).cr = t.cr := rfl
@[simp] theorem Thread.setOp_flight (t : Thread) (p : OPort) (v : Quad) : (t.setOp p v).flight = t.flight := rfl
@[simp] theorem Thread.setOp_owed (t : Thread) (p : OPort) (v : Quad) : (t.setOp p v).owed = t.owed := rfl
@[simp] theorem Thread.setOp_psq (t : Thread) (p : OPort) (v : Quad) : (t.setOp p v).psq = t.psq := rfl
@[simp] theorem Thread.setOp_counted (t : Thread) (p : OPort) (v : Quad) : (t.setOp p v).counted = t.counted := rfl
@[simp] theorem Thread.setOp_ring (t : Thread) (p : OPort) (v : Quad) : (t.setOp p v).ring = t.ring := rfl
@[simp] theorem Thread.setOp_resv (t : Thread) (p : OPort) (v : Quad) : (t.setOp p v).resv = t.resv := rfl
@[simp] theorem Thread.setOp_floor (t : Thread) (p : OPort) (v : Quad) : (t.setOp p v).floor = t.floor := rfl
@[simp] theorem Thread.setOp_relReads (t : Thread) (p : OPort) (v : Quad) : (t.setOp p v).relReads = t.relReads := rfl
@[simp] theorem Thread.setOp_relMark (t : Thread) (p : OPort) (v : Quad) : (t.setOp p v).relMark = t.relMark := rfl
@[simp] theorem Thread.setOp_arrivals (t : Thread) (p : OPort) (v : Quad) : (t.setOp p v).arrivals = t.arrivals := rfl
@[simp] theorem Thread.setOp_seqr (t : Thread) (p : OPort) (v : Quad) : (t.setOp p v).seqr = t.seqr := rfl
@[simp] theorem Thread.setOp_faults (t : Thread) (p : OPort) (v : Quad) : (t.setOp p v).faults = t.faults := rfl
@[simp] theorem Thread.setOp_sysint (t : Thread) (p : OPort) (v : Quad) : (t.setOp p v).sysint = t.sysint := rfl
@[simp] theorem Thread.setOp_msgint (t : Thread) (p : OPort) (v : Quad) : (t.setOp p v).msgint = t.msgint := rfl
@[simp] theorem Thread.setOp_expiry (t : Thread) (p : OPort) (v : Quad) : (t.setOp p v).expiry = t.expiry := rfl
@[simp] theorem Thread.setOp_uints (t : Thread) (p : OPort) (v : Quad) : (t.setOp p v).uints = t.uints := rfl
@[simp] theorem Thread.setOp_ucur (t : Thread) (p : OPort) (v : Quad) : (t.setOp p v).ucur = t.ucur := rfl
@[simp] theorem Thread.setOp_shadow (t : Thread) (p : OPort) (v : Quad) : (t.setOp p v).shadow = t.shadow := rfl
@[simp] theorem Thread.setOp_areaUse (t : Thread) (p : OPort) (v : Quad) : (t.setOp p v).areaUse = t.areaUse := rfl
@[simp] theorem Thread.setOp_areaOld (t : Thread) (p : OPort) (v : Quad) : (t.setOp p v).areaOld = t.areaOld := rfl
@[simp] theorem Thread.setOp_late (t : Thread) (p : OPort) (v : Quad) : (t.setOp p v).late = t.late := rfl
@[simp] theorem Thread.setOp_wordPc (t : Thread) (p : OPort) (v : Quad) : (t.setOp p v).wordPc = t.wordPc := rfl
@[simp] theorem Thread.setOp_reissue (t : Thread) (p : OPort) (v : Quad) : (t.setOp p v).reissue = t.reissue := rfl
@[simp] theorem Thread.setOp_sAfter (t : Thread) (p : OPort) (v : Quad) : (t.setOp p v).sAfter = t.sAfter := rfl
@[simp] theorem Thread.setOp_held (t : Thread) (p : OPort) (v : Quad) : (t.setOp p v).held = t.held := rfl
@[simp] theorem Thread.setOp_miss (t : Thread) (p : OPort) (v : Quad) : (t.setOp p v).miss = t.miss := rfl
@[simp] theorem Thread.setOp_stop (t : Thread) (p : OPort) (v : Quad) : (t.setOp p v).stop = t.stop := rfl
@[simp] theorem Thread.setOp_task (t : Thread) (p : OPort) (v : Quad) : (t.setOp p v).task = t.task := rfl
@[simp] theorem Thread.setOp_ntask (t : Thread) (p : OPort) (v : Quad) : (t.setOp p v).ntask = t.ntask := rfl
@[simp] theorem Thread.setOp_stride (t : Thread) (p : OPort) (v : Quad) : (t.setOp p v).stride = t.stride := rfl
@[simp] theorem Thread.setOp_dispatched (t : Thread) (p : OPort) (v : Quad) : (t.setOp p v).dispatched = t.dispatched := rfl
@[simp] theorem Thread.setOp_mxOpen (t : Thread) (p : OPort) (v : Quad) : (t.setOp p v).mxOpen = t.mxOpen := rfl
@[simp] theorem Thread.setOp_mxWaits (t : Thread) (p : OPort) (v : Quad) : (t.setOp p v).mxWaits = t.mxWaits := rfl
@[simp] theorem Thread.setOp_rot (t : Thread) (p : OPort) (v : Quad) : (t.setOp p v).rot = t.rot := rfl
@[simp] theorem Thread.setOp_lost (t : Thread) (p : OPort) (v : Quad) : (t.setOp p v).lost = t.lost := rfl
@[simp] theorem Thread.setCr_mode (t : Thread) (i : Fin 25) (v : Word) : (t.setCr i v).mode = t.mode := rfl
@[simp] theorem Thread.setCr_w (t : Thread) (i : Fin 25) (v : Word) : (t.setCr i v).w = t.w := rfl
@[simp] theorem Thread.setCr_q (t : Thread) (i : Fin 25) (v : Word) : (t.setCr i v).q = t.q := rfl
@[simp] theorem Thread.setCr_p (t : Thread) (i : Fin 25) (v : Word) : (t.setCr i v).p = t.p := rfl
@[simp] theorem Thread.setCr_x (t : Thread) (i : Fin 25) (v : Word) : (t.setCr i v).x = t.x := rfl
@[simp] theorem Thread.setCr_pc (t : Thread) (i : Fin 25) (v : Word) : (t.setCr i v).pc = t.pc := rfl
@[simp] theorem Thread.setCr_op (t : Thread) (i : Fin 25) (v : Word) : (t.setCr i v).op = t.op := rfl
@[simp] theorem Thread.setCr_rp (t : Thread) (i : Fin 25) (v : Word) : (t.setCr i v).rp = t.rp := rfl
@[simp] theorem Thread.setCr_fence (t : Thread) (i : Fin 25) (v : Word) : (t.setCr i v).fence = t.fence := rfl
@[simp] theorem Thread.setCr_poison (t : Thread) (i : Fin 25) (v : Word) : (t.setCr i v).poison = t.poison := rfl
@[simp] theorem Thread.setCr_np (t : Thread) (i : Fin 25) (v : Word) : (t.setCr i v).np = t.np := rfl
@[simp] theorem Thread.setCr_cause4 (t : Thread) (i : Fin 25) (v : Word) : (t.setCr i v).cause4 = t.cause4 := rfl
@[simp] theorem Thread.setCr_headLost (t : Thread) (i : Fin 25) (v : Word) : (t.setCr i v).headLost = t.headLost := rfl
@[simp] theorem Thread.setCr_cr (t : Thread) (i : Fin 25) (v : Word) : (t.setCr i v).cr = t.cr.set i v := rfl
@[simp] theorem Thread.setCr_flight (t : Thread) (i : Fin 25) (v : Word) : (t.setCr i v).flight = t.flight := rfl
@[simp] theorem Thread.setCr_owed (t : Thread) (i : Fin 25) (v : Word) : (t.setCr i v).owed = t.owed := rfl
@[simp] theorem Thread.setCr_psq (t : Thread) (i : Fin 25) (v : Word) : (t.setCr i v).psq = t.psq := rfl
@[simp] theorem Thread.setCr_counted (t : Thread) (i : Fin 25) (v : Word) : (t.setCr i v).counted = t.counted := rfl
@[simp] theorem Thread.setCr_ring (t : Thread) (i : Fin 25) (v : Word) : (t.setCr i v).ring = t.ring := rfl
@[simp] theorem Thread.setCr_resv (t : Thread) (i : Fin 25) (v : Word) : (t.setCr i v).resv = t.resv := rfl
@[simp] theorem Thread.setCr_floor (t : Thread) (i : Fin 25) (v : Word) : (t.setCr i v).floor = t.floor := rfl
@[simp] theorem Thread.setCr_relReads (t : Thread) (i : Fin 25) (v : Word) : (t.setCr i v).relReads = t.relReads := rfl
@[simp] theorem Thread.setCr_relMark (t : Thread) (i : Fin 25) (v : Word) : (t.setCr i v).relMark = t.relMark := rfl
@[simp] theorem Thread.setCr_arrivals (t : Thread) (i : Fin 25) (v : Word) : (t.setCr i v).arrivals = t.arrivals := rfl
@[simp] theorem Thread.setCr_seqr (t : Thread) (i : Fin 25) (v : Word) : (t.setCr i v).seqr = t.seqr := rfl
@[simp] theorem Thread.setCr_faults (t : Thread) (i : Fin 25) (v : Word) : (t.setCr i v).faults = t.faults := rfl
@[simp] theorem Thread.setCr_sysint (t : Thread) (i : Fin 25) (v : Word) : (t.setCr i v).sysint = t.sysint := rfl
@[simp] theorem Thread.setCr_msgint (t : Thread) (i : Fin 25) (v : Word) : (t.setCr i v).msgint = t.msgint := rfl
@[simp] theorem Thread.setCr_expiry (t : Thread) (i : Fin 25) (v : Word) : (t.setCr i v).expiry = t.expiry := rfl
@[simp] theorem Thread.setCr_uints (t : Thread) (i : Fin 25) (v : Word) : (t.setCr i v).uints = t.uints := rfl
@[simp] theorem Thread.setCr_ucur (t : Thread) (i : Fin 25) (v : Word) : (t.setCr i v).ucur = t.ucur := rfl
@[simp] theorem Thread.setCr_shadow (t : Thread) (i : Fin 25) (v : Word) : (t.setCr i v).shadow = t.shadow := rfl
@[simp] theorem Thread.setCr_areaUse (t : Thread) (i : Fin 25) (v : Word) : (t.setCr i v).areaUse = t.areaUse := rfl
@[simp] theorem Thread.setCr_areaOld (t : Thread) (i : Fin 25) (v : Word) : (t.setCr i v).areaOld = t.areaOld := rfl
@[simp] theorem Thread.setCr_late (t : Thread) (i : Fin 25) (v : Word) : (t.setCr i v).late = t.late := rfl
@[simp] theorem Thread.setCr_wordPc (t : Thread) (i : Fin 25) (v : Word) : (t.setCr i v).wordPc = t.wordPc := rfl
@[simp] theorem Thread.setCr_reissue (t : Thread) (i : Fin 25) (v : Word) : (t.setCr i v).reissue = t.reissue := rfl
@[simp] theorem Thread.setCr_sAfter (t : Thread) (i : Fin 25) (v : Word) : (t.setCr i v).sAfter = t.sAfter := rfl
@[simp] theorem Thread.setCr_held (t : Thread) (i : Fin 25) (v : Word) : (t.setCr i v).held = t.held := rfl
@[simp] theorem Thread.setCr_miss (t : Thread) (i : Fin 25) (v : Word) : (t.setCr i v).miss = t.miss := rfl
@[simp] theorem Thread.setCr_stop (t : Thread) (i : Fin 25) (v : Word) : (t.setCr i v).stop = t.stop := rfl
@[simp] theorem Thread.setCr_task (t : Thread) (i : Fin 25) (v : Word) : (t.setCr i v).task = t.task := rfl
@[simp] theorem Thread.setCr_ntask (t : Thread) (i : Fin 25) (v : Word) : (t.setCr i v).ntask = t.ntask := rfl
@[simp] theorem Thread.setCr_stride (t : Thread) (i : Fin 25) (v : Word) : (t.setCr i v).stride = t.stride := rfl
@[simp] theorem Thread.setCr_dispatched (t : Thread) (i : Fin 25) (v : Word) : (t.setCr i v).dispatched = t.dispatched := rfl
@[simp] theorem Thread.setCr_mxOpen (t : Thread) (i : Fin 25) (v : Word) : (t.setCr i v).mxOpen = t.mxOpen := rfl
@[simp] theorem Thread.setCr_mxWaits (t : Thread) (i : Fin 25) (v : Word) : (t.setCr i v).mxWaits = t.mxWaits := rfl
@[simp] theorem Thread.setCr_rot (t : Thread) (i : Fin 25) (v : Word) : (t.setCr i v).rot = t.rot := rfl
@[simp] theorem Thread.setCr_lost (t : Thread) (i : Fin 25) (v : Word) : (t.setCr i v).lost = t.lost := rfl
@[simp] theorem Thread.setFence_mode (t : Thread) (ps : List RPort) : (t.setFence ps).mode = t.mode := rfl
@[simp] theorem Thread.setFence_w (t : Thread) (ps : List RPort) : (t.setFence ps).w = t.w := rfl
@[simp] theorem Thread.setFence_q (t : Thread) (ps : List RPort) : (t.setFence ps).q = t.q := rfl
@[simp] theorem Thread.setFence_p (t : Thread) (ps : List RPort) : (t.setFence ps).p = t.p := rfl
@[simp] theorem Thread.setFence_x (t : Thread) (ps : List RPort) : (t.setFence ps).x = t.x := rfl
@[simp] theorem Thread.setFence_pc (t : Thread) (ps : List RPort) : (t.setFence ps).pc = t.pc := rfl
@[simp] theorem Thread.setFence_op (t : Thread) (ps : List RPort) : (t.setFence ps).op = t.op := rfl
@[simp] theorem Thread.setFence_rp (t : Thread) (ps : List RPort) : (t.setFence ps).rp = t.rp := rfl
@[simp] theorem Thread.setFence_fence (t : Thread) (ps : List RPort) : (t.setFence ps).fence = ps.foldl (fun f p => f ||| (1#26 <<< p.fin.val)) t.fence := rfl
@[simp] theorem Thread.setFence_poison (t : Thread) (ps : List RPort) : (t.setFence ps).poison = t.poison := rfl
@[simp] theorem Thread.setFence_np (t : Thread) (ps : List RPort) : (t.setFence ps).np = t.np := rfl
@[simp] theorem Thread.setFence_cause4 (t : Thread) (ps : List RPort) : (t.setFence ps).cause4 = t.cause4 := rfl
@[simp] theorem Thread.setFence_headLost (t : Thread) (ps : List RPort) : (t.setFence ps).headLost = t.headLost := rfl
@[simp] theorem Thread.setFence_cr (t : Thread) (ps : List RPort) : (t.setFence ps).cr = t.cr := rfl
@[simp] theorem Thread.setFence_flight (t : Thread) (ps : List RPort) : (t.setFence ps).flight = t.flight := rfl
@[simp] theorem Thread.setFence_owed (t : Thread) (ps : List RPort) : (t.setFence ps).owed = t.owed := rfl
@[simp] theorem Thread.setFence_psq (t : Thread) (ps : List RPort) : (t.setFence ps).psq = t.psq := rfl
@[simp] theorem Thread.setFence_counted (t : Thread) (ps : List RPort) : (t.setFence ps).counted = t.counted := rfl
@[simp] theorem Thread.setFence_ring (t : Thread) (ps : List RPort) : (t.setFence ps).ring = t.ring := rfl
@[simp] theorem Thread.setFence_resv (t : Thread) (ps : List RPort) : (t.setFence ps).resv = t.resv := rfl
@[simp] theorem Thread.setFence_floor (t : Thread) (ps : List RPort) : (t.setFence ps).floor = t.floor := rfl
@[simp] theorem Thread.setFence_relReads (t : Thread) (ps : List RPort) : (t.setFence ps).relReads = t.relReads := rfl
@[simp] theorem Thread.setFence_relMark (t : Thread) (ps : List RPort) : (t.setFence ps).relMark = t.relMark := rfl
@[simp] theorem Thread.setFence_arrivals (t : Thread) (ps : List RPort) : (t.setFence ps).arrivals = t.arrivals := rfl
@[simp] theorem Thread.setFence_seqr (t : Thread) (ps : List RPort) : (t.setFence ps).seqr = t.seqr := rfl
@[simp] theorem Thread.setFence_faults (t : Thread) (ps : List RPort) : (t.setFence ps).faults = t.faults := rfl
@[simp] theorem Thread.setFence_sysint (t : Thread) (ps : List RPort) : (t.setFence ps).sysint = t.sysint := rfl
@[simp] theorem Thread.setFence_msgint (t : Thread) (ps : List RPort) : (t.setFence ps).msgint = t.msgint := rfl
@[simp] theorem Thread.setFence_expiry (t : Thread) (ps : List RPort) : (t.setFence ps).expiry = t.expiry := rfl
@[simp] theorem Thread.setFence_uints (t : Thread) (ps : List RPort) : (t.setFence ps).uints = t.uints := rfl
@[simp] theorem Thread.setFence_ucur (t : Thread) (ps : List RPort) : (t.setFence ps).ucur = t.ucur := rfl
@[simp] theorem Thread.setFence_shadow (t : Thread) (ps : List RPort) : (t.setFence ps).shadow = t.shadow := rfl
@[simp] theorem Thread.setFence_areaUse (t : Thread) (ps : List RPort) : (t.setFence ps).areaUse = t.areaUse := rfl
@[simp] theorem Thread.setFence_areaOld (t : Thread) (ps : List RPort) : (t.setFence ps).areaOld = t.areaOld := rfl
@[simp] theorem Thread.setFence_late (t : Thread) (ps : List RPort) : (t.setFence ps).late = t.late := rfl
@[simp] theorem Thread.setFence_wordPc (t : Thread) (ps : List RPort) : (t.setFence ps).wordPc = t.wordPc := rfl
@[simp] theorem Thread.setFence_reissue (t : Thread) (ps : List RPort) : (t.setFence ps).reissue = t.reissue := rfl
@[simp] theorem Thread.setFence_sAfter (t : Thread) (ps : List RPort) : (t.setFence ps).sAfter = t.sAfter := rfl
@[simp] theorem Thread.setFence_held (t : Thread) (ps : List RPort) : (t.setFence ps).held = t.held := rfl
@[simp] theorem Thread.setFence_miss (t : Thread) (ps : List RPort) : (t.setFence ps).miss = t.miss := rfl
@[simp] theorem Thread.setFence_stop (t : Thread) (ps : List RPort) : (t.setFence ps).stop = t.stop := rfl
@[simp] theorem Thread.setFence_task (t : Thread) (ps : List RPort) : (t.setFence ps).task = t.task := rfl
@[simp] theorem Thread.setFence_ntask (t : Thread) (ps : List RPort) : (t.setFence ps).ntask = t.ntask := rfl
@[simp] theorem Thread.setFence_stride (t : Thread) (ps : List RPort) : (t.setFence ps).stride = t.stride := rfl
@[simp] theorem Thread.setFence_dispatched (t : Thread) (ps : List RPort) : (t.setFence ps).dispatched = t.dispatched := rfl
@[simp] theorem Thread.setFence_mxOpen (t : Thread) (ps : List RPort) : (t.setFence ps).mxOpen = t.mxOpen := rfl
@[simp] theorem Thread.setFence_mxWaits (t : Thread) (ps : List RPort) : (t.setFence ps).mxWaits = t.mxWaits := rfl
@[simp] theorem Thread.setFence_rot (t : Thread) (ps : List RPort) : (t.setFence ps).rot = t.rot := rfl
@[simp] theorem Thread.setFence_lost (t : Thread) (ps : List RPort) : (t.setFence ps).lost = t.lost := rfl
@[simp] theorem Thread.ringTake_mode (t : Thread) (tag : Nat) (op : Option Op) (target : Word) : (t.ringTake tag op target).mode = t.mode := rfl
@[simp] theorem Thread.ringTake_w (t : Thread) (tag : Nat) (op : Option Op) (target : Word) : (t.ringTake tag op target).w = t.w := rfl
@[simp] theorem Thread.ringTake_q (t : Thread) (tag : Nat) (op : Option Op) (target : Word) : (t.ringTake tag op target).q = t.q := rfl
@[simp] theorem Thread.ringTake_p (t : Thread) (tag : Nat) (op : Option Op) (target : Word) : (t.ringTake tag op target).p = t.p := rfl
@[simp] theorem Thread.ringTake_x (t : Thread) (tag : Nat) (op : Option Op) (target : Word) : (t.ringTake tag op target).x = t.x := rfl
@[simp] theorem Thread.ringTake_pc (t : Thread) (tag : Nat) (op : Option Op) (target : Word) : (t.ringTake tag op target).pc = t.pc := rfl
@[simp] theorem Thread.ringTake_op (t : Thread) (tag : Nat) (op : Option Op) (target : Word) : (t.ringTake tag op target).op = t.op := rfl
@[simp] theorem Thread.ringTake_rp (t : Thread) (tag : Nat) (op : Option Op) (target : Word) : (t.ringTake tag op target).rp = t.rp := rfl
@[simp] theorem Thread.ringTake_fence (t : Thread) (tag : Nat) (op : Option Op) (target : Word) : (t.ringTake tag op target).fence = t.fence := rfl
@[simp] theorem Thread.ringTake_poison (t : Thread) (tag : Nat) (op : Option Op) (target : Word) : (t.ringTake tag op target).poison = t.poison := rfl
@[simp] theorem Thread.ringTake_np (t : Thread) (tag : Nat) (op : Option Op) (target : Word) : (t.ringTake tag op target).np = t.np := rfl
@[simp] theorem Thread.ringTake_cause4 (t : Thread) (tag : Nat) (op : Option Op) (target : Word) : (t.ringTake tag op target).cause4 = t.cause4 := rfl
@[simp] theorem Thread.ringTake_headLost (t : Thread) (tag : Nat) (op : Option Op) (target : Word) : (t.ringTake tag op target).headLost = t.headLost := rfl
@[simp] theorem Thread.ringTake_cr (t : Thread) (tag : Nat) (op : Option Op) (target : Word) : (t.ringTake tag op target).cr = t.cr.set crSeq (BitVec.ofNat 64 ((field t.cr[crSeq] 47 0 + 1) % 2 ^ 48)) := rfl
@[simp] theorem Thread.ringTake_flight (t : Thread) (tag : Nat) (op : Option Op) (target : Word) : (t.ringTake tag op target).flight = t.flight := rfl
@[simp] theorem Thread.ringTake_owed (t : Thread) (tag : Nat) (op : Option Op) (target : Word) : (t.ringTake tag op target).owed = t.owed := rfl
@[simp] theorem Thread.ringTake_psq (t : Thread) (tag : Nat) (op : Option Op) (target : Word) : (t.ringTake tag op target).psq = t.psq := rfl
@[simp] theorem Thread.ringTake_counted (t : Thread) (tag : Nat) (op : Option Op) (target : Word) : (t.ringTake tag op target).counted = t.counted := rfl
@[simp] theorem Thread.ringTake_ring (t : Thread) (tag : Nat) (op : Option Op) (target : Word) : (t.ringTake tag op target).ring = t.ring ++ [{ seq := (field t.cr[crSeq] 47 0 + 1) % 2 ^ 48, tag, pc := t.pc, op, target }] := rfl
@[simp] theorem Thread.ringTake_resv (t : Thread) (tag : Nat) (op : Option Op) (target : Word) : (t.ringTake tag op target).resv = t.resv := rfl
@[simp] theorem Thread.ringTake_floor (t : Thread) (tag : Nat) (op : Option Op) (target : Word) : (t.ringTake tag op target).floor = t.floor := rfl
@[simp] theorem Thread.ringTake_relReads (t : Thread) (tag : Nat) (op : Option Op) (target : Word) : (t.ringTake tag op target).relReads = t.relReads := rfl
@[simp] theorem Thread.ringTake_relMark (t : Thread) (tag : Nat) (op : Option Op) (target : Word) : (t.ringTake tag op target).relMark = t.relMark := rfl
@[simp] theorem Thread.ringTake_arrivals (t : Thread) (tag : Nat) (op : Option Op) (target : Word) : (t.ringTake tag op target).arrivals = t.arrivals := rfl
@[simp] theorem Thread.ringTake_seqr (t : Thread) (tag : Nat) (op : Option Op) (target : Word) : (t.ringTake tag op target).seqr = t.seqr := rfl
@[simp] theorem Thread.ringTake_faults (t : Thread) (tag : Nat) (op : Option Op) (target : Word) : (t.ringTake tag op target).faults = t.faults := rfl
@[simp] theorem Thread.ringTake_sysint (t : Thread) (tag : Nat) (op : Option Op) (target : Word) : (t.ringTake tag op target).sysint = t.sysint := rfl
@[simp] theorem Thread.ringTake_msgint (t : Thread) (tag : Nat) (op : Option Op) (target : Word) : (t.ringTake tag op target).msgint = t.msgint := rfl
@[simp] theorem Thread.ringTake_expiry (t : Thread) (tag : Nat) (op : Option Op) (target : Word) : (t.ringTake tag op target).expiry = t.expiry := rfl
@[simp] theorem Thread.ringTake_uints (t : Thread) (tag : Nat) (op : Option Op) (target : Word) : (t.ringTake tag op target).uints = t.uints := rfl
@[simp] theorem Thread.ringTake_ucur (t : Thread) (tag : Nat) (op : Option Op) (target : Word) : (t.ringTake tag op target).ucur = t.ucur := rfl
@[simp] theorem Thread.ringTake_shadow (t : Thread) (tag : Nat) (op : Option Op) (target : Word) : (t.ringTake tag op target).shadow = t.shadow := rfl
@[simp] theorem Thread.ringTake_areaUse (t : Thread) (tag : Nat) (op : Option Op) (target : Word) : (t.ringTake tag op target).areaUse = t.areaUse := rfl
@[simp] theorem Thread.ringTake_areaOld (t : Thread) (tag : Nat) (op : Option Op) (target : Word) : (t.ringTake tag op target).areaOld = t.areaOld := rfl
@[simp] theorem Thread.ringTake_late (t : Thread) (tag : Nat) (op : Option Op) (target : Word) : (t.ringTake tag op target).late = t.late := rfl
@[simp] theorem Thread.ringTake_wordPc (t : Thread) (tag : Nat) (op : Option Op) (target : Word) : (t.ringTake tag op target).wordPc = t.wordPc := rfl
@[simp] theorem Thread.ringTake_reissue (t : Thread) (tag : Nat) (op : Option Op) (target : Word) : (t.ringTake tag op target).reissue = t.reissue := rfl
@[simp] theorem Thread.ringTake_sAfter (t : Thread) (tag : Nat) (op : Option Op) (target : Word) : (t.ringTake tag op target).sAfter = t.sAfter := rfl
@[simp] theorem Thread.ringTake_held (t : Thread) (tag : Nat) (op : Option Op) (target : Word) : (t.ringTake tag op target).held = t.held := rfl
@[simp] theorem Thread.ringTake_miss (t : Thread) (tag : Nat) (op : Option Op) (target : Word) : (t.ringTake tag op target).miss = t.miss := rfl
@[simp] theorem Thread.ringTake_stop (t : Thread) (tag : Nat) (op : Option Op) (target : Word) : (t.ringTake tag op target).stop = t.stop := rfl
@[simp] theorem Thread.ringTake_task (t : Thread) (tag : Nat) (op : Option Op) (target : Word) : (t.ringTake tag op target).task = t.task := rfl
@[simp] theorem Thread.ringTake_ntask (t : Thread) (tag : Nat) (op : Option Op) (target : Word) : (t.ringTake tag op target).ntask = t.ntask := rfl
@[simp] theorem Thread.ringTake_stride (t : Thread) (tag : Nat) (op : Option Op) (target : Word) : (t.ringTake tag op target).stride = t.stride := rfl
@[simp] theorem Thread.ringTake_dispatched (t : Thread) (tag : Nat) (op : Option Op) (target : Word) : (t.ringTake tag op target).dispatched = t.dispatched := rfl
@[simp] theorem Thread.ringTake_mxOpen (t : Thread) (tag : Nat) (op : Option Op) (target : Word) : (t.ringTake tag op target).mxOpen = t.mxOpen := rfl
@[simp] theorem Thread.ringTake_mxWaits (t : Thread) (tag : Nat) (op : Option Op) (target : Word) : (t.ringTake tag op target).mxWaits = t.mxWaits := rfl
@[simp] theorem Thread.ringTake_rot (t : Thread) (tag : Nat) (op : Option Op) (target : Word) : (t.ringTake tag op target).rot = t.rot := rfl
@[simp] theorem Thread.ringTake_lost (t : Thread) (tag : Nat) (op : Option Op) (target : Word) : (t.ringTake tag op target).lost = t.lost := rfl
@[simp] theorem Thread.ringFree_mode (t : Thread) (tag : Nat) : (t.ringFree tag).mode = t.mode := rfl
@[simp] theorem Thread.ringFree_w (t : Thread) (tag : Nat) : (t.ringFree tag).w = t.w := rfl
@[simp] theorem Thread.ringFree_q (t : Thread) (tag : Nat) : (t.ringFree tag).q = t.q := rfl
@[simp] theorem Thread.ringFree_p (t : Thread) (tag : Nat) : (t.ringFree tag).p = t.p := rfl
@[simp] theorem Thread.ringFree_x (t : Thread) (tag : Nat) : (t.ringFree tag).x = t.x := rfl
@[simp] theorem Thread.ringFree_pc (t : Thread) (tag : Nat) : (t.ringFree tag).pc = t.pc := rfl
@[simp] theorem Thread.ringFree_op (t : Thread) (tag : Nat) : (t.ringFree tag).op = t.op := rfl
@[simp] theorem Thread.ringFree_rp (t : Thread) (tag : Nat) : (t.ringFree tag).rp = t.rp := rfl
@[simp] theorem Thread.ringFree_fence (t : Thread) (tag : Nat) : (t.ringFree tag).fence = t.fence := rfl
@[simp] theorem Thread.ringFree_poison (t : Thread) (tag : Nat) : (t.ringFree tag).poison = t.poison := rfl
@[simp] theorem Thread.ringFree_np (t : Thread) (tag : Nat) : (t.ringFree tag).np = t.np := rfl
@[simp] theorem Thread.ringFree_cause4 (t : Thread) (tag : Nat) : (t.ringFree tag).cause4 = t.cause4 := rfl
@[simp] theorem Thread.ringFree_headLost (t : Thread) (tag : Nat) : (t.ringFree tag).headLost = t.headLost := rfl
@[simp] theorem Thread.ringFree_cr (t : Thread) (tag : Nat) : (t.ringFree tag).cr = t.cr := rfl
@[simp] theorem Thread.ringFree_flight (t : Thread) (tag : Nat) : (t.ringFree tag).flight = t.flight := rfl
@[simp] theorem Thread.ringFree_owed (t : Thread) (tag : Nat) : (t.ringFree tag).owed = t.owed := rfl
@[simp] theorem Thread.ringFree_psq (t : Thread) (tag : Nat) : (t.ringFree tag).psq = t.psq := rfl
@[simp] theorem Thread.ringFree_counted (t : Thread) (tag : Nat) : (t.ringFree tag).counted = t.counted := rfl
@[simp] theorem Thread.ringFree_ring (t : Thread) (tag : Nat) : (t.ringFree tag).ring = t.ring.filter (fun e => e.tag != tag || e.refused) := rfl
@[simp] theorem Thread.ringFree_resv (t : Thread) (tag : Nat) : (t.ringFree tag).resv = t.resv := rfl
@[simp] theorem Thread.ringFree_floor (t : Thread) (tag : Nat) : (t.ringFree tag).floor = t.floor := rfl
@[simp] theorem Thread.ringFree_relReads (t : Thread) (tag : Nat) : (t.ringFree tag).relReads = t.relReads := rfl
@[simp] theorem Thread.ringFree_relMark (t : Thread) (tag : Nat) : (t.ringFree tag).relMark = t.relMark := rfl
@[simp] theorem Thread.ringFree_arrivals (t : Thread) (tag : Nat) : (t.ringFree tag).arrivals = t.arrivals := rfl
@[simp] theorem Thread.ringFree_seqr (t : Thread) (tag : Nat) : (t.ringFree tag).seqr = t.seqr := rfl
@[simp] theorem Thread.ringFree_faults (t : Thread) (tag : Nat) : (t.ringFree tag).faults = t.faults := rfl
@[simp] theorem Thread.ringFree_sysint (t : Thread) (tag : Nat) : (t.ringFree tag).sysint = t.sysint := rfl
@[simp] theorem Thread.ringFree_msgint (t : Thread) (tag : Nat) : (t.ringFree tag).msgint = t.msgint := rfl
@[simp] theorem Thread.ringFree_expiry (t : Thread) (tag : Nat) : (t.ringFree tag).expiry = t.expiry := rfl
@[simp] theorem Thread.ringFree_uints (t : Thread) (tag : Nat) : (t.ringFree tag).uints = t.uints := rfl
@[simp] theorem Thread.ringFree_ucur (t : Thread) (tag : Nat) : (t.ringFree tag).ucur = t.ucur := rfl
@[simp] theorem Thread.ringFree_shadow (t : Thread) (tag : Nat) : (t.ringFree tag).shadow = t.shadow := rfl
@[simp] theorem Thread.ringFree_areaUse (t : Thread) (tag : Nat) : (t.ringFree tag).areaUse = t.areaUse := rfl
@[simp] theorem Thread.ringFree_areaOld (t : Thread) (tag : Nat) : (t.ringFree tag).areaOld = t.areaOld := rfl
@[simp] theorem Thread.ringFree_late (t : Thread) (tag : Nat) : (t.ringFree tag).late = t.late := rfl
@[simp] theorem Thread.ringFree_wordPc (t : Thread) (tag : Nat) : (t.ringFree tag).wordPc = t.wordPc := rfl
@[simp] theorem Thread.ringFree_reissue (t : Thread) (tag : Nat) : (t.ringFree tag).reissue = t.reissue := rfl
@[simp] theorem Thread.ringFree_sAfter (t : Thread) (tag : Nat) : (t.ringFree tag).sAfter = t.sAfter := rfl
@[simp] theorem Thread.ringFree_held (t : Thread) (tag : Nat) : (t.ringFree tag).held = t.held := rfl
@[simp] theorem Thread.ringFree_miss (t : Thread) (tag : Nat) : (t.ringFree tag).miss = t.miss := rfl
@[simp] theorem Thread.ringFree_stop (t : Thread) (tag : Nat) : (t.ringFree tag).stop = t.stop := rfl
@[simp] theorem Thread.ringFree_task (t : Thread) (tag : Nat) : (t.ringFree tag).task = t.task := rfl
@[simp] theorem Thread.ringFree_ntask (t : Thread) (tag : Nat) : (t.ringFree tag).ntask = t.ntask := rfl
@[simp] theorem Thread.ringFree_stride (t : Thread) (tag : Nat) : (t.ringFree tag).stride = t.stride := rfl
@[simp] theorem Thread.ringFree_dispatched (t : Thread) (tag : Nat) : (t.ringFree tag).dispatched = t.dispatched := rfl
@[simp] theorem Thread.ringFree_mxOpen (t : Thread) (tag : Nat) : (t.ringFree tag).mxOpen = t.mxOpen := rfl
@[simp] theorem Thread.ringFree_mxWaits (t : Thread) (tag : Nat) : (t.ringFree tag).mxWaits = t.mxWaits := rfl
@[simp] theorem Thread.ringFree_rot (t : Thread) (tag : Nat) : (t.ringFree tag).rot = t.rot := rfl
@[simp] theorem Thread.ringFree_lost (t : Thread) (tag : Nat) : (t.ringFree tag).lost = t.lost := rfl
@[simp] theorem Thread.ringRefuse_mode (t : Thread) (tag : Nat) : (t.ringRefuse tag).mode = t.mode := rfl
@[simp] theorem Thread.ringRefuse_w (t : Thread) (tag : Nat) : (t.ringRefuse tag).w = t.w := rfl
@[simp] theorem Thread.ringRefuse_q (t : Thread) (tag : Nat) : (t.ringRefuse tag).q = t.q := rfl
@[simp] theorem Thread.ringRefuse_p (t : Thread) (tag : Nat) : (t.ringRefuse tag).p = t.p := rfl
@[simp] theorem Thread.ringRefuse_x (t : Thread) (tag : Nat) : (t.ringRefuse tag).x = t.x := rfl
@[simp] theorem Thread.ringRefuse_pc (t : Thread) (tag : Nat) : (t.ringRefuse tag).pc = t.pc := rfl
@[simp] theorem Thread.ringRefuse_op (t : Thread) (tag : Nat) : (t.ringRefuse tag).op = t.op := rfl
@[simp] theorem Thread.ringRefuse_rp (t : Thread) (tag : Nat) : (t.ringRefuse tag).rp = t.rp := rfl
@[simp] theorem Thread.ringRefuse_fence (t : Thread) (tag : Nat) : (t.ringRefuse tag).fence = t.fence := rfl
@[simp] theorem Thread.ringRefuse_poison (t : Thread) (tag : Nat) : (t.ringRefuse tag).poison = t.poison := rfl
@[simp] theorem Thread.ringRefuse_np (t : Thread) (tag : Nat) : (t.ringRefuse tag).np = t.np := rfl
@[simp] theorem Thread.ringRefuse_cause4 (t : Thread) (tag : Nat) : (t.ringRefuse tag).cause4 = t.cause4 := rfl
@[simp] theorem Thread.ringRefuse_headLost (t : Thread) (tag : Nat) : (t.ringRefuse tag).headLost = t.headLost := rfl
@[simp] theorem Thread.ringRefuse_cr (t : Thread) (tag : Nat) : (t.ringRefuse tag).cr = t.cr := rfl
@[simp] theorem Thread.ringRefuse_flight (t : Thread) (tag : Nat) : (t.ringRefuse tag).flight = t.flight := rfl
@[simp] theorem Thread.ringRefuse_owed (t : Thread) (tag : Nat) : (t.ringRefuse tag).owed = t.owed := rfl
@[simp] theorem Thread.ringRefuse_psq (t : Thread) (tag : Nat) : (t.ringRefuse tag).psq = t.psq := rfl
@[simp] theorem Thread.ringRefuse_counted (t : Thread) (tag : Nat) : (t.ringRefuse tag).counted = t.counted := rfl
@[simp] theorem Thread.ringRefuse_ring (t : Thread) (tag : Nat) : (t.ringRefuse tag).ring = t.ring.map (fun e => if e.tag = tag then { e with refused := true } else e) := rfl
@[simp] theorem Thread.ringRefuse_resv (t : Thread) (tag : Nat) : (t.ringRefuse tag).resv = t.resv := rfl
@[simp] theorem Thread.ringRefuse_floor (t : Thread) (tag : Nat) : (t.ringRefuse tag).floor = t.floor := rfl
@[simp] theorem Thread.ringRefuse_relReads (t : Thread) (tag : Nat) : (t.ringRefuse tag).relReads = t.relReads := rfl
@[simp] theorem Thread.ringRefuse_relMark (t : Thread) (tag : Nat) : (t.ringRefuse tag).relMark = t.relMark := rfl
@[simp] theorem Thread.ringRefuse_arrivals (t : Thread) (tag : Nat) : (t.ringRefuse tag).arrivals = t.arrivals := rfl
@[simp] theorem Thread.ringRefuse_seqr (t : Thread) (tag : Nat) : (t.ringRefuse tag).seqr = t.seqr := rfl
@[simp] theorem Thread.ringRefuse_faults (t : Thread) (tag : Nat) : (t.ringRefuse tag).faults = t.faults := rfl
@[simp] theorem Thread.ringRefuse_sysint (t : Thread) (tag : Nat) : (t.ringRefuse tag).sysint = t.sysint := rfl
@[simp] theorem Thread.ringRefuse_msgint (t : Thread) (tag : Nat) : (t.ringRefuse tag).msgint = t.msgint := rfl
@[simp] theorem Thread.ringRefuse_expiry (t : Thread) (tag : Nat) : (t.ringRefuse tag).expiry = t.expiry := rfl
@[simp] theorem Thread.ringRefuse_uints (t : Thread) (tag : Nat) : (t.ringRefuse tag).uints = t.uints := rfl
@[simp] theorem Thread.ringRefuse_ucur (t : Thread) (tag : Nat) : (t.ringRefuse tag).ucur = t.ucur := rfl
@[simp] theorem Thread.ringRefuse_shadow (t : Thread) (tag : Nat) : (t.ringRefuse tag).shadow = t.shadow := rfl
@[simp] theorem Thread.ringRefuse_areaUse (t : Thread) (tag : Nat) : (t.ringRefuse tag).areaUse = t.areaUse := rfl
@[simp] theorem Thread.ringRefuse_areaOld (t : Thread) (tag : Nat) : (t.ringRefuse tag).areaOld = t.areaOld := rfl
@[simp] theorem Thread.ringRefuse_late (t : Thread) (tag : Nat) : (t.ringRefuse tag).late = t.late := rfl
@[simp] theorem Thread.ringRefuse_wordPc (t : Thread) (tag : Nat) : (t.ringRefuse tag).wordPc = t.wordPc := rfl
@[simp] theorem Thread.ringRefuse_reissue (t : Thread) (tag : Nat) : (t.ringRefuse tag).reissue = t.reissue := rfl
@[simp] theorem Thread.ringRefuse_sAfter (t : Thread) (tag : Nat) : (t.ringRefuse tag).sAfter = t.sAfter := rfl
@[simp] theorem Thread.ringRefuse_held (t : Thread) (tag : Nat) : (t.ringRefuse tag).held = t.held := rfl
@[simp] theorem Thread.ringRefuse_miss (t : Thread) (tag : Nat) : (t.ringRefuse tag).miss = t.miss := rfl
@[simp] theorem Thread.ringRefuse_stop (t : Thread) (tag : Nat) : (t.ringRefuse tag).stop = t.stop := rfl
@[simp] theorem Thread.ringRefuse_task (t : Thread) (tag : Nat) : (t.ringRefuse tag).task = t.task := rfl
@[simp] theorem Thread.ringRefuse_ntask (t : Thread) (tag : Nat) : (t.ringRefuse tag).ntask = t.ntask := rfl
@[simp] theorem Thread.ringRefuse_stride (t : Thread) (tag : Nat) : (t.ringRefuse tag).stride = t.stride := rfl
@[simp] theorem Thread.ringRefuse_dispatched (t : Thread) (tag : Nat) : (t.ringRefuse tag).dispatched = t.dispatched := rfl
@[simp] theorem Thread.ringRefuse_mxOpen (t : Thread) (tag : Nat) : (t.ringRefuse tag).mxOpen = t.mxOpen := rfl
@[simp] theorem Thread.ringRefuse_mxWaits (t : Thread) (tag : Nat) : (t.ringRefuse tag).mxWaits = t.mxWaits := rfl
@[simp] theorem Thread.ringRefuse_rot (t : Thread) (tag : Nat) : (t.ringRefuse tag).rot = t.rot := rfl
@[simp] theorem Thread.ringRefuse_lost (t : Thread) (tag : Nat) : (t.ringRefuse tag).lost = t.lost := rfl
@[simp] theorem Thread.ringEret_mode (t : Thread) : (t.ringEret).mode = t.mode := rfl
@[simp] theorem Thread.ringEret_w (t : Thread) : (t.ringEret).w = t.w := rfl
@[simp] theorem Thread.ringEret_q (t : Thread) : (t.ringEret).q = t.q := rfl
@[simp] theorem Thread.ringEret_p (t : Thread) : (t.ringEret).p = t.p := rfl
@[simp] theorem Thread.ringEret_x (t : Thread) : (t.ringEret).x = t.x := rfl
@[simp] theorem Thread.ringEret_pc (t : Thread) : (t.ringEret).pc = t.pc := rfl
@[simp] theorem Thread.ringEret_op (t : Thread) : (t.ringEret).op = t.op := rfl
@[simp] theorem Thread.ringEret_rp (t : Thread) : (t.ringEret).rp = t.rp := rfl
@[simp] theorem Thread.ringEret_fence (t : Thread) : (t.ringEret).fence = t.fence := rfl
@[simp] theorem Thread.ringEret_poison (t : Thread) : (t.ringEret).poison = t.poison := rfl
@[simp] theorem Thread.ringEret_np (t : Thread) : (t.ringEret).np = t.np := rfl
@[simp] theorem Thread.ringEret_cause4 (t : Thread) : (t.ringEret).cause4 = t.cause4 := rfl
@[simp] theorem Thread.ringEret_headLost (t : Thread) : (t.ringEret).headLost = t.headLost := rfl
@[simp] theorem Thread.ringEret_cr (t : Thread) : (t.ringEret).cr = t.cr := rfl
@[simp] theorem Thread.ringEret_flight (t : Thread) : (t.ringEret).flight = t.flight := rfl
@[simp] theorem Thread.ringEret_owed (t : Thread) : (t.ringEret).owed = t.owed := rfl
@[simp] theorem Thread.ringEret_psq (t : Thread) : (t.ringEret).psq = t.psq := rfl
@[simp] theorem Thread.ringEret_counted (t : Thread) : (t.ringEret).counted = t.counted := rfl
@[simp] theorem Thread.ringEret_ring (t : Thread) : (t.ringEret).ring = t.ring.filter (fun e => !e.refused) := rfl
@[simp] theorem Thread.ringEret_resv (t : Thread) : (t.ringEret).resv = t.resv := rfl
@[simp] theorem Thread.ringEret_floor (t : Thread) : (t.ringEret).floor = t.floor := rfl
@[simp] theorem Thread.ringEret_relReads (t : Thread) : (t.ringEret).relReads = t.relReads := rfl
@[simp] theorem Thread.ringEret_relMark (t : Thread) : (t.ringEret).relMark = t.relMark := rfl
@[simp] theorem Thread.ringEret_arrivals (t : Thread) : (t.ringEret).arrivals = t.arrivals := rfl
@[simp] theorem Thread.ringEret_seqr (t : Thread) : (t.ringEret).seqr = t.seqr := rfl
@[simp] theorem Thread.ringEret_faults (t : Thread) : (t.ringEret).faults = t.faults := rfl
@[simp] theorem Thread.ringEret_sysint (t : Thread) : (t.ringEret).sysint = t.sysint := rfl
@[simp] theorem Thread.ringEret_msgint (t : Thread) : (t.ringEret).msgint = t.msgint := rfl
@[simp] theorem Thread.ringEret_expiry (t : Thread) : (t.ringEret).expiry = t.expiry := rfl
@[simp] theorem Thread.ringEret_uints (t : Thread) : (t.ringEret).uints = t.uints := rfl
@[simp] theorem Thread.ringEret_ucur (t : Thread) : (t.ringEret).ucur = t.ucur := rfl
@[simp] theorem Thread.ringEret_shadow (t : Thread) : (t.ringEret).shadow = t.shadow := rfl
@[simp] theorem Thread.ringEret_areaUse (t : Thread) : (t.ringEret).areaUse = t.areaUse := rfl
@[simp] theorem Thread.ringEret_areaOld (t : Thread) : (t.ringEret).areaOld = t.areaOld := rfl
@[simp] theorem Thread.ringEret_late (t : Thread) : (t.ringEret).late = t.late := rfl
@[simp] theorem Thread.ringEret_wordPc (t : Thread) : (t.ringEret).wordPc = t.wordPc := rfl
@[simp] theorem Thread.ringEret_reissue (t : Thread) : (t.ringEret).reissue = t.reissue := rfl
@[simp] theorem Thread.ringEret_sAfter (t : Thread) : (t.ringEret).sAfter = t.sAfter := rfl
@[simp] theorem Thread.ringEret_held (t : Thread) : (t.ringEret).held = t.held := rfl
@[simp] theorem Thread.ringEret_miss (t : Thread) : (t.ringEret).miss = t.miss := rfl
@[simp] theorem Thread.ringEret_stop (t : Thread) : (t.ringEret).stop = t.stop := rfl
@[simp] theorem Thread.ringEret_task (t : Thread) : (t.ringEret).task = t.task := rfl
@[simp] theorem Thread.ringEret_ntask (t : Thread) : (t.ringEret).ntask = t.ntask := rfl
@[simp] theorem Thread.ringEret_stride (t : Thread) : (t.ringEret).stride = t.stride := rfl
@[simp] theorem Thread.ringEret_dispatched (t : Thread) : (t.ringEret).dispatched = t.dispatched := rfl
@[simp] theorem Thread.ringEret_mxOpen (t : Thread) : (t.ringEret).mxOpen = t.mxOpen := rfl
@[simp] theorem Thread.ringEret_mxWaits (t : Thread) : (t.ringEret).mxWaits = t.mxWaits := rfl
@[simp] theorem Thread.ringEret_rot (t : Thread) : (t.ringEret).rot = t.rot := rfl
@[simp] theorem Thread.ringEret_lost (t : Thread) : (t.ringEret).lost = t.lost := rfl
@[simp] theorem Thread.send_mode (t : Thread) (tag lat : Nat) (ports : List RPort) (vals : Option (List PortVal)) (flags : Option (BitVec 6 × Bool)) : (t.send tag lat ports vals flags).mode = t.mode := rfl
@[simp] theorem Thread.send_w (t : Thread) (tag lat : Nat) (ports : List RPort) (vals : Option (List PortVal)) (flags : Option (BitVec 6 × Bool)) : (t.send tag lat ports vals flags).w = t.w := rfl
@[simp] theorem Thread.send_q (t : Thread) (tag lat : Nat) (ports : List RPort) (vals : Option (List PortVal)) (flags : Option (BitVec 6 × Bool)) : (t.send tag lat ports vals flags).q = t.q := rfl
@[simp] theorem Thread.send_p (t : Thread) (tag lat : Nat) (ports : List RPort) (vals : Option (List PortVal)) (flags : Option (BitVec 6 × Bool)) : (t.send tag lat ports vals flags).p = t.p := rfl
@[simp] theorem Thread.send_x (t : Thread) (tag lat : Nat) (ports : List RPort) (vals : Option (List PortVal)) (flags : Option (BitVec 6 × Bool)) : (t.send tag lat ports vals flags).x = t.x := rfl
@[simp] theorem Thread.send_pc (t : Thread) (tag lat : Nat) (ports : List RPort) (vals : Option (List PortVal)) (flags : Option (BitVec 6 × Bool)) : (t.send tag lat ports vals flags).pc = t.pc := rfl
@[simp] theorem Thread.send_op (t : Thread) (tag lat : Nat) (ports : List RPort) (vals : Option (List PortVal)) (flags : Option (BitVec 6 × Bool)) : (t.send tag lat ports vals flags).op = t.op := rfl
@[simp] theorem Thread.send_rp (t : Thread) (tag lat : Nat) (ports : List RPort) (vals : Option (List PortVal)) (flags : Option (BitVec 6 × Bool)) : (t.send tag lat ports vals flags).rp = t.rp := rfl
@[simp] theorem Thread.send_fence (t : Thread) (tag lat : Nat) (ports : List RPort) (vals : Option (List PortVal)) (flags : Option (BitVec 6 × Bool)) : (t.send tag lat ports vals flags).fence = t.fence := rfl
@[simp] theorem Thread.send_poison (t : Thread) (tag lat : Nat) (ports : List RPort) (vals : Option (List PortVal)) (flags : Option (BitVec 6 × Bool)) : (t.send tag lat ports vals flags).poison = t.poison := rfl
@[simp] theorem Thread.send_np (t : Thread) (tag lat : Nat) (ports : List RPort) (vals : Option (List PortVal)) (flags : Option (BitVec 6 × Bool)) : (t.send tag lat ports vals flags).np = t.np := rfl
@[simp] theorem Thread.send_cause4 (t : Thread) (tag lat : Nat) (ports : List RPort) (vals : Option (List PortVal)) (flags : Option (BitVec 6 × Bool)) : (t.send tag lat ports vals flags).cause4 = t.cause4 := rfl
@[simp] theorem Thread.send_headLost (t : Thread) (tag lat : Nat) (ports : List RPort) (vals : Option (List PortVal)) (flags : Option (BitVec 6 × Bool)) : (t.send tag lat ports vals flags).headLost = t.headLost := rfl
@[simp] theorem Thread.send_cr (t : Thread) (tag lat : Nat) (ports : List RPort) (vals : Option (List PortVal)) (flags : Option (BitVec 6 × Bool)) : (t.send tag lat ports vals flags).cr = t.cr := rfl
@[simp] theorem Thread.send_flight (t : Thread) (tag lat : Nat) (ports : List RPort) (vals : Option (List PortVal)) (flags : Option (BitVec 6 × Bool)) : (t.send tag lat ports vals flags).flight = t.flight ++ [{ due := t.rot + lat, tag, ports, vals, flags }] := rfl
@[simp] theorem Thread.send_owed (t : Thread) (tag lat : Nat) (ports : List RPort) (vals : Option (List PortVal)) (flags : Option (BitVec 6 × Bool)) : (t.send tag lat ports vals flags).owed = t.owed := rfl
@[simp] theorem Thread.send_psq (t : Thread) (tag lat : Nat) (ports : List RPort) (vals : Option (List PortVal)) (flags : Option (BitVec 6 × Bool)) : (t.send tag lat ports vals flags).psq = t.psq := rfl
@[simp] theorem Thread.send_counted (t : Thread) (tag lat : Nat) (ports : List RPort) (vals : Option (List PortVal)) (flags : Option (BitVec 6 × Bool)) : (t.send tag lat ports vals flags).counted = t.counted := rfl
@[simp] theorem Thread.send_ring (t : Thread) (tag lat : Nat) (ports : List RPort) (vals : Option (List PortVal)) (flags : Option (BitVec 6 × Bool)) : (t.send tag lat ports vals flags).ring = t.ring := rfl
@[simp] theorem Thread.send_resv (t : Thread) (tag lat : Nat) (ports : List RPort) (vals : Option (List PortVal)) (flags : Option (BitVec 6 × Bool)) : (t.send tag lat ports vals flags).resv = t.resv := rfl
@[simp] theorem Thread.send_floor (t : Thread) (tag lat : Nat) (ports : List RPort) (vals : Option (List PortVal)) (flags : Option (BitVec 6 × Bool)) : (t.send tag lat ports vals flags).floor = t.floor := rfl
@[simp] theorem Thread.send_relReads (t : Thread) (tag lat : Nat) (ports : List RPort) (vals : Option (List PortVal)) (flags : Option (BitVec 6 × Bool)) : (t.send tag lat ports vals flags).relReads = t.relReads := rfl
@[simp] theorem Thread.send_relMark (t : Thread) (tag lat : Nat) (ports : List RPort) (vals : Option (List PortVal)) (flags : Option (BitVec 6 × Bool)) : (t.send tag lat ports vals flags).relMark = t.relMark := rfl
@[simp] theorem Thread.send_arrivals (t : Thread) (tag lat : Nat) (ports : List RPort) (vals : Option (List PortVal)) (flags : Option (BitVec 6 × Bool)) : (t.send tag lat ports vals flags).arrivals = t.arrivals := rfl
@[simp] theorem Thread.send_seqr (t : Thread) (tag lat : Nat) (ports : List RPort) (vals : Option (List PortVal)) (flags : Option (BitVec 6 × Bool)) : (t.send tag lat ports vals flags).seqr = t.seqr := rfl
@[simp] theorem Thread.send_faults (t : Thread) (tag lat : Nat) (ports : List RPort) (vals : Option (List PortVal)) (flags : Option (BitVec 6 × Bool)) : (t.send tag lat ports vals flags).faults = t.faults := rfl
@[simp] theorem Thread.send_sysint (t : Thread) (tag lat : Nat) (ports : List RPort) (vals : Option (List PortVal)) (flags : Option (BitVec 6 × Bool)) : (t.send tag lat ports vals flags).sysint = t.sysint := rfl
@[simp] theorem Thread.send_msgint (t : Thread) (tag lat : Nat) (ports : List RPort) (vals : Option (List PortVal)) (flags : Option (BitVec 6 × Bool)) : (t.send tag lat ports vals flags).msgint = t.msgint := rfl
@[simp] theorem Thread.send_expiry (t : Thread) (tag lat : Nat) (ports : List RPort) (vals : Option (List PortVal)) (flags : Option (BitVec 6 × Bool)) : (t.send tag lat ports vals flags).expiry = t.expiry := rfl
@[simp] theorem Thread.send_uints (t : Thread) (tag lat : Nat) (ports : List RPort) (vals : Option (List PortVal)) (flags : Option (BitVec 6 × Bool)) : (t.send tag lat ports vals flags).uints = t.uints := rfl
@[simp] theorem Thread.send_ucur (t : Thread) (tag lat : Nat) (ports : List RPort) (vals : Option (List PortVal)) (flags : Option (BitVec 6 × Bool)) : (t.send tag lat ports vals flags).ucur = t.ucur := rfl
@[simp] theorem Thread.send_shadow (t : Thread) (tag lat : Nat) (ports : List RPort) (vals : Option (List PortVal)) (flags : Option (BitVec 6 × Bool)) : (t.send tag lat ports vals flags).shadow = t.shadow := rfl
@[simp] theorem Thread.send_areaUse (t : Thread) (tag lat : Nat) (ports : List RPort) (vals : Option (List PortVal)) (flags : Option (BitVec 6 × Bool)) : (t.send tag lat ports vals flags).areaUse = t.areaUse := rfl
@[simp] theorem Thread.send_areaOld (t : Thread) (tag lat : Nat) (ports : List RPort) (vals : Option (List PortVal)) (flags : Option (BitVec 6 × Bool)) : (t.send tag lat ports vals flags).areaOld = t.areaOld := rfl
@[simp] theorem Thread.send_late (t : Thread) (tag lat : Nat) (ports : List RPort) (vals : Option (List PortVal)) (flags : Option (BitVec 6 × Bool)) : (t.send tag lat ports vals flags).late = t.late := rfl
@[simp] theorem Thread.send_wordPc (t : Thread) (tag lat : Nat) (ports : List RPort) (vals : Option (List PortVal)) (flags : Option (BitVec 6 × Bool)) : (t.send tag lat ports vals flags).wordPc = t.wordPc := rfl
@[simp] theorem Thread.send_reissue (t : Thread) (tag lat : Nat) (ports : List RPort) (vals : Option (List PortVal)) (flags : Option (BitVec 6 × Bool)) : (t.send tag lat ports vals flags).reissue = t.reissue := rfl
@[simp] theorem Thread.send_sAfter (t : Thread) (tag lat : Nat) (ports : List RPort) (vals : Option (List PortVal)) (flags : Option (BitVec 6 × Bool)) : (t.send tag lat ports vals flags).sAfter = t.sAfter := rfl
@[simp] theorem Thread.send_held (t : Thread) (tag lat : Nat) (ports : List RPort) (vals : Option (List PortVal)) (flags : Option (BitVec 6 × Bool)) : (t.send tag lat ports vals flags).held = t.held := rfl
@[simp] theorem Thread.send_miss (t : Thread) (tag lat : Nat) (ports : List RPort) (vals : Option (List PortVal)) (flags : Option (BitVec 6 × Bool)) : (t.send tag lat ports vals flags).miss = t.miss := rfl
@[simp] theorem Thread.send_stop (t : Thread) (tag lat : Nat) (ports : List RPort) (vals : Option (List PortVal)) (flags : Option (BitVec 6 × Bool)) : (t.send tag lat ports vals flags).stop = t.stop := rfl
@[simp] theorem Thread.send_task (t : Thread) (tag lat : Nat) (ports : List RPort) (vals : Option (List PortVal)) (flags : Option (BitVec 6 × Bool)) : (t.send tag lat ports vals flags).task = t.task := rfl
@[simp] theorem Thread.send_ntask (t : Thread) (tag lat : Nat) (ports : List RPort) (vals : Option (List PortVal)) (flags : Option (BitVec 6 × Bool)) : (t.send tag lat ports vals flags).ntask = t.ntask := rfl
@[simp] theorem Thread.send_stride (t : Thread) (tag lat : Nat) (ports : List RPort) (vals : Option (List PortVal)) (flags : Option (BitVec 6 × Bool)) : (t.send tag lat ports vals flags).stride = t.stride := rfl
@[simp] theorem Thread.send_dispatched (t : Thread) (tag lat : Nat) (ports : List RPort) (vals : Option (List PortVal)) (flags : Option (BitVec 6 × Bool)) : (t.send tag lat ports vals flags).dispatched = t.dispatched := rfl
@[simp] theorem Thread.send_mxOpen (t : Thread) (tag lat : Nat) (ports : List RPort) (vals : Option (List PortVal)) (flags : Option (BitVec 6 × Bool)) : (t.send tag lat ports vals flags).mxOpen = t.mxOpen := rfl
@[simp] theorem Thread.send_mxWaits (t : Thread) (tag lat : Nat) (ports : List RPort) (vals : Option (List PortVal)) (flags : Option (BitVec 6 × Bool)) : (t.send tag lat ports vals flags).mxWaits = t.mxWaits := rfl
@[simp] theorem Thread.send_rot (t : Thread) (tag lat : Nat) (ports : List RPort) (vals : Option (List PortVal)) (flags : Option (BitVec 6 × Bool)) : (t.send tag lat ports vals flags).rot = t.rot := rfl
@[simp] theorem Thread.send_lost (t : Thread) (tag lat : Nat) (ports : List RPort) (vals : Option (List PortVal)) (flags : Option (BitVec 6 × Bool)) : (t.send tag lat ports vals flags).lost = t.lost := rfl
@[simp] theorem Thread.owe_mode (t : Thread) (tag : Nat) (ports : List RPort) (load : Bool) (read : Option ReadSpec) : (t.owe tag ports load read).mode = t.mode := rfl
@[simp] theorem Thread.owe_w (t : Thread) (tag : Nat) (ports : List RPort) (load : Bool) (read : Option ReadSpec) : (t.owe tag ports load read).w = t.w := rfl
@[simp] theorem Thread.owe_q (t : Thread) (tag : Nat) (ports : List RPort) (load : Bool) (read : Option ReadSpec) : (t.owe tag ports load read).q = t.q := rfl
@[simp] theorem Thread.owe_p (t : Thread) (tag : Nat) (ports : List RPort) (load : Bool) (read : Option ReadSpec) : (t.owe tag ports load read).p = t.p := rfl
@[simp] theorem Thread.owe_x (t : Thread) (tag : Nat) (ports : List RPort) (load : Bool) (read : Option ReadSpec) : (t.owe tag ports load read).x = t.x := rfl
@[simp] theorem Thread.owe_pc (t : Thread) (tag : Nat) (ports : List RPort) (load : Bool) (read : Option ReadSpec) : (t.owe tag ports load read).pc = t.pc := rfl
@[simp] theorem Thread.owe_op (t : Thread) (tag : Nat) (ports : List RPort) (load : Bool) (read : Option ReadSpec) : (t.owe tag ports load read).op = t.op := rfl
@[simp] theorem Thread.owe_rp (t : Thread) (tag : Nat) (ports : List RPort) (load : Bool) (read : Option ReadSpec) : (t.owe tag ports load read).rp = t.rp := rfl
@[simp] theorem Thread.owe_fence (t : Thread) (tag : Nat) (ports : List RPort) (load : Bool) (read : Option ReadSpec) : (t.owe tag ports load read).fence = ports.foldl (fun f p => f ||| (1#26 <<< p.fin.val)) t.fence := rfl
@[simp] theorem Thread.owe_poison (t : Thread) (tag : Nat) (ports : List RPort) (load : Bool) (read : Option ReadSpec) : (t.owe tag ports load read).poison = t.poison := rfl
@[simp] theorem Thread.owe_np (t : Thread) (tag : Nat) (ports : List RPort) (load : Bool) (read : Option ReadSpec) : (t.owe tag ports load read).np = t.np := rfl
@[simp] theorem Thread.owe_cause4 (t : Thread) (tag : Nat) (ports : List RPort) (load : Bool) (read : Option ReadSpec) : (t.owe tag ports load read).cause4 = t.cause4 := rfl
@[simp] theorem Thread.owe_headLost (t : Thread) (tag : Nat) (ports : List RPort) (load : Bool) (read : Option ReadSpec) : (t.owe tag ports load read).headLost = t.headLost := rfl
@[simp] theorem Thread.owe_cr (t : Thread) (tag : Nat) (ports : List RPort) (load : Bool) (read : Option ReadSpec) : (t.owe tag ports load read).cr = t.cr := rfl
@[simp] theorem Thread.owe_flight (t : Thread) (tag : Nat) (ports : List RPort) (load : Bool) (read : Option ReadSpec) : (t.owe tag ports load read).flight = t.flight := rfl
@[simp] theorem Thread.owe_owed (t : Thread) (tag : Nat) (ports : List RPort) (load : Bool) (read : Option ReadSpec) : (t.owe tag ports load read).owed = t.owed ++ [{ tag, ports, area := t.areaUse, load, read, vals := none, flags := none, work := [], rels := [], marked := true }] := rfl
@[simp] theorem Thread.owe_psq (t : Thread) (tag : Nat) (ports : List RPort) (load : Bool) (read : Option ReadSpec) : (t.owe tag ports load read).psq = t.psq := rfl
@[simp] theorem Thread.owe_counted (t : Thread) (tag : Nat) (ports : List RPort) (load : Bool) (read : Option ReadSpec) : (t.owe tag ports load read).counted = t.counted := rfl
@[simp] theorem Thread.owe_ring (t : Thread) (tag : Nat) (ports : List RPort) (load : Bool) (read : Option ReadSpec) : (t.owe tag ports load read).ring = t.ring := rfl
@[simp] theorem Thread.owe_resv (t : Thread) (tag : Nat) (ports : List RPort) (load : Bool) (read : Option ReadSpec) : (t.owe tag ports load read).resv = t.resv := rfl
@[simp] theorem Thread.owe_floor (t : Thread) (tag : Nat) (ports : List RPort) (load : Bool) (read : Option ReadSpec) : (t.owe tag ports load read).floor = t.floor := rfl
@[simp] theorem Thread.owe_relReads (t : Thread) (tag : Nat) (ports : List RPort) (load : Bool) (read : Option ReadSpec) : (t.owe tag ports load read).relReads = t.relReads := rfl
@[simp] theorem Thread.owe_relMark (t : Thread) (tag : Nat) (ports : List RPort) (load : Bool) (read : Option ReadSpec) : (t.owe tag ports load read).relMark = t.relMark := rfl
@[simp] theorem Thread.owe_arrivals (t : Thread) (tag : Nat) (ports : List RPort) (load : Bool) (read : Option ReadSpec) : (t.owe tag ports load read).arrivals = t.arrivals := rfl
@[simp] theorem Thread.owe_seqr (t : Thread) (tag : Nat) (ports : List RPort) (load : Bool) (read : Option ReadSpec) : (t.owe tag ports load read).seqr = t.seqr := rfl
@[simp] theorem Thread.owe_faults (t : Thread) (tag : Nat) (ports : List RPort) (load : Bool) (read : Option ReadSpec) : (t.owe tag ports load read).faults = t.faults := rfl
@[simp] theorem Thread.owe_sysint (t : Thread) (tag : Nat) (ports : List RPort) (load : Bool) (read : Option ReadSpec) : (t.owe tag ports load read).sysint = t.sysint := rfl
@[simp] theorem Thread.owe_msgint (t : Thread) (tag : Nat) (ports : List RPort) (load : Bool) (read : Option ReadSpec) : (t.owe tag ports load read).msgint = t.msgint := rfl
@[simp] theorem Thread.owe_expiry (t : Thread) (tag : Nat) (ports : List RPort) (load : Bool) (read : Option ReadSpec) : (t.owe tag ports load read).expiry = t.expiry := rfl
@[simp] theorem Thread.owe_uints (t : Thread) (tag : Nat) (ports : List RPort) (load : Bool) (read : Option ReadSpec) : (t.owe tag ports load read).uints = t.uints := rfl
@[simp] theorem Thread.owe_ucur (t : Thread) (tag : Nat) (ports : List RPort) (load : Bool) (read : Option ReadSpec) : (t.owe tag ports load read).ucur = t.ucur := rfl
@[simp] theorem Thread.owe_shadow (t : Thread) (tag : Nat) (ports : List RPort) (load : Bool) (read : Option ReadSpec) : (t.owe tag ports load read).shadow = t.shadow := rfl
@[simp] theorem Thread.owe_areaUse (t : Thread) (tag : Nat) (ports : List RPort) (load : Bool) (read : Option ReadSpec) : (t.owe tag ports load read).areaUse = t.areaUse := rfl
@[simp] theorem Thread.owe_areaOld (t : Thread) (tag : Nat) (ports : List RPort) (load : Bool) (read : Option ReadSpec) : (t.owe tag ports load read).areaOld = t.areaOld := rfl
@[simp] theorem Thread.owe_late (t : Thread) (tag : Nat) (ports : List RPort) (load : Bool) (read : Option ReadSpec) : (t.owe tag ports load read).late = t.late := rfl
@[simp] theorem Thread.owe_wordPc (t : Thread) (tag : Nat) (ports : List RPort) (load : Bool) (read : Option ReadSpec) : (t.owe tag ports load read).wordPc = t.wordPc := rfl
@[simp] theorem Thread.owe_reissue (t : Thread) (tag : Nat) (ports : List RPort) (load : Bool) (read : Option ReadSpec) : (t.owe tag ports load read).reissue = t.reissue := rfl
@[simp] theorem Thread.owe_sAfter (t : Thread) (tag : Nat) (ports : List RPort) (load : Bool) (read : Option ReadSpec) : (t.owe tag ports load read).sAfter = t.sAfter := rfl
@[simp] theorem Thread.owe_held (t : Thread) (tag : Nat) (ports : List RPort) (load : Bool) (read : Option ReadSpec) : (t.owe tag ports load read).held = t.held := rfl
@[simp] theorem Thread.owe_miss (t : Thread) (tag : Nat) (ports : List RPort) (load : Bool) (read : Option ReadSpec) : (t.owe tag ports load read).miss = t.miss := rfl
@[simp] theorem Thread.owe_stop (t : Thread) (tag : Nat) (ports : List RPort) (load : Bool) (read : Option ReadSpec) : (t.owe tag ports load read).stop = t.stop := rfl
@[simp] theorem Thread.owe_task (t : Thread) (tag : Nat) (ports : List RPort) (load : Bool) (read : Option ReadSpec) : (t.owe tag ports load read).task = t.task := rfl
@[simp] theorem Thread.owe_ntask (t : Thread) (tag : Nat) (ports : List RPort) (load : Bool) (read : Option ReadSpec) : (t.owe tag ports load read).ntask = t.ntask := rfl
@[simp] theorem Thread.owe_stride (t : Thread) (tag : Nat) (ports : List RPort) (load : Bool) (read : Option ReadSpec) : (t.owe tag ports load read).stride = t.stride := rfl
@[simp] theorem Thread.owe_dispatched (t : Thread) (tag : Nat) (ports : List RPort) (load : Bool) (read : Option ReadSpec) : (t.owe tag ports load read).dispatched = t.dispatched := rfl
@[simp] theorem Thread.owe_mxOpen (t : Thread) (tag : Nat) (ports : List RPort) (load : Bool) (read : Option ReadSpec) : (t.owe tag ports load read).mxOpen = t.mxOpen := rfl
@[simp] theorem Thread.owe_mxWaits (t : Thread) (tag : Nat) (ports : List RPort) (load : Bool) (read : Option ReadSpec) : (t.owe tag ports load read).mxWaits = t.mxWaits := rfl
@[simp] theorem Thread.owe_rot (t : Thread) (tag : Nat) (ports : List RPort) (load : Bool) (read : Option ReadSpec) : (t.owe tag ports load read).rot = t.rot := rfl
@[simp] theorem Thread.owe_lost (t : Thread) (tag : Nat) (ports : List RPort) (load : Bool) (read : Option ReadSpec) : (t.owe tag ports load read).lost = t.lost := rfl
@[simp] theorem Thread.unowe_mode (t : Thread) (tag : Nat) : (t.unowe tag).mode = t.mode := rfl
@[simp] theorem Thread.unowe_w (t : Thread) (tag : Nat) : (t.unowe tag).w = t.w := rfl
@[simp] theorem Thread.unowe_q (t : Thread) (tag : Nat) : (t.unowe tag).q = t.q := rfl
@[simp] theorem Thread.unowe_p (t : Thread) (tag : Nat) : (t.unowe tag).p = t.p := rfl
@[simp] theorem Thread.unowe_x (t : Thread) (tag : Nat) : (t.unowe tag).x = t.x := rfl
@[simp] theorem Thread.unowe_pc (t : Thread) (tag : Nat) : (t.unowe tag).pc = t.pc := rfl
@[simp] theorem Thread.unowe_op (t : Thread) (tag : Nat) : (t.unowe tag).op = t.op := rfl
@[simp] theorem Thread.unowe_rp (t : Thread) (tag : Nat) : (t.unowe tag).rp = t.rp := rfl
@[simp] theorem Thread.unowe_fence (t : Thread) (tag : Nat) : (t.unowe tag).fence = t.fence := rfl
@[simp] theorem Thread.unowe_poison (t : Thread) (tag : Nat) : (t.unowe tag).poison = t.poison := rfl
@[simp] theorem Thread.unowe_np (t : Thread) (tag : Nat) : (t.unowe tag).np = t.np := rfl
@[simp] theorem Thread.unowe_cause4 (t : Thread) (tag : Nat) : (t.unowe tag).cause4 = t.cause4 := rfl
@[simp] theorem Thread.unowe_headLost (t : Thread) (tag : Nat) : (t.unowe tag).headLost = t.headLost := rfl
@[simp] theorem Thread.unowe_cr (t : Thread) (tag : Nat) : (t.unowe tag).cr = t.cr := rfl
@[simp] theorem Thread.unowe_flight (t : Thread) (tag : Nat) : (t.unowe tag).flight = t.flight := rfl
@[simp] theorem Thread.unowe_owed (t : Thread) (tag : Nat) : (t.unowe tag).owed = t.owed.filter (fun o => o.tag != tag) := rfl
@[simp] theorem Thread.unowe_psq (t : Thread) (tag : Nat) : (t.unowe tag).psq = t.psq := rfl
@[simp] theorem Thread.unowe_counted (t : Thread) (tag : Nat) : (t.unowe tag).counted = t.counted := rfl
@[simp] theorem Thread.unowe_ring (t : Thread) (tag : Nat) : (t.unowe tag).ring = t.ring := rfl
@[simp] theorem Thread.unowe_resv (t : Thread) (tag : Nat) : (t.unowe tag).resv = t.resv := rfl
@[simp] theorem Thread.unowe_floor (t : Thread) (tag : Nat) : (t.unowe tag).floor = t.floor := rfl
@[simp] theorem Thread.unowe_relReads (t : Thread) (tag : Nat) : (t.unowe tag).relReads = t.relReads := rfl
@[simp] theorem Thread.unowe_relMark (t : Thread) (tag : Nat) : (t.unowe tag).relMark = t.relMark := rfl
@[simp] theorem Thread.unowe_arrivals (t : Thread) (tag : Nat) : (t.unowe tag).arrivals = t.arrivals := rfl
@[simp] theorem Thread.unowe_seqr (t : Thread) (tag : Nat) : (t.unowe tag).seqr = t.seqr := rfl
@[simp] theorem Thread.unowe_faults (t : Thread) (tag : Nat) : (t.unowe tag).faults = t.faults := rfl
@[simp] theorem Thread.unowe_sysint (t : Thread) (tag : Nat) : (t.unowe tag).sysint = t.sysint := rfl
@[simp] theorem Thread.unowe_msgint (t : Thread) (tag : Nat) : (t.unowe tag).msgint = t.msgint := rfl
@[simp] theorem Thread.unowe_expiry (t : Thread) (tag : Nat) : (t.unowe tag).expiry = t.expiry := rfl
@[simp] theorem Thread.unowe_uints (t : Thread) (tag : Nat) : (t.unowe tag).uints = t.uints := rfl
@[simp] theorem Thread.unowe_ucur (t : Thread) (tag : Nat) : (t.unowe tag).ucur = t.ucur := rfl
@[simp] theorem Thread.unowe_shadow (t : Thread) (tag : Nat) : (t.unowe tag).shadow = t.shadow := rfl
@[simp] theorem Thread.unowe_areaUse (t : Thread) (tag : Nat) : (t.unowe tag).areaUse = t.areaUse := rfl
@[simp] theorem Thread.unowe_areaOld (t : Thread) (tag : Nat) : (t.unowe tag).areaOld = t.areaOld := rfl
@[simp] theorem Thread.unowe_late (t : Thread) (tag : Nat) : (t.unowe tag).late = t.late := rfl
@[simp] theorem Thread.unowe_wordPc (t : Thread) (tag : Nat) : (t.unowe tag).wordPc = t.wordPc := rfl
@[simp] theorem Thread.unowe_reissue (t : Thread) (tag : Nat) : (t.unowe tag).reissue = t.reissue := rfl
@[simp] theorem Thread.unowe_sAfter (t : Thread) (tag : Nat) : (t.unowe tag).sAfter = t.sAfter := rfl
@[simp] theorem Thread.unowe_held (t : Thread) (tag : Nat) : (t.unowe tag).held = t.held := rfl
@[simp] theorem Thread.unowe_miss (t : Thread) (tag : Nat) : (t.unowe tag).miss = t.miss := rfl
@[simp] theorem Thread.unowe_stop (t : Thread) (tag : Nat) : (t.unowe tag).stop = t.stop := rfl
@[simp] theorem Thread.unowe_task (t : Thread) (tag : Nat) : (t.unowe tag).task = t.task := rfl
@[simp] theorem Thread.unowe_ntask (t : Thread) (tag : Nat) : (t.unowe tag).ntask = t.ntask := rfl
@[simp] theorem Thread.unowe_stride (t : Thread) (tag : Nat) : (t.unowe tag).stride = t.stride := rfl
@[simp] theorem Thread.unowe_dispatched (t : Thread) (tag : Nat) : (t.unowe tag).dispatched = t.dispatched := rfl
@[simp] theorem Thread.unowe_mxOpen (t : Thread) (tag : Nat) : (t.unowe tag).mxOpen = t.mxOpen := rfl
@[simp] theorem Thread.unowe_mxWaits (t : Thread) (tag : Nat) : (t.unowe tag).mxWaits = t.mxWaits := rfl
@[simp] theorem Thread.unowe_rot (t : Thread) (tag : Nat) : (t.unowe tag).rot = t.rot := rfl
@[simp] theorem Thread.unowe_lost (t : Thread) (tag : Nat) : (t.unowe tag).lost = t.lost := rfl
@[simp] theorem Thread.count_mode (t : Thread) (tag : Nat) (r : Reach) : (t.count tag r).mode = t.mode := rfl
@[simp] theorem Thread.count_w (t : Thread) (tag : Nat) (r : Reach) : (t.count tag r).w = t.w := rfl
@[simp] theorem Thread.count_q (t : Thread) (tag : Nat) (r : Reach) : (t.count tag r).q = t.q := rfl
@[simp] theorem Thread.count_p (t : Thread) (tag : Nat) (r : Reach) : (t.count tag r).p = t.p := rfl
@[simp] theorem Thread.count_x (t : Thread) (tag : Nat) (r : Reach) : (t.count tag r).x = t.x := rfl
@[simp] theorem Thread.count_pc (t : Thread) (tag : Nat) (r : Reach) : (t.count tag r).pc = t.pc := rfl
@[simp] theorem Thread.count_op (t : Thread) (tag : Nat) (r : Reach) : (t.count tag r).op = t.op := rfl
@[simp] theorem Thread.count_rp (t : Thread) (tag : Nat) (r : Reach) : (t.count tag r).rp = t.rp := rfl
@[simp] theorem Thread.count_fence (t : Thread) (tag : Nat) (r : Reach) : (t.count tag r).fence = t.fence := rfl
@[simp] theorem Thread.count_poison (t : Thread) (tag : Nat) (r : Reach) : (t.count tag r).poison = t.poison := rfl
@[simp] theorem Thread.count_np (t : Thread) (tag : Nat) (r : Reach) : (t.count tag r).np = t.np := rfl
@[simp] theorem Thread.count_cause4 (t : Thread) (tag : Nat) (r : Reach) : (t.count tag r).cause4 = t.cause4 := rfl
@[simp] theorem Thread.count_headLost (t : Thread) (tag : Nat) (r : Reach) : (t.count tag r).headLost = t.headLost := rfl
@[simp] theorem Thread.count_cr (t : Thread) (tag : Nat) (r : Reach) : (t.count tag r).cr = t.cr := rfl
@[simp] theorem Thread.count_flight (t : Thread) (tag : Nat) (r : Reach) : (t.count tag r).flight = t.flight := rfl
@[simp] theorem Thread.count_owed (t : Thread) (tag : Nat) (r : Reach) : (t.count tag r).owed = t.owed := rfl
@[simp] theorem Thread.count_psq (t : Thread) (tag : Nat) (r : Reach) : (t.count tag r).psq = t.psq := rfl
@[simp] theorem Thread.count_counted (t : Thread) (tag : Nat) (r : Reach) : (t.count tag r).counted = t.counted ++ [{ tag, reach := r, refused := false }] := rfl
@[simp] theorem Thread.count_ring (t : Thread) (tag : Nat) (r : Reach) : (t.count tag r).ring = t.ring := rfl
@[simp] theorem Thread.count_resv (t : Thread) (tag : Nat) (r : Reach) : (t.count tag r).resv = t.resv := rfl
@[simp] theorem Thread.count_floor (t : Thread) (tag : Nat) (r : Reach) : (t.count tag r).floor = t.floor := rfl
@[simp] theorem Thread.count_relReads (t : Thread) (tag : Nat) (r : Reach) : (t.count tag r).relReads = t.relReads := rfl
@[simp] theorem Thread.count_relMark (t : Thread) (tag : Nat) (r : Reach) : (t.count tag r).relMark = t.relMark := rfl
@[simp] theorem Thread.count_arrivals (t : Thread) (tag : Nat) (r : Reach) : (t.count tag r).arrivals = t.arrivals := rfl
@[simp] theorem Thread.count_seqr (t : Thread) (tag : Nat) (r : Reach) : (t.count tag r).seqr = t.seqr := rfl
@[simp] theorem Thread.count_faults (t : Thread) (tag : Nat) (r : Reach) : (t.count tag r).faults = t.faults := rfl
@[simp] theorem Thread.count_sysint (t : Thread) (tag : Nat) (r : Reach) : (t.count tag r).sysint = t.sysint := rfl
@[simp] theorem Thread.count_msgint (t : Thread) (tag : Nat) (r : Reach) : (t.count tag r).msgint = t.msgint := rfl
@[simp] theorem Thread.count_expiry (t : Thread) (tag : Nat) (r : Reach) : (t.count tag r).expiry = t.expiry := rfl
@[simp] theorem Thread.count_uints (t : Thread) (tag : Nat) (r : Reach) : (t.count tag r).uints = t.uints := rfl
@[simp] theorem Thread.count_ucur (t : Thread) (tag : Nat) (r : Reach) : (t.count tag r).ucur = t.ucur := rfl
@[simp] theorem Thread.count_shadow (t : Thread) (tag : Nat) (r : Reach) : (t.count tag r).shadow = t.shadow := rfl
@[simp] theorem Thread.count_areaUse (t : Thread) (tag : Nat) (r : Reach) : (t.count tag r).areaUse = t.areaUse := rfl
@[simp] theorem Thread.count_areaOld (t : Thread) (tag : Nat) (r : Reach) : (t.count tag r).areaOld = t.areaOld := rfl
@[simp] theorem Thread.count_late (t : Thread) (tag : Nat) (r : Reach) : (t.count tag r).late = t.late := rfl
@[simp] theorem Thread.count_wordPc (t : Thread) (tag : Nat) (r : Reach) : (t.count tag r).wordPc = t.wordPc := rfl
@[simp] theorem Thread.count_reissue (t : Thread) (tag : Nat) (r : Reach) : (t.count tag r).reissue = t.reissue := rfl
@[simp] theorem Thread.count_sAfter (t : Thread) (tag : Nat) (r : Reach) : (t.count tag r).sAfter = t.sAfter := rfl
@[simp] theorem Thread.count_held (t : Thread) (tag : Nat) (r : Reach) : (t.count tag r).held = t.held := rfl
@[simp] theorem Thread.count_miss (t : Thread) (tag : Nat) (r : Reach) : (t.count tag r).miss = t.miss := rfl
@[simp] theorem Thread.count_stop (t : Thread) (tag : Nat) (r : Reach) : (t.count tag r).stop = t.stop := rfl
@[simp] theorem Thread.count_task (t : Thread) (tag : Nat) (r : Reach) : (t.count tag r).task = t.task := rfl
@[simp] theorem Thread.count_ntask (t : Thread) (tag : Nat) (r : Reach) : (t.count tag r).ntask = t.ntask := rfl
@[simp] theorem Thread.count_stride (t : Thread) (tag : Nat) (r : Reach) : (t.count tag r).stride = t.stride := rfl
@[simp] theorem Thread.count_dispatched (t : Thread) (tag : Nat) (r : Reach) : (t.count tag r).dispatched = t.dispatched := rfl
@[simp] theorem Thread.count_mxOpen (t : Thread) (tag : Nat) (r : Reach) : (t.count tag r).mxOpen = t.mxOpen := rfl
@[simp] theorem Thread.count_mxWaits (t : Thread) (tag : Nat) (r : Reach) : (t.count tag r).mxWaits = t.mxWaits := rfl
@[simp] theorem Thread.count_rot (t : Thread) (tag : Nat) (r : Reach) : (t.count tag r).rot = t.rot := rfl
@[simp] theorem Thread.count_lost (t : Thread) (tag : Nat) (r : Reach) : (t.count tag r).lost = t.lost := rfl
@[simp] theorem Thread.addFault_mode (t : Thread) (seq : Nat) (c : Word) : (t.addFault seq c).mode = t.mode := rfl
@[simp] theorem Thread.addFault_w (t : Thread) (seq : Nat) (c : Word) : (t.addFault seq c).w = t.w := rfl
@[simp] theorem Thread.addFault_q (t : Thread) (seq : Nat) (c : Word) : (t.addFault seq c).q = t.q := rfl
@[simp] theorem Thread.addFault_p (t : Thread) (seq : Nat) (c : Word) : (t.addFault seq c).p = t.p := rfl
@[simp] theorem Thread.addFault_x (t : Thread) (seq : Nat) (c : Word) : (t.addFault seq c).x = t.x := rfl
@[simp] theorem Thread.addFault_pc (t : Thread) (seq : Nat) (c : Word) : (t.addFault seq c).pc = t.pc := rfl
@[simp] theorem Thread.addFault_op (t : Thread) (seq : Nat) (c : Word) : (t.addFault seq c).op = t.op := rfl
@[simp] theorem Thread.addFault_rp (t : Thread) (seq : Nat) (c : Word) : (t.addFault seq c).rp = t.rp := rfl
@[simp] theorem Thread.addFault_fence (t : Thread) (seq : Nat) (c : Word) : (t.addFault seq c).fence = t.fence := rfl
@[simp] theorem Thread.addFault_poison (t : Thread) (seq : Nat) (c : Word) : (t.addFault seq c).poison = t.poison := rfl
@[simp] theorem Thread.addFault_np (t : Thread) (seq : Nat) (c : Word) : (t.addFault seq c).np = t.np := rfl
@[simp] theorem Thread.addFault_cause4 (t : Thread) (seq : Nat) (c : Word) : (t.addFault seq c).cause4 = t.cause4 := rfl
@[simp] theorem Thread.addFault_headLost (t : Thread) (seq : Nat) (c : Word) : (t.addFault seq c).headLost = t.headLost := rfl
@[simp] theorem Thread.addFault_cr (t : Thread) (seq : Nat) (c : Word) : (t.addFault seq c).cr = t.cr := rfl
@[simp] theorem Thread.addFault_flight (t : Thread) (seq : Nat) (c : Word) : (t.addFault seq c).flight = t.flight := rfl
@[simp] theorem Thread.addFault_owed (t : Thread) (seq : Nat) (c : Word) : (t.addFault seq c).owed = t.owed := rfl
@[simp] theorem Thread.addFault_psq (t : Thread) (seq : Nat) (c : Word) : (t.addFault seq c).psq = t.psq := rfl
@[simp] theorem Thread.addFault_counted (t : Thread) (seq : Nat) (c : Word) : (t.addFault seq c).counted = t.counted := rfl
@[simp] theorem Thread.addFault_ring (t : Thread) (seq : Nat) (c : Word) : (t.addFault seq c).ring = t.ring := rfl
@[simp] theorem Thread.addFault_resv (t : Thread) (seq : Nat) (c : Word) : (t.addFault seq c).resv = t.resv := rfl
@[simp] theorem Thread.addFault_floor (t : Thread) (seq : Nat) (c : Word) : (t.addFault seq c).floor = t.floor := rfl
@[simp] theorem Thread.addFault_relReads (t : Thread) (seq : Nat) (c : Word) : (t.addFault seq c).relReads = t.relReads := rfl
@[simp] theorem Thread.addFault_relMark (t : Thread) (seq : Nat) (c : Word) : (t.addFault seq c).relMark = t.relMark := rfl
@[simp] theorem Thread.addFault_arrivals (t : Thread) (seq : Nat) (c : Word) : (t.addFault seq c).arrivals = t.arrivals := rfl
@[simp] theorem Thread.addFault_seqr (t : Thread) (seq : Nat) (c : Word) : (t.addFault seq c).seqr = t.seqr := rfl
@[simp] theorem Thread.addFault_faults (t : Thread) (seq : Nat) (c : Word) : (t.addFault seq c).faults = insFault t.faults (seq, c) := rfl
@[simp] theorem Thread.addFault_sysint (t : Thread) (seq : Nat) (c : Word) : (t.addFault seq c).sysint = t.sysint := rfl
@[simp] theorem Thread.addFault_msgint (t : Thread) (seq : Nat) (c : Word) : (t.addFault seq c).msgint = t.msgint := rfl
@[simp] theorem Thread.addFault_expiry (t : Thread) (seq : Nat) (c : Word) : (t.addFault seq c).expiry = t.expiry := rfl
@[simp] theorem Thread.addFault_uints (t : Thread) (seq : Nat) (c : Word) : (t.addFault seq c).uints = t.uints := rfl
@[simp] theorem Thread.addFault_ucur (t : Thread) (seq : Nat) (c : Word) : (t.addFault seq c).ucur = t.ucur := rfl
@[simp] theorem Thread.addFault_shadow (t : Thread) (seq : Nat) (c : Word) : (t.addFault seq c).shadow = t.shadow := rfl
@[simp] theorem Thread.addFault_areaUse (t : Thread) (seq : Nat) (c : Word) : (t.addFault seq c).areaUse = t.areaUse := rfl
@[simp] theorem Thread.addFault_areaOld (t : Thread) (seq : Nat) (c : Word) : (t.addFault seq c).areaOld = t.areaOld := rfl
@[simp] theorem Thread.addFault_late (t : Thread) (seq : Nat) (c : Word) : (t.addFault seq c).late = t.late := rfl
@[simp] theorem Thread.addFault_wordPc (t : Thread) (seq : Nat) (c : Word) : (t.addFault seq c).wordPc = t.wordPc := rfl
@[simp] theorem Thread.addFault_reissue (t : Thread) (seq : Nat) (c : Word) : (t.addFault seq c).reissue = t.reissue := rfl
@[simp] theorem Thread.addFault_sAfter (t : Thread) (seq : Nat) (c : Word) : (t.addFault seq c).sAfter = t.sAfter := rfl
@[simp] theorem Thread.addFault_held (t : Thread) (seq : Nat) (c : Word) : (t.addFault seq c).held = t.held := rfl
@[simp] theorem Thread.addFault_miss (t : Thread) (seq : Nat) (c : Word) : (t.addFault seq c).miss = t.miss := rfl
@[simp] theorem Thread.addFault_stop (t : Thread) (seq : Nat) (c : Word) : (t.addFault seq c).stop = t.stop := rfl
@[simp] theorem Thread.addFault_task (t : Thread) (seq : Nat) (c : Word) : (t.addFault seq c).task = t.task := rfl
@[simp] theorem Thread.addFault_ntask (t : Thread) (seq : Nat) (c : Word) : (t.addFault seq c).ntask = t.ntask := rfl
@[simp] theorem Thread.addFault_stride (t : Thread) (seq : Nat) (c : Word) : (t.addFault seq c).stride = t.stride := rfl
@[simp] theorem Thread.addFault_dispatched (t : Thread) (seq : Nat) (c : Word) : (t.addFault seq c).dispatched = t.dispatched := rfl
@[simp] theorem Thread.addFault_mxOpen (t : Thread) (seq : Nat) (c : Word) : (t.addFault seq c).mxOpen = t.mxOpen := rfl
@[simp] theorem Thread.addFault_mxWaits (t : Thread) (seq : Nat) (c : Word) : (t.addFault seq c).mxWaits = t.mxWaits := rfl
@[simp] theorem Thread.addFault_rot (t : Thread) (seq : Nat) (c : Word) : (t.addFault seq c).rot = t.rot := rfl
@[simp] theorem Thread.addFault_lost (t : Thread) (seq : Nat) (c : Word) : (t.addFault seq c).lost = t.lost := rfl
@[simp] theorem Thread.swapShadow_mode (t : Thread) : (t.swapShadow).mode = t.mode := rfl
@[simp] theorem Thread.swapShadow_q (t : Thread) : (t.swapShadow).q = t.q := rfl
@[simp] theorem Thread.swapShadow_p (t : Thread) : (t.swapShadow).p = t.p := rfl
@[simp] theorem Thread.swapShadow_x (t : Thread) : (t.swapShadow).x = t.x := rfl
@[simp] theorem Thread.swapShadow_pc (t : Thread) : (t.swapShadow).pc = t.pc := rfl
@[simp] theorem Thread.swapShadow_op (t : Thread) : (t.swapShadow).op = t.op := rfl
@[simp] theorem Thread.swapShadow_rp (t : Thread) : (t.swapShadow).rp = t.rp := rfl
@[simp] theorem Thread.swapShadow_fence (t : Thread) : (t.swapShadow).fence = t.fence := rfl
@[simp] theorem Thread.swapShadow_poison (t : Thread) : (t.swapShadow).poison = t.poison := rfl
@[simp] theorem Thread.swapShadow_np (t : Thread) : (t.swapShadow).np = t.np := rfl
@[simp] theorem Thread.swapShadow_cause4 (t : Thread) : (t.swapShadow).cause4 = t.cause4 := rfl
@[simp] theorem Thread.swapShadow_headLost (t : Thread) : (t.swapShadow).headLost = t.headLost := rfl
@[simp] theorem Thread.swapShadow_cr (t : Thread) : (t.swapShadow).cr = t.cr := rfl
@[simp] theorem Thread.swapShadow_flight (t : Thread) : (t.swapShadow).flight = t.flight := rfl
@[simp] theorem Thread.swapShadow_owed (t : Thread) : (t.swapShadow).owed = t.owed := rfl
@[simp] theorem Thread.swapShadow_psq (t : Thread) : (t.swapShadow).psq = t.psq := rfl
@[simp] theorem Thread.swapShadow_counted (t : Thread) : (t.swapShadow).counted = t.counted := rfl
@[simp] theorem Thread.swapShadow_ring (t : Thread) : (t.swapShadow).ring = t.ring := rfl
@[simp] theorem Thread.swapShadow_resv (t : Thread) : (t.swapShadow).resv = t.resv := rfl
@[simp] theorem Thread.swapShadow_floor (t : Thread) : (t.swapShadow).floor = t.floor := rfl
@[simp] theorem Thread.swapShadow_relReads (t : Thread) : (t.swapShadow).relReads = t.relReads := rfl
@[simp] theorem Thread.swapShadow_relMark (t : Thread) : (t.swapShadow).relMark = t.relMark := rfl
@[simp] theorem Thread.swapShadow_arrivals (t : Thread) : (t.swapShadow).arrivals = t.arrivals := rfl
@[simp] theorem Thread.swapShadow_seqr (t : Thread) : (t.swapShadow).seqr = t.seqr := rfl
@[simp] theorem Thread.swapShadow_faults (t : Thread) : (t.swapShadow).faults = t.faults := rfl
@[simp] theorem Thread.swapShadow_sysint (t : Thread) : (t.swapShadow).sysint = t.sysint := rfl
@[simp] theorem Thread.swapShadow_msgint (t : Thread) : (t.swapShadow).msgint = t.msgint := rfl
@[simp] theorem Thread.swapShadow_expiry (t : Thread) : (t.swapShadow).expiry = t.expiry := rfl
@[simp] theorem Thread.swapShadow_uints (t : Thread) : (t.swapShadow).uints = t.uints := rfl
@[simp] theorem Thread.swapShadow_ucur (t : Thread) : (t.swapShadow).ucur = t.ucur := rfl
@[simp] theorem Thread.swapShadow_areaUse (t : Thread) : (t.swapShadow).areaUse = t.areaUse := rfl
@[simp] theorem Thread.swapShadow_areaOld (t : Thread) : (t.swapShadow).areaOld = t.areaOld := rfl
@[simp] theorem Thread.swapShadow_late (t : Thread) : (t.swapShadow).late = t.late := rfl
@[simp] theorem Thread.swapShadow_wordPc (t : Thread) : (t.swapShadow).wordPc = t.wordPc := rfl
@[simp] theorem Thread.swapShadow_reissue (t : Thread) : (t.swapShadow).reissue = t.reissue := rfl
@[simp] theorem Thread.swapShadow_sAfter (t : Thread) : (t.swapShadow).sAfter = t.sAfter := rfl
@[simp] theorem Thread.swapShadow_held (t : Thread) : (t.swapShadow).held = t.held := rfl
@[simp] theorem Thread.swapShadow_miss (t : Thread) : (t.swapShadow).miss = t.miss := rfl
@[simp] theorem Thread.swapShadow_stop (t : Thread) : (t.swapShadow).stop = t.stop := rfl
@[simp] theorem Thread.swapShadow_task (t : Thread) : (t.swapShadow).task = t.task := rfl
@[simp] theorem Thread.swapShadow_ntask (t : Thread) : (t.swapShadow).ntask = t.ntask := rfl
@[simp] theorem Thread.swapShadow_stride (t : Thread) : (t.swapShadow).stride = t.stride := rfl
@[simp] theorem Thread.swapShadow_dispatched (t : Thread) : (t.swapShadow).dispatched = t.dispatched := rfl
@[simp] theorem Thread.swapShadow_mxOpen (t : Thread) : (t.swapShadow).mxOpen = t.mxOpen := rfl
@[simp] theorem Thread.swapShadow_mxWaits (t : Thread) : (t.swapShadow).mxWaits = t.mxWaits := rfl
@[simp] theorem Thread.swapShadow_rot (t : Thread) : (t.swapShadow).rot = t.rot := rfl
@[simp] theorem Thread.swapShadow_lost (t : Thread) : (t.swapShadow).lost = t.lost := rfl
@[simp] theorem Thread.fill_mode (t : Thread) (tag : Nat) (vs : List PortVal) (flags : Option (BitVec 6)) (work : List Nat) (rels : List Release) : (t.fill tag vs flags work rels).mode = t.mode := rfl
@[simp] theorem Thread.fill_w (t : Thread) (tag : Nat) (vs : List PortVal) (flags : Option (BitVec 6)) (work : List Nat) (rels : List Release) : (t.fill tag vs flags work rels).w = t.w := rfl
@[simp] theorem Thread.fill_q (t : Thread) (tag : Nat) (vs : List PortVal) (flags : Option (BitVec 6)) (work : List Nat) (rels : List Release) : (t.fill tag vs flags work rels).q = t.q := rfl
@[simp] theorem Thread.fill_p (t : Thread) (tag : Nat) (vs : List PortVal) (flags : Option (BitVec 6)) (work : List Nat) (rels : List Release) : (t.fill tag vs flags work rels).p = t.p := rfl
@[simp] theorem Thread.fill_x (t : Thread) (tag : Nat) (vs : List PortVal) (flags : Option (BitVec 6)) (work : List Nat) (rels : List Release) : (t.fill tag vs flags work rels).x = t.x := rfl
@[simp] theorem Thread.fill_pc (t : Thread) (tag : Nat) (vs : List PortVal) (flags : Option (BitVec 6)) (work : List Nat) (rels : List Release) : (t.fill tag vs flags work rels).pc = t.pc := rfl
@[simp] theorem Thread.fill_op (t : Thread) (tag : Nat) (vs : List PortVal) (flags : Option (BitVec 6)) (work : List Nat) (rels : List Release) : (t.fill tag vs flags work rels).op = t.op := rfl
@[simp] theorem Thread.fill_rp (t : Thread) (tag : Nat) (vs : List PortVal) (flags : Option (BitVec 6)) (work : List Nat) (rels : List Release) : (t.fill tag vs flags work rels).rp = t.rp := rfl
@[simp] theorem Thread.fill_fence (t : Thread) (tag : Nat) (vs : List PortVal) (flags : Option (BitVec 6)) (work : List Nat) (rels : List Release) : (t.fill tag vs flags work rels).fence = t.fence := rfl
@[simp] theorem Thread.fill_poison (t : Thread) (tag : Nat) (vs : List PortVal) (flags : Option (BitVec 6)) (work : List Nat) (rels : List Release) : (t.fill tag vs flags work rels).poison = t.poison := rfl
@[simp] theorem Thread.fill_np (t : Thread) (tag : Nat) (vs : List PortVal) (flags : Option (BitVec 6)) (work : List Nat) (rels : List Release) : (t.fill tag vs flags work rels).np = t.np := rfl
@[simp] theorem Thread.fill_cause4 (t : Thread) (tag : Nat) (vs : List PortVal) (flags : Option (BitVec 6)) (work : List Nat) (rels : List Release) : (t.fill tag vs flags work rels).cause4 = t.cause4 := rfl
@[simp] theorem Thread.fill_headLost (t : Thread) (tag : Nat) (vs : List PortVal) (flags : Option (BitVec 6)) (work : List Nat) (rels : List Release) : (t.fill tag vs flags work rels).headLost = t.headLost := rfl
@[simp] theorem Thread.fill_cr (t : Thread) (tag : Nat) (vs : List PortVal) (flags : Option (BitVec 6)) (work : List Nat) (rels : List Release) : (t.fill tag vs flags work rels).cr = t.cr := rfl
@[simp] theorem Thread.fill_flight (t : Thread) (tag : Nat) (vs : List PortVal) (flags : Option (BitVec 6)) (work : List Nat) (rels : List Release) : (t.fill tag vs flags work rels).flight = t.flight := rfl
@[simp] theorem Thread.fill_psq (t : Thread) (tag : Nat) (vs : List PortVal) (flags : Option (BitVec 6)) (work : List Nat) (rels : List Release) : (t.fill tag vs flags work rels).psq = t.psq := rfl
@[simp] theorem Thread.fill_counted (t : Thread) (tag : Nat) (vs : List PortVal) (flags : Option (BitVec 6)) (work : List Nat) (rels : List Release) : (t.fill tag vs flags work rels).counted = t.counted := rfl
@[simp] theorem Thread.fill_ring (t : Thread) (tag : Nat) (vs : List PortVal) (flags : Option (BitVec 6)) (work : List Nat) (rels : List Release) : (t.fill tag vs flags work rels).ring = t.ring := rfl
@[simp] theorem Thread.fill_resv (t : Thread) (tag : Nat) (vs : List PortVal) (flags : Option (BitVec 6)) (work : List Nat) (rels : List Release) : (t.fill tag vs flags work rels).resv = t.resv := rfl
@[simp] theorem Thread.fill_floor (t : Thread) (tag : Nat) (vs : List PortVal) (flags : Option (BitVec 6)) (work : List Nat) (rels : List Release) : (t.fill tag vs flags work rels).floor = t.floor := rfl
@[simp] theorem Thread.fill_relReads (t : Thread) (tag : Nat) (vs : List PortVal) (flags : Option (BitVec 6)) (work : List Nat) (rels : List Release) : (t.fill tag vs flags work rels).relReads = t.relReads := rfl
@[simp] theorem Thread.fill_relMark (t : Thread) (tag : Nat) (vs : List PortVal) (flags : Option (BitVec 6)) (work : List Nat) (rels : List Release) : (t.fill tag vs flags work rels).relMark = t.relMark := rfl
@[simp] theorem Thread.fill_arrivals (t : Thread) (tag : Nat) (vs : List PortVal) (flags : Option (BitVec 6)) (work : List Nat) (rels : List Release) : (t.fill tag vs flags work rels).arrivals = t.arrivals := rfl
@[simp] theorem Thread.fill_seqr (t : Thread) (tag : Nat) (vs : List PortVal) (flags : Option (BitVec 6)) (work : List Nat) (rels : List Release) : (t.fill tag vs flags work rels).seqr = t.seqr := rfl
@[simp] theorem Thread.fill_faults (t : Thread) (tag : Nat) (vs : List PortVal) (flags : Option (BitVec 6)) (work : List Nat) (rels : List Release) : (t.fill tag vs flags work rels).faults = t.faults := rfl
@[simp] theorem Thread.fill_sysint (t : Thread) (tag : Nat) (vs : List PortVal) (flags : Option (BitVec 6)) (work : List Nat) (rels : List Release) : (t.fill tag vs flags work rels).sysint = t.sysint := rfl
@[simp] theorem Thread.fill_msgint (t : Thread) (tag : Nat) (vs : List PortVal) (flags : Option (BitVec 6)) (work : List Nat) (rels : List Release) : (t.fill tag vs flags work rels).msgint = t.msgint := rfl
@[simp] theorem Thread.fill_expiry (t : Thread) (tag : Nat) (vs : List PortVal) (flags : Option (BitVec 6)) (work : List Nat) (rels : List Release) : (t.fill tag vs flags work rels).expiry = t.expiry := rfl
@[simp] theorem Thread.fill_uints (t : Thread) (tag : Nat) (vs : List PortVal) (flags : Option (BitVec 6)) (work : List Nat) (rels : List Release) : (t.fill tag vs flags work rels).uints = t.uints := rfl
@[simp] theorem Thread.fill_ucur (t : Thread) (tag : Nat) (vs : List PortVal) (flags : Option (BitVec 6)) (work : List Nat) (rels : List Release) : (t.fill tag vs flags work rels).ucur = t.ucur := rfl
@[simp] theorem Thread.fill_shadow (t : Thread) (tag : Nat) (vs : List PortVal) (flags : Option (BitVec 6)) (work : List Nat) (rels : List Release) : (t.fill tag vs flags work rels).shadow = t.shadow := rfl
@[simp] theorem Thread.fill_areaUse (t : Thread) (tag : Nat) (vs : List PortVal) (flags : Option (BitVec 6)) (work : List Nat) (rels : List Release) : (t.fill tag vs flags work rels).areaUse = t.areaUse := rfl
@[simp] theorem Thread.fill_areaOld (t : Thread) (tag : Nat) (vs : List PortVal) (flags : Option (BitVec 6)) (work : List Nat) (rels : List Release) : (t.fill tag vs flags work rels).areaOld = t.areaOld := rfl
@[simp] theorem Thread.fill_late (t : Thread) (tag : Nat) (vs : List PortVal) (flags : Option (BitVec 6)) (work : List Nat) (rels : List Release) : (t.fill tag vs flags work rels).late = t.late := rfl
@[simp] theorem Thread.fill_wordPc (t : Thread) (tag : Nat) (vs : List PortVal) (flags : Option (BitVec 6)) (work : List Nat) (rels : List Release) : (t.fill tag vs flags work rels).wordPc = t.wordPc := rfl
@[simp] theorem Thread.fill_reissue (t : Thread) (tag : Nat) (vs : List PortVal) (flags : Option (BitVec 6)) (work : List Nat) (rels : List Release) : (t.fill tag vs flags work rels).reissue = t.reissue := rfl
@[simp] theorem Thread.fill_sAfter (t : Thread) (tag : Nat) (vs : List PortVal) (flags : Option (BitVec 6)) (work : List Nat) (rels : List Release) : (t.fill tag vs flags work rels).sAfter = t.sAfter := rfl
@[simp] theorem Thread.fill_held (t : Thread) (tag : Nat) (vs : List PortVal) (flags : Option (BitVec 6)) (work : List Nat) (rels : List Release) : (t.fill tag vs flags work rels).held = t.held := rfl
@[simp] theorem Thread.fill_miss (t : Thread) (tag : Nat) (vs : List PortVal) (flags : Option (BitVec 6)) (work : List Nat) (rels : List Release) : (t.fill tag vs flags work rels).miss = t.miss := rfl
@[simp] theorem Thread.fill_stop (t : Thread) (tag : Nat) (vs : List PortVal) (flags : Option (BitVec 6)) (work : List Nat) (rels : List Release) : (t.fill tag vs flags work rels).stop = t.stop := rfl
@[simp] theorem Thread.fill_task (t : Thread) (tag : Nat) (vs : List PortVal) (flags : Option (BitVec 6)) (work : List Nat) (rels : List Release) : (t.fill tag vs flags work rels).task = t.task := rfl
@[simp] theorem Thread.fill_ntask (t : Thread) (tag : Nat) (vs : List PortVal) (flags : Option (BitVec 6)) (work : List Nat) (rels : List Release) : (t.fill tag vs flags work rels).ntask = t.ntask := rfl
@[simp] theorem Thread.fill_stride (t : Thread) (tag : Nat) (vs : List PortVal) (flags : Option (BitVec 6)) (work : List Nat) (rels : List Release) : (t.fill tag vs flags work rels).stride = t.stride := rfl
@[simp] theorem Thread.fill_dispatched (t : Thread) (tag : Nat) (vs : List PortVal) (flags : Option (BitVec 6)) (work : List Nat) (rels : List Release) : (t.fill tag vs flags work rels).dispatched = t.dispatched := rfl
@[simp] theorem Thread.fill_mxOpen (t : Thread) (tag : Nat) (vs : List PortVal) (flags : Option (BitVec 6)) (work : List Nat) (rels : List Release) : (t.fill tag vs flags work rels).mxOpen = t.mxOpen := rfl
@[simp] theorem Thread.fill_mxWaits (t : Thread) (tag : Nat) (vs : List PortVal) (flags : Option (BitVec 6)) (work : List Nat) (rels : List Release) : (t.fill tag vs flags work rels).mxWaits = t.mxWaits := rfl
@[simp] theorem Thread.fill_rot (t : Thread) (tag : Nat) (vs : List PortVal) (flags : Option (BitVec 6)) (work : List Nat) (rels : List Release) : (t.fill tag vs flags work rels).rot = t.rot := rfl
@[simp] theorem Thread.fill_lost (t : Thread) (tag : Nat) (vs : List PortVal) (flags : Option (BitVec 6)) (work : List Nat) (rels : List Release) : (t.fill tag vs flags work rels).lost = t.lost := rfl

end Sys2Proof.Machine
end

