-- ==== Sys2Proof/Laws/Issue.lean ====
section
/-! SUPPORT. What issuing a word can do: under `CanIssue` a word comes to its operation's run, a completed word leaves what `Passed` says, and the frame of `finish` and of a popped source. -/

namespace Sys2Proof.Safety

open Sys2Proof.Machine

theorem keeps_refl (ex : List Part) (s : State) : Keeps ex s s := by
  refine ⟨rfl, fun p _ => ?_⟩
  cases p <;> simp [same]

theorem same_trans {s t u : State} (hc : t.cur = s.cur) {p : Part} (h1 : same s t p) (h2 : same t u p) : same s u p := by
  cases p <;> simp_all [same]

/-- Frames compose. -/
theorem Keeps.trans {a b c : List Part} {s t u : State} (h1 : Keeps a s t) (h2 : Keeps b t u)
    (ha : ∀ p, p ∈ a → p ∈ c) (hb : ∀ p, p ∈ b → p ∈ c) : Keeps c s u :=
  ⟨h2.1.trans h1.1, fun p hp => same_trans h1.1 (h1.2 p (fun h => hp (ha p h))) (h2.2 p (fun h => hp (hb p h)))⟩

theorem Keeps.mono {a c : List Part} {s t : State} (h : Keeps a s t) (ha : ∀ p, p ∈ a → p ∈ c) : Keeps c s t :=
  ⟨h.1, fun p hp => h.2 p (fun x => hp (ha p x))⟩

end Sys2Proof.Safety

namespace Sys2Proof.Machine

open Sys2Proof.Safety

@[simp] theorem setThr_other (s : State) (t : Thread) (i : Fin 8) (h : i ≠ s.cur) : (s.setThr t).slots[i] = s.slots[i] := by
  have : (s.cur : Nat) ≠ i := fun e => h (Fin.ext e.symm)
  simp [this]

@[simp] theorem finish_cur (s0 s : State) (next : Word) (sw keep : Bool) : (finish s0 s next sw keep).cur = s.cur := by
  unfold finish
  dsimp only
  split <;> rfl

theorem countWord_frame (t : Thread) (area : Option Word) (pc : Word) (sup uh : Bool) :
    ∃ cv r e, t.countWord area pc sup uh = { t with cr := cv, reissue := r, expiry := e } ∧
      ∀ i : Fin 25, i ≠ crQleft → cv[i] = t.cr[i] := by
  have hset : ∀ (v : Word) (i : Fin 25), i ≠ crQleft → (t.cr.set crQleft v)[i] = t.cr[i] := by
    intro v i hi
    have : (crQleft : Fin 25).val ≠ i.val := fun e => hi (Fin.ext e.symm)
    simp [this]
  unfold Thread.countWord
  dsimp only
  split
  · exact ⟨t.cr, t.reissue, t.expiry, rfl, fun _ _ => rfl⟩
  · split
    · exact ⟨t.cr, _, t.expiry, rfl, fun _ _ => rfl⟩
    · split
      · exact ⟨t.cr, _, t.expiry, rfl, fun _ _ => rfl⟩
      · split
        · exact ⟨_, _, _, rfl, fun i hi => hset _ i hi⟩
        · exact ⟨_, _, t.expiry, rfl, fun i hi => hset _ i hi⟩

theorem clearSkip_frame (t : Thread) (sup : Bool) :
    ∃ cv, t.clearSkip sup = { t with cr := cv } ∧ ∀ i : Fin 25, i ≠ crWp → cv[i] = t.cr[i] := by
  unfold Thread.clearSkip
  split
  · exact ⟨t.cr, rfl, fun _ _ => rfl⟩
  · refine ⟨_, rfl, fun i hi => ?_⟩
    have : (crWp : Fin 25).val ≠ i.val := fun e => hi (Fin.ext e.symm)
    simp [this]

/-- What `finish` does to a thread that still runs: the pc, the bookkeeping, and under S the marker. -/
theorem finish_run (s0 s : State) (next : Word) (sw keep : Bool) (hm : s.thr.mode = .run) :
    ∃ cv r e f m, finish s0 s next sw keep = { s.setThr { s.thr with
        cr := cv, reissue := r, expiry := e, pc := next, wordPc := s0.thr.pc, held := none, miss := none
        relMark := if keep then s.thr.relMark else none, fence := f, mode := m
        sAfter := if sw then false else s.thr.sAfter } with turn := .iss } ∧
      (∀ i : Fin 25, i ≠ crQleft → i ≠ crWp → cv[i] = s.thr.cr[i]) ∧
      m = (if sw && s.thr.pending then .marker else .run) ∧
      f = (if sw && !s.thr.pending then 0 else s.thr.fence) := by
  obtain ⟨c, r, e, hc, hcr⟩ := countWord_frame s.thr s0.thr.areaUse s0.thr.pc s0.thr.sup s0.thr.uh
  obtain ⟨d, hd, hdr⟩ := clearSkip_frame (s.thr.countWord s0.thr.areaUse s0.thr.pc s0.thr.sup s0.thr.uh) s0.thr.sup
  have hcr' : ∀ i : Fin 25, i ≠ crQleft → i ≠ crWp → d[i] = s.thr.cr[i] := fun i h1 h2 => by
    rw [hdr i h2, hc]; exact hcr i h1
  unfold finish
  rw [if_neg (by rw [hm]; decide)]
  dsimp only
  rw [hd, hc]
  refine ⟨d, r, e, if sw && !s.thr.pending then 0 else s.thr.fence, if sw && s.thr.pending then .marker else .run, ?_, hcr', rfl, rfl⟩
  cases sw
  · simp [hm]
  · simp only [hm, if_true, Thread.enterMarker]
    cases hp : s.thr.pending
    · simp
      rw [if_neg (c := Thread.pending _ = true)]
      exact fun h => absurd (show s.thr.pending = true from h) (by simp [hp])
    · simp
      rw [if_pos (c := Thread.pending _ = true)]
      exact hp

theorem finish_passed (s0 s : State) (next : Word) (sw : Bool) (hm : s.thr.mode = .run) : Passed sw next (finish s0 s next sw false) := by
  obtain ⟨c, r, e, f, m, h, -, rfl, rfl⟩ := finish_run s0 s next sw false hm
  have ht : ({ s.setThr { s.thr with
        cr := c, reissue := r, expiry := e, pc := next, wordPc := s0.thr.pc, held := none, miss := none
        relMark := if false then s.thr.relMark else none
        fence := (if sw && !s.thr.pending then 0 else s.thr.fence), mode := (if sw && s.thr.pending then .marker else .run)
        sAfter := if sw then false else s.thr.sAfter } with turn := .iss } : State).thr = { s.thr with
        cr := c, reissue := r, expiry := e, pc := next, wordPc := s0.thr.pc, held := none, miss := none
        relMark := none
        fence := (if sw && !s.thr.pending then 0 else s.thr.fence), mode := (if sw && s.thr.pending then .marker else .run)
        sAfter := if sw then false else s.thr.sAfter } := by simp [State.thr]
  rw [h]
  refine ⟨by rw [ht], by rw [ht]; rfl, ?_⟩
  rw [ht]
  intro h1 h2
  have h3 : s.thr.pending = false := h2
  simp [h1, h3]

/-- The frame of `finish`, and that a thread's other parts stay. -/
theorem finish_keeps (s0 s : State) (next : Word) (sw : Bool) (x : Source) (hm : s.thr.mode = .run) :
    Keeps (issued sw x) s (finish s0 s next sw false) := by
  obtain ⟨c, r, e, f, m, h, hcr, hm', hf⟩ := finish_run s0 s next sw false hm
  refine ⟨finish_cur _ _ _ _ _, fun p hp => ?_⟩
  rw [h]
  have ht : ∀ t : Thread, ({ s.setThr t with turn := .iss } : State).thr = t := fun t => by simp [State.thr]
  cases p with
  | mode =>
    cases sw
    · simp only [same, ht, hm', Bool.false_and]; exact hm.symm
    · simp [issued] at hp
  | fence =>
    cases sw
    · simp only [same, ht, hf, Bool.false_and]; rfl
    · simp [issued] at hp
  | cr i =>
    have h1 : i ≠ crQleft := by rintro rfl; simp [issued] at hp
    have h2 : i ≠ crWp := by rintro rfl; simp [issued] at hp
    simp only [same, ht]; exact hcr i h1 h2
  | others => exact fun i hi => setThr_other s _ i hi
  | pc => simp [issued] at hp
  | expiry => simp [issued] at hp
  | relMark => simp [issued] at hp
  | book => simp [issued] at hp
  | turns => simp [issued] at hp
  | _ => simp [same, State.thr, Thread.pred, Thread.opq, Thread.rpq]

/-- A popped source changes its stream and nothing else. -/
theorem popped_keeps (sw : Bool) (s : State) (x : Source) : Keeps (issued sw x) s (popped s x) := by
  unfold popped readSource
  cases x with
  | str i =>
    simp only [popStream]
    split
    · exact keeps_refl _ _
    · refine ⟨rfl, fun p hp => ?_⟩
      cases p with
      | stream j =>
        have : (i : Nat) ≠ j := fun e => by
          have : i = j := Fin.ext e
          subst this; simp [issued, popOf] at hp
        simp only [same]
        exact Vector.getElem_set_ne i.isLt j.isLt this
      | _ => exact (keeps_refl (issued sw (.str i)) s).2 _ hp
  | _ => exact keeps_refl _ _

theorem popped_thr (s : State) (x : Source) : (popped s x).thr = s.thr := by
  unfold popped readSource
  cases x with
  | str i => simp only [popStream]; split <;> rfl
  | _ => rfl

theorem popped_nextId (s : State) (x : Source) : (popped s x).nextId = s.nextId := by
  unfold popped readSource
  cases x with
  | str i => simp only [popStream]; split <;> rfl
  | _ => rfl

theorem popped_cur (s : State) (x : Source) : (popped s x).cur = s.cur := (popped_keeps false s x).1

/-- With no check about to fail, the winnower passes every verdict (R381). -/
theorem winnow_sound {s : State} (h : s.core.flaw = 0) (c : Option Op) (v : Verdict) : winnow s c v = v := by
  cases c <;> cases v <;> simp [winnow, h]

/-- Under `CanIssue`, with its level and feature held, without a precise fault or a hold of its own, a word comes to its
operation's run on the popped state. -/
theorem verdict_run {sw : Bool} {g : Guard} {x : Source} {p : Plan} {s : State} (h : CanIssue g x s)
    (hs : p.sup s = true → s.thr.sup = true)
    (hf : ∀ b, p.feat s (peekSource s x) = some b → featOn s (dieOf s.coreId) b = true)
    (hw : p.miss s = none) (h7 : p.fault7 s = none) (hh : p.held7 s = false) :
    verdict sw g x p s = unpop s (p.run (popped s x) (operand s x)) := by
  have hb : verdict.body x p s s.thr = unpop s (winnow s p.check (p.run (popped s x) (operand s x))) := by
    simp [verdict.body, h.noRun, h.readable, hw, h7, h.filled, hh, operand, popped]
  rw [winnow_sound h.sound] at hb
  unfold verdict
  dsimp only
  rw [if_neg (by simp [h.noCapture]), h.guarded]
  have hsup : (p.sup s && !s.thr.sup) = false := by
    cases hp : p.sup s
    · rfl
    · simp [hs hp]
  simp only [Bool.not_true, Bool.false_eq_true, if_false, hsup]
  split
  · rename_i b hb'
    simp [hf b hb', hb]
  · exact hb

/-- A word whose operation is done completes: the machine after `finish`. -/
theorem issue_done {len : Nat} {sw : Bool} {g : Guard} {x : Source} {p : Plan} {s s1 : State} (h : CanIssue g x s)
    (hs : p.sup s = true → s.thr.sup = true)
    (hf : ∀ b, p.feat s (peekSource s x) = some b → featOn s (dieOf s.coreId) b = true)
    (hw : p.miss s = none) (h7 : p.fault7 s = none) (hh : p.held7 s = false) (hr : p.run (popped s x) (operand s x) = .done s1) :
    issue len sw g x p s = .next (finish s s1 (s.thr.pc + BitVec.ofNat 64 len) sw false) := by
  unfold issue
  dsimp only
  rw [if_neg (by simp [h.runs]), verdict_run h hs hf hw h7 hh, hr]
  simp [unpop, h.quiet]

/-- The same for a control transfer. -/
theorem issue_jump {len : Nat} {sw : Bool} {g : Guard} {x : Source} {p : Plan} {s s1 : State} {pc : Word} (h : CanIssue g x s)
    (hs : p.sup s = true → s.thr.sup = true)
    (hf : ∀ b, p.feat s (peekSource s x) = some b → featOn s (dieOf s.coreId) b = true)
    (hw : p.miss s = none) (h7 : p.fault7 s = none) (hh : p.held7 s = false) (hr : p.run (popped s x) (operand s x) = .jump s1 pc) :
    issue len sw g x p s = .next (finish s s1 pc sw false) := by
  unfold issue
  dsimp only
  rw [if_neg (by simp [h.runs]), verdict_run h hs hf hw h7 hh, hr]
  simp [unpop, h.quiet]

/-- A word that its operation's precise fault stops has popped nothing and takes the exception. -/
theorem issue_trap {len : Nat} {sw : Bool} {g : Guard} {x : Source} {p : Plan} {s s1 : State} {c : Word} (h : CanIssue g x s)
    (hs : p.sup s = true → s.thr.sup = true)
    (hf : ∀ b, p.feat s (peekSource s x) = some b → featOn s (dieOf s.coreId) b = true)
    (hw : p.miss s = none) (h7 : p.fault7 s = none) (hh : p.held7 s = false) (hr : p.run (popped s x) (operand s x) = .trap s1 c) :
    issue len sw g x p s = takePrecise (s1.onCore (fun k => { k with streams := s.core.streams })) s.cur c := by
  unfold issue
  dsimp only
  rw [if_neg (by simp [h.runs]), verdict_run h hs hf hw h7 hh, hr]
  rfl

/-- What a completed effect `s → s1` within the parts `ex` amounts to once the word has issued. -/
theorem finish_done (sw : Bool) (x : Source) {ex : List Part} {s s1 : State} (next : Word) (hk : Keeps ex (popped s x) s1)
    (hm : s1.thr.mode = .run) :
    Passed sw next (finish s s1 next sw false) ∧ Keeps (issued sw x ++ ex) s (finish s s1 next sw false) := by
  refine ⟨finish_passed s s1 next sw hm, ?_⟩
  have h1 : Keeps (issued sw x ++ ex) s s1 :=
    (popped_keeps sw s x).trans hk (fun p hp => List.mem_append_left _ hp) (fun p hp => List.mem_append_right _ hp)
  exact h1.trans (finish_keeps s s1 next sw x hm) (fun p hp => hp) (fun p hp => List.mem_append_left _ hp)

/-- The parts of a thread that `finish` never touches. -/
theorem finish_thr (s0 s : State) (next : Word) (sw : Bool) (hm : s.thr.mode = .run) :
    let t := (finish s0 s next sw false).thr
    t.flight = s.thr.flight ∧ t.owed = s.thr.owed ∧ t.psq = s.thr.psq ∧ t.counted = s.thr.counted ∧ t.ring = s.thr.ring ∧
    t.w = s.thr.w ∧ t.q = s.thr.q ∧ t.p = s.thr.p ∧ t.x = s.thr.x ∧ t.op = s.thr.op ∧ t.rp = s.thr.rp ∧ t.seqr = s.thr.seqr ∧
    t.resv = s.thr.resv ∧ t.areaUse = s.thr.areaUse ∧ t.floor = s.thr.floor ∧ t.rot = s.thr.rot := by
  obtain ⟨c, r, e, f, m, h, -, -, -⟩ := finish_run s0 s next sw false hm
  rw [h]
  simp [State.thr]

@[simp] theorem finish_core (s0 s : State) (next : Word) (sw keep : Bool) : (finish s0 s next sw keep).core = s.core := by
  unfold finish; dsimp only; split <;> rfl
@[simp] theorem finish_st (s0 s : State) (next : Word) (sw keep : Bool) : (finish s0 s next sw keep).st = s.st := by
  unfold finish; dsimp only; split <;> rfl
@[simp] theorem finish_net (s0 s : State) (next : Word) (sw keep : Bool) : (finish s0 s next sw keep).net = s.net := by
  unfold finish; dsimp only; split <;> rfl

/-- A fixed-latency result that nothing holds. -/
theorem sendFixed_done (s : State) (lat : Nat) (ports : List (RPort × Quad)) (h : s.thr.orderHold lat (ports.map (·.1)) = false) :
    ∃ s1, sendFixed s lat ports = .done s1 ∧ Sends lat ports s s1 ∧ Keeps [.flight, .ids] s s1 ∧ s1.thr.mode = s.thr.mode := by
  refine ⟨_, by simp only [sendFixed, h, Bool.false_eq_true, if_false]; rfl, ?_, ?_, ?_⟩
  · simp [Sends, State.thr]
  · refine ⟨rfl, fun p hp => ?_⟩
    cases p with
    | others => exact fun i hi => setThr_other s.bump _ i hi
    | flight => simp at hp
    | ids => simp at hp
    | _ => simp [same, State.thr, Thread.pred, Thread.opq, Thread.rpq]
  · simp [State.thr]

end Sys2Proof.Machine
end

