-- ==== Sys2Proof/Laws/Lines.lean ====
section
/-! SUPPORT. What the lines of the home slices leave alone: memory's bytes and full bits, whatever is read, checked, fetched or replaced; and when the mesh window refuses. -/

namespace Sys2Proof.Machine

/-- A fold keeps what each of its steps keeps. -/
theorem foldl_keeps {α β γ : Type} (f : α → β → α) (v : α → γ) (h : ∀ a b, v (f a b) = v a) (l : List β) (a : α) : v (l.foldl f a) = v a := by
  induction l generalizing a with
  | nil => rfl
  | cons b l ih => rw [List.foldl_cons, ih, h]

/-- Memory's bytes and full bits. -/
def bytesOf (s : State) : List Host.Cell × List Nat := (s.st.mem, s.st.full)

theorem mcLog_bytes (s : State) (e : McEvent) : bytesOf (s.mcLog e) = bytesOf s := by
  simp only [State.mcLog]; split <;> rfl

theorem poisonWord_bytes (s : State) (w : Nat) : bytesOf (poisonWord s w) = bytesOf s := rfl

theorem scrubWord_bytes (s : State) (w : Nat) : bytesOf (scrubWord s w) = bytesOf s := by
  unfold scrubWord
  split
  · rfl
  · simp only []
    split
    · rfl
    · split
      · split
        · exact mcLog_bytes _ _
        · exact (poisonWord_bytes _ _).trans (mcLog_bytes _ _)
      · exact mcLog_bytes _ _

theorem scrub_bytes (s : State) (loc n : Nat) : bytesOf (scrub s loc n) = bytesOf s := foldl_keeps _ _ scrubWord_bytes _ _

theorem hostAsk_bytes (s : State) (op : CacheOp) (pa : Nat) : bytesOf (hostAsk s op pa) = bytesOf s := by
  unfold hostAsk; split <;> rfl

theorem hostOwn_bytes (s : State) (pa : Nat) : bytesOf (hostOwn s pa) = bytesOf s := by
  unfold hostOwn
  simp only []
  split
  · exact hostAsk_bytes s .rdOwn pa
  · rfl

theorem lineFlawed_bytes (s : State) (d pa : Nat) : bytesOf (lineFlawed s d pa) = bytesOf s := mcLog_bytes _ _

theorem lineEvict_bytes (s : State) (d pa : Nat) : bytesOf (lineEvict s d pa) = bytesOf s := by
  unfold lineEvict
  simp only []
  split <;> split <;> first | rfl | exact hostAsk_bytes .. | exact scrub_bytes .. | exact (hostAsk_bytes ..).trans (scrub_bytes ..)

theorem lineRoom_bytes (s : State) (d pa : Nat) : bytesOf (lineRoom s d pa) = bytesOf s := by
  unfold lineRoom
  simp only []
  split
  · split
    · exact lineEvict_bytes ..
    · rfl
  · rfl

theorem lineCarried_bytes (s : State) (pa : Nat) : bytesOf (lineCarried s pa) = bytesOf s :=
  foldl_keeps _ _ (fun s _ => (poisonWord_bytes _ _).trans (mcLog_bytes s _)) _ _

theorem lineEnter_bytes (s : State) (pa : Nat) : bytesOf (lineEnter s pa) = bytesOf s := by
  unfold lineEnter
  simp only []
  split
  · rfl
  · have h := (lineCarried_bytes ((hostAsk (lineRoom s (homeDie pa) pa) .rdShared pa).onSt (fun st => { st with
      lines := linePut st.lines { lineFind s.st.lines pa with home := true, dirty := false, tag := 0, sharers := 0, shared := 0, flaws := 0, own := false } })) pa).trans
      ((hostAsk_bytes (lineRoom s (homeDie pa) pa) .rdShared pa).trans (lineRoom_bytes s (homeDie pa) pa))
    split <;> exact h

theorem lineHome_bytes (s : State) (pa : Nat) : bytesOf (lineHome s pa) = bytesOf s := by
  unfold lineHome
  simp only []
  split
  · split
    · exact lineFlawed_bytes ..
    · rfl
  · exact lineEnter_bytes ..

theorem lineFetch_bytes (s : State) (d pa : Nat) : bytesOf (lineFetch s d pa) = bytesOf s :=
  (scrub_bytes ..).trans (lineHome_bytes ..)

/-- A die's slice that reads a line changes no byte and no full bit. -/
theorem lineRead_bytes (s : State) (d pa : Nat) : bytesOf (lineRead s d pa) = bytesOf s := by
  unfold lineRead
  simp only []
  split
  · exact (scrub_bytes ..).trans (lineHome_bytes ..)
  · split
    · split
      · exact (lineFetch_bytes ..).trans (lineFlawed_bytes ..)
      · rfl
    · exact (lineRoom_bytes (lineFetch s d pa) d pa).trans (lineFetch_bytes ..)

theorem pointScrub_bytes (s : State) (loc n : Nat) : bytesOf (pointScrub s loc n) = bytesOf s := by
  unfold pointScrub
  refine (scrub_bytes ..).trans ?_
  split
  · rfl
  · exact lineHome_bytes ..

theorem coreRead_bytes (s : State) (loc n : Nat) : bytesOf (coreRead s loc n) = bytesOf s := by
  unfold coreRead
  split
  · exact scrub_bytes ..
  · exact foldl_keeps _ _ (fun _ _ => lineRead_bytes ..) _ _

/-- An address outside the mesh windows is never refused for its core (R55). -/
theorem meshRefused_eq_false {s : State} {cid loc : Nat} {va : Word} (h : ∀ core off, classify va ≠ .mesh core off) : meshRefused s cid va loc = false := by
  unfold meshRefused
  split
  · rename_i core off e; exact absurd e (h core off)
  · rfl

end Sys2Proof.Machine
end

