-- ==== Sys2Proof/Laws/Memory.lean ====
section
/-! SUPPORT. Memory: every operation keeps the canonical form, a read after a write to the same place gives what was written, and a write leaves every other place alone. -/

namespace Sys2Proof.Machine

@[simp] theorem Mem.wf_nil : Mem.wf [] = true := rfl

theorem Mem.wfFrom_mono {m : List Host.Cell} {lo lo' : Nat} (h : Mem.wfFrom lo' m = true) (hl : lo ≤ lo') :
    Mem.wfFrom lo m = true := by
  cases m with
  | nil => rfl
  | cons c r =>
    obtain ⟨x, v⟩ := c
    simp only [Mem.wfFrom, Bool.and_eq_true, decide_eq_true_eq] at h ⊢
    exact ⟨⟨by omega, h.1.2⟩, h.2⟩

theorem Mem.wfFrom_put {m : List Host.Cell} {lo a : Nat} {b : Byte} (h : Mem.wfFrom lo m = true) (ha : lo ≤ a) :
    Mem.wfFrom lo (Mem.put m a b) = true := by
  induction m generalizing lo with
  | nil =>
    by_cases hb : b = Mem.unlisted
    · simp [Mem.put, hb, Mem.wfFrom]
    · simp [Mem.put, hb, Mem.wfFrom, ha]
  | cons c r ih =>
    obtain ⟨x, v⟩ := c
    simp only [Mem.wfFrom, Bool.and_eq_true, decide_eq_true_eq] at h
    obtain ⟨⟨h1, h2⟩, h3⟩ := h
    unfold Mem.put
    split
    · rename_i hx
      simp only [Mem.wfFrom, Bool.and_eq_true, decide_eq_true_eq]
      exact ⟨⟨h1, h2⟩, ih h3 hx⟩
    · split
      · rename_i hx
        split
        · exact Mem.wfFrom_mono h3 (by omega)
        · rename_i hb
          simp only [Mem.wfFrom, Bool.and_eq_true, decide_eq_true_eq, bne_iff_ne, ne_eq]
          exact ⟨⟨ha, hb⟩, hx ▸ h3⟩
      · split
        · simp only [Mem.wfFrom, Bool.and_eq_true, decide_eq_true_eq]; exact ⟨⟨h1, h2⟩, h3⟩
        · rename_i hb
          simp only [Mem.wfFrom, Bool.and_eq_true, decide_eq_true_eq, bne_iff_ne, ne_eq]
          exact ⟨⟨ha, hb⟩, ⟨by omega, by simpa using h2⟩, h3⟩

/-- One byte's write keeps the canonical form. -/
theorem Mem.wf_put {m : List Host.Cell} (a : Nat) (b : Byte) (h : Mem.wf m = true) : Mem.wf (Mem.put m a b) = true :=
  Mem.wfFrom_put h (Nat.zero_le a)

/-- A write of any length keeps the canonical form. -/
theorem Mem.wf_write (bs : List Byte) {m : List Host.Cell} (a : Nat) (h : Mem.wf m = true) : Mem.wf (Mem.write m a bs) = true := by
  induction bs generalizing m a with
  | nil => exact h
  | cons b bs ih => exact ih (a + 1) (Mem.wf_put a b h)

theorem Mem.wfFrom_filter {m : List Host.Cell} {lo : Nat} (f : Host.Cell → Bool) (h : Mem.wfFrom lo m = true) :
    Mem.wfFrom lo (m.filter f) = true := by
  induction m generalizing lo with
  | nil => rfl
  | cons c r ih =>
    obtain ⟨x, v⟩ := c
    simp only [Mem.wfFrom, Bool.and_eq_true, decide_eq_true_eq] at h
    rw [List.filter_cons]
    split
    · simp only [Mem.wfFrom, Bool.and_eq_true, decide_eq_true_eq]; exact ⟨h.1, ih h.2⟩
    · exact ih (Mem.wfFrom_mono h.2 (by omega))

/-- Dropping cells keeps the canonical form. -/
theorem Mem.wf_filter {m : List Host.Cell} (f : Host.Cell → Bool) (h : Mem.wf m = true) : Mem.wf (m.filter f) = true :=
  Mem.wfFrom_filter f h

/-- Copying a list of cells to other places keeps the canonical form. -/
theorem Mem.wf_foldl_put (l : List Host.Cell) (f : Nat → Nat) {m : List Host.Cell} (h : Mem.wf m = true) :
    Mem.wf (l.foldl (fun m c => Mem.put m (f c.1) c.2) m) = true := by
  induction l generalizing m with
  | nil => exact h
  | cons c l ih => exact ih (Mem.wf_put _ _ h)

theorem Mem.get_below {m : List Host.Cell} {lo a : Nat} (h : Mem.wfFrom lo m = true) (ha : a < lo) : Mem.get m a = Mem.unlisted := by
  induction m generalizing lo with
  | nil => rfl
  | cons c r ih =>
    obtain ⟨x, v⟩ := c
    simp only [Mem.wfFrom, Bool.and_eq_true, decide_eq_true_eq] at h
    rw [Mem.get, if_neg (by omega)]
    exact ih h.2 (by omega)

theorem Mem.get_put_from {m : List Host.Cell} {lo : Nat} (a c : Nat) (b : Byte) (h : Mem.wfFrom lo m = true) :
    Mem.get (Mem.put m a b) c = if a = c then b else Mem.get m c := by
  induction m generalizing lo with
  | nil =>
    by_cases hb : b = Mem.unlisted
    · by_cases hc : a = c <;> simp [Mem.put, Mem.get, hb, hc]
    · by_cases hc : a = c <;> simp [Mem.put, Mem.get, hb, hc]
  | cons d r ih =>
    obtain ⟨x, v⟩ := d
    simp only [Mem.wfFrom, Bool.and_eq_true, decide_eq_true_eq] at h
    unfold Mem.put
    split
    · rename_i hx
      by_cases hc : x = c
      · rw [Mem.get, if_pos hc, if_neg (by omega), Mem.get, if_pos hc]
      · rw [Mem.get, if_neg hc, ih h.2, Mem.get, if_neg hc]
    · split
      · rename_i hx
        subst hx
        split
        · rename_i hb
          by_cases hc : x = c
          · subst hc; rw [if_pos rfl, hb]; exact Mem.get_below h.2 (by omega)
          · rw [if_neg hc, Mem.get, if_neg hc]
        · by_cases hc : x = c
          · rw [Mem.get, if_pos hc, if_pos hc]
          · rw [Mem.get, if_neg hc, if_neg hc, Mem.get, if_neg hc]
      · split
        · rename_i hx1 hx2 hb
          by_cases hc : a = c
          · subst hc; rw [if_pos rfl, hb, Mem.get, if_neg hx2]; exact Mem.get_below h.2 (by omega)
          · rw [if_neg hc]
        · by_cases hc : a = c
          · simp [Mem.get, hc]
          · simp [Mem.get, hc]

/-- A read after one byte's write: the byte written at its own place, what stood before everywhere else. -/
theorem Mem.get_put {m : List Host.Cell} (a c : Nat) (b : Byte) (h : Mem.wf m = true) :
    Mem.get (Mem.put m a b) c = if a = c then b else Mem.get m c := Mem.get_put_from a c b h

/-- A write leaves every byte outside its range alone. -/
theorem Mem.get_write_other (bs : List Byte) {m : List Host.Cell} (a c : Nat) (h : Mem.wf m = true)
    (hc : c < a ∨ a + bs.length ≤ c) : Mem.get (Mem.write m a bs) c = Mem.get m c := by
  induction bs generalizing m a with
  | nil => rfl
  | cons b bs ih =>
    rw [List.length_cons] at hc
    rw [Mem.write, ih (a + 1) (Mem.wf_put a b h) (by omega), Mem.get_put a c b h, if_neg (by omega)]

/-- A write's bytes read back. -/
theorem Mem.read_write (bs : List Byte) {m : List Host.Cell} (a : Nat) (h : Mem.wf m = true) :
    Mem.read (Mem.write m a bs) a bs.length = bs := by
  induction bs generalizing m a with
  | nil => rfl
  | cons b bs ih =>
    rw [List.length_cons, Mem.read, Mem.write, Mem.get_write_other bs (a + 1) a (Mem.wf_put a b h) (by omega), Mem.get_put a a b h,
      if_pos rfl, ih (a + 1) (Mem.wf_put a b h)]

@[simp] theorem Mem.read_length (m : List Host.Cell) (a n : Nat) : (Mem.read m a n).length = n := by
  induction n generalizing a with
  | zero => rfl
  | succ n ih => simp [Mem.read, ih]

end Sys2Proof.Machine
end

