-- ==== Sys2Proof/Laws/PerInstr.lean ====
section
/-! SUPPORT. Per instruction: the first bit of an encoded word tells its length (R24). -/

namespace Sys2Proof.Laws.Encoding

open Sys2Proof

/-- An encoded word fits its length: bit 15 is clear in a short word and bit 31 set in a long one (R24). -/
def Fits : Option Encoded → Prop
  | none => True
  | some (.short h) => h < 2 ^ 15
  | some (.long w) => 2 ^ 31 ≤ w ∧ w < 2 ^ 32

/-- The encoding of a well-formed instruction, where it has one, fits its length. -/
def Statement (i : Instr) : Prop := i.wellFormed = true → Fits (encodeWord i)

theorem code_lt (x : Source) : x.code < 2 ^ 15 := by
  cases x with
  | port r => cases r <;> decide
  | imm15 v => exact v.isLt
  | imm5 v | imm8 v => simp only [Source.code]; have := v.isLt; omega
  | _ => simp only [Source.code]; omega

theorem short_code_lt (x : Source) (h : x.short = true) : x.code < 128 := by
  cases x with
  | port r => cases r <;> decide
  | imm15 v | imm8 v => cases h
  | imm5 v => simp only [Source.code]; have := v.isLt; omega
  | _ => simp only [Source.code]; omega

theorem l_lt (x : Source) : x.l < 2 := by cases x <;> simp [Source.l]

theorem dest_code_lt (d : Dest) : d.code < 95 := by
  cases d with
  | port r => cases r <;> decide
  | _ => simp only [Dest.code]; omega

theorem guard_code_lt (g : Guard) : g.code < 32 := by
  cases g <;> simp only [Guard.code] <;> omega

theorem op_code_lt (o : Op) : o.code < 144 := by cases o <;> decide

theorem bit_lt (s : Bool) : s.toNat < 2 := by cases s <;> decide

theorem longWord_fits (s : Bool) (g : Guard) (d : Nat) (x : Source) (hd : d < 512) :
    Fits (some (.long (longWord s g.code d x.l x.code))) := by
  have := bit_lt s
  have := guard_code_lt g
  have := l_lt x
  have := code_lt x
  simp only [longWord, Fits]
  omega

theorem shortWord_fits (s : Bool) (d : Nat) (c : Source) (hd : d < 128) (h : c.short = true) :
    Fits (some (.short (shortWord s d c.code))) := by
  have := bit_lt s
  have := short_code_lt c h
  simp only [shortWord, Fits]
  omega

theorem encLong_fits (s : Bool) (g : Guard) (o : Op) (x : Source) : Fits (encLong s g o x) :=
  longWord_fits s g _ x (by have := op_code_lt o; omega)

theorem encShort_fits (s : Bool) (o : Op) (c : Source) (ho : o.code < 64) (h : c.short = true) : Fits (encShort s o c) :=
  shortWord_fits s _ c (by omega) h

theorem transportShort (s : Bool) (d : Dest) (c : Source) : Statement (.transportShort s d c) := fun h => shortWord_fits s _ c (by have := dest_code_lt d; omega) (Bool.and_eq_true_iff.mp h).2
theorem transportLong (s : Bool) (g : Guard) (d : Dest) (x : Source) : Statement (.transportLong s g d x) := fun _ => longWord_fits s g _ x (by have := dest_code_lt d; omega)
theorem aluAddShort (s : Bool) (c : Source) : Statement (.aluAddShort s c) := fun h => encShort_fits s _ c (by decide) h
theorem aluAddLong (s : Bool) (g : Guard) (x : Source) : Statement (.aluAddLong s g x) := fun _ => encLong_fits s g _ x
theorem aluSubShort (s : Bool) (c : Source) : Statement (.aluSubShort s c) := fun h => encShort_fits s _ c (by decide) h
theorem aluSubLong (s : Bool) (g : Guard) (x : Source) : Statement (.aluSubLong s g x) := fun _ => encLong_fits s g _ x
theorem aluAndShort (s : Bool) (c : Source) : Statement (.aluAndShort s c) := fun h => encShort_fits s _ c (by decide) h
theorem aluAndLong (s : Bool) (g : Guard) (x : Source) : Statement (.aluAndLong s g x) := fun _ => encLong_fits s g _ x
theorem aluOrShort (s : Bool) (c : Source) : Statement (.aluOrShort s c) := fun h => encShort_fits s _ c (by decide) h
theorem aluOrLong (s : Bool) (g : Guard) (x : Source) : Statement (.aluOrLong s g x) := fun _ => encLong_fits s g _ x
theorem aluXorShort (s : Bool) (c : Source) : Statement (.aluXorShort s c) := fun h => encShort_fits s _ c (by decide) h
theorem aluXorLong (s : Bool) (g : Guard) (x : Source) : Statement (.aluXorLong s g x) := fun _ => encLong_fits s g _ x
theorem aluShlShort (s : Bool) (c : Source) : Statement (.aluShlShort s c) := fun h => encShort_fits s _ c (by decide) h
theorem aluShlLong (s : Bool) (g : Guard) (x : Source) : Statement (.aluShlLong s g x) := fun _ => encLong_fits s g _ x
theorem aluShrShort (s : Bool) (c : Source) : Statement (.aluShrShort s c) := fun h => encShort_fits s _ c (by decide) h
theorem aluShrLong (s : Bool) (g : Guard) (x : Source) : Statement (.aluShrLong s g x) := fun _ => encLong_fits s g _ x
theorem aluSraShort (s : Bool) (c : Source) : Statement (.aluSraShort s c) := fun h => encShort_fits s _ c (by decide) h
theorem aluSraLong (s : Bool) (g : Guard) (x : Source) : Statement (.aluSraLong s g x) := fun _ => encLong_fits s g _ x
theorem aluSltShort (s : Bool) (c : Source) : Statement (.aluSltShort s c) := fun h => encShort_fits s _ c (by decide) h
theorem aluSltLong (s : Bool) (g : Guard) (x : Source) : Statement (.aluSltLong s g x) := fun _ => encLong_fits s g _ x
theorem aluSltuShort (s : Bool) (c : Source) : Statement (.aluSltuShort s c) := fun h => encShort_fits s _ c (by decide) h
theorem aluSltuLong (s : Bool) (g : Guard) (x : Source) : Statement (.aluSltuLong s g x) := fun _ => encLong_fits s g _ x
theorem aluSeqShort (s : Bool) (c : Source) : Statement (.aluSeqShort s c) := fun h => encShort_fits s _ c (by decide) h
theorem aluSeqLong (s : Bool) (g : Guard) (x : Source) : Statement (.aluSeqLong s g x) := fun _ => encLong_fits s g _ x
theorem aluMinShort (s : Bool) (c : Source) : Statement (.aluMinShort s c) := fun h => encShort_fits s _ c (by decide) h
theorem aluMinLong (s : Bool) (g : Guard) (x : Source) : Statement (.aluMinLong s g x) := fun _ => encLong_fits s g _ x
theorem aluMaxShort (s : Bool) (c : Source) : Statement (.aluMaxShort s c) := fun h => encShort_fits s _ c (by decide) h
theorem aluMaxLong (s : Bool) (g : Guard) (x : Source) : Statement (.aluMaxLong s g x) := fun _ => encLong_fits s g _ x
theorem aluMinuShort (s : Bool) (c : Source) : Statement (.aluMinuShort s c) := fun h => encShort_fits s _ c (by decide) h
theorem aluMinuLong (s : Bool) (g : Guard) (x : Source) : Statement (.aluMinuLong s g x) := fun _ => encLong_fits s g _ x
theorem aluMaxuShort (s : Bool) (c : Source) : Statement (.aluMaxuShort s c) := fun h => encShort_fits s _ c (by decide) h
theorem aluMaxuLong (s : Bool) (g : Guard) (x : Source) : Statement (.aluMaxuLong s g x) := fun _ => encLong_fits s g _ x
theorem aluSxbShort (s : Bool) (c : Source) : Statement (.aluSxbShort s c) := fun h => encShort_fits s _ c (by decide) h
theorem aluSxbLong (s : Bool) (g : Guard) (x : Source) : Statement (.aluSxbLong s g x) := fun _ => encLong_fits s g _ x
theorem aluSxhShort (s : Bool) (c : Source) : Statement (.aluSxhShort s c) := fun h => encShort_fits s _ c (by decide) h
theorem aluSxhLong (s : Bool) (g : Guard) (x : Source) : Statement (.aluSxhLong s g x) := fun _ => encLong_fits s g _ x
theorem aluClzShort (s : Bool) (c : Source) : Statement (.aluClzShort s c) := fun h => encShort_fits s _ c (by decide) h
theorem aluClzLong (s : Bool) (g : Guard) (x : Source) : Statement (.aluClzLong s g x) := fun _ => encLong_fits s g _ x
theorem aluPopcShort (s : Bool) (c : Source) : Statement (.aluPopcShort s c) := fun h => encShort_fits s _ c (by decide) h
theorem aluPopcLong (s : Bool) (g : Guard) (x : Source) : Statement (.aluPopcLong s g x) := fun _ => encLong_fits s g _ x
theorem mulMulShort (s : Bool) (c : Source) : Statement (.mulMulShort s c) := fun h => encShort_fits s _ c (by decide) h
theorem mulMulLong (s : Bool) (g : Guard) (x : Source) : Statement (.mulMulLong s g x) := fun _ => encLong_fits s g _ x
theorem mulMulhShort (s : Bool) (c : Source) : Statement (.mulMulhShort s c) := fun h => encShort_fits s _ c (by decide) h
theorem mulMulhLong (s : Bool) (g : Guard) (x : Source) : Statement (.mulMulhLong s g x) := fun _ => encLong_fits s g _ x
theorem mulMulhuShort (s : Bool) (c : Source) : Statement (.mulMulhuShort s c) := fun h => encShort_fits s _ c (by decide) h
theorem mulMulhuLong (s : Bool) (g : Guard) (x : Source) : Statement (.mulMulhuLong s g x) := fun _ => encLong_fits s g _ x
theorem mulMadShort (s : Bool) (c : Source) : Statement (.mulMadShort s c) := fun h => encShort_fits s _ c (by decide) h
theorem mulMadLong (s : Bool) (g : Guard) (x : Source) : Statement (.mulMadLong s g x) := fun _ => encLong_fits s g _ x
theorem mulDivShort (s : Bool) (c : Source) : Statement (.mulDivShort s c) := fun h => encShort_fits s _ c (by decide) h
theorem mulDivLong (s : Bool) (g : Guard) (x : Source) : Statement (.mulDivLong s g x) := fun _ => encLong_fits s g _ x
theorem mulDivuShort (s : Bool) (c : Source) : Statement (.mulDivuShort s c) := fun h => encShort_fits s _ c (by decide) h
theorem mulDivuLong (s : Bool) (g : Guard) (x : Source) : Statement (.mulDivuLong s g x) := fun _ => encLong_fits s g _ x
theorem mulRemShort (s : Bool) (c : Source) : Statement (.mulRemShort s c) := fun h => encShort_fits s _ c (by decide) h
theorem mulRemLong (s : Bool) (g : Guard) (x : Source) : Statement (.mulRemLong s g x) := fun _ => encLong_fits s g _ x
theorem mulRemuShort (s : Bool) (c : Source) : Statement (.mulRemuShort s c) := fun h => encShort_fits s _ c (by decide) h
theorem mulRemuLong (s : Bool) (g : Guard) (x : Source) : Statement (.mulRemuLong s g x) := fun _ => encLong_fits s g _ x
theorem memLd8Short (s : Bool) (c : Source) : Statement (.memLd8Short s c) := fun h => encShort_fits s _ c (by decide) h
theorem memLd8Long (s : Bool) (g : Guard) (x : Source) : Statement (.memLd8Long s g x) := fun _ => encLong_fits s g _ x
theorem memLd8sShort (s : Bool) (c : Source) : Statement (.memLd8sShort s c) := fun h => encShort_fits s _ c (by decide) h
theorem memLd8sLong (s : Bool) (g : Guard) (x : Source) : Statement (.memLd8sLong s g x) := fun _ => encLong_fits s g _ x
theorem memLd16Short (s : Bool) (c : Source) : Statement (.memLd16Short s c) := fun h => encShort_fits s _ c (by decide) h
theorem memLd16Long (s : Bool) (g : Guard) (x : Source) : Statement (.memLd16Long s g x) := fun _ => encLong_fits s g _ x
theorem memLd16sShort (s : Bool) (c : Source) : Statement (.memLd16sShort s c) := fun h => encShort_fits s _ c (by decide) h
theorem memLd16sLong (s : Bool) (g : Guard) (x : Source) : Statement (.memLd16sLong s g x) := fun _ => encLong_fits s g _ x
theorem memLd32Short (s : Bool) (c : Source) : Statement (.memLd32Short s c) := fun h => encShort_fits s _ c (by decide) h
theorem memLd32Long (s : Bool) (g : Guard) (x : Source) : Statement (.memLd32Long s g x) := fun _ => encLong_fits s g _ x
theorem memLd32sShort (s : Bool) (c : Source) : Statement (.memLd32sShort s c) := fun h => encShort_fits s _ c (by decide) h
theorem memLd32sLong (s : Bool) (g : Guard) (x : Source) : Statement (.memLd32sLong s g x) := fun _ => encLong_fits s g _ x
theorem memLd64Short (s : Bool) (c : Source) : Statement (.memLd64Short s c) := fun h => encShort_fits s _ c (by decide) h
theorem memLd64Long (s : Bool) (g : Guard) (x : Source) : Statement (.memLd64Long s g x) := fun _ => encLong_fits s g _ x
theorem memLdqShort (s : Bool) (c : Source) : Statement (.memLdqShort s c) := fun h => encShort_fits s _ c (by decide) h
theorem memLdqLong (s : Bool) (g : Guard) (x : Source) : Statement (.memLdqLong s g x) := fun _ => encLong_fits s g _ x
theorem memSt8Short (s : Bool) (c : Source) : Statement (.memSt8Short s c) := fun h => encShort_fits s _ c (by decide) h
theorem memSt8Long (s : Bool) (g : Guard) (x : Source) : Statement (.memSt8Long s g x) := fun _ => encLong_fits s g _ x
theorem memSt16Short (s : Bool) (c : Source) : Statement (.memSt16Short s c) := fun h => encShort_fits s _ c (by decide) h
theorem memSt16Long (s : Bool) (g : Guard) (x : Source) : Statement (.memSt16Long s g x) := fun _ => encLong_fits s g _ x
theorem memSt32Short (s : Bool) (c : Source) : Statement (.memSt32Short s c) := fun h => encShort_fits s _ c (by decide) h
theorem memSt32Long (s : Bool) (g : Guard) (x : Source) : Statement (.memSt32Long s g x) := fun _ => encLong_fits s g _ x
theorem memSt64Short (s : Bool) (c : Source) : Statement (.memSt64Short s c) := fun h => encShort_fits s _ c (by decide) h
theorem memSt64Long (s : Bool) (g : Guard) (x : Source) : Statement (.memSt64Long s g x) := fun _ => encLong_fits s g _ x
theorem memStqShort (s : Bool) (c : Source) : Statement (.memStqShort s c) := fun h => encShort_fits s _ c (by decide) h
theorem memStqLong (s : Bool) (g : Guard) (x : Source) : Statement (.memStqLong s g x) := fun _ => encLong_fits s g _ x
theorem memLdfShort (s : Bool) (c : Source) : Statement (.memLdfShort s c) := fun h => encShort_fits s _ c (by decide) h
theorem memLdfLong (s : Bool) (g : Guard) (x : Source) : Statement (.memLdfLong s g x) := fun _ => encLong_fits s g _ x
theorem memLdtShort (s : Bool) (c : Source) : Statement (.memLdtShort s c) := fun h => encShort_fits s _ c (by decide) h
theorem memLdtLong (s : Bool) (g : Guard) (x : Source) : Statement (.memLdtLong s g x) := fun _ => encLong_fits s g _ x
theorem memStfShort (s : Bool) (c : Source) : Statement (.memStfShort s c) := fun h => encShort_fits s _ c (by decide) h
theorem memStfLong (s : Bool) (g : Guard) (x : Source) : Statement (.memStfLong s g x) := fun _ => encLong_fits s g _ x
theorem memSteShort (s : Bool) (c : Source) : Statement (.memSteShort s c) := fun h => encShort_fits s _ c (by decide) h
theorem memSteLong (s : Bool) (g : Guard) (x : Source) : Statement (.memSteLong s g x) := fun _ => encLong_fits s g _ x
theorem prdPandShort (s : Bool) (c : Source) : Statement (.prdPandShort s c) := fun h => encShort_fits s _ c (by decide) h
theorem prdPandLong (s : Bool) (g : Guard) (x : Source) : Statement (.prdPandLong s g x) := fun _ => encLong_fits s g _ x
theorem prdPorShort (s : Bool) (c : Source) : Statement (.prdPorShort s c) := fun h => encShort_fits s _ c (by decide) h
theorem prdPorLong (s : Bool) (g : Guard) (x : Source) : Statement (.prdPorLong s g x) := fun _ => encLong_fits s g _ x
theorem prdPxorShort (s : Bool) (c : Source) : Statement (.prdPxorShort s c) := fun h => encShort_fits s _ c (by decide) h
theorem prdPxorLong (s : Bool) (g : Guard) (x : Source) : Statement (.prdPxorLong s g x) := fun _ => encLong_fits s g _ x
theorem prdPandnShort (s : Bool) (c : Source) : Statement (.prdPandnShort s c) := fun h => encShort_fits s _ c (by decide) h
theorem prdPandnLong (s : Bool) (g : Guard) (x : Source) : Statement (.prdPandnLong s g x) := fun _ => encLong_fits s g _ x
theorem ctlJmpShort (s : Bool) (c : Source) : Statement (.ctlJmpShort s c) := fun h => encShort_fits s _ c (by decide) h
theorem ctlJmpLong (s : Bool) (g : Guard) (x : Source) : Statement (.ctlJmpLong s g x) := fun _ => encLong_fits s g _ x
theorem ctlJrelShort (s : Bool) (c : Source) : Statement (.ctlJrelShort s c) := fun h => encShort_fits s _ c (by decide) h
theorem ctlJrelLong (s : Bool) (g : Guard) (x : Source) : Statement (.ctlJrelLong s g x) := fun _ => encLong_fits s g _ x
theorem ctlCallShort (s : Bool) (c : Source) : Statement (.ctlCallShort s c) := fun h => encShort_fits s _ c (by decide) h
theorem ctlCallLong (s : Bool) (g : Guard) (x : Source) : Statement (.ctlCallLong s g x) := fun _ => encLong_fits s g _ x
theorem ctlRetShort (s : Bool) (c : Source) : Statement (.ctlRetShort s c) := fun h => encShort_fits s _ c (by decide) h
theorem ctlRetLong (s : Bool) (g : Guard) (x : Source) : Statement (.ctlRetLong s g x) := fun _ => encLong_fits s g _ x
theorem ctlTrapShort (s : Bool) (c : Source) : Statement (.ctlTrapShort s c) := fun h => encShort_fits s _ c (by decide) h
theorem ctlTrapLong (s : Bool) (g : Guard) (x : Source) : Statement (.ctlTrapLong s g x) := fun _ => encLong_fits s g _ x
theorem idxTixShort (s : Bool) (c : Source) : Statement (.idxTixShort s c) := fun h => encShort_fits s _ c (by decide) h
theorem idxTixLong (s : Bool) (g : Guard) (x : Source) : Statement (.idxTixLong s g x) := fun _ => encLong_fits s g _ x
theorem idxAdrShort (s : Bool) (c : Source) : Statement (.idxAdrShort s c) := fun h => encShort_fits s _ c (by decide) h
theorem idxAdrLong (s : Bool) (g : Guard) (x : Source) : Statement (.idxAdrLong s g x) := fun _ => encLong_fits s g _ x
theorem idxBndShort (s : Bool) (c : Source) : Statement (.idxBndShort s c) := fun h => encShort_fits s _ c (by decide) h
theorem idxBndLong (s : Bool) (g : Guard) (x : Source) : Statement (.idxBndLong s g x) := fun _ => encLong_fits s g _ x
theorem trkClaimShort (s : Bool) (c : Source) : Statement (.trkClaimShort s c) := fun h => encShort_fits s _ c (by decide) h
theorem trkClaimLong (s : Bool) (g : Guard) (x : Source) : Statement (.trkClaimLong s g x) := fun _ => encLong_fits s g _ x
theorem trkFreeShort (s : Bool) (c : Source) : Statement (.trkFreeShort s c) := fun h => encShort_fits s _ c (by decide) h
theorem trkFreeLong (s : Bool) (g : Guard) (x : Source) : Statement (.trkFreeLong s g x) := fun _ => encLong_fits s g _ x
theorem trkSeekShort (s : Bool) (c : Source) : Statement (.trkSeekShort s c) := fun h => encShort_fits s _ c (by decide) h
theorem trkSeekLong (s : Bool) (g : Guard) (x : Source) : Statement (.trkSeekLong s g x) := fun _ => encLong_fits s g _ x
theorem trkStepShort (s : Bool) (c : Source) : Statement (.trkStepShort s c) := fun h => encShort_fits s _ c (by decide) h
theorem trkStepLong (s : Bool) (g : Guard) (x : Source) : Statement (.trkStepLong s g x) := fun _ => encLong_fits s g _ x
theorem trkRdsShort (s : Bool) (c : Source) : Statement (.trkRdsShort s c) := fun h => encShort_fits s _ c (by decide) h
theorem trkRdsLong (s : Bool) (g : Guard) (x : Source) : Statement (.trkRdsLong s g x) := fun _ => encLong_fits s g _ x
theorem trkWrsShort (s : Bool) (c : Source) : Statement (.trkWrsShort s c) := fun h => encShort_fits s _ c (by decide) h
theorem trkWrsLong (s : Bool) (g : Guard) (x : Source) : Statement (.trkWrsLong s g x) := fun _ => encLong_fits s g _ x
theorem trkRwdShort (s : Bool) (c : Source) : Statement (.trkRwdShort s c) := fun h => encShort_fits s _ c (by decide) h
theorem trkRwdLong (s : Bool) (g : Guard) (x : Source) : Statement (.trkRwdLong s g x) := fun _ => encLong_fits s g _ x
theorem trkHeadShort (s : Bool) (c : Source) : Statement (.trkHeadShort s c) := fun h => encShort_fits s _ c (by decide) h
theorem trkHeadLong (s : Bool) (g : Guard) (x : Source) : Statement (.trkHeadLong s g x) := fun _ => encLong_fits s g _ x
theorem vecAdd (s : Bool) (g : Guard) (x : Source) : Statement (.vecAdd s g x) := fun _ => encLong_fits s g _ x
theorem vecSub (s : Bool) (g : Guard) (x : Source) : Statement (.vecSub s g x) := fun _ => encLong_fits s g _ x
theorem vecMul (s : Bool) (g : Guard) (x : Source) : Statement (.vecMul s g x) := fun _ => encLong_fits s g _ x
theorem vecMad (s : Bool) (g : Guard) (x : Source) : Statement (.vecMad s g x) := fun _ => encLong_fits s g _ x
theorem vecMin (s : Bool) (g : Guard) (x : Source) : Statement (.vecMin s g x) := fun _ => encLong_fits s g _ x
theorem vecMax (s : Bool) (g : Guard) (x : Source) : Statement (.vecMax s g x) := fun _ => encLong_fits s g _ x
theorem vecAnd (s : Bool) (g : Guard) (x : Source) : Statement (.vecAnd s g x) := fun _ => encLong_fits s g _ x
theorem vecOr (s : Bool) (g : Guard) (x : Source) : Statement (.vecOr s g x) := fun _ => encLong_fits s g _ x
theorem vecXor (s : Bool) (g : Guard) (x : Source) : Statement (.vecXor s g x) := fun _ => encLong_fits s g _ x
theorem vecShl (s : Bool) (g : Guard) (x : Source) : Statement (.vecShl s g x) := fun _ => encLong_fits s g _ x
theorem vecShr (s : Bool) (g : Guard) (x : Source) : Statement (.vecShr s g x) := fun _ => encLong_fits s g _ x
theorem vecSra (s : Bool) (g : Guard) (x : Source) : Statement (.vecSra s g x) := fun _ => encLong_fits s g _ x
theorem vecCeq (s : Bool) (g : Guard) (x : Source) : Statement (.vecCeq s g x) := fun _ => encLong_fits s g _ x
theorem vecClt (s : Bool) (g : Guard) (x : Source) : Statement (.vecClt s g x) := fun _ => encLong_fits s g _ x
theorem vecSel (s : Bool) (g : Guard) (x : Source) : Statement (.vecSel s g x) := fun _ => encLong_fits s g _ x
theorem vecShf (s : Bool) (g : Guard) (x : Source) : Statement (.vecShf s g x) := fun _ => encLong_fits s g _ x
theorem vecPak (s : Bool) (g : Guard) (x : Source) : Statement (.vecPak s g x) := fun _ => encLong_fits s g _ x
theorem vecUnp (s : Bool) (g : Guard) (x : Source) : Statement (.vecUnp s g x) := fun _ => encLong_fits s g _ x
theorem vecCvt (s : Bool) (g : Guard) (x : Source) : Statement (.vecCvt s g x) := fun _ => encLong_fits s g _ x
theorem vecDot (s : Bool) (g : Guard) (x : Source) : Statement (.vecDot s g x) := fun _ => encLong_fits s g _ x
theorem vecSum (s : Bool) (g : Guard) (x : Source) : Statement (.vecSum s g x) := fun _ => encLong_fits s g _ x
theorem vecExt (s : Bool) (g : Guard) (x : Source) : Statement (.vecExt s g x) := fun _ => encLong_fits s g _ x
theorem vecRec (s : Bool) (g : Guard) (x : Source) : Statement (.vecRec s g x) := fun _ => encLong_fits s g _ x
theorem vecRun (s : Bool) (g : Guard) (x : Source) : Statement (.vecRun s g x) := fun _ => encLong_fits s g _ x
theorem fpuAdd (s : Bool) (g : Guard) (x : Source) : Statement (.fpuAdd s g x) := fun _ => encLong_fits s g _ x
theorem fpuSub (s : Bool) (g : Guard) (x : Source) : Statement (.fpuSub s g x) := fun _ => encLong_fits s g _ x
theorem fpuMul (s : Bool) (g : Guard) (x : Source) : Statement (.fpuMul s g x) := fun _ => encLong_fits s g _ x
theorem fpuFma (s : Bool) (g : Guard) (x : Source) : Statement (.fpuFma s g x) := fun _ => encLong_fits s g _ x
theorem fpuDiv (s : Bool) (g : Guard) (x : Source) : Statement (.fpuDiv s g x) := fun _ => encLong_fits s g _ x
theorem fpuSqrt (s : Bool) (g : Guard) (x : Source) : Statement (.fpuSqrt s g x) := fun _ => encLong_fits s g _ x
theorem fpuCmp (s : Bool) (g : Guard) (x : Source) : Statement (.fpuCmp s g x) := fun _ => encLong_fits s g _ x
theorem fpuToi (s : Bool) (g : Guard) (x : Source) : Statement (.fpuToi s g x) := fun _ => encLong_fits s g _ x
theorem fpuTof (s : Bool) (g : Guard) (x : Source) : Statement (.fpuTof s g x) := fun _ => encLong_fits s g _ x
theorem sfuExp2 (s : Bool) (g : Guard) (x : Source) : Statement (.sfuExp2 s g x) := fun _ => encLong_fits s g _ x
theorem sfuLog2 (s : Bool) (g : Guard) (x : Source) : Statement (.sfuLog2 s g x) := fun _ => encLong_fits s g _ x
theorem sfuRcp (s : Bool) (g : Guard) (x : Source) : Statement (.sfuRcp s g x) := fun _ => encLong_fits s g _ x
theorem sfuRsq (s : Bool) (g : Guard) (x : Source) : Statement (.sfuRsq s g x) := fun _ => encLong_fits s g _ x
theorem sfuSin (s : Bool) (g : Guard) (x : Source) : Statement (.sfuSin s g x) := fun _ => encLong_fits s g _ x
theorem sfuCos (s : Bool) (g : Guard) (x : Source) : Statement (.sfuCos s g x) := fun _ => encLong_fits s g _ x
theorem amoAdd (s : Bool) (g : Guard) (x : Source) : Statement (.amoAdd s g x) := fun _ => encLong_fits s g _ x
theorem amoMin (s : Bool) (g : Guard) (x : Source) : Statement (.amoMin s g x) := fun _ => encLong_fits s g _ x
theorem amoMax (s : Bool) (g : Guard) (x : Source) : Statement (.amoMax s g x) := fun _ => encLong_fits s g _ x
theorem amoAnd (s : Bool) (g : Guard) (x : Source) : Statement (.amoAnd s g x) := fun _ => encLong_fits s g _ x
theorem amoOr (s : Bool) (g : Guard) (x : Source) : Statement (.amoOr s g x) := fun _ => encLong_fits s g _ x
theorem amoXor (s : Bool) (g : Guard) (x : Source) : Statement (.amoXor s g x) := fun _ => encLong_fits s g _ x
theorem amoLrw (s : Bool) (g : Guard) (x : Source) : Statement (.amoLrw s g x) := fun _ => encLong_fits s g _ x
theorem amoScr (s : Bool) (g : Guard) (x : Source) : Statement (.amoScr s g x) := fun _ => encLong_fits s g _ x
theorem synFence (s : Bool) (g : Guard) (x : Source) : Statement (.synFence s g x) := fun _ => encLong_fits s g _ x
theorem synAcq (s : Bool) (g : Guard) (x : Source) : Statement (.synAcq s g x) := fun _ => encLong_fits s g _ x
theorem synRel (s : Bool) (g : Guard) (x : Source) : Statement (.synRel s g x) := fun _ => encLong_fits s g _ x
theorem synArrive (s : Bool) (g : Guard) (x : Source) : Statement (.synArrive s g x) := fun _ => encLong_fits s g _ x
theorem synWait (s : Bool) (g : Guard) (x : Source) : Statement (.synWait s g x) := fun _ => encLong_fits s g _ x
theorem synMask (s : Bool) (g : Guard) (x : Source) : Statement (.synMask s g x) := fun _ => encLong_fits s g _ x
theorem strBind (s : Bool) (g : Guard) (x : Source) : Statement (.strBind s g x) := fun _ => encLong_fits s g _ x
theorem strFree (s : Bool) (g : Guard) (x : Source) : Statement (.strFree s g x) := fun _ => encLong_fits s g _ x
theorem mxRun (s : Bool) (g : Guard) (x : Source) : Statement (.mxRun s g x) := fun _ => encLong_fits s g _ x
theorem mxCnt (s : Bool) (g : Guard) (x : Source) : Statement (.mxCnt s g x) := fun _ => encLong_fits s g _ x
theorem mxDrn (s : Bool) (g : Guard) (x : Source) : Statement (.mxDrn s g x) := fun _ => encLong_fits s g _ x
theorem mxMrg (s : Bool) (g : Guard) (x : Source) : Statement (.mxMrg s g x) := fun _ => encLong_fits s g _ x
theorem mxSt (s : Bool) (g : Guard) (x : Source) : Statement (.mxSt s g x) := fun _ => encLong_fits s g _ x
theorem mxWait (s : Bool) (g : Guard) (x : Source) : Statement (.mxWait s g x) := fun _ => encLong_fits s g _ x
theorem ndWant (s : Bool) (g : Guard) (x : Source) : Statement (.ndWant s g x) := fun _ => encLong_fits s g _ x
theorem ndGive (s : Bool) (g : Guard) (x : Source) : Statement (.ndGive s g x) := fun _ => encLong_fits s g _ x
theorem ndDrop (s : Bool) (g : Guard) (x : Source) : Statement (.ndDrop s g x) := fun _ => encLong_fits s g _ x
theorem ndCard (s : Bool) (g : Guard) (x : Source) : Statement (.ndCard s g x) := fun _ => encLong_fits s g _ x
theorem cpyGo (s : Bool) (g : Guard) (x : Source) : Statement (.cpyGo s g x) := fun _ => encLong_fits s g _ x
theorem msgSend (s : Bool) (g : Guard) (x : Source) : Statement (.msgSend s g x) := fun _ => encLong_fits s g _ x
theorem msgRecv (s : Bool) (g : Guard) (x : Source) : Statement (.msgRecv s g x) := fun _ => encLong_fits s g _ x
theorem msgAny (s : Bool) (g : Guard) (x : Source) : Statement (.msgAny s g x) := fun _ => encLong_fits s g _ x
theorem tskPush (s : Bool) (g : Guard) (x : Source) : Statement (.tskPush s g x) := fun _ => encLong_fits s g _ x
theorem tskPop (s : Bool) (g : Guard) (x : Source) : Statement (.tskPop s g x) := fun _ => encLong_fits s g _ x
theorem tskPark (s : Bool) (g : Guard) (x : Source) : Statement (.tskPark s g x) := fun _ => encLong_fits s g _ x
theorem tskYield (s : Bool) (g : Guard) (x : Source) : Statement (.tskYield s g x) := fun _ => encLong_fits s g _ x
theorem sysCrr (s : Bool) (g : Guard) (x : Source) : Statement (.sysCrr s g x) := fun _ => encLong_fits s g _ x
theorem sysCrw (s : Bool) (g : Guard) (x : Source) : Statement (.sysCrw s g x) := fun _ => encLong_fits s g _ x
theorem sysEret (s : Bool) (g : Guard) (x : Source) : Statement (.sysEret s g x) := fun _ => encLong_fits s g _ x
theorem sysTlbi (s : Bool) (g : Guard) (x : Source) : Statement (.sysTlbi s g x) := fun _ => encLong_fits s g _ x
theorem sysMwait (s : Bool) (g : Guard) (x : Source) : Statement (.sysMwait s g x) := fun _ => encLong_fits s g _ x
theorem sysHalt (s : Bool) (g : Guard) (x : Source) : Statement (.sysHalt s g x) := fun _ => encLong_fits s g _ x
theorem rngNext (s : Bool) (g : Guard) (x : Source) : Statement (.rngNext s g x) := fun _ => encLong_fits s g _ x
theorem streamWordHoldRelease (slot : Fin 8) : Statement (.streamWordHoldRelease slot) := fun _ => trivial
theorem fixedResultDelivery (slot : Fin 8) : Statement (.fixedResultDelivery slot) := fun _ => trivial
theorem fencedResultDelivery (slot : Fin 8) : Statement (.fencedResultDelivery slot) := fun _ => trivial
theorem switchMarkerRelease (slot : Fin 8) : Statement (.switchMarkerRelease slot) := fun _ => trivial
theorem tlbMissWalk (slot : Fin 8) (va : Word) : Statement (.tlbMissWalk slot va) := fun _ => trivial
theorem tlbiAcknowledge (by_ : Shootdown) : Statement (.tlbiAcknowledge by_) := fun _ => trivial
theorem postedStoreDepart (slot : Fin 8) (i : Nat) : Statement (.postedStoreDepart slot i) := fun _ => trivial
theorem requestArrive (r : Arrival) : Statement (.requestArrive r) := fun _ => trivial
theorem homeSliceWrite (i : Nat) : Statement (.homeSliceWrite i) := fun _ => trivial
theorem sharedCopyInvalidation (die : Fin 16) (line : Nat) : Statement (.sharedCopyInvalidation die line) := fun _ => trivial
theorem writeAcknowledge (i : Nat) : Statement (.writeAcknowledge i) := fun _ => trivial
theorem lineReadMiss (die : Fin 16) (line : LineRead) : Statement (.lineReadMiss die line) := fun _ => trivial
theorem lrwRequestArrive (r : Arrival) : Statement (.lrwRequestArrive r) := fun _ => trivial
theorem bankRequestPerform (i : Nat) : Statement (.bankRequestPerform i) := fun _ => trivial
theorem copyStart (i : Nat) : Statement (.copyStart i) := fun _ => trivial
theorem copyChunk (i : Nat) : Statement (.copyChunk i) := fun _ => trivial
theorem copyComplete (i : Nat) : Statement (.copyComplete i) := fun _ => trivial
theorem trackCommandPerform (n : Fin 32) : Statement (.trackCommandPerform n) := fun _ => trivial
theorem trackClear (n : Fin 32) (found : Bool) : Statement (.trackClear n found) := fun _ => trivial
theorem patternElementRead (n : Fin 8) : Statement (.patternElementRead n) := fun _ => trivial
theorem patternElementWrite (n : Fin 8) : Statement (.patternElementWrite n) := fun _ => trivial
theorem vecReplayTransport (slot : Fin 8) : Statement (.vecReplayTransport slot) := fun _ => trivial
theorem mxCommandPerform (own : Bool) : Statement (.mxCommandPerform own) := fun _ => trivial
theorem mxLatchHandoff (h : Handoff) : Statement (.mxLatchHandoff h) := fun _ => trivial
theorem interestArrive (k : Nat) (nm : TileName) (face : Face) : Statement (.interestArrive k nm face) := fun _ => trivial
theorem tileArrive (k : Nat) (nm : TileName) (t : Tile) : Statement (.tileArrive k nm t) := fun _ => trivial
theorem giveArrive (k : Nat) (nm : TileName) (t : Tile) (by_ : Giver) : Statement (.giveArrive k nm t by_) := fun _ => trivial
theorem retireNoticeArrive (cid : Fin 64) (tensor : BitVec 24) (iter : BitVec 16) (producer : Nat) : Statement (.retireNoticeArrive cid tensor iter producer) := fun _ => trivial
theorem iterationClose (k : Nat) (cid : Fin 64) (tensor : BitVec 24) (iter : BitVec 16) : Statement (.iterationClose k cid tensor iter) := fun _ => trivial
theorem settleEmptyNotice (k : Nat) (nm : TileName) (withdrawn : Bool) : Statement (.settleEmptyNotice k nm withdrawn) := fun _ => trivial
theorem interestWithdrawal (k : Nat) (nm : TileName) (face : Face) : Statement (.interestWithdrawal k nm face) := fun _ => trivial
theorem peerWithdrawalNotice (port : Fin 16) (cid : Fin 64) : Statement (.peerWithdrawalNotice port cid) := fun _ => trivial
theorem cardTaskPush (id : Fin 32) : Statement (.cardTaskPush id) := fun _ => trivial
theorem messageArrive (core : Nat) (id : Word) (data : Posted) : Statement (.messageArrive core id data) := fun _ => trivial
theorem barrierNetworkArrival (grp : GroupKey) (thread : Arriving) : Statement (.barrierNetworkArrival grp thread) := fun _ => trivial
theorem generationClose (grp : GroupKey) : Statement (.generationClose grp) := fun _ => trivial
theorem launchSlotTake (cid : Fin 64) (q : Fin 64) : Statement (.launchSlotTake cid q) := fun _ => trivial
theorem placement (launch team x y : Nat) : Statement (.placement launch team x y) := fun _ => trivial
theorem taskBegin (slot : Fin 8) : Statement (.taskBegin slot) := fun _ => trivial
theorem threadEnd (slot : Fin 8) : Statement (.threadEnd slot) := fun _ => trivial
theorem taskDispatch : Statement (.taskDispatch) := fun _ => trivial
theorem launchCompletion (launch : Nat) : Statement (.launchCompletion launch) := fun _ => trivial
theorem quantumExpiry (slot : Fin 8) : Statement (.quantumExpiry slot) := fun _ => trivial
theorem teamSwapOut : Statement (.teamSwapOut) := fun _ => trivial
theorem teamRestore (x y : Nat) : Statement (.teamRestore x y) := fun _ => trivial
theorem impreciseFaultArrival (slot : Fin 8) (seq : Nat) (cause : Word) : Statement (.impreciseFaultArrival slot seq cause) := fun _ => trivial
theorem trapEntry (slot : Fin 8) : Statement (.trapEntry slot) := fun _ => trivial
theorem userLevelEntry (slot : Fin 8) : Statement (.userLevelEntry slot) := fun _ => trivial
theorem threadKill (slot : Fin 8) : Statement (.threadKill slot) := fun _ => trivial
theorem gleaning (cluster : Nat) (failed : Option (Fin 4 × Fin 8 × Word)) : Statement (.gleaning cluster failed) := fun _ => trivial
theorem crossTriggerStop (wide : Bool) : Statement (.crossTriggerStop wide) := fun _ => trivial
theorem crossTriggerRelease : Statement (.crossTriggerRelease) := fun _ => trivial
theorem watchpointInsert (g : BitVec 42) : Statement (.watchpointInsert g) := fun _ => trivial
theorem watchpointClear : Statement (.watchpointClear) := fun _ => trivial
theorem traceEpochOverflow (ticks : TraceEvent) : Statement (.traceEpochOverflow ticks) := fun _ => trivial
theorem islandInterval : Statement (.islandInterval) := fun _ => trivial
theorem cxlMemRead (hpa : BitVec 52) : Statement (.cxlMemRead hpa) := fun _ => trivial
theorem cxlMemWritePlain (hpa : BitVec 52) (data : BitVec 512) (en : HostEnables) : Statement (.cxlMemWritePlain hpa data en) := fun _ => trivial
theorem cxlMemWriteFull (hpa : BitVec 52) (data : BitVec 512) (en : HostEnables) : Statement (.cxlMemWriteFull hpa data en) := fun _ => trivial
theorem snpdata (line : BitVec 52) : Statement (.snpdata line) := fun _ => trivial
theorem snpinv (line : BitVec 52) (data : BitVec 1024) : Statement (.snpinv line data) := fun _ => trivial
theorem cxlCacheResponse (line : BitVec 52) (data : BitVec 1024) (error : Bool) : Statement (.cxlCacheResponse line data error) := fun _ => trivial
theorem psiporFlitReceive (port : Fin 16) (crcOk : Bool) (k : Nat) (p : Packet) : Statement (.psiporFlitReceive port crcOk k p) := fun _ => trivial
theorem linkRetrainTimeout (port : Fin 16) : Statement (.linkRetrainTimeout port) := fun _ => trivial
theorem herrClear : Statement (.herrClear) := fun _ => trivial
theorem mcstClear (cluster : Nat) (bank : Fin 4) (v : Word) : Statement (.mcstClear cluster bank v) := fun _ => trivial
theorem negoGo : Statement (.negoGo) := fun _ => trivial
theorem sysint (v : Word) : Statement (.sysint v) := fun _ => trivial
theorem ctxcmd (v : Word) : Statement (.ctxcmd v) := fun _ => trivial
theorem registerWrite (at_ : BarAccess) (v : Word) : Statement (.registerWrite at_ v) := fun _ => trivial
theorem spdmRequest (block : Fin 5) (nonce : Nat) : Statement (.spdmRequest block nonce) := fun _ => trivial
theorem moduleReset : Statement (.moduleReset) := fun _ => trivial
theorem contextDies (why : Death) : Statement (.contextDies why) := fun _ => trivial
theorem linkFault (port : Fin 16) : Statement (.linkFault port) := fun _ => trivial
theorem linkRetrained (port : Fin 16) : Statement (.linkRetrained port) := fun _ => trivial
theorem thermalOrCurrentLimit (island : Nat) (on : Bool) : Statement (.thermalOrCurrentLimit island on) := fun _ => trivial
theorem firmwareTgtWrite (island : Nat) (tgt : BitVec 2) : Statement (.firmwareTgtWrite island tgt) := fun _ => trivial
theorem cxlIoUndefinedAccess (off : BitVec 52) : Statement (.cxlIoUndefinedAccess off) := fun _ => trivial

end Sys2Proof.Laws.Encoding
end

