-- ==== Sys2Proof/Tests/Slice0.lean ====
section
/-! SUPPORT. The model's own tests: ill-formed terms, words written out in the spec, single steps, and for every statement a state and operands that meet its hypotheses. -/

namespace Sys2Proof.Tests

open Sys2Proof Sys2Proof.Machine Sys2Proof.Safety Sys2Proof.Slice0

set_option Elab.async false

-- ## Well-formedness: one ill-formed term for each check

/-- R28: a short word has no immediate of eight or fifteen bits, and R30: a long word has none of five. -/
theorem test_wf_short_imm8 : (Instr.aluAddShort false (.imm8 0#8)).wellFormed = false := by decide
theorem test_wf_short_imm15 : (Instr.aluAddShort false (.imm15 0#15)).wellFormed = false := by decide
theorem test_wf_long_imm5 : (Instr.aluAddLong false .always (.imm5 0#5)).wellFormed = false := by decide
/-- R28: a short transport reaches destinations 0 to 63. -/
theorem test_wf_short_dest_x : (Instr.transportShort false (.x 0) (.w 1)).wellFormed = false := by decide
theorem test_wf_short_dest_port : (Instr.transportShort false (.port .aluB) (.w 1)).wellFormed = false := by decide
/-- R29: guards name p1 to p15. -/
theorem test_wf_guard_p0 : (Instr.transportLong false (.ifTrue 0) (.w 1) (.w 1)).wellFormed = false := by decide
theorem test_wf_guard_not_p0 : (Instr.aluAddLong false (.ifFalse 0) (.w 1)).wellFormed = false := by decide
theorem test_wf_good : (Instr.transportLong true (.ifFalse 15) (.port .rngS) (.imm15 0#15)).wellFormed = true := by decide

-- ## Decoding: words that the spec writes out (R24 to R36, and the chapters of each family)

/-- `x0 -> w5`, `w1 -> alu.add` (R28). -/
theorem test_decode_short_transport : decodeHalves 0x02B1 0 = .ok (.transportShort false (.w 5) (.x 0)) 2 := by decide
theorem test_decode_short_trigger : decodeHalves 0x2001 0 = .ok (.aluAddShort false (.w 1)) 2 := by decide
/-- `x1 -> mem.ld64 ^` (R28). -/
theorem test_decode_ld64_s : decodeHalves 0x70B2 0 = .ok (.memLd64Short true (.x 1)) 2 := by decide
/-- `#0x0400 -> alu.b` (R30). -/
theorem test_decode_imm15 : decodeHalves 0x8048 0x8400 = .ok (.transportLong false .always (.port .aluB) (.imm15 0x400#15)) 4 := by decide
/-- `?p3 #1 -> w3` (R29). -/
theorem test_decode_guard : decodeHalves 0x8603 0x0181 = .ok (.transportLong false (.ifTrue 3) (.w 3) (.imm8 129#8)) 4 := by decide
/-- `#0x213 -> prd.pand` (R213). -/
theorem test_decode_pand : decodeHalves 0x80AC 0x8213 = .ok (.prdPandLong false .always (.imm15 0x213#15)) 4 := by decide
/-- `#-6 -> ctl.jrel` and `?p2 #-40 -> ctl.jrel` (R218's chapter). -/
theorem test_decode_jrel_short : decodeHalves 0x38EA 0 = .ok (.ctlJrelShort false (.imm5 10#5)) 2 := by decide
theorem test_decode_jrel_long : decodeHalves 0x84B1 0x0158 = .ok (.ctlJrelLong false (.ifTrue 2) (.imm8 88#8)) 4 := by decide
/-- `#3 -> vec.run` and `#7 -> vec.rec` (R250, R251). -/
theorem test_decode_vec_run : decodeHalves 0x80D7 0x0183 = .ok (.vecRun false .always (.imm8 131#8)) 4 := by decide
theorem test_decode_vec_rec : decodeHalves 0x80D6 0x0187 = .ok (.vecRec false .always (.imm8 135#8)) 4 := by decide
/-- `w1 -> fpu.add`; `w3 -> sfu.exp2`; `w2 -> rng.next` (R256, R262, R269). -/
theorem test_decode_fpu_add : decodeHalves 0x80D8 0x0001 = .ok (.fpuAdd false .always (.w 1)) 4 := by decide
theorem test_decode_sfu_exp2 : decodeHalves 0x80E1 0x0003 = .ok (.sfuExp2 false .always (.w 3)) 4 := by decide
theorem test_decode_rng_next : decodeHalves 0x810F 0x0002 = .ok (.rngNext false .always (.w 2)) 4 := by decide
/-- `w3 -> amo.lrw ^` (R94's chapter). -/
theorem test_decode_amo : decodeHalves 0xC0ED 0x0003 = .ok (.amoLrw true .always (.w 3)) 4 := by decide
/-- trk.claim of a register (R47). -/
theorem test_decode_trk_claim : decodeHalves 0x3C70 0 = .ok (.trkClaimShort false (.imm5 16#5)) 2 := by decide
/-- `w4 -> mx.run` and `#0 -> mx.wait ^` (R289's chapter). -/
theorem test_decode_mx_run : decodeHalves 0x80F7 0x0004 = .ok (.mxRun false .always (.w 4)) 4 := by decide
theorem test_decode_mx_wait : decodeHalves 0xC0FC 0x0180 = .ok (.mxWait true .always (.imm8 128#8)) 4 := by decide
/-- `w5 -> nd.want`; `w8 -> nd.card ^` (R171, R176). -/
theorem test_decode_nd_want : decodeHalves 0x80FD 0x0005 = .ok (.ndWant false .always (.w 5)) 4 := by decide
theorem test_decode_nd_card : decodeHalves 0xC100 0x0008 = .ok (.ndCard true .always (.w 8)) 4 := by decide
/-- `w3 -> msg.send`, `w4 -> msg.recv ^`, `#1 -> msg.any ^` (R324 to R327). -/
theorem test_decode_msg_send : decodeHalves 0x8102 0x0003 = .ok (.msgSend false .always (.w 3)) 4 := by decide
theorem test_decode_msg_recv : decodeHalves 0xC103 0x0004 = .ok (.msgRecv true .always (.w 4)) 4 := by decide
theorem test_decode_msg_any : decodeHalves 0xC104 0x0181 = .ok (.msgAny true .always (.imm8 129#8)) 4 := by decide
/-- `w3 -> tsk.push`, `w4 -> tsk.pop ^`, `#0 -> tsk.park`, `#0 -> tsk.yield` (R350 to R355). -/
theorem test_decode_tsk_push : decodeHalves 0x8105 0x0003 = .ok (.tskPush false .always (.w 3)) 4 := by decide
theorem test_decode_tsk_pop : decodeHalves 0xC106 0x0004 = .ok (.tskPop true .always (.w 4)) 4 := by decide
theorem test_decode_tsk_park : decodeHalves 0x8107 0x0180 = .ok (.tskPark false .always (.imm8 128#8)) 4 := by decide
theorem test_decode_tsk_yield : decodeHalves 0x8108 0x0180 = .ok (.tskYield false .always (.imm8 128#8)) 4 := by decide
/-- `w10 -> sys.tlbi`, `#0 -> sys.halt`, a cpy.go with S (R75, R380, R101). -/
theorem test_decode_tlbi : decodeHalves 0x810C 0x000A = .ok (.sysTlbi false .always (.w 10)) 4 := by decide
theorem test_decode_halt : decodeHalves 0x810E 0x0180 = .ok (.sysHalt false .always (.imm8 128#8)) 4 := by decide
theorem test_decode_cpy_go : decodeHalves 0xC101 0x9000 = .ok (.cpyGo true .always (.imm15 0x1000#15)) 4 := by decide
/-- The halfwords 0xE4DB 0x0004 of the decoding walk-through stand as bytes DB E4 04 00. -/
theorem test_decode_bytes : decode [0xDB#8, 0xE4#8, 0x04#8, 0x00#8, 0x48#8] = .ok (.fpuFma true (.ifFalse 2) (.w 4)) 4 := by decide
/-- Reserved patterns are refused by name (R50): guard 16, source 55, destination 95, bits [14:9] of a long word. -/
theorem test_decode_guard16 : decodeHalves 0xA040 0x0001 = .bad .guard16 := by decide
theorem test_decode_source55 : decodeHalves 0x0037 0 = .bad .reservedSource := by decide
theorem test_decode_dest95 : decodeHalves 0x805F 0x0001 = .bad .reservedDest := by decide
theorem test_decode_bits : decodeHalves 0x8040 0x0201 = .bad .sourceBits := by decide
/-- The encoder gives the spec's words back. -/
theorem test_encode_jrel : encodeWord (.ctlJrelLong false (.ifTrue 2) (.imm8 88#8)) = some (.long 0x84B10158) := by decide
theorem test_encode_transport : encodeWord (.transportShort false (.w 5) (.x 0)) = some (.short 0x02B1) := by decide

-- ## Single steps on a small state

/-- A thread that runs at 0x1000 in slot 0, at user level. -/
def base : State := State.reset.setThr { Thread.reset with mode := .run, pc := 0x1000#64 }
/-- The same at supervisor level, with IE = 1. -/
def sup0 : State := base.onThr (fun t => t.setStatus true true true false)
def withW (s : State) (i : Fin 24) (v : Word) : State := s.onThr (fun t => { t with w := t.w.set i v })
def withX (s : State) (i : Fin 4) (v : Word) : State := s.onThr (fun t => { t with x := t.x.set i v })
def withQ (s : State) (i : Fin 16) (v : Quad) : State := s.onThr (fun t => { t with q := t.q.set i v })
def withOp (s : State) (p : OPort) (v : Quad) : State := s.onThr (fun t => t.setOp p v)

def after {α : Type} (o : Host.Outcome State Fault Refusal) (f : State → α) : Option α :=
  match o with
  | .next s => some (f s)
  | _ => none
/-- The values of the result that the current slot sent last, with its due rotation. -/
def sentVals (s : State) : Option (Nat × List Quad) := (s.thr.flight.getLast?).map (fun f => (f.due, (f.vals.getD []).map (·.val)))

/-- R202: add wraps, shl by 64 gives 0, sra by 64 gives the sign, clz of 0 gives 64. -/
theorem test_alu_add : after (exec (.aluAddShort false (.w 1)) (withOp (withW base 1 0xFFFFFFFFFFFFFFFF#64) .aluB 2)) sentVals = some (some (1, [1])) := by decide
theorem test_alu_shl : after (exec (.aluShlShort false (.w 1)) (withOp (withW base 1 3#64) .aluB 64)) sentVals = some (some (1, [0])) := by decide
theorem test_alu_sra : after (exec (.aluSraShort false (.w 1)) (withOp (withW base 1 0x8000000000000000#64) .aluB 64)) sentVals = some (some (1, [0xFFFFFFFFFFFFFFFF])) := by decide
theorem test_alu_clz : after (exec (.aluClzShort false (.w 1)) base) sentVals = some (some (1, [64])) := by decide
/-- R203, its table: −7 / 2, 7 / 0, the least number by −1, and mulhu and mulh of −1 and −1. -/
theorem test_mul_div : after (exec (.mulDivShort false (.w 1)) (withOp (withW base 1 (-7)) .mulB 2)) sentVals = some (some (5, [0xFFFFFFFFFFFFFFFD, 0xFFFFFFFFFFFFFFFF])) := by decide
theorem test_mul_rem : after (exec (.mulRemShort false (.w 1)) (withOp (withW base 1 (-7)) .mulB 2)) sentVals = some (some (5, [0xFFFFFFFFFFFFFFFF, 0xFFFFFFFFFFFFFFFD])) := by decide
theorem test_mul_div_zero : after (exec (.mulDivShort false (.w 1)) (withW base 1 7)) sentVals = some (some (5, [0xFFFFFFFFFFFFFFFF, 7])) := by decide
theorem test_mul_div_least : after (exec (.mulDivShort false (.w 1)) (withOp (withW base 1 0x8000000000000000#64) .mulB 0xFFFFFFFFFFFFFFFF)) sentVals = some (some (5, [0x8000000000000000, 0])) := by decide
theorem test_mul_mulhu : after (exec (.mulMulhuShort false (.w 1)) (withOp (withW base 1 (-1)) .mulB 0xFFFFFFFFFFFFFFFF)) sentVals = some (some (1, [0xFFFFFFFFFFFFFFFE, 1])) := by decide
theorem test_mul_mulh : after (exec (.mulMulhShort false (.w 1)) (withOp (withW base 1 (-1)) .mulB 0xFFFFFFFFFFFFFFFF)) sentVals = some (some (1, [0, 1])) := by decide
/-- R213: `#0x213 -> prd.pand` sets p3 from p1 and p2. -/
theorem test_prd_pand : after (exec (.prdPandLong false .always (.imm15 0x213#15)) (base.onThr (fun t => { t with p := 7#16 }))) (fun s => (s.thr.pred 3, s.thr.pc)) = some (true, 0x1004#64) := by decide
/-- R215: `#-6 -> ctl.jrel` jumps to pc − 12; ctl.call leaves the next word's address. -/
theorem test_jrel : after (exec (.ctlJrelShort false (.imm5 10#5)) base) (fun s => s.thr.pc) = some (0x0FF4#64) := by decide
theorem test_call : after (exec (.ctlCallLong false .always (.w 1)) (withW base 1 0x2000#64)) (fun s => (s.thr.pc, s.thr.lk)) = some (0x2000#64, 0x1004#64) := by decide
/-- R212: idx.bnd of 9 with a bound of 4 clamps to 3, two rotations later. -/
theorem test_bnd : after (exec (.idxBndShort false (.w 1)) (withOp (withW base 1 9) .idxB 4)) sentVals = some (some (2, [3])) := by decide
/-- R31: a transport to x.sh shifts 15 bits in: 7, then 0x7800. -/
theorem test_xsh : after (exec (.transportLong false .always (.xsh 0) (.imm15 0x7800#15)) (withX base 0 7#64)) (fun s => s.thr.x[(0 : Fin 4)]) = some 0x3F800#64 := by decide
/-- R29, R37: a guard that is false skips the transport. -/
theorem test_guard_false : after (exec (.transportLong false (.ifTrue 3) (.w 3) (.imm8 129#8)) base) (fun s => (s.thr.w[(3 : Fin 24)], s.thr.pc)) = some (0#64, 0x1004#64) := by decide
/-- R44: with nothing owed a word with S goes on. -/
theorem test_marker : after (exec (.transportShort true (.w 5) (.x 0)) (withX base 0 9)) (fun s => (s.thr.w[(5 : Fin 24)], s.thr.mode)) = some (9#64, .run) := by decide
/-- R152: an own-cluster store is sent to its bank with the low bytes of mem.d. -/
theorem test_store : after (exec (.memSt16Short false (.x 0)) (withOp (withX base 0 0xFE0000000010#64) .memD 0x12345)) (fun s => s.st.bankq.map (fun b => (b.req.loc, b.req.kind))) =
    some [(bankLoc 0 0x10, .store [0x45#8, 0x23#8] false)] := by decide
/-- R151: a misaligned load of 8 bytes at level supervisor with IE = 1 enters with 0x06, kind 1, SIZE 3. -/
theorem test_misaligned : after (exec (.memLd64Short false (.x 0)) ((withX sup0 0 0xFE0000000011#64).onThr (fun t => t.setCr crPsave 0xFE0000000400#64)))
    (fun s => (s.thr.cr[crCause], field s.thr.cr[crEpc] 47 0)) = some (0xFE00000000111306#64, 0x1000) := by decide +kernel
/-- R218: ctl.trap leaves its value in cr.cause and the next word's address in cr.epc. -/
theorem test_trap : after (exec (.ctlTrapShort false (.imm5 21#5)) (sup0.onThr (fun t => (t.setCr crPsave 0xFE0000000400#64).setCr crKvec 0x8000#64)))
    (fun s => (s.thr.cr[crCause], field s.thr.cr[crEpc] 47 0, s.thr.pc, s.thr.ie)) = some (0x50013#64, 0x1002, 0x8000#64, false) := by decide +kernel
/-- R370: with SUP = 1 and IE = 0 the same fault kills the thread. -/
theorem test_double_fault : after (exec (.memLd64Short false (.x 0)) ((withX base 0 0xFE0000000011#64).onThr (fun t => t.setStatus true false false false))) (fun s => s.thr.mode) = some .killed := by decide
/-- R125: trk.seek moves the head that the track keeps and charges the distance. -/
theorem test_seek : after (exec (.trkSeekLong false .always (.imm8 228#8)) (base.onCore (fun c => { c with tracks := c.tracks.set (0 : Fin 32) { Track.clean with owner := some (0, 0#6), h := 30 } })))
    (fun s => (s.core.tracks[(0 : Fin 32)].h, s.thr.cr[crShift])) = some (100, 70#64) := by decide
/-- R186, R188: cr.tid is read at user level, cr.kvec is not. -/
theorem test_crr : after (exec (.sysCrr false .always (.imm8 129#8)) (base.onThr (fun t => t.setCr crTid 77))) sentVals = some (some (1, [77])) := by decide
theorem test_crw : after (exec (.sysCrw false .always (.imm8 131#8)) (withX sup0 0 0x1234#64)) (fun s => s.thr.cr[crCause]) = some 0x1234#64 := by decide
/-- R355: tsk.yield makes the expiry pending. -/
theorem test_yield : after (exec (.tskYield false .always (.imm8 128#8)) base) (fun s => s.thr.expiry) = some (some true) := by decide
/-- R358: an arrival at a group that is not backed (LIM 0) takes the reserved port fault. -/
theorem test_arrive_none : after (exec (.synArrive false .always (.w 1)) (sup0.onThr (fun t => t.setCr crPsave 0xFE0000000400#64))) (fun s => field s.thr.cr[crCause] 7 0) = some 2 := by decide +kernel

-- ## Values

/-- The worked example of the floating-point chapter: 1 + 2^−24 to even and upward, with NX; 1.0 = 2^−24 fails; and
2^(1/2) by sfu.exp2. -/
theorem test_fpu_even : fAdd .b32 0 (fDecode .b32 0x3F800000) (fDecode .b32 0x33800000) = (0x3F800000, 0x10#6) := by decide
theorem test_fpu_up : fAdd .b32 2 (fDecode .b32 0x3F800000) (fDecode .b32 0x33800000) = (0x3F800001, 0x10#6) := by decide
theorem test_fpu_cmp : fCompare 0 (fDecode .b32 0x3F800000) (fDecode .b32 0x33800000) = (0, 0#6) := by decide
theorem test_sfu_exp2 : sfuExp2 (fDecode .b32 0x3F000000) = 0x3FB504F3 := by decide
/-- 1/2 of 2, the square root of 4, 6 = 2 × 3 at binary64 (R257). -/
theorem test_fpu_div : fDiv .b32 0 (fDecode .b32 0x3F800000) (fDecode .b32 0x40000000) = (0x3F000000, 0#6) := by decide
theorem test_fpu_sqrt : fSqrt .b64 0 (fDecode .b64 0x4010000000000000) = (0x4000000000000000, 0#6) := by decide
theorem test_fpu_mul : fMul .b64 0 (fDecode .b64 0x4000000000000000) (fDecode .b64 0x4008000000000000) = (0x4018000000000000, 0#6) := by decide
/-- R244, its table: shr of int32 elements by 5 in bits [4:0], sra of int64 by 3. -/
theorem test_vec_shr : (vecCompute Core.reset 0 .vecShr 0 0x80000000 0x105 0).map (·.1) = some 0x04000000 := by decide
theorem test_vec_sra : (vecCompute Core.reset 0 .vecSra 3 (BitVec.ofInt 128 (2 ^ 64 - 64)) 0xFFFFFFFFFFFFFF03 0).map (fun r => r.1.setWidth 64) = some (-8#64 : Word) := by decide

-- ## Witnesses: for every statement with hypotheses, a state and operands that meet them

theorem ci {g : Guard} {x : Source} {s : State} (h : s.thr.mode = .run ∧ s.thr.event? = none ∧ s.thr.seqr.left = 0 ∧ s.thr.seqr.run = none ∧
    guardHolds g s.thr = true ∧ sourceFault s x = none ∧ (popOf x).any (popHeld s) = false ∧ s.core.flaw = 0) : CanIssue g x s :=
  ⟨h.1, h.2.1, h.2.2.1, h.2.2.2.1, h.2.2.2.2.1, h.2.2.2.2.2.1, h.2.2.2.2.2.2.1, h.2.2.2.2.2.2.2⟩

theorem okOf {t : Trans} (h : (match t with | .ok _ _ _ => true | _ => false) = true) : ∃ loc attr s, t = .ok loc attr s := by
  cases t with
  | ok loc attr s => exact ⟨loc, attr, s, rfl⟩
  | _ => cases h

/-- A source that pops a stream, and a guard of a false predicate, issue too. -/
def strSt (b : Option Binding) (q : List StrEntry) (n : Fin 8) (s : State) : State :=
  s.onCore (fun c => { c with streams := c.streams.set n { bind := b, q, out := [] } })
def fed : State := strSt (some (.queue 1 0)) [{ val := 5, fault := none }] 3 base
theorem witness_pop : CanIssue (.ifFalse 2) (.str 3) fed := ci (by decide)

theorem witness_TransportWritesDestination : plainDest (.xsh 1) = true ∧ CanIssue .always (.imm5 0) base ∧ CanIssue (.ifFalse 15) (.str 3) fed :=
  ⟨rfl, ci (by decide), ci (by decide)⟩

/-- A queue with seven entries: the last place. -/
def seven : State := strSt (some (.queue 0 1)) (List.replicate 7 { val := 1, fault := none }) 2 base
def storePat : State := strSt (some (.pattern 0 true true false 0xFE0000000100#64 #v[4, 1, 1, 1] #v[8, 0, 0, 0] 3 0 0)) [] 2 base
theorem witness_StreamPushAppends_queue : seven.core.streams[(2 : Fin 8)].bind = some (.queue seven.cur 1) ∧ seven.core.streams[(2 : Fin 8)].q.length < 8 ∧
    CanIssue .always (.w 1) seven ∧ CanIssue (.ifTrue 0) (.imm15 7) seven := ⟨by decide, by decide, ci (by decide), ci (by decide)⟩
theorem witness_StreamPushAppends_pattern :
    storePat.core.streams[(2 : Fin 8)].bind = some (.pattern storePat.cur true true false 0xFE0000000100#64 #v[4, 1, 1, 1] #v[8, 0, 0, 0] 3 0 0) ∧
    3 < patternSize #v[4, 1, 1, 1] ∧ storePat.core.streams[(2 : Fin 8)].out.length < 8 ∧ storePat.thr.ringFull = false ∧
    popOf (.w 1) = none ∧
    (let va := patternAddr 0xFE0000000100#64 #v[4, 1, 1, 1] #v[8, 0, 0, 0] 3
     dataWalk storePat storePat.thr.walker va = none ∧ elementTrans storePat va = .ok (bankLoc 0 0x118) 0b01111#5 storePat ∧ (isOwn va && mxReading storePat) = false) ∧
    CanIssue .always (.w 1) storePat :=
  ⟨by decide, by decide, by decide, by decide, rfl, ⟨rfl, rfl, by decide⟩, ci (by decide)⟩

theorem witness_AluResults : CanIssue .always (.w 1) base ∧ CanIssue (.ifFalse 1) (.port .memO) base ∧ base.thr.orderHold 1 [.aluO] = false :=
  ⟨ci (by decide), ci (by decide), by decide⟩
/-- At both ends of clz: a highest bit, and the lowest alone. -/
theorem witness_AluResults_clz : (0x8000000000000000#64 : Word) ≠ 0 ∧ clzFrom (0x8000000000000000#64 : Word).toNat 64 = 0 ∧ clzFrom (1#64 : Word).toNat 64 = 63 := by decide
theorem witness_MulResults : CanIssue .always (.w 1) base ∧ CanIssue .always (.x 3) base ∧ base.thr.orderHold 1 [.mulO, .mulH] = false ∧
    base.thr.orderHold 5 [.mulO, .mulH] = false := ⟨ci (by decide), ci (by decide), by decide, by decide⟩
theorem witness_PredicateResults : CanIssue .always (.imm15 0x213) base ∧ operand64 base (.imm15 0x213) = BitVec.ofNat 64 (3 + 16 * 1 + 256 * 2) ∧
    CanIssue .always (.w 1) (withW base 1 0xFFF) ∧ operand64 (withW base 1 0xFFF) (.w 1) = BitVec.ofNat 64 (15 + 16 * 15 + 256 * 15) :=
  ⟨ci (by decide), by decide, ci (by decide), by decide⟩
theorem witness_PredicateResults_reserved : CanIssue .always (.w 1) (withW base 1 0x1000) ∧ field (operand64 (withW base 1 0x1000) (.w 1)) 63 12 ≠ 0 :=
  ⟨ci (by decide), by decide⟩
theorem witness_TransfersGoToTarget : CanIssue .always (.w 1) base ∧ (operand64 base (.w 1)).getLsbD 0 = false ∧ operand64 base (.w 1) = 0 ∧ base.thr.lk.getLsbD 0 = false :=
  ⟨ci (by decide), by decide, by decide, by decide⟩
theorem witness_OddTargetsFault : CanIssue .always (.imm5 17) base ∧ (operand64 base (.imm5 17)).getLsbD 0 = true := ⟨ci (by decide), by decide⟩
/-- ctl.ret with a trigger value other than 0, and with an odd lk. -/
def oddLk : State := withOp base .lk 0x2001
theorem witness_OddTargetsFault_ret : CanIssue .always (.imm5 17) base ∧ operand64 base (.imm5 17) ≠ 0 ∧
    CanIssue .always (.w 1) oddLk ∧ operand64 oddLk (.w 1) = 0 ∧ oddLk.thr.lk.getLsbD 0 = true := ⟨ci (by decide), by decide, ci (by decide), by decide, by decide⟩

/-- A shape of one extent of 4 with its reciprocal, in the core's shape cache. -/
def shaped : State :=
  (base.onThr (fun t => (t.setCr crShape 0x0001FE0000000000#64).setOp .idxSh 0)).onCore (fun c => { c with
    shapes := [(0#6, 0xFE0000000000, [1, 0, 4, BitVec.ofNat 64 (2 ^ 38 + 40 * 2 ^ 48), 0, 0, 0, 0, 0, 0, 0, 0, 0, 0, 0, 0])] })
theorem witness_IndexResults : 0 < ((withOp base .idxB 1).thr.opw .idxB).toInt ∧ field ((withOp base .idxB 0x000F000000000008).thr.opw .idxB) 63 52 = 0 ∧
    base.thr.orderHold 2 [.idxO0] = false ∧ CanIssue .always (.w 1) base := ⟨by decide, by decide, by decide, ci (by decide)⟩
theorem witness_IndexResults_tix : field (shaped.thr.opw .idxSh) 63 12 = 0 ∧ (shaped.thr.opw .idxSh).toNat < field shaped.thr.cr[crShape] 60 48 ∧
    (operand64 shaped (.imm8 131)).toNat < 2 ^ 40 ∧
    (∃ ws dims, (∀ k, shapeRead (popped shaped (.imm8 131)) (BitVec.ofNat 64 (field shaped.thr.cr[crShape] 47 7 * 128 + 128 * (shaped.thr.opw .idxSh).toNat)) k = k shaped ws) ∧
      shapeDims ws = some dims) ∧ shaped.thr.orderHold 2 [.idxO0, .idxO1, .idxO2, .idxO3, .idxO4] = false ∧ CanIssue .always (.imm8 131) shaped :=
  ⟨by decide, by decide, by decide, ⟨_, _, fun _ => rfl, rfl⟩, by decide, ci (by decide)⟩

def ownAt (a : Word) : State := withX base 0 (0xFE0000000000#64 + a)
/-- A thread whose save area lies in its own window. -/
def housed : State := sup0.onThr (fun t => (t.setCr crPsave 0xFE0000000400#64).setCr crKvec 0x8000#64)
theorem witness_TrapEntrySavesAndVectors : entryWaits housed 0 = false ∧ housed.slots[(0 : Fin 8)].uh = false ∧
    (∃ loc attr s1, saveArea housed 0 (housed.slots[(0 : Fin 8)].uintOf housed.slots[(0 : Fin 8)].areaUse) = .ok loc attr s1) ∧
    classify housed.slots[(0 : Fin 8)].psave = .own 0x400 ∧ ownPending housed 0 (winLoc housed 0x400) = false ∧ MemoryOk housed :=
  ⟨by decide, by decide, okOf (by decide), by decide, by decide, (by decide : Mem.wf housed.st.mem = true)⟩
def masked : State := base.onThr (fun t => t.setStatus true false false false)
theorem witness_DoubleFaultKills : masked.slots[(0 : Fin 8)].sup = true ∧ masked.slots[(0 : Fin 8)].ie = false := by decide
theorem witness_TrapWordsTakeException : CanIssue .always (.imm5 20) housed ∧ housed.thr.uh = false ∧
    let a := finish housed (popped housed (.imm5 20)) (housed.thr.pc + BitVec.ofNat 64 2) false false
    entryWaits a housed.cur = false ∧ ∃ loc attr s1, saveArea a housed.cur (a.thr.uintOf a.thr.areaUse) = .ok loc attr s1 :=
  ⟨ci (by decide), by decide, by decide, okOf (by decide)⟩
/-- With a result in flight the entry waits. -/
def flying : State := housed.onThr (fun t => { t with flight := [{ due := 3, tag := 0, ports := [.mulO], vals := none, flags := none }] })
theorem witness_TrapWordsTakeException_draining : CanIssue .always (.imm5 20) flying ∧
    (finish flying (popped flying (.imm5 20)) (flying.thr.pc + BitVec.ofNat 64 2) false false).thr.draining = true := ⟨ci (by decide), by decide⟩
/-- A user-level handler that issues ctl.trap, its area in its own window. -/
def inHandler : State := (ownAt 0).onThr (fun t => { (t.setStatus false true true true).setCr crPsave 0xFE0000000400#64 with ucur := some (1, 2) })
theorem witness_TrapWordsTakeException_handler : CanIssue .always (.imm5 20) inHandler ∧ inHandler.thr.uh = true ∧
    let a := finish inHandler (popped inHandler (.imm5 20)) (inHandler.thr.pc + BitVec.ofNat 64 2) false false
    entryWaits a inHandler.cur = false ∧ ∃ loc attr s1, areaPlace a inHandler.cur a.thr.psave true = .ok loc attr s1 :=
  ⟨ci (by decide), by decide, by decide, okOf (by decide)⟩
/-- R218, R372: out of the handler, cr.epc names the word after the trap and UHF is set. -/
theorem test_trap_in_handler : after (exec (.ctlTrapShort false (.imm5 21#5)) inHandler) (fun s => (field s.thr.cr[crEpc] 47 0, s.thr.cr[crEpc].getLsbD 50, s.thr.uh, s.thr.sup)) =
    some (0x1002, true, false, true) := by decide +kernel
theorem witness_EretRestores : CanIssue .always (.imm8 128) housed ∧ operand64 housed (.imm8 128) = 0 ∧ (housed.thr.sup = true ∨ housed.thr.uh = true) ∧ housed.thr.uh = false ∧
    housed.thr.pending = false ∧ housed.thr.flight = [] ∧ housed.thr.seqr.run.any (fun r => r.area.isNone) = false ∧ classify housed.thr.psave = .own 0x400 ∧
    amoPending (popped housed (.imm8 128)) housed.cur (winLoc housed 0x400) 1024 = false ∧
    (let y := scrub (popped housed (.imm8 128)) (winLoc housed 0x400) 1024
     firstMark (ownMarks y housed.cur y.nextId y.st.marks) (winLoc housed 0x400) 1024 = none) :=
  ⟨ci (by decide), by decide, by decide, by decide, by decide, by decide, by decide, by decide, by decide, by decide +kernel⟩
/-- The same out of a user-level handler, with UMK. -/
def inUser : State := inHandler.onThr (fun t => (t.setCr crUepc 0x1000000002000#64))
theorem witness_EretRestores_user : CanIssue .always (.imm8 128) inUser ∧ operand64 inUser (.imm8 128) = 0 ∧ inUser.thr.sup = false ∧ inUser.thr.uh = true ∧ inUser.thr.cr[crUepc].getLsbD 48 = true ∧
    inUser.thr.pending = false ∧ inUser.thr.flight = [] ∧ inUser.thr.seqr.run.any (fun r => r.area.isNone) = false ∧ classify inUser.thr.psave = .own 0x400 ∧
    amoPending (popped inUser (.imm8 128)) inUser.cur (winLoc inUser 0x400) 1024 = false ∧
    (let y := scrub (popped inUser (.imm8 128)) (winLoc inUser 0x400) 1024
     firstMark (ownMarks y inUser.cur y.nextId y.st.marks) (winLoc inUser 0x400) 1024 = none) :=
  ⟨ci (by decide), by decide, by decide, by decide, by decide, by decide, by decide, by decide, by decide, by decide, by decide +kernel⟩
/-- R377: UEPC, the level and the shadows as they were, UH and UMK clear. -/
theorem test_user_eret : after (exec (.sysEret false .always (.imm8 128)) (withW (inUser.onThr (fun t => { t with shadow := #v[7, 0, 0, 0] })) 20 9))
    (fun s => (s.thr.pc, s.thr.uh, s.thr.cr[crUepc].getLsbD 48, s.thr.w[(20 : Fin 24)], s.thr.shadow[(0 : Fin 4)])) = some (0x2000, false, false, 7, 9) := by decide +kernel
theorem witness_PrivilegedWordsFaultAtUser : CanIssue .always (.imm8 128) base ∧ base.thr.sup = false ∧ base.thr.uh = false := ⟨ci (by decide), by decide, by decide⟩
theorem witness_FalseGuardHasNoEffect : base.thr.mode = .run ∧ base.thr.event? = none ∧ base.thr.seqr.left = 0 ∧ guardHolds (.ifTrue 3) base.thr = false := by decide
def fencedSt : State := base.onThr (fun t => t.setFence [.memO])
theorem witness_FenceBitFaults : fencedSt.thr.mode = .run ∧ fencedSt.thr.seqr.left = 0 ∧ fencedSt.thr.seqr.run = none ∧ fencedSt.thr.fenced .memO = true ∧
    guardHolds (.ifFalse 3) fencedSt.thr = true := by decide
def admitting : State := let s := sup0.onThr (fun t => t.setFence [.memO]); { s with host := { s.host with featEn := BitVec.ofNat 256 0xF013F } }
theorem witness_FenceBitFaults_admitted : (∀ w, Admitted w admitting) ∧ admitting.thr.fenced .memO = true :=
  ⟨fun _ => ⟨fun _ => by decide, fun _ => .inl (by decide), fun _ _ => by decide, fun _ => by decide, fun _ => by decide, fun _ _ => by decide⟩, by decide⟩

-- Loads and stores: at the first and the last place of the own-cluster window, in a mesh window, and in paged memory.

/-- A thread with the page tables of `placeWord`; its page is read, written and fetched at user level, and carries full/empty
bits. -/
def paged : State :=
  let s := placeWord State.reset []
  (s.onSt (fun st => { st with mem := Mem.write st.mem (fetchRoot + 0x3008) (bytesLE 8 (fetchPage + 0x3F)) })).onCore
    (fun c => { c with tlb1 := c.tlb1.map (fun e => { e with attr := 0x0F }) })
/-- The same with the TLBs empty. -/
def unwalked : State := paged.onCore (fun c => { c with tlb1 := [] })
def pagedAt (a : Word) : State := withX paged 0 (fetchVa + a)
/-- A word of core (8, 0)'s bank 0, through the mesh window. -/
def meshAt (a : Word) : State := withX base 0 (0xFF0000800000#64 + a)

theorem lands {x : Source} {w y l : Bool} {s : State}
    (h : (dataWalk (popped s x) s.thr.walker (operand64 s x) == none && match translate (popped s x) s.thr.walker { user := !s.thr.sup, fetch := false, write := w, sync := y } (operand64 s x) with
      | .ok loc _ s1 => watched s1 (!w || l) w (operand64 s x) == none && !amoPending s1 s1.cur loc 16 && !mxReading s1
      | _ => false) = true) :
    ∃ loc s1, Lands x w y l loc s1 s ∧ amoPending s1 s1.cur loc 16 = false ∧ mxReading s1 = false := by
  rw [Bool.and_eq_true, beq_iff_eq] at h
  obtain ⟨h0, h⟩ := h
  split at h
  · rename_i loc attr s1 e
    simp only [Bool.and_eq_true, beq_iff_eq, Bool.not_eq_true'] at h
    exact ⟨loc, s1, ⟨h0, ⟨attr, e⟩, h.1.1⟩, h.1.2, h.2⟩
  · cases h

/-- The last quad of the own-cluster window, and its first byte. -/
theorem witness_LoadsIssue_own : Lands (.x 0) false false false (ownLoc 0 0x1FFF0) (ownAt 0x1FFF0) (ownAt 0x1FFF0) ∧
    isOwn (operand64 (ownAt 0x1FFF0) (.x 0)) = true ∧ (operand64 (ownAt 0x1FFF0) (.x 0)).toNat % 16 = 0 ∧
    amoPending (ownAt 0x1FFF0) (ownAt 0x1FFF0).cur (ownLoc 0 0x1FFF0) 16 = false ∧
    (ownAt 0x1FFF0).thr.fenced .memOq = false ∧ (ownAt 0x1FFF0).thr.orderHold 2 [.memOq] = false ∧ CanIssue .always (.x 0) (ownAt 0x1FFF0) :=
  ⟨⟨rfl, ⟨_, rfl⟩, by decide⟩, by decide, by decide, by decide, by decide, by decide, ci (by decide)⟩
def fencedOwn : State := (ownAt 0).onThr (fun t => t.setFence [.memO])
theorem witness_LoadsIssue_fenced : Lands (.x 0) false false false (ownLoc 0 0) fencedOwn fencedOwn ∧ isOwn (operand64 fencedOwn (.x 0)) = true ∧
    amoPending fencedOwn fencedOwn.cur (ownLoc 0 0) 8 = false ∧ fencedOwn.thr.fenced .memO = true ∧ CanIssue .always (.x 0) fencedOwn :=
  ⟨⟨rfl, ⟨_, rfl⟩, by decide⟩, by decide, by decide, by decide, ci (by decide)⟩
theorem witness_LoadsIssue_paged : (∃ loc s1, Lands (.x 0) false false false loc s1 (pagedAt 0x40) ∧ amoPending s1 s1.cur loc 16 = false ∧ mxReading s1 = false) ∧
    isPaged (operand64 (pagedAt 0x40) (.x 0)) = true ∧ (pagedAt 0x40).thr.ringFull = false ∧ CanIssue .always (.x 0) (pagedAt 0x40) :=
  ⟨lands (by decide +kernel), by decide, by decide, ci (by decide)⟩
theorem witness_LoadsIssue_mesh : Lands (.x 0) false false false (bankLoc 8 0x3FF8) (meshAt 0x3FF8) (meshAt 0x3FF8) ∧
    isOwn (operand64 (meshAt 0x3FF8) (.x 0)) = false ∧ isPaged (operand64 (meshAt 0x3FF8) (.x 0)) = false ∧ (meshAt 0x3FF8).thr.ringFull = false ∧
    amoPending (meshAt 0x3FF8) (meshAt 0x3FF8).cur (bankLoc 8 0x3FF8) 8 = false ∧ CanIssue .always (.x 0) (meshAt 0x3FF8) :=
  ⟨⟨rfl, ⟨_, rfl⟩, by decide⟩, by decide, by decide, by decide, by decide, ci (by decide)⟩
theorem witness_TranslationKeepsTheRest : ∃ loc attr s1, translate unwalked unwalked.thr.walker { user := true, fetch := false, write := false, sync := false } fetchVa = .ok loc attr s1 :=
  okOf (by decide +kernel)
/-- The same page from the L1 TLB, with no walk. -/
theorem witness_TranslationKeepsTheRest_hit : paged.thr.walker.l1 = true ∧ dataWalk paged paged.thr.walker fetchVa = none ∧
    ∃ loc attr s1, translate paged paged.thr.walker { user := true, fetch := false, write := false, sync := false } fetchVa = .ok loc attr s1 :=
  ⟨by decide, by decide, okOf (by decide +kernel)⟩
theorem witness_WaitingLoadsIssue_own : Lands (.x 0) false true false (ownLoc 0 0x1FFF8) (ownAt 0x1FFF8) (ownAt 0x1FFF8) ∧ isOwn (operand64 (ownAt 0x1FFF8) (.x 0)) = true ∧
    (operand64 (ownAt 0x1FFF8) (.x 0)).toNat % 8 = 0 ∧ amoPending (ownAt 0x1FFF8) (ownAt 0x1FFF8).cur (ownLoc 0 0x1FFF8) 8 = false ∧ CanIssue .always (.x 0) (ownAt 0x1FFF8) :=
  ⟨⟨rfl, ⟨_, rfl⟩, by decide⟩, by decide, by decide, by decide, ci (by decide)⟩
/-- With nothing of the thread on its way to the bank, and behind an earlier store to it that waits in the queue. -/
def behindSt : State := (ownAt 8).onThr (fun t => { t with psq := [{ slot := some 0, src := 0, tag := 0, counted := false, kind := .store [1] false, loc := ownLoc 0 0, va := 0xFE0000000000, known := [], rel := none, waits := [], own := true }] })
theorem witness_WaitingLoadsIssue_ldt : departsAtIssue (ownAt 0x1FFF8) (ownLoc 0 0x1FFF8) none = true ∧
    Lands (.x 0) false true false (ownLoc 0 8) behindSt behindSt ∧ isOwn (operand64 behindSt (.x 0)) = true ∧ (operand64 behindSt (.x 0)).toNat % 8 = 0 ∧
    amoPending behindSt behindSt.cur (ownLoc 0 8) 8 = false ∧ departsAtIssue behindSt (ownLoc 0 8) none = false ∧ CanIssue .always (.x 0) behindSt :=
  ⟨by decide, ⟨rfl, ⟨_, rfl⟩, by decide⟩, by decide, by decide, by decide, by decide, ci (by decide)⟩
theorem witness_WaitingLoadsIssue_paged : (∃ loc s1, Lands (.x 0) false true false loc s1 (pagedAt 0xFF8) ∧ amoPending s1 s1.cur loc 16 = false ∧ mxReading s1 = false) ∧
    isOwn (operand64 (pagedAt 0xFF8) (.x 0)) = false ∧ (operand64 (pagedAt 0xFF8) (.x 0)).toNat % 8 = 0 ∧ (pagedAt 0xFF8).thr.ringFull = false ∧ CanIssue .always (.x 0) (pagedAt 0xFF8) :=
  ⟨lands (by decide +kernel), by decide, by decide, by decide, ci (by decide)⟩
theorem witness_StoresAreSent : Lands (.x 0) true true false (ownLoc 0 0) (ownAt 0) (ownAt 0) ∧ (operand64 (ownAt 0) (.x 0)).toNat % 16 = 0 ∧
    storeHeld (ownAt 0).thr (!isOwn (operand64 (ownAt 0) (.x 0))) = false ∧ (isOwn (operand64 (ownAt 0) (.x 0)) && mxReading (ownAt 0)) = false ∧ CanIssue .always (.x 0) (ownAt 0) :=
  ⟨⟨rfl, ⟨_, rfl⟩, by decide⟩, by decide, by decide, by decide, ci (by decide)⟩
theorem witness_StoresAreSent_paged : (∃ loc s1, Lands (.x 0) true false false loc s1 (pagedAt 0) ∧ amoPending s1 s1.cur loc 16 = false ∧ mxReading s1 = false) ∧
    storeHeld (pagedAt 0).thr (!isOwn (operand64 (pagedAt 0) (.x 0))) = false ∧ CanIssue .always (.x 0) (pagedAt 0) := ⟨lands (by decide +kernel), by decide, ci (by decide)⟩
theorem witness_SteIsSent : Lands (.x 0) true true false (ownLoc 0 8) (ownAt 8) (ownAt 8) ∧ (operand64 (ownAt 8) (.x 0)).toNat % 8 = 0 ∧ storeHeld (ownAt 8).thr true = false ∧
    (isOwn (operand64 (ownAt 8) (.x 0)) && mxReading (ownAt 8)) = false ∧ CanIssue .always (.x 0) (ownAt 8) :=
  ⟨⟨rfl, ⟨_, rfl⟩, by decide⟩, by decide, by decide, by decide, ci (by decide)⟩
/-- One more than a multiple, for a width of 2, and one less than the next for 16. -/
theorem witness_MisalignedAccessFaults : CanIssue .always (.x 0) (ownAt 1) ∧ (operand64 (ownAt 1) (.x 0)).toNat % 2 ≠ 0 ∧
    CanIssue .always (.x 0) (ownAt 15) ∧ (operand64 (ownAt 15) (.x 0)).toNat % 16 ≠ 0 ∧ (operand64 (ownAt 15) (.x 0)).toNat % 8 ≠ 0 ∧
    (operand64 (ownAt 15) (.x 0)).toNat % 8 ≠ 1 := ⟨ci (by decide), by decide, ci (by decide), by decide, by decide, by decide⟩
theorem witness_PostedAtomicsAreSent : Lands (.x 0) true false false (ownLoc 0 8) (ownAt 8) (ownAt 8) ∧ (operand64 (ownAt 8) (.x 0)).toNat % 8 = 0 ∧
    storeHeld (ownAt 8).thr true = false ∧ (isOwn (operand64 (ownAt 8) (.x 0)) && mxReading (ownAt 8)) = false ∧ CanIssue .always (.x 0) (ownAt 8) :=
  ⟨⟨rfl, ⟨_, rfl⟩, by decide⟩, by decide, by decide, by decide, ci (by decide)⟩
/-- Group 0 of a die with one group selected by cr.bar, ticket 65,535. -/
def resvSt : State := (withOp (ownAt 0x10) .amoT 0xFFFF).onCore (fun c => { c with bar := 0x4000#64 })
theorem witness_ReservationWordsAreSent_lrw : CanIssue .always (.x 0) resvSt ∧ Lands (.x 0) true false true (ownLoc 0 0x10) resvSt resvSt ∧
    (operand64 resvSt (.x 0)).toNat % 8 = 0 ∧ field (resvSt.thr.opw .amoT) 63 25 = 0 ∧ selectorBad resvSt false 0 = false ∧
    resvSt.thr.resv.length < 4 ∧ resvSt.thr.resv.any (fun e => e.va == operand64 resvSt (.x 0)) = false ∧ resvSt.thr.ringFull = false ∧
    amoPending resvSt resvSt.cur (ownLoc 0 0x10) 8 = false :=
  ⟨ci (by decide), ⟨rfl, ⟨_, rfl⟩, by decide⟩, by decide, by decide, by decide, by decide, by decide, by decide, by decide⟩
def heldSt : State := (ownAt 0x11).onThr (fun t => { t with resv := [{ va := 0xFE0000000010#64, loc := ownLoc 0 0x10, granted := true }] })
theorem witness_ReservationWordsAreSent_scr : CanIssue .always (.x 0) heldSt ∧ operand64 heldSt (.x 0) = 0xFE0000000010#64 ||| 1 ∧
    (0xFE0000000010#64).toNat % 8 = 0 ∧ dataWalk (popped heldSt (.x 0)) heldSt.thr.walker 0xFE0000000010#64 = none ∧
    (∃ attr, translate (popped heldSt (.x 0)) heldSt.thr.walker { user := !heldSt.thr.sup, fetch := false, write := true, sync := false } 0xFE0000000010#64 = .ok (ownLoc 0 0x10) attr heldSt) ∧
    watched heldSt false true 0xFE0000000010#64 = none ∧ heldSt.thr.fenced .amoO = false ∧ heldSt.thr.resv.any (fun e => e.va == 0xFE0000000010#64) = true ∧
    storeHeld heldSt.thr true = false ∧ (isOwn 0xFE0000000010#64 && mxReading heldSt) = false :=
  ⟨ci (by decide), by decide, by decide, by decide, ⟨_, rfl⟩, by decide, by decide, by decide, by decide, by decide⟩

/-- A counted request to memory, met by a scope of the whole module. -/

theorem witness_FenceWordsOrder : CanIssue .always (.imm8 128) base ∧ operand64 base (.imm8 128) = 0 ∧ scBad (base.thr.opw .synSc) = false ∧
    (∀ c ∈ base.thr.counted, meets ((base.thr.opw .synSc).setWidth 42) base.coreId c.reach = false) ∧ readTags base = [] :=
  ⟨ci (by decide), by decide, by decide, by decide, by decide⟩
/-- A counted request with the reach of the module, and a load outstanding. -/
def countedSt : State := base.onThr (fun t => { t with counted := [{ tag := 7, reach := .module, refused := false }]
                                                       flight := [{ due := 2, tag := 8, ports := [.memO], vals := none, flags := none }] })
theorem witness_FenceWordsOrder_parks : CanIssue .always (.imm8 128) countedSt ∧ operand64 countedSt (.imm8 128) = 0 ∧ scBad (countedSt.thr.opw .synSc) = false ∧
    (∃ c ∈ countedSt.thr.counted, meets ((countedSt.thr.opw .synSc).setWidth 42) countedSt.coreId c.reach = true) ∧ readTags countedSt ≠ [] :=
  ⟨ci (by decide), by decide, by decide, by decide, by decide⟩

/-- Group 0 of the die, of one core's slot 0. -/
def grp0 : Group := { key := { wide := false, grp := 0 }, rect := 0#40, mask := 1#8, need := 1, arrived := [], gone := [], waits := [], gen := 4, pending := none, past := [] }
def groupSt (g : Group) : State :=
  let s := { sup0.onCore (fun c => { c with bar := 0x4000#64 }) with net := { sup0.net with groups := [g] } }
  s.onThr (fun t => { t with arrivals := [({ wide := false, grp := 0 }, 3)] })
theorem witness_BarrierWordsAct_arrive : CanIssue .always (.w 0) (groupSt grp0) ∧ field (operand64 (groupSt grp0) (.w 0)) 63 9 = 0 ∧
    selectorBad (groupSt grp0) (selector (groupSt grp0) (operand64 (groupSt grp0) (.w 0))).wide (selector (groupSt grp0) (operand64 (groupSt grp0) (.w 0))).grp = false ∧
    groupOf (groupSt grp0) (selector (groupSt grp0) (operand64 (groupSt grp0) (.w 0))) = some grp0 ∧ (groupSt grp0).thr.uh = false ∧
    (groupSt grp0).isMember grp0 ((groupSt grp0).threadNo (groupSt grp0).cur) = true ∧ grp0.arrived.any (fun y => y.1 == (groupSt grp0).threadNo (groupSt grp0).cur) = false ∧
    pendingReqs (groupSt grp0) (groupSt grp0).cur = [] := ⟨ci (by decide), by decide, by decide, by decide, by decide, by decide, by decide, by decide⟩
/-- Waits on a closed generation, whose arrivals have a release, and on the open one. -/
def grpPast : Group := { grp0 with past := [(3, [{ scope := 0, core := none, src := 0, rel := [(0x100, 5)] }])] }
theorem witness_BarrierWordsAct_past : groupOf (groupSt grpPast) (selector (groupSt grpPast) (operand64 (groupSt grpPast) (.w 0))) = some grpPast ∧ 3 < grpPast.gen ∧
    ∃ p ∈ grpPast.past, p.1 = 3 ∧ ∃ r ∈ p.2, ∃ e ∈ r.rel, e.2 ≠ 0 := ⟨by decide, by decide, by decide⟩
theorem witness_BarrierWordsAct_wait : (groupSt grp0).thr.arrivals.find? (fun y => y.1 == selector (groupSt grp0) (operand64 (groupSt grp0) (.w 0))) = some ({ wide := false, grp := 0 }, 3) ∧
    3 < grp0.gen ∧ ({ grp0 with gen := 3 } : Group).gen ≤ 3 ∧ groupOf (groupSt { grp0 with gen := 3 }) (selector (groupSt { grp0 with gen := 3 }) (operand64 (groupSt { grp0 with gen := 3 }) (.w 0))) = some { grp0 with gen := 3 } := by decide
theorem witness_BarrierWordsAct_mask : let s := groupSt { grp0 with arrived := [(9, { scope := 0, core := none, src := 0, rel := [] })] }
    s.thr.sup = true ∧ field s.thr.x[(0 : Fin 4)] 63 40 = 0 ∧ field s.thr.x[(1 : Fin 4)] 63 8 = 0 ∧
    field s.thr.x[(0 : Fin 4)] 9 0 / 256 = dieOf s.coreId % 4 ∧ field s.thr.x[(0 : Fin 4)] 29 20 / 256 = dieOf s.coreId % 4 ∧
    field s.thr.x[(0 : Fin 4)] 19 10 / 256 = dieOf s.coreId / 4 ∧ field s.thr.x[(0 : Fin 4)] 39 30 / 256 = dieOf s.coreId / 4 ∧
    groupOf s (selector s (operand64 s (.w 0))) = some { grp0 with arrived := [(9, { scope := 0, core := none, src := 0, rel := [] })] } ∧
    CanIssue .always (.w 0) s ∧ (groupOf (groupSt grp0) { wide := false, grp := 0 }).map (·.arrived) = some [] :=
  ⟨by decide, by decide, by decide, by decide, by decide, by decide, by decide, by decide, ci (by decide), by decide⟩

/-- Track 31, owned with its head at the last position, in two states of its owner. -/
def trackSt (k : Track) : State := (withOp base .trkN 31).onCore (fun c => { c with tracks := c.tracks.set (31 : Fin 32) k })
theorem witness_TrackWordsQueue_claim : field ((trackSt Track.clean).thr.opw .trkN) 63 5 = 0 ∧ trackQueued (trackSt Track.clean) < 16 ∧
    ((trackSt Track.clean).track (trackSt Track.clean).thr.trackNo).owner = none ∧ ((trackSt Track.clean).track (trackSt Track.clean).thr.trackNo).retired = false ∧
    ((trackSt Track.clean).track (trackSt Track.clean).thr.trackNo).clearing = false ∧ CanIssue .always (.w 0) (trackSt Track.clean) ∧ operand64 (trackSt Track.clean) (.w 0) = 0 :=
  ⟨by decide, by decide, by decide, by decide, by decide, ci (by decide), by decide⟩
def mine : State := withW (withX (trackSt { Track.clean with owner := some (0, 0#6), h := 504 }) 0 7) 1 511
theorem witness_TrackWordsQueue : field (mine.thr.opw .trkN) 63 5 = 0 ∧ trackQueued mine < 16 ∧ (mine.track mine.thr.trackNo).owner = some (ownerOf mine mine.cur) ∧
    onTrack (mine.track mine.thr.trackNo).h = true ∧ (mine.track mine.thr.trackNo).poisoned = false ∧ CanIssue .always (.w 0) mine ∧ operand64 mine (.w 0) = 0 ∧
    CanIssue .always (.w 1) mine ∧ operand64 mine (.w 1) = BitVec.ofNat 64 511 ∧ ((511 : Nat) : Int) = (mine.track mine.thr.trackNo).h + mine.thr.trackStep ∧
    field mine.thr.x[(0 : Fin 4)] 63 4 = 0 ∧ (mine.track mine.thr.trackNo).h < 512 :=
  ⟨by decide, by decide, by decide, by decide, by decide, ci (by decide), by decide, ci (by decide), by decide, by decide, by decide, by decide⟩
def foreign : State := trackSt { Track.clean with owner := some (1, 0#6) }
theorem witness_TrackFaultsReported : CanIssue .always (.w 0) foreign ∧ popOf (.w 0) = none ∧ operand64 foreign (.w 0) = 0 ∧ field (foreign.thr.opw .trkN) 63 5 = 0 ∧
    (foreign.track foreign.thr.trackNo).owner = some (1, 0#6) ∧ (1, 0#6) ≠ ownerOf foreign foreign.cur := ⟨ci (by decide), by decide, by decide, by decide, by decide, by decide⟩
theorem witness_TrackFaultsReported_none : CanIssue .always (.w 0) (trackSt { Track.clean with retired := true }) ∧
    ((trackSt { Track.clean with retired := true }).track (trackSt { Track.clean with retired := true }).thr.trackNo).owner = none ∧
    ((trackSt { Track.clean with retired := true }).track (trackSt { Track.clean with retired := true }).thr.trackNo).retired = true := ⟨ci (by decide), by decide, by decide⟩
def poisonedSt : State := trackSt { Track.clean with owner := some (0, 0#6), poisoned := true }
/-- Reserved bits of trk.n, of x0 and of the value; heads past both ends. -/
theorem witness_TrackFaultsReported_range : CanIssue .always (.w 0) (withOp base .trkN 32) ∧ field ((withOp base .trkN 32).thr.opw .trkN) 63 5 ≠ 0 ∧ operand64 mine (.w 1) ≠ 0 ∧
    field (withX mine 0 16).thr.x[(0 : Fin 4)] 63 4 ≠ 0 ∧ CanIssue .always (.w 0) (withX mine 0 16) ∧ onTrack ((mine.track mine.thr.trackNo).h + (withX mine 0 8).thr.trackStep) = true ∧
    onTrack (((trackSt { Track.clean with owner := some (0, 0#6), h := 511 }).track 31).h + (withX mine 0 1).thr.trackStep) = false ∧
    512 ≤ (operand64 (withW mine 1 512) (.w 1)).toNat ∧ CanIssue .always (.w 1) (withW mine 1 512) ∧ onTrack ((mine.track mine.thr.trackNo).h + (8 : Word).toInt) = false ∧
    onTrack ((mine.track mine.thr.trackNo).h + (-505 : Word).toInt) = false :=
  ⟨ci (by decide), by decide, by decide, by decide, ci (by decide), by decide, by decide, by decide, ci (by decide), by decide, by decide⟩
theorem witness_TrackFaultsReported_own : CanIssue .always (.w 0) poisonedSt ∧ (poisonedSt.track poisonedSt.thr.trackNo).owner = some (ownerOf poisonedSt poisonedSt.cur) ∧
    (poisonedSt.track poisonedSt.thr.trackNo).poisoned = true := ⟨ci (by decide), by decide, by decide⟩

/-- An accepted type word, and a refused one: TY 7. -/
theorem witness_VecResults : CanIssue .always (.q 0) base ∧
    vecCompute base.core base.thr.cr[crFmt] .vecAdd (base.thr.opw .vecTy) (operand base (.q 0)) (base.thr.opq .vecB) (base.thr.opq .vecC) = some (0, false) ∧
    base.thr.orderHold 1 [.vecO] = false ∧ vecCompute (withOp base .vecTy 7).core 0 .vecAdd ((withOp base .vecTy 7).thr.opw .vecTy) 0 0 0 = none ∧ CanIssue .always (.q 0) (withOp base .vecTy 7) :=
  ⟨ci (by decide), by decide, by decide, by decide, ci (by decide)⟩
/-- 8-bit elements, saturating and unsigned, and the sixteenth; 64-bit elements and the second. -/
theorem witness_VecIntegerElements : field (0x19#64 : Word) 63 12 = 0 ∧ (0x19#64 : Word).getLsbD 7 = false ∧ field (0x19#64 : Word) 2 0 ≤ 3 ∧ 15 < 128 / tyWidth (field (0x19#64 : Word) 2 0) ∧
    field (3#64 : Word) 2 0 ≤ 3 ∧ 1 < 128 / tyWidth (field (3#64 : Word) 2 0) := by decide

theorem witness_SequencerCapturesAndRuns_rec : CanIssue .always (.imm8 144) base ∧ operand64 base (.imm8 144) = BitVec.ofNat 64 16 := ⟨ci (by decide), by decide⟩
def capturing : State := base.onThr (fun t => { t with seqr := { t.seqr with left := 1 } })
theorem witness_SequencerCapturesAndRuns_capture : capturing.thr.mode = .run ∧ capturing.thr.event? = none ∧ capturing.thr.seqr.left ≠ 0 ∧ capturing.thr.seqr.paused = 0 ∧
    Captures (.q 15) capturing (.q 15) ∧ Captures (.imm5 0) capturing (.imm (BitVec.ofInt 64 (-16))) ∧ Captures (.port .vecO) capturing .vecO ∧ Captures (.str 7) capturing (.str 7) :=
  ⟨by decide, by decide, by decide, by decide, .inl ⟨_, rfl, rfl⟩, .inr (.inr (.inr ⟨.inl ⟨_, rfl⟩, by decide⟩)), .inr (.inr (.inl ⟨rfl, rfl⟩)), .inr (.inl ⟨_, rfl, rfl⟩)⟩
/-- R250: a captured transport joins the buffer and pops nothing; a guarded word under capture raises reserved port and ends it. -/
theorem test_capture : after (exec (.transportShort false (.q 3) (.imm5 0#5)) capturing) (fun s => (s.thr.seqr.buf, s.thr.seqr.left, s.thr.q[(3 : Fin 16)])) =
    some ([{ src := .imm (BitVec.ofInt 64 (-16)), dst := .q 3 }], 0, 0) := by decide
def captured : State := base.onThr (fun t => { t with seqr := { t.seqr with buf := [{ src := .q 1, dst := .q 2 }] } })
theorem witness_SequencerCapturesAndRuns_run : CanIssue .always (.imm15 0x3FFF) captured ∧ captured.thr.seqr.buf ≠ [] ∧
    runStreamFault (popped captured (.imm15 0x3FFF)) captured.thr.seqr.buf = none ∧ operand64 captured (.imm15 0x3FFF) = BitVec.ofNat 64 0x3FFF ∧ captured.thr.ringFull = false ∧
    CanIssue .always (.w 0) captured ∧ operand64 captured (.w 0) = BitVec.ofNat 64 0 := ⟨ci (by decide), by decide, by decide, by decide, by decide, ci (by decide), by decide⟩

/-- After negotiation every feature of every die is on. -/
def featured (s : State) : State := { s with host := { s.host with featEn := BitVec.ofNat 256 0xF013F } }
theorem witness_FpuResults : let s := withOp (featured base) .fpuTy 0x81
    CanIssue .always (.w 1) s ∧ field (s.thr.opw .fpuTy) 63 12 = 0 ∧ field (s.thr.opw .fpuTy) 4 1 = 0 ∧ (s.thr.opw .fpuTy).getLsbD 0 = true ∧
    featOn s (dieOf s.coreId) 2 = true ∧ s.thr.orderHold 6 [.fpuO] = false ∧ s.thr.orderHold 1 [.fpuO] = false ∧ (s.thr.opw .fpuTy).getLsbD 7 = true ∧ flagsOwed s.thr = false :=
  ⟨ci (by decide), by decide, by decide, by decide, by decide, by decide, by decide, by decide, by decide⟩
theorem witness_FpuResults_absent : CanIssue .always (.w 1) (withOp base .fpuTy 1) ∧ ((withOp base .fpuTy 1).thr.opw .fpuTy).getLsbD 0 = true ∧
    featOn (withOp base .fpuTy 1) (dieOf (withOp base .fpuTy 1).coreId) 2 = false := ⟨ci (by decide), by decide, by decide⟩
theorem witness_FunctionUnitResults : CanIssue .always (.w 1) (featured base) ∧ featOn (featured base) (dieOf (featured base).coreId) 0 = true ∧ (featured base).thr.orderHold 3 [.sfuO] = false ∧
    CanIssue .always (.w 1) base ∧ featOn base (dieOf base.coreId) 0 = false ∧ field (base.thr.opw .rngS) 63 48 = 0 ∧ base.thr.orderHold 2 [.rngO] = false :=
  ⟨ci (by decide), by decide, by decide, ci (by decide), by decide, by decide, by decide⟩
/-- The last counter, and the first that faults. -/
theorem witness_FunctionUnitResults_rng : CanIssue .always (.w 1) (withW base 1 0xFFFFFFFFFFFF#64) ∧ (operand64 (withW base 1 0xFFFFFFFFFFFF#64) (.w 1)).toNat < 2 ^ 48 ∧
    CanIssue .always (.w 1) (withW base 1 0x1000000000000#64) ∧ 2 ^ 48 ≤ (operand64 (withW base 1 0x1000000000000#64) (.w 1)).toNat := ⟨ci (by decide), by decide, ci (by decide), by decide⟩

/-- A queue from slot 0 to slot 1, which holds a thread of the context. -/
def two : State := (withW base 1 (7 + 8 + 16 * 0 + 128 * 1)).onSlot 1 (fun t => { t with mode := .run })
theorem witness_StreamsBindAndFree_queue : CanIssue .always (.w 1) two ∧ popOf (.w 1) = none ∧ operand64 two (.w 1) = BitVec.ofNat 64 ((7 : Fin 8).val + 8 + 16 * (0 : Fin 8).val + 128 * (1 : Fin 8).val) ∧
    (0 : Fin 8) = two.cur ∧ slotHolds two 1 two.thr.cid = true ∧ two.core.streams[(7 : Fin 8)].bind = none := ⟨ci (by decide), by decide, by decide, by decide, by decide, by decide⟩
/-- A store pattern of quads, and a load pattern of words. -/
def patSt (v : Word) : State := (withW base 1 v).onThr (fun t => { t with x := #v[0xFE0000000100#64, 0x0001000100010003#64, 0x10#64, 0#64] })
theorem witness_StreamsBindAndFree_pattern : CanIssue .always (.w 1) (patSt 0xC02) ∧ operand64 (patSt 0xC02) (.w 1) = BitVec.ofNat 64 (2 + 1024 * true.toNat + 2048 * true.toNat) ∧
    operand64 (patSt 2) (.w 1) = BitVec.ofNat 64 (2 + 1024 * false.toNat + 2048 * false.toNat) ∧ (patSt 2).thr.counted = [] ∧
    (let r := (patSt 0xC02).thr.x
     (∀ i : Fin 4, (#v[field r[(1 : Fin 4)] 15 0, field r[(1 : Fin 4)] 31 16, field r[(1 : Fin 4)] 47 32, field r[(1 : Fin 4)] 63 48] : Vector Nat 4)[i] ≠ 0 ∧
       (#v[stride r[(2 : Fin 4)] false, stride r[(2 : Fin 4)] true, stride r[(3 : Fin 4)] false, stride r[(3 : Fin 4)] true] : Vector Int 4)[i] % 16 = 0) ∧
     r[(0 : Fin 4)].toNat % 16 = 0 ∧ classify r[(0 : Fin 4)] ≠ .nonCanon ∧ classify r[(0 : Fin 4)] ≠ .hole) ∧ (patSt 0xC02).core.streams[(2 : Fin 8)].bind = none :=
  ⟨ci (by decide), by decide, by decide, by decide, by decide, by decide⟩
theorem witness_StreamsBindAndFree_free : CanIssue .always (.imm5 18) storePat ∧ operand64 storePat (.imm5 18) = BitVec.ofNat 64 (2 : Fin 8).val ∧
    storePat.core.streams[(2 : Fin 8)].bind = some (.pattern storePat.cur true true false 0xFE0000000100#64 #v[4, 1, 1, 1] #v[8, 0, 0, 0] 3 0 0) ∧
    (strSt (some (.queue 0 1)) [] 2 base).core.streams[(2 : Fin 8)].bind = some (.queue base.cur 1) ∧ (strSt (some (.queue 0 1)) [] 2 base).core.streams[(2 : Fin 8)].q = [] ∧
    CanIssue .always (.imm5 18) (strSt (some (.queue 0 1)) [] 2 base) := ⟨ci (by decide), by decide, by decide, by decide, by decide, ci (by decide)⟩

def mxSt (v : Word) (xs : Vector Word 4) : State := (withW (featured base) 1 v).onThr (fun t => { t with x := xs })
/-- On a die without the features. -/
theorem witness_MatrixCommandsQueue_off : let s := withX base 1 0x404
    CanIssue .always (.w 1) s ∧ mxPat s.thr.x[(1 : Fin 4)] ≠ 0 ∧ featOn s (dieOf s.coreId) 3 = false ∧ featOn s (dieOf s.coreId) 1 = false :=
  ⟨ci (by decide), by decide, by decide, by decide⟩
/-- A run of K = 4 with a pattern, a count of K = 8, a drain, and a store of int32 rows. -/
theorem witness_MatrixCommandsQueue_run : let s := mxSt 0xFE0000000000 #v[0xFE0000000400, 0x404, 0x100010, 0xFE0000000800]
    CanIssue .always (.w 1) s ∧ s.core.mx.queue.length < 4 ∧ s.thr.ringFull = false ∧ mxPat s.thr.x[(1 : Fin 4)] ≠ 0 ∧ featOn s (dieOf s.coreId) 3 = true ∧
    mxOperandFault true (operand64 s (.w 1)) s.thr.x = none := ⟨ci (by decide), by decide, by decide, by decide, by decide, by decide⟩
theorem witness_MatrixCommandsQueue_cnt : let s := mxSt 0xFE0000000000 #v[0xFE0000000400, 8, 0x100010, 0]
    CanIssue .always (.w 1) s ∧ featOn s (dieOf s.coreId) 1 = true ∧ mxOperandFault false (operand64 s (.w 1)) s.thr.x = none ∧ operand64 s (.w 0) = 0 ∧ CanIssue .always (.w 0) s :=
  ⟨ci (by decide), by decide, by decide, by decide, ci (by decide)⟩
theorem witness_MatrixCommandsQueue_st : let s := mxSt 0xFE0000000000 #v[0x200000, 0, 0, 0]
    CanIssue .always (.w 1) s ∧ mxStoreFault (operand64 s (.w 1)) s.thr.x[(0 : Fin 4)] = none := ⟨ci (by decide), by decide⟩
def cmd0 : MxCmd := { op := .mxDrn, slot := 0, tag := 0, seq := 0, a := 0, xs := #v[0, 0, 0, 0], fmt := 0, scale := 0, known := [], rel := [], born := 0, written := 0, clamp := false }
def queued : State := (featured base).onCore (fun c => { c with mx := { c.mx with queue := [cmd0] } })
theorem witness_MatrixWaitReports : CanIssue .always (.w 0) base ∧ operand64 base (.w 0) = 0 ∧ base.thr.mxWaits = [] ∧ (∀ c ∈ base.core.mx.queue, c.slot ≠ base.cur) ∧
    CanIssue .always (.w 0) queued ∧ operand64 queued (.w 0) = 0 ∧ queued.thr.mxWaits = [] ∧ ∃ c ∈ queued.core.mx.queue, c.slot = queued.cur ∧ c.tag < queued.nextId :=
  ⟨ci (by decide), by decide, by decide, by decide, ci (by decide), by decide, by decide, ⟨cmd0, by decide, by decide, by decide⟩⟩

/-- One tensor of context 0: one tile of 128 bytes, produced by core (0, 0). -/
def tens0 : Tensor := { cid := 0, index := 0, w0 := 0, w1 := 1, w2 := 0, w3 := 0, w4 := 0, w5 := 0 }
def tileSt : State :=
  let s := (withW base 1 0xFE000001FF80).onThr (fun t => t.setCr crTens 0x0001000000000000#64)
  { s with net := { s.net with tensors := [tens0] } }
theorem witness_TileWordsAct : CanIssue .always (.w 1) tileSt ∧ field tileSt.thr.x[(0 : Fin 4)] 63 40 = 0 ∧ field tileSt.thr.x[(1 : Fin 4)] 63 32 = 0 ∧
    nameRecord tileSt tileSt.thr.tileName true = some tens0 ∧ windowFault (operand64 tileSt (.w 1)) 128 tens0.size = none ∧ tileSt.thr.opw .ndD = 0 ∧
    tileSt.core.interests.length < 32 ∧ tileSt.thr.ringFull = false ∧ tens0.hasCore tileSt.coreId = true ∧ tens0.mod = 0 ∧
    (∀ k < tens0.size / 8, amoPending (popped tileSt (.w 1)) tileSt.cur (winLoc tileSt (field (operand64 tileSt (.w 1)) 16 0 + 8 * k)) 8 = false) ∧
    tileSt.core.interests.find? (fun i => i.slot == tileSt.cur && i.nm == tileSt.thr.tileName && i.dest == field (operand64 tileSt (.w 1)) 16 0 && i.card.isNone) = none :=
  ⟨ci (by decide), by decide, by decide, by decide, by decide, by decide, by decide, by decide, by decide, by decide, by decide, by decide⟩
def wanting : State := tileSt.onCore (fun c => { c with interests := [{ num := 0, slot := 0, nm := tileSt.thr.tileName, dest := 0x1FF80, card := none, tag := 0, area := none }] })
theorem witness_TileWordsAct_drop : CanIssue .always (.w 1) wanting ∧
    (wanting.core.interests.find? (fun i => i.slot == wanting.cur && i.nm == wanting.thr.tileName && i.dest == field (operand64 wanting (.w 1)) 16 0 && i.card.isNone)).isSome = true ∧
    nameRecord wanting wanting.thr.tileName true = some tens0 ∧ wanting.thr.opw .ndD = 0 := ⟨ci (by decide), by decide, by decide, by decide⟩
theorem witness_TileWordsAct_retire : CanIssue .always (.w 0) (withOp tileSt .ndD 1) ∧ nameRecord (withOp tileSt .ndD 1) (withOp tileSt .ndD 1).thr.tileName false = some tens0 ∧
    (withOp tileSt .ndD 1).thr.opw .ndD = 1 ∧ operand64 (withOp tileSt .ndD 1) (.w 0) = 0 := ⟨ci (by decide), by decide, by decide, by decide⟩

/-- A card without names, whose entry is 0x4000, at window offset 0. -/
def cardSt : State := (withW base 1 0xFE0000000000).onSt (fun st => { st with mem := Mem.write st.mem (winLoc base 0) (bytesLE 8 0x4000) })
def cardMem : State := winScrub (popped cardSt (.w 1)) 0 128
def cardBytes : List Byte := (List.range 16).flatMap (fun k => (bankWord cardMem cardSt.cur cardSt.nextId (winLoc cardSt (0 + 8 * k))).1)
theorem witness_CardTakesInterests : CanIssue .always (.w 1) cardSt ∧ field (operand64 cardSt (.w 1)) 16 0 = 0 ∧ windowFault (operand64 cardSt (.w 1)) 128 128 = none ∧
    (∀ k ∈ cardReads 0, amoPending cardMem cardSt.cur (winLoc cardSt (0 + 8 * k)) 8 = false ∧ (bankWord cardMem cardSt.cur cardSt.nextId (winLoc cardSt (0 + 8 * k))).2 ≠ 1) ∧
    entryOk (cardWord cardBytes 0) = true ∧ field (cardWord cardBytes 1) 63 5 = 0 ∧ field (cardWord cardBytes 1) 4 2 = 0 ∧ cardWord cardBytes 3 = 0 ∧
    cardSt.thr.ringFull = false ∧ cardSt.core.interests.length + 0 ≤ 32 ∧ cardSt.core.cards.any (fun c => c.id == Fin.ofNat 32 cardSt.core.ncard) = false :=
  ⟨ci (by decide), by decide, by decide, by decide +kernel, by decide +kernel, by decide +kernel, by decide +kernel, by decide +kernel, by decide, by decide, by decide⟩
/-- A card with one name. -/
def cardSt1 : State := (tileSt.onThr (fun t => { t with w := t.w.set 1 0xFE0000000000 })).onSt
  (fun st => { st with mem := Mem.write st.mem (winLoc base 0) (bytesLE 8 0x4000 ++ bytesLE 8 4) })
def cardMem1 : State := winScrub (popped cardSt1 (.w 1)) 0 128
def cardBytes1 : List Byte := (List.range 16).flatMap (fun k => (bankWord cardMem1 cardSt1.cur cardSt1.nextId (winLoc cardSt1 (0 + 8 * k))).1)
theorem witness_CardTakesInterests_name : CanIssue .always (.w 1) cardSt1 ∧ field (operand64 cardSt1 (.w 1)) 16 0 = 0 ∧ field (cardWord cardBytes1 1) 4 2 = 1 ∧
    (∀ k ∈ cardReads 1, amoPending cardMem1 cardSt1.cur (winLoc cardSt1 (0 + 8 * k)) 8 = false ∧ (bankWord cardMem1 cardSt1.cur cardSt1.nextId (winLoc cardSt1 (0 + 8 * k))).2 ≠ 1) ∧
    entryOk (cardWord cardBytes1 0) = true ∧ cardWord cardBytes1 3 = 0 ∧ (cardName cardMem1 cardBytes1 0).isSome = true ∧ cardSt1.core.interests.length + 1 ≤ 32 :=
  ⟨ci (by decide), by decide, by decide +kernel, by decide +kernel, by decide +kernel, by decide +kernel, by decide +kernel, by decide⟩

/-- A copy of one row of 8 bytes between two places of the window, and one from an owned track; the notice is a status. -/
def copySt : State := base.onThr (fun t => { t with x := #v[0xFE0000000000, 0xFE0000000100, 0x100008, 0] })
/-- What the operands of a copy must satisfy, as one question. -/
def copyOk (s : State) (x : Source) : Bool :=
  let c := operand64 s x
  let v := s.thr.x
  let half := x2Rows v[(2 : Fin 4)] * x2Len v[(2 : Fin 4)] / 16
  let sides := (if ctlStrk c then [v[(0 : Fin 4)]] else []) ++ (if ctlDtrk c then [v[(1 : Fin 4)]] else [])
  let addrs := (if ctlStrk c then [] else [v[(0 : Fin 4)]]) ++ (if ctlDtrk c then [] else [v[(1 : Fin 4)]])
  !cpyBad c v && !cpyClash c v && (!ctlSwp c || s.thr.sup) && sides.all (fun y => ctlSwp c || decide (selStart y + half ≤ 512) && (s.track (selTrack y)).owner == some (ownerOf s s.cur)) &&
    addrs.all (fun y => decide (field y 2 0 = 0) && classify y != .nonCanon && classify y != .hole) && decide (s.core.copies.length < 4) && !s.thr.ringFull &&
    (sides.isEmpty || decide (trackQueued s + sides.length ≤ 16))
theorem witness_CopyEntersQueue : CanIssue .always (.w 0) copySt ∧ copyOk copySt (.w 0) = true ∧ ctlStrk (operand64 copySt (.w 0)) = false ∧ ctlNote (operand64 copySt (.w 0)) = 0 :=
  ⟨ci (by decide), by decide, by decide, by decide⟩
/-- Of the track's last half of cells, where the copied row ends. -/
def trackCopy : State := (withW mine 2 0x20).onThr (fun t => { t with x := #v[31 + 511 * 32, 0xFE0000000100, 0x100010, 0] })
/-- A save of a whole track with its head, and a copy that gives notice. -/
def saveCopy : State := (withW (mine.onThr (fun t => t.setStatus true true true false)) 2 0x120).onThr (fun t => { t with x := #v[31, 0xFE0000000100, 0x102010, 0] })
theorem witness_CopyEntersQueue_swp : CanIssue .always (.w 2) saveCopy ∧ copyOk saveCopy (.w 2) = true ∧ ctlSwp (operand64 saveCopy (.w 2)) = true ∧ saveCopy.thr.sup = true :=
  ⟨ci (by decide), by decide, by decide, by decide⟩
theorem witness_CopyEntersQueue_note : CanIssue .always (.w 1) (withW copySt 1 0x400) ∧ copyOk (withW copySt 1 0x400) (.w 1) = true ∧ ctlNote (operand64 (withW copySt 1 0x400) (.w 1)) ≠ 0 :=
  ⟨ci (by decide), by decide, by decide⟩
theorem witness_CopyEntersQueue_track : CanIssue .always (.w 2) trackCopy ∧ copyOk trackCopy (.w 2) = true ∧ ctlStrk (operand64 trackCopy (.w 2)) = true :=
  ⟨ci (by decide), by decide, by decide⟩

theorem witness_MessageWordsAct_send : CanIssue .always (.w 0) base ∧ sendFault base (operand64 base (.w 0)) = none ∧ base.thr.ringFull = false ∧
    (base.thr.owed.filter (fun o => o.ports.contains .msgO)).length < 4 ∧ (operand64 base (.w 0)).getLsbD 63 = false ∧
    logicalBad base (field (operand64 base (.w 0)) 55 36) (field (operand64 base (.w 0)) 35 16) = false ∧ field (operand64 base (.w 0)) 58 56 < (shapeOf base).2.2 ∧
    earliest base (fun m => ({ slot := base.cur, tag := base.nextId, ident := some (operand64 base (.w 0)), mask := 0 } : Receive).takes m.id) (base.core.mail ++ base.core.spill.map (·.2)) = none :=
  ⟨ci (by decide), by decide, by decide, by decide, by decide, by decide, by decide, by decide⟩
def mailed : State := (withW sup0 1 1).onCore (fun c => { c with mail := [{ id := 0, data := 9, num := 0, rel := none }] })
theorem witness_MessageWordsAct_any : CanIssue .always (.w 1) mailed ∧ mailed.thr.sup = true ∧ field (operand64 mailed (.w 1)) 63 16 = 0 ∧ operand64 mailed (.w 1) ≠ 0 ∧ mailed.core.spill = [] ∧
    earliest mailed (fun m => ({ slot := mailed.cur, tag := mailed.nextId, ident := none, mask := (operand64 mailed (.w 1)).setWidth 16 } : Receive).takes m.id) mailed.core.mail =
      some { id := 0, data := 9, num := 0, rel := none } ∧ (mailed.thr.owed.filter (fun o => o.ports.contains .msgO)).length < 4 :=
  ⟨ci (by decide), by decide, by decide, by decide, by decide, by decide, by decide⟩

/-- A ready-queue record whose entry is 0x4000, at window offset 0x1FFC0: the last place. -/
def pushSt : State := (withW sup0 1 0xFE000001FFC0).onSt (fun st => { st with mem := Mem.write st.mem (winLoc sup0 0x1FFC0) (bytesLE 8 0x4000) })
def pushMem : State := winScrub (popped pushSt (.w 1)) 0x1FFC0 64
def pushBytes : List Byte := (List.range 8).flatMap (fun k => (bankWord pushMem pushSt.cur pushSt.nextId (winLoc pushSt (0x1FFC0 + 8 * k))).1)
theorem witness_TaskWordsAct_push : CanIssue .always (.w 1) pushSt ∧ field (operand64 pushSt (.w 1)) 16 0 = 0x1FFC0 ∧ pushSt.thr.sup = true ∧ field (pushSt.thr.opw .tskPr) 63 2 = 0 ∧
    recordFault (operand64 pushSt (.w 1)) = none ∧
    (∀ k < 8, amoPending pushMem pushSt.cur (winLoc pushSt (0x1FFC0 + 8 * k)) 8 = false ∧ (bankWord pushMem pushSt.cur pushSt.nextId (winLoc pushSt (0x1FFC0 + 8 * k))).2 ≠ 1) ∧
    cardWord pushBytes 3 = 0 ∧ entryOk (cardWord pushBytes 0) = true ∧ pushSt.core.ready.length < 64 ∧ cardReady pushSt = none ∧ pushSt.core.ready = [] :=
  ⟨ci (by decide), by decide, by decide, by decide, by decide, by decide +kernel, by decide +kernel, by decide +kernel, by decide, by decide, by decide⟩
def ready0 : Ready := { entry := 0x4000, hint := 0, tagw := 0, args := #v[1, 2, 3, 4], prio := 3, card := none, byp := 0 }
def readySt : State := pushSt.onCore (fun c => { c with ready := [ready0] })
theorem witness_TaskWordsAct_pop : CanIssue .always (.w 1) readySt ∧ readySt.thr.sup = true ∧ recordFault (operand64 readySt (.w 1)) = none ∧ topEntries readySt.core.ready = (ready0, 0) :: [] ∧
    readySt.st.waiting = [] ∧ MemoryOk readySt := ⟨ci (by decide), by decide, by decide, by decide, by decide, (by decide : Mem.wf readySt.st.mem = true)⟩
theorem witness_TaskWordsAct_park : CanIssue .always (.w 0) base ∧ operand64 base (.w 0) = 0 ∧ base.thr.more = false := ⟨ci (by decide), by decide, by decide⟩

/-- The last register, and the first index that there is not. -/
theorem witness_ControlRegistersRead : CanIssue .always (.imm8 152) sup0 ∧ operand64 sup0 (.imm8 152) = BitVec.ofNat 64 (24 : Fin 25).val ∧ sup0.thr.sup = true ∧ sup0.thr.orderHold 1 [.sysO] = false ∧
    CanIssue .always (.imm8 152) base ∧ base.thr.sup = false ∧ (crUser 24).1 = false ∧ (crUser 19).1 = true ∧ CanIssue .always (.imm8 153) sup0 ∧ 25 ≤ (operand64 sup0 (.imm8 153)).toNat :=
  ⟨ci (by decide), by decide, by decide, by decide, ci (by decide), by decide, by decide, by decide, ci (by decide), by decide⟩
/-- A change of cr.psave with another area in use. -/
def nested : State := housed.onThr (fun t => { t with areaUse := some 0xFE0000000800, owed := [{ tag := 3, ports := [.memO], area := some 0, marked := true, load := true, read := none, vals := none, flags := none, work := [], rels := [] }] })
theorem witness_ControlRegistersWrite_area : CanIssue .always (.imm8 152) nested ∧ operand64 nested (.imm8 152) = BitVec.ofNat 64 24 ∧ nested.thr.sup = true ∧ nested.thr.areaUse = some 0xFE0000000800 ∧
    nested.thr.x[(0 : Fin 4)] = 0 ∧ nested.thr.inUse (some 0) = false := ⟨ci (by decide), by decide, by decide, by decide, by decide, by decide⟩
theorem test_psave_late : after (exec (.sysCrw false .always (.imm8 152)) nested) (fun t => (t.thr.reaches 3 (some 0), t.thr.late)) = some (false, [3]) := by decide +kernel
theorem witness_ControlRegistersWrite : CanIssue .always (.imm8 131) sup0 ∧ operand64 sup0 (.imm8 131) = BitVec.ofNat 64 (3 : Fin 25).val ∧ (3 : Fin 25) ≠ crShape ∧ (3 : Fin 25) ≠ crBar ∧
    (3 : Fin 25) ≠ crMbox ∧ (3 : Fin 25) ≠ crWp ∧ (3 : Fin 25) ≠ crPsave ∧ sup0.thr.sup = true ∧ CanIssue .always (.imm8 141) sup0 ∧ operand64 sup0 (.imm8 141) = BitVec.ofNat 64 13 ∧ CanIssue .always (.imm8 148) sup0 ∧
    operand64 sup0 (.imm8 148) = BitVec.ofNat 64 20 ∧ CanIssue .always (.imm8 149) sup0 ∧ operand64 sup0 (.imm8 149) = BitVec.ofNat 64 21 ∧ CanIssue .always (.imm8 151) sup0 ∧
    operand64 sup0 (.imm8 151) = BitVec.ofNat 64 23 ∧ CanIssue .always (.imm8 152) housed ∧ operand64 housed (.imm8 152) = BitVec.ofNat 64 24 ∧ housed.thr.sup = true ∧
    CanIssue .always (.imm8 147) base ∧ operand64 base (.imm8 147) = BitVec.ofNat 64 (19 : Fin 25).val ∧ (crUser 19).1 = true :=
  ⟨ci (by decide), by decide, by decide, by decide, by decide, by decide, by decide, by decide, ci (by decide), by decide, ci (by decide), by decide, ci (by decide), by decide, ci (by decide), by decide,
   ci (by decide), by decide, by decide, ci (by decide), by decide, by decide⟩
theorem witness_WatchpointFilterHolds : bloomHit (bloomInsert 0 7) 7 = true := by decide +kernel

theorem witness_SystemWordsAct_tlbi : CanIssue .always (.w 1) (withW sup0 1 0x10000) ∧ sup0.thr.sup = true ∧ sup0.thr.ringFull = false ∧
    tlbiBad (operand64 (withW sup0 1 0x10000) (.w 1)) (withW sup0 1 0x10000).thr.x[(0 : Fin 4)] (withW sup0 1 0x10000).thr.x[(1 : Fin 4)] = false := ⟨ci (by decide), by decide, by decide, by decide⟩
/-- sys.mwait at the first word of the page, which holds 0: with 0 it parks, with 1 it goes on. -/
def mwaitSt (v : Word) : State := withX (withW (paged.onThr (fun t => t.setStatus true true true false)) 1 fetchVa) 0 v
theorem witness_SystemWordsAct_mwait (v : Word) (hv : v = 0 ∨ v = 1) : CanIssue .always (.w 1) (mwaitSt v) ∧ (mwaitSt v).thr.sup = true ∧
    ¬(field (operand64 (mwaitSt v) (.w 1)) 63 48 = 0 ∧ field (operand64 (mwaitSt v) (.w 1)) 47 41 = 0x7F) ∧ (operand64 (mwaitSt v) (.w 1)).toNat % 8 = 0 ∧
    dataWalk (popped (mwaitSt v) (.w 1)) (mwaitSt v).thr.walker (operand64 (mwaitSt v) (.w 1)) = none ∧ (mwaitSt v).st.monitors = [] ∧
    ∃ loc attr s1, translate (popped (mwaitSt v) (.w 1)) (mwaitSt v).thr.walker { user := !(mwaitSt v).thr.sup, fetch := false, write := false, sync := false } (operand64 (mwaitSt v) (.w 1)) = .ok loc attr s1 := by
  rcases hv with rfl | rfl
  · exact ⟨ci (by decide), by decide, by decide, by decide, by decide, by decide, okOf (by decide +kernel)⟩
  · exact ⟨ci (by decide), by decide, by decide, by decide, by decide, by decide, okOf (by decide +kernel)⟩
/-- The table of the line's slice, full with other cores' waiters and, at its head, this core's slot 1. -/
def crowded : State := ((mwaitSt 0).onSlot 1 (fun t => { t with mode := .mwait })).onSt (fun st => { st with
  monitors := { line := fetchPage, core := 0, slot := 1 } :: (List.range 63).map (fun k => { line := fetchPage, core := Fin.ofNat 1048576 (k + 1), slot := 0 }) })
theorem witness_SystemWordsAct_mwait_full : CanIssue .always (.w 1) crowded ∧ dataWalk (popped crowded (.w 1)) crowded.thr.walker (operand64 crowded (.w 1)) = none ∧
    (let old := crowded.st.monitors.filter (fun m => !(m.core == crowded.coreId && m.slot == crowded.cur))
     let table := old.filter (fun m => pointOf m.line == pointOf (lineOf fetchPage))
     64 ≤ table.length ∧ table.head? = some { line := fetchPage, core := crowded.coreId, slot := 1 } ∧ crowded.slots[(1 : Fin 8)].mode = .mwait ∧
       read64 crowded.st fetchPage = 0 ∧ crowded.thr.x[(0 : Fin 4)] = 0) :=
  ⟨ci (by decide), by decide, by decide +kernel⟩
/-- The same table, with another value in x0 than in memory. -/
def crowded1 : State := withX crowded 0 1
theorem witness_SystemWordsAct_mwait_differs : CanIssue .always (.w 1) crowded1 ∧ dataWalk (popped crowded1 (.w 1)) crowded1.thr.walker (operand64 crowded1 (.w 1)) = none ∧
    (let old := crowded1.st.monitors.filter (fun m => !(m.core == crowded1.coreId && m.slot == crowded1.cur))
     let table := old.filter (fun m => pointOf m.line == pointOf (lineOf fetchPage))
     64 ≤ table.length ∧ table.head? = some { line := fetchPage, core := crowded1.coreId, slot := 1 } ∧ crowded1.slots[(1 : Fin 8)].mode = .mwait ∧
       BitVec.ofNat 64 (read64 crowded1.st fetchPage) ≠ crowded1.thr.x[(0 : Fin 4)]) := ⟨ci (by decide), by decide, by decide +kernel⟩
/-- The word there is 0. -/
theorem witness_SystemWordsAct_mwait_word : read64 (mwaitSt 0).st fetchPage = 0 := by decide +kernel
theorem witness_SystemWordsAct_halt : CanIssue .always (.w 0) sup0 ∧ operand64 sup0 (.w 0) = 0 ∧ sup0.thr.uh = false ∧ CanIssue .always (.imm8 129) sup0 ∧ operand64 sup0 (.imm8 129) = 1 ∧ sup0.thr.sup = true :=
  ⟨ci (by decide), by decide, by decide, ci (by decide), by decide, by decide⟩

-- The steps of the units

theorem mok {s : State} (h : Mem.wf s.st.mem = true) : MemoryOk s := h
def pv (p : RPort) (v : Quad) : PortVal := { port := p, val := v, mark := none }
def due0 : State := base.onThr (fun t => { t with rot := 3, flight := [{ due := 3, tag := 0, ports := [.aluO], vals := some [pv .aluO 5], flags := none }] })
theorem witness_ResultsReachPorts_fixed : ∃ f v, due0.slots[(0 : Fin 8)].flight = [f] ∧ f.due ≤ due0.slots[(0 : Fin 8)].rot ∧ f.vals = some [v] ∧ v.port ≠ .fpuF :=
  ⟨{ due := 3, tag := 0, ports := [.aluO], vals := some [pv .aluO 5], flags := none }, pv .aluO 5, by decide⟩
def owing (area : Option Word) : State := base.onThr (fun t => { t with
  owed := [{ tag := 0, ports := [.memO], area, marked := true, load := true, read := none, vals := some [pv .memO 5], flags := none, work := [], rels := [] }] })
theorem witness_ResultsReachPorts_owed : ∃ o v, (owing none).slots[(0 : Fin 8)].owed = [o] ∧ (owing none).slots[(0 : Fin 8)].flight = [] ∧ o.vals = some [v] ∧ o.flags = none ∧ o.work = [] ∧
    o.rels = [] ∧ (owing none).slots[(0 : Fin 8)].reaches o.tag o.area = true :=
  ⟨{ tag := 0, ports := [.memO], area := none, marked := true, load := true, read := none, vals := some [pv .memO 5], flags := none, work := [], rels := [] }, pv .memO 5, by decide⟩
theorem witness_ResultsReachPorts_area : ∃ o, (owing (some 0xFE0000000400)).slots[(0 : Fin 8)].owed = [o] ∧ o.area = some 0xFE0000000400 ∧
    (owing (some 0xFE0000000400)).slots[(0 : Fin 8)].reaches o.tag o.area = false ∧ classify 0xFE0000000400 = .own 0x400 ∧ field (0xFE0000000400#64 : Word) 9 0 = 0 ∧
    MemoryOk (owing (some 0xFE0000000400)) ∧ ownPending (owing (some 0xFE0000000400)) 0 (winLoc (owing (some 0xFE0000000400)) 0x400) = false ∧
    ∀ q ∈ pendingReqs (owing (some 0xFE0000000400)) 0, q.stores? = none :=
  ⟨{ tag := 0, ports := [.memO], area := some 0xFE0000000400, marked := true, load := true, read := none, vals := some [pv .memO 5], flags := none, work := [], rels := [] },
    by decide, by decide, by decide, by decide, by decide, mok (by decide), by decide, by decide⟩
/-- R182: the entry of mem.o in the area. -/
theorem test_late_result : after (exec (.fencedResultDelivery 0) (owing (some 0xFE0000000400))) (fun t => natLE (Mem.read t.st.mem (winLoc t 0x400 + 16 * 27) 16)) = some 5 := by decide +kernel
/-- A paged load of 4 bytes at 0x10000, whose line stands in the L1. -/
def owedRead : Owed := { tag := 0, ports := [.memO], area := none, marked := true, load := true, read := some { loc := 0x100, va := 0x10000, bytes := 4, ext := true }, vals := none, flags := none, work := [], rels := [] }
def reading : State := ((base.onThr (fun t => { t with owed := [owedRead] })).onCore (fun c => { c with l1 := [0x100] })).onSt (fun st => { st with mem := [(0x103, 0x80)] })
theorem witness_ResultsReachPorts_read : reading.slots[(0 : Fin 8)].owed = [owedRead] ∧ reading.slots[(0 : Fin 8)].flight = [] ∧ reading.slots[(0 : Fin 8)].reaches 0 none = true ∧
    isBank 0x100 = false ∧ reading.core.l1.contains (lineOf 0x100) = true ∧ reading.core.l1bad.contains (lineOf 0x100) = false ∧
    viewMoments { reading.st with marks := soundMarks reading.st none } reading.slots[(0 : Fin 8)].floor (reading.src 0) (forwarded reading 0 0) 0x100 4 ≠ [] := by decide
/-- R152: sign-extended. -/
theorem test_view_read : after (exec (.fencedResultDelivery 0) reading) (fun t => t.slots[(0 : Fin 8)].rpq .memO) = some (quad 0xFFFFFFFF80000000#64) := by decide +kernel
theorem witness_ResultsReachPorts_marker : (base.onThr (fun t => { t with mode := .marker })).slots[(0 : Fin 8)].mode = .marker ∧
    (base.onThr (fun t => { t with mode := .marker })).slots[(0 : Fin 8)].pending = false := by decide
def hold3 : Hold := { pop := some 3, push := none, why := .msg }
theorem witness_ResultsReachPorts_held : (fed.onThr (fun t => { t with held := some hold3 })).slots[(0 : Fin 8)].held = some hold3 ∧
    mayRelease { fed.onThr (fun t => { t with held := some hold3 }) with cur := 0 } hold3 = true := by decide

def quantum : State := base.onThr (fun t => t.setCr crQuant 5)
theorem witness_SlotEventsAct : holdsThread quantum.slots[(0 : Fin 8)] = true ∧ field quantum.slots[(0 : Fin 8)].cr[crQuant] 31 0 ≠ 0 ∧ field quantum.slots[(0 : Fin 8)].cr[crQleft] 31 0 = 0 ∧
    quantum.slots[(0 : Fin 8)].expiry = none ∧ impreciseCode (field (0x20F#64 : Word) 7 0) = true := by decide
def entry0 : Entry := { cause := 0x13, epc := 0x1002, marker := false }
def entering : State := housed.onThr (fun t => { t with mode := .entering entry0 })
theorem witness_SlotEventsAct_entry : entering.slots[(0 : Fin 8)].mode = .entering entry0 ∧ entryWaits entering 0 = false ∧ entering.slots[(0 : Fin 8)].uh = false ∧
    ∃ loc attr s1, saveArea entering 0 (entering.slots[(0 : Fin 8)].uintOf entering.slots[(0 : Fin 8)].areaUse) = .ok loc attr s1 := ⟨by decide, by decide, by decide, okOf (by decide)⟩
def userEntry : State := housed.onThr (fun t => { t with mode := .userEntering, areaUse := some 0xFE0000000400, uints := [(some 0xFE0000000400, 1, 2)] })
theorem witness_SlotEventsAct_user : userEntry.slots[(0 : Fin 8)].mode = .userEntering ∧ entryWaits userEntry 0 = false ∧
    userEntry.slots[(0 : Fin 8)].uintOf userEntry.slots[(0 : Fin 8)].areaUse = some (1, 2) ∧ ∃ loc attr s1, saveArea userEntry 0 none = .ok loc attr s1 := ⟨by decide, by decide, by decide, okOf (by decide)⟩
theorem witness_SlotEventsAct_fault : inHandler.slots[(0 : Fin 8)].uh = true ∧ inHandler.slots[(0 : Fin 8)].sup = false ∧ field (causeOf 3 : Word) 7 0 ≠ 0x13 ∧ field (causeOf 3 : Word) 7 0 ≠ 0x0B ∧
    entryWaits inHandler 0 = false ∧ (∃ loc attr s1, areaPlace inHandler 0 inHandler.slots[(0 : Fin 8)].psave true = .ok loc attr s1) ∧ MemoryOk inHandler ∧
    classify inHandler.slots[(0 : Fin 8)].psave = .own 0x400 ∧ ownPending inHandler 0 (winLoc inHandler 0x400) = false ∧ inHandler.slots[(0 : Fin 8)].ucur = some (1, 2) :=
  ⟨by decide, by decide, by decide, by decide, by decide, okOf (by decide), mok (by decide), by decide, by decide, by decide⟩

/-- A store of slot 0 to granary address 0x100: in its queue, on its path, and at its line. -/
def req0 (k : ReqKind) (loc : Nat) (va : Word) : Req := { slot := some 0, src := 0, tag := 0, counted := true, kind := k, loc, va, known := [], rel := none, waits := [] }
def store0 : Req := req0 (.store [1, 2] false) 0x100 0x10000
def psqSt : State := base.onThr (fun t => { t with psq := [store0] })
theorem witness_OrderingPointsPerform_depart : psqSt.slots[(0 : Fin 8)].psq[0]? = some store0 ∧ mayDepart psqSt psqSt.slots[(0 : Fin 8)] 0 store0 = true ∧ store0.toMemory = true ∧ store0.own = false := by decide
def pathSt (r : Req) : State := base.onSt (fun st => { st with paths := [r] })
theorem witness_OrderingPointsPerform_arrive : (pathSt store0).st.paths[0]? = some store0 ∧ behindOwn (pathSt store0) store0 = false ∧ ((pathSt store0).st.paths.take 0).any (fun x => x.src == store0.src && samePath (pathSt store0) x store0) = false ∧
    isBank store0.loc = false := by decide
def lrw0 : Req := req0 (.lrw { wide := false, grp := 0 } 0 0) 0x100 0x10000
theorem witness_OrderingPointsPerform_lrw : (pathSt lrw0).st.paths[0]? = some lrw0 ∧ lrw0.toMemory = true ∧ behindOwn (pathSt lrw0) lrw0 = false ∧ isBank lrw0.loc = false ∧
    (pathSt lrw0).st.queue.any (fun x => lineOf x.loc == lineOf lrw0.loc) = false ∧ (pathSt lrw0).st.resvs.find? (fun e => e.loc == lrw0.loc) = none ∧ resvFull (pathSt lrw0).st lrw0.loc = false ∧ genClosed (pathSt lrw0) { wide := false, grp := 0 } 0 = false := by decide
/-- A request whose generation has closed, and one that finds the reservation held by the ticket before its own, or its own turn. -/
def closedSt : State := let s := pathSt lrw0; { s with net := { s.net with groups := [{ key := { wide := false, grp := 0 }, rect := 0, mask := 0, need := 0, arrived := [], gone := [], waits := [], gen := 1, pending := none, past := [] }] } }
theorem witness_OrderingPointsPerform_closed : genClosed closedSt { wide := false, grp := 0 } 0 = true ∧ lrw0.away = none ∧ lrw0.slot = some 0 ∧ behindOwn closedSt lrw0 = false ∧
    ∀ o ∈ closedSt.slots[(0 : Fin 8)].owed, o.tag = lrw0.tag → closedSt.slots[(0 : Fin 8)].reaches o.tag o.area = true := by decide
def lrw1 : Req := { lrw0 with kind := .lrw { wide := false, grp := 0 } 0 1 }
def resv0 (loc : Nat) (ws : List (Nat × Req)) : Resv := { loc, grp := { wide := false, grp := 0 }, gen := 0, next := 0, held := some 0, waiters := ws }
theorem witness_OrderingPointsPerform_ticket : let s := (pathSt lrw1).onSt (fun st => { st with resvs := [resv0 0x100 []] })
    genClosed s { wide := false, grp := 0 } 0 = false ∧ s.st.resvs.find? (fun e => e.loc == lrw1.loc) = some (resv0 0x100 []) ∧ (resv0 0x100 []).next ≤ 1 ∧ (resv0 0x100 []).held ≠ some 1 ∧
    (resv0 0x100 []).waiters.any (fun w => w.1 == 1) = false ∧ (resv0 0x100 []).held.isSome = true ∧ behindOwn s lrw1 = false := by decide
def queueSt : State := base.onSt (fun st => { st with queue := [store0] })
theorem witness_OrderingPointsPerform_write : MemoryOk queueSt ∧ queueSt.st.queue[0]? = some store0 ∧ (queueSt.st.queue.take 0).any (fun x => lineOf x.loc == lineOf store0.loc) = false ∧
    Slice0.Sound queueSt store0.loc 2 := ⟨mok (by decide), by decide, by decide, fun w _ => ⟨(by decide : (0#2) ≠ 1#2), fun e h => by cases h⟩⟩
def bankReq0 : BankReq := { due := 0, mesh := false, bank := 0, req := req0 (.amo .add 3) (bankLoc 0 8) 0xFE0000000008 }
def bankSt : State := base.onSt (fun st => { st with bankq := [bankReq0] })
theorem witness_OrderingPointsPerform_bank : MemoryOk bankSt ∧ bankSt.st.bankq[0]? = some bankReq0 ∧ bankReq0.due ≤ bankSt.cycle ∧
    bankSt.st.bankq.zipIdx.any (fun y => bankCore y.1.req.loc == bankCore bankReq0.req.loc && y.1.before bankReq0 y.2 0) = false ∧ Slice0.Sound bankSt bankReq0.req.loc 8 :=
  ⟨mok (by decide), by decide, by decide, by decide, fun w _ => ⟨(by decide : (0#2) ≠ 1#2), fun e h => by cases h⟩⟩
/-- Requests at word 1 of the core's bank. -/
def bankAt (k : ReqKind) : BankReq := { due := 0, mesh := false, bank := 0, req := req0 k (bankLoc 0 8) 0xFE0000000008 }
def atBank (k : ReqKind) (f : Store → Store := id) : State := base.onSt (fun st => f { st with bankq := [bankAt k] })
theorem atHead (k : ReqKind) (f : Store → Store) (h : (f { base.st with bankq := [bankAt k] }).bankq = [bankAt k]) : (atBank k f).st.bankq[0]? = some (bankAt k) ∧ (bankAt k).due ≤ (atBank k f).cycle ∧
    (atBank k f).st.bankq.zipIdx.any (fun y => bankCore y.1.req.loc == bankCore (bankAt k).req.loc && y.1.before (bankAt k) y.2 0) = false ∧ isBank (bankAt k).req.loc = true := by
  have e : (atBank k f).st.bankq = [bankAt k] := h
  rw [e]
  exact ⟨rfl, Nat.zero_le _, by simp [BankReq.before, bankAt], (by decide : isBank (bankLoc 0 8) = true)⟩
theorem plainBank (s : State) (n : Nat) (h1 : s.st.marks = []) (h2 : s.st.ecc = []) : Slice0.Plain s (bankLoc 0 8) n := by
  intro w _
  rw [h1, h2]
  exact ⟨rfl, fun e h => by cases h⟩
theorem witness_OrderingPointsPerform_load : Slice0.Plain (atBank (.load 1 true)) (bankLoc 0 8) 1 ∧ 0 < 1 ∧ (bankAt (.load 1 true)).req.slot = some 0 := ⟨plainBank _ _ rfl rfl, by decide, by decide⟩
def fullAt (st : Store) : Store := { st with full := [bankLoc 0 8 / 8] }
def loadWaits (st : Store) : Store := { st with waiters := [{ req := { req0 .ldf (bankLoc 0 8) 0xFE0000000008 with tag := 1 } }] }
def waitersIn (st : Store) : Store := { st with waiters := List.replicate 32 { req := { req0 .ldf (bankLoc 0 16) 0xFE0000000010 with tag := 1 } } }
theorem witness_OrderingPointsPerform_full : bankLoc 0 8 % 8 = 0 ∧ isFull (atBank .ldf fullAt) (bankLoc 0 8) = true ∧ isFull (atBank .ldt) (bankLoc 0 8) = false ∧ waitersFull (atBank .ldt).st (bankLoc 0 8) = false ∧
    waitersFull (atBank .ldf waitersIn).st (bankLoc 0 8) = true ∧ (∀ w ∈ (atBank .ldf waitersIn).st.waiters, w.req.tag ≠ (bankAt .ldf).req.tag) ∧ (atBank .ldf waitersIn).st.waitq = [] ∧
    (atBank (.ste 5) fullAt).st.waiters = [] ∧ MemoryOk (atBank (.ste 5)) ∧ isFull (atBank (.ste 5)) (bankLoc 0 8) = false :=
  ⟨by decide, by decide, by decide, by decide, by decide, by decide, by decide, by decide, mok (by decide), by decide⟩
theorem witness_OrderingPointsPerform_stf : (List.replicate 8 (3#8 : Byte)).length = 8 ∧ MemoryOk (atBank (.store (List.replicate 8 3#8) true) loadWaits) ∧
    ∃ w, (atBank (.store (List.replicate 8 3#8) true) loadWaits).st.waiters = [w] ∧ w.req.kind = .ldf ∧ w.req.loc = bankLoc 0 8 ∧ w.req.slot = some 0 := ⟨by decide, mok (by decide), _, rfl, rfl, rfl, rfl⟩
def scrWaits (ws : List (Nat × Req)) (st : Store) : Store := { st with resvs := [resv0 (bankLoc 0 8) ws] }
def lrwBank : Req := { req0 (.lrw { wide := false, grp := 0 } 0 1) (bankLoc 0 8) 0xFE0000000008 with tag := 1 }
theorem witness_OrderingPointsPerform_scr : let s := atBank (.scr 7 false) (scrWaits [(1, lrwBank)])
    MemoryOk s ∧ Slice0.Sound s (bankLoc 0 8) 8 ∧ s.st.resvs.find? (fun e => e.loc == bankLoc 0 8) = some (resv0 (bankLoc 0 8) [(1, lrwBank)]) ∧ s.st.resvWait = [] ∧
    (∀ w ∈ [(1, lrwBank)], w.2.away = none ∧ w.2.loc = bankLoc 0 8 ∧ ∀ j, w.2.slot = some j → ∀ o ∈ s.slots[j].owed, o.tag = w.2.tag → s.slots[j].reaches o.tag o.area = true) ∧
    [(1, lrwBank)].find? (fun w => w.1 == (resv0 (bankLoc 0 8) [(1, lrwBank)]).next + 1) = some (1, lrwBank) :=
  ⟨mok (by decide), fun w _ => ⟨(by decide : (0#2) ≠ 1#2), fun e h => by cases h⟩, by decide, by decide, by decide, by decide⟩
/-- R142, R153: a full word's ldf takes its value, an empty one's waits. -/
theorem test_ldf_waits : after (exec (.bankRequestPerform 0) (atBank .ldf)) (fun t => t.st.waiters.length) = some 1 ∧
    after (exec (.bankRequestPerform 0) (atBank .ldf fullAt)) (fun t => t.st.waiters.length) = some 0 := by decide +kernel
/-- R144: the 33rd request at a bank waits for an entry. -/
theorem test_waiter_entries : after (exec (.bankRequestPerform 0) (atBank .ldf waitersIn)) (fun t => (t.st.waiters.length, t.st.waitq.length)) = some (32, 1) := by decide +kernel
/-- R98: a last amo.scr strands the waiters; another hands the word on. -/
theorem test_scr_hands_on : after (exec (.bankRequestPerform 0) (atBank (.scr 7 false) (scrWaits [(1, lrwBank)]))) (fun t => t.st.resvs.map (fun e => (e.next, e.held))) = some [(1, some 1)] ∧
    after (exec (.bankRequestPerform 0) (atBank (.scr 7 true) (scrWaits [(1, lrwBank)]))) (fun t => (t.st.resvs.length, t.slots[(0 : Fin 8)].faults.length)) = some (0, 1) := by decide +kernel
def ack0 : Ack := { slot := some 0, tag := 0, loc := 0x100, amo := false, va := 0x10000, seqTag := 0, await := 0 }
theorem witness_OrderingPointsPerform_ack : (base.onSt (fun st => { st with acks := [ack0] })).st.acks[0]? = some ack0 ∧ ack0.await = 0 ∧ ack0.slot = some 0 := by decide
/-- A request that counts, and one that does not. -/
theorem witness_OrderingPointsPerform_counted :
    let s := (base.onSt (fun st => { st with acks := [ack0] })).onThr (fun t => { t with counted := [{ tag := 0, reach := .module, refused := false }] })
    s.st.acks[0]? = some ack0 ∧ s.slots[(0 : Fin 8)].counted.any (fun c => c.tag == ack0.tag) = true ∧ base.slots[(0 : Fin 8)].counted.any (fun c => c.tag == ack0.tag) = false := by decide
/-- Line 0 of the granary, seen from die 15. -/
theorem witness_OrderingPointsPerform_miss : isBank (lineOf 0) = false ∧ exists? (lineOf 0) = true ∧ (lineFind base.st.lines (lineOf 0)).heldAt (15 : Fin 16).val = false ∧
    homeDie (lineOf 0) ≠ (15 : Fin 16).val ∧ (lineFind base.st.lines (lineOf 0)).home = false := by decide
/-- A word whose fetch waits for the walk of the page's first address. -/
def missing : State := unwalked.onThr (fun t => { t with miss := some { va := 0x10000, result := none } })
theorem witness_OrderingPointsPerform_walk : missing.slots[(0 : Fin 8)].mode = .run ∧ missing.slots[(0 : Fin 8)].miss = some { va := 0x10000, result := none } ∧
    ({ va := 0x10000, result := none } : TlbMiss).serves (field fetchVa 47 0) = true ∧
    ∃ pa size attr seen s1, walkNow missing (missWalker missing 0 0x10000) 0x10000 = (.leaf pa size attr seen, s1) := by
  have h : (match walkNow missing (missWalker missing 0 0x10000) 0x10000 with
      | (.leaf _ _ _ _, _) => true | _ => false) = true := by decide +kernel
  refine ⟨by decide, by decide, by decide, ?_⟩
  split at h
  · exact ⟨_, _, _, _, _, by assumption⟩
  · cases h
/-- A shootdown whose earlier requests are acknowledged, and one whose entries have gone, behind nothing. -/
def tlbi0 (sent : Bool) : Tlbi := { slot := 0, tag := 0, kind := 1, cid := 0, va := 0, scope := 0, sent, waits := [] }
def tlbiSt (sent : Bool) : State := base.onSt (fun st => { st with tlbis := [tlbi0 sent] })
theorem witness_OrderingPointsPerform_tlbi : (tlbiSt false).st.tlbis.find? (fun y => y.slot == 0) = some (tlbi0 false) ∧ (tlbi0 false).sent = false ∧
    (tlbiSt false).slots[(0 : Fin 8)].counted.any (fun c => decide (c.tag < (tlbi0 false).tag)) = false ∧ inScope (tlbi0 false).scope base.coreId base.coreId = true ∧
    meets (tlbi0 false).scope base.coreId (.cluster (clusterOf base.coreId)) = true ∧
    (tlbiSt true).st.tlbis.find? (fun y => y.slot == 0) = some (tlbi0 true) ∧ (tlbi0 true).sent = true ∧ (unordered (tlbiSt true)).any (tlbi0 true).waits.contains = false := by decide

/-- Commands at position 511, the last; a track under clearing. -/
theorem witness_CoreUnitsPerform_track : ((trackSt { Track.clean with queue := [.shift 511 0] }).track 31).queue = .shift 511 0 :: [] ∧
    ((trackSt { Track.clean with queue := [.write 511 (-1) 7 0] }).track 31).queue = .write 511 (-1) 7 0 :: [] ∧ 511 < 512 ∧ ((trackSt { Track.clean with queue := [.write 511 (-1) 7 0] }).track 31).slip = 0 ∧
    ((trackSt { Track.clean with queue := [.write 511 (-1) 7 0] }).track 31).bad = [] ∧ ((trackSt { Track.clean with clearing := true }).track 31).clearing = true ∧
    ((trackSt { Track.clean with clearing := true }).track 31).marker = true := by decide
def loadPat : State := strSt (some (.pattern 0 true false true 0xFE0000000100#64 #v[4, 1, 1, 1] #v[16, 0, 0, 0] 3 0 0)) [] 2 base
theorem witness_CoreUnitsPerform_read : loadPat.core.streams[(2 : Fin 8)].bind = some (.pattern 0 true false true 0xFE0000000100#64 #v[4, 1, 1, 1] #v[16, 0, 0, 0] 3 0 0) ∧
    3 < patternSize #v[4, 1, 1, 1] ∧ loadPat.core.streams[(2 : Fin 8)].q.length < 8 ∧
    translate loadPat { cid := field (0#64) 5 0, root := field (0#64) 51 12 * 4096, user := true, l1 := false, th := loadPat.slots[(0 : Fin 8)].mcth 0, slots := [0] }
      { user := true, fetch := false, write := false, sync := false } (patternAddr 0xFE0000000100#64 #v[4, 1, 1, 1] #v[16, 0, 0, 0] 3) = .ok (bankLoc 0 0x130) 0b01111#5 loadPat ∧
    isBank (bankLoc 0 0x130) = true ∧ meshRefused loadPat (field (0#64) 5 0) (patternAddr 0xFE0000000100#64 #v[4, 1, 1, 1] #v[16, 0, 0, 0] 3) (bankLoc 0 0x130) = false ∧ amoPending loadPat 0 (bankLoc 0 0x130) 16 = false ∧
    firstMark (ownMarks loadPat 0 loadPat.nextId loadPat.st.marks) (bankLoc 0 0x130) 16 = none ∧ loadPat.st.ecc = [] :=
  ⟨by decide, by decide, by decide, rfl, by decide, by decide, by decide, by decide, by decide⟩
def element0 : Req := req0 (.store [1, 2, 3, 4, 5, 6, 7, 8] false) 0x100 0x10000
def outSt : State := base.onCore (fun c => { c with streams := c.streams.set (2 : Fin 8) { bind := none, q := [], out := [element0] } })
theorem witness_CoreUnitsPerform_write : outSt.core.streams[(2 : Fin 8)].out = element0 :: [] ∧ element0.slot = some 0 ∧ outSt.slots[(0 : Fin 8)].queuedStores < 16 := by decide
def run1 : Run := { n := 2, it := 2, j := 0, clamp := false, tag := 0, seq := 0, fmt := 0, area := none, sup := false }
def replaying : State := base.onThr (fun t => { t with seqr := { t.seqr with buf := [{ src := .q 1, dst := .q 2 }], run := some run1 } })
theorem witness_CoreUnitsPerform_replay : replaying.slots[(0 : Fin 8)].seqr.run = some run1 ∧ replaying.slots[(0 : Fin 8)].seqr.buf[run1.j]? = some { src := .q 1, dst := .q 2 } ∧
    replaying.slots[(0 : Fin 8)].flight = [] ∧ run1.clamp = false ∧ replaying.slots[(0 : Fin 8)].seqr.buf.length ≤ run1.j + 1 ∧ run1.n ≤ run1.it := by decide

def copy0 (started : Bool) (done : Nat) : Copy := { slot := 0, tag := 0, seq := 0, area := none, ctl := 0, xs := #v[0xFE0000000000, 0xFE0000000100, 0x100008, 0], sup := false, ctx := 0, heads := [], done, started, ended := none, sum := 0, summed := false, floor := [], rel := [] }
def copying (c : Copy) : State := base.onCore (fun k => { k with copies := [c] })
theorem witness_EnginesPerform_start : (copying (copy0 false 0)).core.freezing = false ∧ (copying (copy0 false 0)).core.copies[0]? = some (copy0 false 0) ∧ (copy0 false 0).started = false ∧ (copy0 false 0).ended = none ∧
    ((copying (copy0 false 0)).core.copies.take 0).any (fun x => x.slot == (copy0 false 0).slot) = false ∧ writesBefore (copying (copy0 false 0)) 0 0 = false ∧
    (copy0 false 0).tracks.all (copyHeads (copying (copy0 false 0)) (copy0 false 0)) = true := by decide +kernel
theorem witness_EnginesPerform_chunk : (copying (copy0 true 0)).core.copies[0]? = some (copy0 true 0) ∧ (copy0 true 0).started = true ∧ (copying (copy0 true 0)).core.freezing = false ∧ (copying (copy0 true 0)).core.engFlaw = 0 ∧
    (match copyRun (copying (copy0 true 0)) (copy0 true 0) 64 with | .inl _ => true | .inr _ => false) = true := ⟨by decide, by decide, by decide, by decide, by decide +kernel⟩
theorem witness_EnginesPerform_complete : (copying (copy0 true 1)).core.copies[0]? = some (copy0 true 1) ∧ (copy0 true 1).started = true ∧ (copy0 true 1).ended = none ∧ (copy0 true 1).n ≤ (copy0 true 1).done ∧
    ctlDg (copy0 true 1).ctl = false ∧ ctlNote (copy0 true 1).ctl = 0 ∧ (copying (copy0 true 1)).core.freezing = false ∧
    ((copying (copy0 true 1)).core.copies.take 0).any (fun x => x.slot == (copy0 true 1).slot) = false ∧
    (copying (copy0 true 1)).st.acks.any (fun a => a.slot.isNone && a.tag == (copy0 true 1).tag) = false := by decide
theorem witness_EnginesPerform_frozen : ((copying (copy0 true 0)).onCore (fun c => { c with freezing := true })).core.freezing = true ∧
    ((copying (copy0 true 0)).onCore (fun c => { c with freezing := true })).core.copies[0]? = some (copy0 true 0) := by decide
/-- A launch of one team of one core with one slot, placed at (0, 0). -/
def launch0 (placed : List (Nat × Nat)) : Launch := { cid := 0, q := 0, words := Vector.replicate 16 0#64, kvec := 0, ctx := 0, shape := 0, tables := [], items := [], cells := [], regions := [], placed, flt := false, st := 0 }
/-- A command at the head of the matrix unit's queue, 8 cycles after its trigger. -/
def mxAt (c : MxCmd) : State := { (featured base).onCore (fun k => { k with mx := { k.mx with queue := [c] } }) with cycle := 8 }
def mxHeads (c : MxCmd) : Bool := (mxAt c).core.mx.queue.head? == some c && mxReady (mxAt c) c && (mxAt c).core.mx.flaw == 0 && (mxAt c).core.engFlaw == 0
def mxFetches (c : MxCmd) (run : Bool) : Bool := match mxRead (mxReads (mxAt c) c (mxSpans c run)) c run with | .inr _ => true | .inl _ => false
theorem mxRight {c : MxCmd} {run : Bool} (h : mxFetches c run = true) : ∃ o, mxRead (mxReads (mxAt c) c (mxSpans c run)) c run = .inr o := by
  unfold mxFetches at h
  split at h
  · exact ⟨_, by assumption⟩
  · cases h
/-- A run of K = 4, without and with a hand-off to the cluster beside it in its team, and a count of K = 4. -/
def cmdRun (hand : Bool) : MxCmd := { cmd0 with op := .mxRun, a := 0xFE0000000000, xs := #v[0xFE0000000400, if hand then 0x40004 else 4, 0x100010, 0] }
theorem witness_EnginesPerform_run : mxHeads (cmdRun false) = true ∧ (cmdRun false).op = .mxRun ∧ mxHand (cmdRun false).xs[(1 : Fin 4)] = false ∧
    mxHeads (cmdRun true) = true ∧ mxHand (cmdRun true).xs[(1 : Fin 4)] = true := by decide +kernel
theorem witness_EnginesPerform_run_reads : (∃ o, mxRead (mxReads (mxAt (cmdRun false)) (cmdRun false) (mxSpans (cmdRun false) true)) (cmdRun false) true = .inr o) ∧
    ∃ o, mxRead (mxReads (mxAt (cmdRun true)) (cmdRun true) (mxSpans (cmdRun true) true)) (cmdRun true) true = .inr o :=
  ⟨mxRight (by decide +kernel), mxRight (by decide +kernel)⟩
/-- A team of two clusters. -/
def wideTeam : State := { mxAt (cmdRun true) with fw := { (mxAt (cmdRun true)).fw with
  launches := [{ launch0 [(0, 0)] with words := (Vector.replicate 16 0#64).set (1 : Fin 16) 7#64 }], resident := some (0, 0, 0, 0) } }
theorem witness_EnginesPerform_run_hand : wideTeam.core.mx.queue = [cmdRun true] ∧ inTeam wideTeam (nextUnit wideTeam) = true := by decide +kernel
def cmdCnt : MxCmd := { cmd0 with op := .mxCnt, a := 0xFE0000000000, xs := #v[0xFE0000000400, 8, 0x100010, 0] }
theorem witness_EnginesPerform_count : mxHeads cmdCnt = true ∧ cmdCnt.op = .mxCnt ∧ mxHand cmdCnt.xs[(1 : Fin 4)] = false ∧
    (match mxRead (mxReads (mxAt cmdCnt) cmdCnt (mxSpans cmdCnt false)) cmdCnt false with
      | .inr o => (overflowAt (mxCount cmdCnt o [])).isNone && (overflowAt (mxCount cmdCnt o [(0, 2047)])).isSome | .inl _ => false) = true := by decide +kernel
theorem witness_EnginesPerform_merge : let c : MxCmd := { cmd0 with op := .mxMrg }
    mxHeads c = true ∧ c.op = .mxMrg ∧ Slice0.BankOk [(0, 2046)] ∧ Slice0.BankOk [(0, 1), (4095, -2048)] :=
  ⟨by decide, rfl, List.pairwise_singleton _ _, by unfold Slice0.BankOk; decide⟩
/-- The first and the last word of a store of int32 rows with clear. -/
def cmdSt (k : Nat) : MxCmd := { cmd0 with op := .mxSt, a := 0xFE0000000000, xs := #v[0x200004, 0, 0, 0], written := k }
theorem witness_EnginesPerform_store : mxHeads (cmdSt 0) = true ∧ mxHeads (cmdSt 31) = true ∧ (cmdSt 31).op = .mxSt ∧ MemoryOk (mxAt (cmdSt 31)) ∧ (mxAt (cmdSt 31)).st.waiting = [] ∧
    winLoc (mxAt (cmdSt 31)) (mxStoreWord (mxAt (cmdSt 31)).core (cmdSt 31) 31).1 % 8 = 0 ∧ field (cmdSt 31).xs[(0 : Fin 4)] 1 0 = 0 ∧ (cmdSt 31).xs[(0 : Fin 4)].getLsbD 2 = true :=
  ⟨by decide, by decide, rfl, mok (by decide), by decide, by decide +kernel, by decide, by decide⟩
/-- The first word of a copy between two places of the window. -/
theorem witness_EnginesPerform_unit : let s := copying (copy0 true 0)
    MemoryOk s ∧ (copy0 true 0).ended = none ∧ (copy0 true 0).done < (copy0 true 0).n ∧ ctlDg (copy0 true 0).ctl = false ∧ ctlDtrk (copy0 true 0).ctl = false ∧ copyHeld s (copy0 true 0) 0 = false ∧
    (match copyRead s (copy0 true 0) 0 with | .inl (s1, .inl v) => s1 == s && decide (v < 2 ^ 64) | _ => false) = true ∧
    (match copyPlace s (copy0 true 0) true (sideVa (copy0 true 0).xs[(1 : Fin 4)] (copy0 true 0).xs[(2 : Fin 4)] (stride (copy0 true 0).xs[(3 : Fin 4)] true) 0) with
      | .ok _ _ s2 => s2.st.waiting.isEmpty | _ => false) = true := ⟨mok (by decide), by decide, by decide, by decide, by decide, by decide, by decide +kernel, by decide +kernel⟩
def drain : State := { queued with cycle := 8 }
theorem witness_EnginesPerform_drain : drain.core.mx.queue = cmd0 :: [] ∧ mxReady drain cmd0 = true ∧ drain.core.mx.flaw = 0 ∧ drain.core.engFlaw = 0 ∧ cmd0.op = .mxDrn ∧ cmd0.scale.getLsbD 32 = false ∧ cmd0.scale.getLsbD 33 = false := by decide
def handing : State := queued.onCore (fun c => { c with mx := { c.mx with hand := some Latch.empty } })
theorem witness_EnginesPerform_latch : base.core.mx.latch.full = false ∧ handing.core.mx.queue = cmd0 :: [] ∧ handing.core.mx.hand = some Latch.empty ∧ handing.core.mx.next.full = false := by decide

theorem witness_GroupsMailboxesTasksProceed_arrive : let g : Group := { grp0 with rect := BitVec.ofNat 40 (1 * 2 ^ 20) }
    groupOf (groupSt g) g.key = some g ∧ (groupSt g).threadNo (Fin.ofNat 8 8) ≠ 8 ∧ g.arrived.any (fun y => y.1 == 8) = false ∧ (groupSt g).isMember g 8 = true := by decide
theorem witness_GroupsMailboxesTasksProceed_close : let g : Group := { grp0 with arrived := [(0, { scope := 0, core := none, src := 0, rel := [] })] }
    groupOf (groupSt g) g.key = some g ∧ g.complete = true ∧ g.pending = none ∧
    (∀ i : Fin 8, g.gone.contains ((groupSt g).threadNo i) = true → arrivalOnWay (groupSt g) g.key i = false) := by decide
def receiving : State := base.onCore (fun c => { c with receives := [{ slot := 0, tag := 0, ident := none, mask := 1 }] })
theorem witness_GroupsMailboxesTasksProceed_message : underWay receiving 0 9 = false ∧ underWay base 0 9 = false ∧ arriving receiving receiving.coreId 0 9 = none ∧
    receiving.core.receives.find? (fun r => r.takes 0) = some { slot := 0, tag := 0, ident := none, mask := 1 } ∧ arriving base base.coreId 0 9 = none ∧
    base.core.receives.find? (fun r => r.takes 0) = none ∧ (base.core.mail.filter (fun y => idMbox y.id == idMbox 0)).length < 4 := by decide
def launched (s : State) : State := { s with fw := { s.fw with launches := [launch0 [(0, 0)]], resident := some (0, 0, 0, 0) } }
theorem witness_GroupsMailboxesTasksProceed_task : (launched (base.onThr (fun t => { t with mode := .taskEnd }))).launch? = some (launch0 [(0, 0)]) ∧
    (launched (base.onThr (fun t => { t with mode := .taskEnd }))).slots[(0 : Fin 8)].mode = .taskEnd ∧ (launched (base.onThr (fun t => { t with mode := .taskEnd }))).slots[(0 : Fin 8)].idle = true := by decide
theorem witness_GroupsMailboxesTasksProceed_end : (base.onThr (fun t => { t with mode := .ending })).slots[(0 : Fin 8)].mode = .ending ∧ endReady (base.onThr (fun t => { t with mode := .ending })) 0 = true := by decide
def waiting : State := (base.onThr (fun t => { t with mode := .dispatch })).onCore (fun c => { c with ready := [ready0] })
theorem witness_GroupsMailboxesTasksProceed_dispatch : dispatchSlot waiting = some 0 ∧ dispatchPick waiting 0 = some (ready0, 0) := by decide
def card0 : Card := { id := 0, slot := 0, pending := 0, task := ready0, tag := 0 }
theorem witness_GroupsMailboxesTasksProceed_card : (base.onCore (fun c => { c with cards := [card0] })).core.cards.find? (fun y => y.id == 0) = some card0 ∧
    cardReady (base.onCore (fun c => { c with cards := [card0] })) = some 0 ∧ base.core.ready.length < 64 := by decide


def tile0 : Tile := { data := List.replicate 128 5, bad := [], core := 0, src := 0, rel := [] }
def name0 : TileName := { cid := 0, tensor := 0, iter := 0, tile := 0 }
def giver0 : Giver := { core := 0, slot := 0, seq := 1, tag := 0, va := 0xFE0000000000 }
def netSt (r : Router) (l : List (Nat × Packet)) : State := { tileSt with net := { tileSt.net with routers := [r], packets := l } }
def face0 : Face := .waiter 0 0 0
def entry0At (up : Option (Nat × Face)) (fs : List Face) (flaw : Bool) : PitEntry := { nm := name0, faces := fs, up, flaw }
def cribSt : State := netSt { cluster := 0, pit := [], crib := [(name0, tile0)], flaws := [] } [(0, .interest name0 face0)]
def pitSt (k : Nat) (e : PitEntry) (p : Packet) : State := netSt { cluster := k, pit := [e], crib := [], flaws := [] } [(k, p)]
/-- What the network's clauses ask of a router without flaws. -/
def sound (s : State) (k : Nat) : Bool := !(((routerAt s k).flaws.contains name0 && decide (k < 131072))) && (routerAt s k).pit.all (fun e => !e.flaw)
/-- A packet with its turn, and one behind another. -/
theorem witness_TileNetworkProceeds_order : inOrder cribSt 0 (.interest name0 face0) = true ∧ inOrder tileSt 0 (.tile name0 tile0) = true ∧
    inOrder (netSt { cluster := 0, pit := [], crib := [], flaws := [] } [(0, .empty name0 false), (0, .interest name0 face0)]) 0 (.interest name0 face0) = false := by decide +kernel
theorem witness_TileNetworkProceeds : tensorOf cribSt 0 name0.cid name0.tensor = some tens0 ∧ tens0.mod = 0 ∧ sound cribSt 0 = true ∧ cribFind (routerAt cribSt 0) name0 = some tile0 ∧
    (let s := pitSt 0 (entry0At none [face0, .xPlus] false) (.interest name0 face0)
     sound s 0 = true ∧ inOrder s 0 (.interest name0 face0) = true ∧ cribFind (routerAt s 0) name0 = none ∧ pitFind (routerAt s 0) name0 = some [face0, .xPlus]) ∧
    sound tileSt 1 = true ∧ cribFind (routerAt tileSt 1) name0 = none ∧ pitFind (routerAt tileSt 1) name0 = none ∧ hop 1 (tens0.home name0.tile.toNat) face0 = some (0, .xPlus) ∧
    tens0.home name0.tile.toNat = 0 ∧ (1 : Nat) ≠ tens0.home name0.tile.toNat := by decide +kernel
/-- An entry that fails its parity. -/
theorem witness_TileNetworkProceeds_parity : let s := pitSt 0 (entry0At none [face0] true) (.interest name0 face0)
    pitEntry (routerAt s 0) name0 = some (entry0At none [face0] true) ∧ inOrder s 0 (.interest name0 face0) = true ∧ cribFind (routerAt s 0) name0 = none ∧
    ((routerAt s 0).flaws.contains name0 && decide (0 < 131072)) = false := by decide +kernel
/-- A withdrawal that leaves a face, and one of the last, whose own interest went nowhere, out by a port, and on. -/
theorem witness_TileNetworkProceeds_withdraw :
    pitFind (routerAt (pitSt 0 (entry0At none [face0, .xPlus] false) (.withdraw name0 face0)) 0) name0 = some [face0, .xPlus] ∧
    inOrder (pitSt 0 (entry0At none [face0, .xPlus] false) (.withdraw name0 face0)) 0 (.withdraw name0 face0) = true ∧
    (∀ up ∈ [none, some (0, Face.psipor 3), some (1, .xMinus)],
      pitEntry (routerAt (pitSt 0 (entry0At up [face0] false) (.withdraw name0 face0)) 0) name0 = some (entry0At up [face0] false)) := by decide +kernel
/-- A record of another module, at a cluster's router, at the edge's cluster and at the edge router of the port, which PMAP gives to it. -/
def tensFar : Tensor := { tens0 with w2 := BitVec.ofNat 64 (2 ^ 40) }
def farSt : State := { tileSt with net := { tileSt.net with tensors := [tensFar] }, host := { tileSt.host with pmap := [(1, 0x83#64)] } }
theorem witness_TileNetworkProceeds_far : let p := pmPort (pmapAt farSt 1)
    tensFar.mod = 1 ∧ tensorOf farSt 5 name0.cid name0.tensor = some tensFar ∧ tensorOf farSt (edgeRouter p) name0.cid name0.tensor = some tensFar ∧
    tensorOf farSt (edgeCluster p) name0.cid name0.tensor = some tensFar ∧ (5 : Nat) ≠ edgeRouter p ∧ (5 : Nat) ≠ edgeCluster p ∧ (hop 5 (edgeCluster p) face0).isSome = true ∧
    sound farSt 5 = true ∧ sound farSt (edgeRouter p) = true ∧ cribFind (routerAt farSt 5) name0 = none ∧ pitFind (routerAt farSt 5) name0 = none := by decide +kernel
theorem witness_TileNetworkProceeds_notice : inOrder farSt (edgeRouter 3) (.notice 3 0) = true ∧ pmValid (pmapAt farSt 1) = true ∧ pmPort (pmapAt farSt 1) = 3 ∧ pmPcid (pmapAt farSt 1) = 0 := by decide +kernel
/-- The iteration is closed, and it is not. -/
def closing : State := { tileSt with net := { tileSt.net with iters := [{ cid := 0, tensor := 0, iter := 0, launch := 0, retired := [], closed := true }] } }
theorem witness_TileNetworkProceeds_give : isClosed closing tens0 name0.cid name0.tensor name0.iter = true ∧
    isClosed (launched tileSt) tens0 name0.cid name0.tensor name0.iter = false := by decide +kernel
/-- The header of the tile in its backing region, in the page, says VALID. -/
def backed : State :=
  let s := { launched (paged.onSt (fun st => { st with mem := Mem.write st.mem (fetchPage + 128) (bytesLE 8 0x10000) })) with
    net := { base.net with tensors := [{ tens0 with w4 := fetchVa }] } }
  { s with fw := { s.fw with launches := [{ launch0 [(0, 0)] with ctx := BitVec.ofNat 64 fetchRoot }] } }
theorem witness_TileNetworkProceeds_valid : isClosed backed { tens0 with w4 := fetchVa } name0.cid name0.tensor name0.iter = false ∧
    (match headerValid (takePacket backed 0 (.give name0 tile0 giver0)) 0 { tens0 with w4 := fetchVa } name0 with | .inl (_, true) => true | _ => false) = true := by decide +kernel
/-- The same with the header of no iteration, and the page in the TLB of the router's cluster. -/
def backedEntry : TlbEntry := { cluster := 0, cid := 0, va := 0x10000, size := 65536, pa := fetchPage, attr := 0x0F }
def accepting : State :=
  let s := { launched paged with net := { base.net with tensors := [{ tens0 with w4 := fetchVa }] } }
  { s with fw := { s.fw with launches := [{ launch0 [(0, 0)] with ctx := BitVec.ofNat 64 fetchRoot }] }, st := { s.st with tlb2 := [backedEntry] } }
theorem witness_TileNetworkProceeds_accept : MemoryOk accepting ∧ isClosed accepting { tens0 with w4 := fetchVa } name0.cid name0.tensor name0.iter = false ∧
    (∀ j < ({ tens0 with w4 := fetchVa } : Tensor).size / 8,
      Backed accepting 0 name0.cid (({ tens0 with w4 := fetchVa } : Tensor).dataVa name0.iter.toNat name0.tile.toNat + 8 * j) (fetchPage + 8 * j)) ∧
    Backed accepting 0 name0.cid (({ tens0 with w4 := fetchVa } : Tensor).headVa name0.iter.toNat name0.tile.toNat) (fetchPage + 128) ∧
    fetchPage + ({ tens0 with w4 := fetchVa } : Tensor).size ≤ bankBase ∧ read64 accepting.st (fetchPage + 128) % 2 ^ 17 ≠ 2 ^ 16 + name0.iter.toNat := by
  have e : ∀ a : Nat, (fun e : TlbEntry => e.hits 0 name0.cid.val a) backedEntry = true → accepting.st.tlb2.find? (fun e => e.hits 0 name0.cid.val a) = some backedEntry := by
    intro a h
    show [backedEntry].find? _ = _
    simp only [List.find?, h]
  have f : ∀ a : Nat, ∀ e ∈ accepting.st.tlb2, e.hits 0 name0.cid.val a = true → e.flaw = false := by
    intro a e h _
    have : e ∈ [backedEntry] := h
    simp only [List.mem_singleton] at this
    subst this
    rfl
  refine ⟨by show Mem.wf accepting.st.mem = true; decide +kernel, by decide +kernel, ?_, ?_, by decide +kernel, by decide +kernel⟩
  · have h : ∀ j < 16, classify (BitVec.ofNat 64 (65536 + 8 * j)) = .paged ∧ backedEntry.hits 0 name0.cid.val (field (BitVec.ofNat 64 (65536 + 8 * j)) 47 0) = true ∧
        fetchPage + 8 * j = backedEntry.pa + field (BitVec.ofNat 64 (65536 + 8 * j)) 47 0 % backedEntry.size := by decide +kernel
    exact fun j hj => ⟨(h j hj).1, f _, backedEntry, e _ (h j hj).2.1, by decide, (h j hj).2.2⟩
  · exact ⟨by decide +kernel, f _, backedEntry, e _ (by decide +kernel), by decide, by decide +kernel⟩
def producers : State :=
  let s := { tileSt with net := { tileSt.net with tensors := [{ tens0 with w2 := BitVec.ofNat 64 (2 ^ 20) }], iters := [{ cid := 0, tensor := 0, iter := 0, launch := 0, retired := [0], closed := false }] } }
  { s with fw := { s.fw with launches := [{ launch0 [(0, 0)] with words := (Vector.replicate 16 0#64).set (1 : Fin 16) 1#64 }] } }
theorem witness_TileNetworkProceeds_retire : let n := threadNum 1 0 1 0
    producers.threadNo (Fin.ofNat 8 n) ≠ n ∧ tensorOf producers (clusterOf ((producers.coreOf n).getD 0)) name0.cid name0.tensor = some { tens0 with w2 := BitVec.ofNat 64 (2 ^ 20) } ∧
    isProducer producers { tens0 with w2 := BitVec.ofNat 64 (2 ^ 20) } n = true ∧
    iterFind producers 0 name0.cid name0.tensor name0.iter = some { cid := 0, tensor := 0, iter := 0, launch := 0, retired := [0], closed := false } := by decide +kernel

/-- A queue whose slot 0 is full, in the page of `paged`. -/
def queue0 : Queue := { cid := 0, q := 0, base := fetchVa, n := 0, head := fetchVa + 0x1000, kvec := 0, taken := 0 }
def submitted : State :=
  let s := { paged with fw := { paged.fw with contexts := [(0, BitVec.ofNat 64 fetchRoot)], queues := [queue0] }, host := { paged.host with done := true, devStat := 4 } }
  s.onSt (fun st => { st with full := [fetchPage / 8] })
theorem witness_LaunchesProceed_take : submitted.fw.queues.find? (fun y => y.cid == 0 && y.q == 0) = some queue0 ∧
    submitted.fw.contexts.find? (fun y => y.1 == 0) = some (0, BitVec.ofNat 64 fetchRoot) ∧
    (fwPlace submitted (fwWalker 0 (BitVec.ofNat 64 fetchRoot)) false true (queue0.base.toNat + 128 * (queue0.taken % 2 ^ queue0.n))).map (·.1) = some fetchPage ∧
    (fwPlace (slotReads submitted (fwWalker 0 (BitVec.ofNat 64 fetchRoot)) queue0) (fwWalker 0 (BitVec.ofNat 64 fetchRoot)) true false queue0.head.toNat).isSome = true ∧
    (fwWords (slotReads submitted (fwWalker 0 (BitVec.ofNat 64 fetchRoot)) queue0) (fwWalker 0 (BitVec.ofNat 64 fetchRoot)) (queue0.base.toNat + 128 * (queue0.taken % 2 ^ queue0.n)) 16).isSome = true ∧ serving submitted = true ∧
    isFull submitted fetchPage = true ∧ submitted.fw.launches.any (fun l => l.cid == 0 && l.q == 0 && l.st == 0#8) = false := by decide +kernel
def unplaced : State := { State.reset with fw := { State.reset.fw with launches := [launch0 []] }, host := { State.reset.host with done := true, devStat := 4 } }
theorem witness_LaunchesProceed_place : unplaced.fw.launches[0]? = some (launch0 []) ∧ (launch0 []).st = 0 ∧ 0 < (launch0 []).teams ∧ (unplaced.corners 0).any (fun p => p.1 == 0) = false ∧
    placeable unplaced 0 (launch0 []) (launch0 []).words[5] 0 0 = true ∧ unplaced.fw.resident = none ∧ serving unplaced = true ∧ inRect unplaced 0 0 (launch0 []).w (launch0 []).h = true ∧ 0 < (launch0 []).nt := by decide +kernel
theorem witness_LaunchesProceed_complete : (launched State.reset).fw.launches[0]? = some (launch0 [(0, 0)]) ∧ (launch0 [(0, 0)]).st = 0 ∧ teamsDone (launched State.reset) 0 (launch0 [(0, 0)]) = true ∧
    coreFinished (launched State.reset) = true ∧ coreSettled (launched State.reset) = true := by decide +kernel
/-- Before the team is chosen, and with every thread stopped. -/
def stopping : State := { launched State.reset with slots := Vector.replicate 8 { Thread.reset with stop := .yes }, fw := { (launched State.reset).fw with chosen := true } }
theorem witness_LaunchesProceed_swap : (launched State.reset).fw.resident = some (0, 0, 0, 0) ∧ (launched State.reset).fw.launches[0]? = some (launch0 [(0, 0)]) ∧
    (launched State.reset).fw.chosen = false ∧ stopping.fw.resident = some (0, 0, 0, 0) ∧ stopping.fw.chosen = true ∧
    stopping.core.freezing = false ∧ stopping.slots.all (fun t => t.stop == .yes && t.flight.isEmpty) = true ∧ swapSettled stopping = true := by decide +kernel
def image0 : Image := { slots := State.reset.slots, core := Core.reset, bank := [], full := [], marks := [], ecc := [], hist := [], resvs := [], resvWait := [], tlbis := [], exile := 0
                        launch := (0, 0, 0, 0), reqs := [], stops := [], settled := [], waits := [], barriers := [] }
def swapped : State := { unplaced with images := [image0] }
theorem witness_LaunchesProceed_restore : swapped.images = image0 :: [] ∧ swapped.fw.launches[image0.launch.1]? = some (launch0 []) ∧ restorable swapped image0 (launch0 []) 0 0 = true ∧ image0.reqs = [] ∧ image0.waits = [] ∧ image0.settled = [] ∧ image0.resvWait = [] ∧ swapped.st.resvWait = [] ∧ swapped.st.waiting = [] ∧ swapped.core.freezing = false := by decide +kernel

theorem witness_DebugAndPowerAct : MemoryOk base ∧ idleCluster base 131071 = true ∧ 131071 < 131072 ∧ (islandAt base 2047).cur = 0 ∧ base.host.featEn.getLsbD 4 = false := ⟨mok (by decide), by decide, by decide, by decide, by decide⟩
/-- An island that falls, one that rests at step 0 with a permit and boost asked for, and one under a limit. -/
def powered (x : Island) : State := { featured base with host := { (featured base).host with islands := [(2047, x)], featEn := 16 } }
theorem witness_DebugAndPowerAct_interval : islandAt (powered { perm := 1, cur := 2, tgt := 2, trip := false, idle := 0 }) (128 * 15 + 127) = { perm := 1, cur := 2, tgt := 2, trip := false, idle := 0 } ∧
    (powered { perm := 1, cur := 2, tgt := 2, trip := false, idle := 0 }).host.featEn.getLsbD 4 = true ∧ (15 < 16 ∧ 127 < 128) := by decide
/-- R404: the fall traced there, and a permit gained after four intervals at step 0. -/
theorem test_island_falls : after (exec .islandInterval (powered { perm := 1, cur := 2, tgt := 2, trip := false, idle := 0 })) (fun t => ((islandAt t 2047).perm, (islandAt t 2047).cur)) = some (0, 1) ∧
    after (exec .islandInterval (powered { perm := 3, cur := 0, tgt := 0, trip := false, idle := 3 })) (fun t => (islandAt t 2047).perm) = some 4 := by decide +kernel
theorem witness_DebugAndPowerAct_filter : bloomHit (bloomInsert 0 9) 9 = true := by decide +kernel

/-- A buffer of one record at the granary's end, with nothing recorded before, and a block of lost times. -/
theorem witness_DebugAndPowerAct_buffer : (base.dbg.buf 0).records = [] ∧ (base.dbg.buf 0).place = none ∧ 0xFFFFFFFFF0 % 16 = 0 ∧ inGranary 0xFFFFFFFFF0 = true ∧ inGranary (0xFFFFFFFFF0 + 16 * 1 - 1) = true ∧
    0xFFFFFFFEB0 % 8 = 0 ∧ inGranary 0xFFFFFFFEB0 = true ∧ inGranary (0xFFFFFFFEB0 + 335) = true := by decide
/-- The last line of the granary's first granule, granted and not, by either alias, and the first address beyond the decoder. -/
def full64 : HostEnables := { bytes := BitVec.allOnes 64, known := [] }
theorem witness_HostMemoryAndLinksAct : recovery base = false ∧ dpaOf base (base.host.hdmBase + 0x3FFFFFC0) = some 0x3FFFFFC0 ∧
    dpaOf base (base.host.hdmBase + 0x1003FFFFFC0) = some 0x1003FFFFFC0 ∧ dpaOf base (base.host.hdmBase + 0x20000000000) = none ∧
    granted base 0x3FFFFFC0 = true ∧ granted { base with host := { base.host with ungranted := [0] } } 0x3FFFFFC0 = false ∧ MemoryOk base ∧
    (featured base).host.featEn.getLsbD 1 = true ∧ base.st.waiting = [] ∧
    (List.range 8).any (hostRefused (hostScrub base (dpaLoc 0x3FFFFFC0) full64.bytes) (dpaLoc 0x3FFFFFC0) full64.bytes) = false ∧
    (List.range 8).any (hostRefused (hostScrub base (dpaLoc 0x3FFFFFC0) 1) (dpaLoc 0x3FFFFFC0) 1) = false :=
  ⟨by decide, by decide, by decide, by decide, by decide, by decide, mok (by decide), by decide, by decide, by decide +kernel, by decide +kernel⟩
/-- A line of the host's: not at home, at home and not the module's own, and Dirty. -/
def hostSt (dirty : Bool) : State := base.onSt (fun st => { st with lines := [{ lineFind st.lines (hostLine 0x8000000000000) with home := true, own := dirty, dirty }] })
theorem witness_HostMemoryAndLinksAct_lines : inHost (hostLine 0x8000000000000) = true ∧ base.st.queue = [] ∧ MemoryOk (hostSt true) ∧
    (lineFind base.st.lines (hostLine 0x8000000000000)).home = false ∧ (lineFind (hostSt false).st.lines (hostLine 0x8000000000000)).home = true ∧
    (lineFind (hostSt false).st.lines (hostLine 0x8000000000000)).own = false ∧ (lineFind (hostSt true).st.lines (hostLine 0x8000000000000)).dirty = true :=
  ⟨by decide, by decide, mok (by decide), by decide, by decide, by decide, by decide⟩
/-- Both requests of a home slice for the line, unanswered. -/
def askedSt (op : CacheOp) : State := { hostSt false with host := { base.host with out := { base.host.out with asks := [{ op, pa := hostLine 0x8000000000000, data := none, before := [] }] } } }
theorem witness_HostMemoryAndLinksAct_asks : hostAwaited (askedSt .rdOwn) (hostLine 0x8000000000000) = some { op := .rdOwn, pa := hostLine 0x8000000000000, data := none, before := [] } ∧
    hostAwaited (askedSt .rdShared) (hostLine 0x8000000000000) = some { op := .rdShared, pa := hostLine 0x8000000000000, data := none, before := [] } ∧
    (lineFind (askedSt .rdShared).st.lines (hostLine 0x8000000000000)).dirty = false ∧ hostAwaited base (hostLine 0x8000000000000) = none ∧
    hostAwaited (hostSt false) (hostLine 0x8000000000000) = none ∧ base.host.herr.getLsbD 63 = false := by decide
/-- R396: RdOwn's answer in error is kind 4 in HERR. -/
theorem test_cxl_own_error : after (exec (.cxlCacheResponse 0x8000000000000 0 true) (askedSt .rdOwn)) (fun s => (field s.host.herr 60 58, s.host.out.asks.length, s.host.out.msix1)) =
    some (4, 0, 1) := by decide +kernel
theorem witness_HostMemoryAndLinksAct_links : (featured base).host.down.contains 15 = false ∧ (featured base).host.featEn.getLsbD 3 = true ∧
    ({ base with host := { base.host with down := [15] } } : State).host.down.contains 15 = true ∧ enterRouter (featured base) 15 (.interest name0 face0) = some (edgeRouter 15) := by decide

theorem witness_HostRegistersAct : base.core.copies = [] ∧ 131071 < 131072 ∧ (0x8000000000000000#64 : Word).getLsbD 63 = true ∧ base.host.herr.getLsbD 63 = false ∧ recovery base = false ∧ base.host.done = false ∧
    field (0#64 : Word) 37 28 = base.core.x.toNat ∧ field (0#64 : Word) 47 38 = base.core.y.toNat ∧ holdsThread base.slots[Fin.ofNat 8 (field (0#64 : Word) 26 24)] = true ∧
    devState { base with host := { base.host with devStat := 3 } } = 3 ∧ devState base ≠ 3 := by decide
/-- R399, R405: GO in state 3 ends the negotiation, and before it is only remembered. -/
theorem test_go : after (exec .negoGo { base with host := { base.host with devStat := 3 } }) (fun s => (s.host.done, devState s)) = some (true, 4) ∧
    after (exec .negoGo base) (fun s => (s.host.done, s.host.go)) = some (false, true) := by decide +kernel
def tabled (v : Nat) : State := base.onSt (fun st => { st with mem := Mem.write st.mem 8 (bytesLE 8 v) })
theorem witness_HostRegistersAct_ctxcmd : (tableWord (tabled 1) ((tabled 1).host.ctxTab.toNat + 16 * (0 : Fin 64).val)).isSome = true ∧
    tableWord (tabled 1) ((tabled 1).host.ctxTab.toNat + 16 * (0 : Fin 64).val + 8) = some 1 ∧ (1#64 : Word).getLsbD 0 = true ∧
    tableWord (tabled 0) ((tabled 0).host.ctxTab.toNat + 16 * (0 : Fin 64).val + 8) = some 0 ∧ (0#64 : Word).getLsbD 0 = false := by decide +kernel

-- ## The machine as a whole

def isOk {α : Type} : Fetched α → Bool
  | .ok _ _ => true
  | _ => false
/-- `w1 -> alu.add` is fetched and runs. -/
def oneWord : State := State.reset.withFetchWord 16 0x2001
theorem witness_StepRunsDecoded : oneWord.schedule = [] ∧ (pick? oneWord).isNone = true ∧ oneWord.clockOff = false ∧ recovery oneWord = false ∧ oneWord.core.stopped = false ∧ oneWord.thr.mode = .run ∧ oneWord.thr.held = none ∧ oneWord.thr.miss = none ∧ oneWord.thr.stop ≠ .yes ∧ oneWord.fw.chosen = false ∧
    (match fetchWord { oneWord with gap := false, wrote := false } with | .ok i _ => i == .aluAddShort false (.w 1) | _ => false) = true ∧
    (match fetchHalf oneWord oneWord.thr.pc with | .ok h _ => !isLong h | _ => false) = true := by decide +kernel
theorem witness_StepRunsDecoded_long : (match fetchHalf (State.reset.withFetchWord 32 0x80480400) fetchVa with
    | .ok h s1 => isLong h && isOk (fetchHalf s1 (fetchVa + 2)) | _ => false) = true := by decide +kernel
/-- Guard 16 is refused with 0x01, and a fetch from the window with its cause. -/
theorem witness_StepRunsDecoded_bad : (match fetchWord { State.reset.withFetchWord 32 0xA0400001 with gap := false, wrote := false } with | .bad c _ => c == causeOf 1 | _ => false) = true := by decide +kernel
theorem witness_StepRunsDecoded_miss : let s := oneWord.onCore (fun c => { c with tlb1 := [] })
    (match fetchWord { s with gap := false, wrote := false } with | .miss va s1 => va == 0x10000 && s1.thr.event?.isNone | _ => false) = true ∧ pick? s = none ∧ s.schedule = [] := by decide +kernel
theorem witness_StepRunsDecoded_half : fetchWalk oneWord fetchVa = none ∧ (match translateFetch oneWord oneWord.thr.walker fetchVa with
    | .ok loc _ s1 => decide (loc % 2 = 0) && (s1.core.icache.find? (fun l => l.1 == lineOf loc)).isNone && s1.st.marks.isEmpty && s1.st.ecc.isEmpty | _ => false) = true := by decide +kernel
theorem witness_EncodingRoundTrips : (Instr.transportLong true (.ifFalse 15) (.port .rngS) (.imm15 0x7FFF#15)).wellFormed = true ∧
    encode (.transportLong true (.ifFalse 15) (.port .rngS) (.imm15 0x7FFF#15)) = some [0x5E#8, 0xFE#8, 0xFF#8, 0xFF#8] := by decide
theorem witness_StepKeepsMemoryCanonical : MemoryOk oneWord ∧ ∃ t, step oneWord = .next t := by
  refine ⟨by show Mem.wf oneWord.st.mem = true; decide +kernel, ?_⟩
  have h : (match step oneWord with | .next _ => true | _ => false) = true := by decide +kernel
  split at h
  · rename_i t e
    exact ⟨t, e⟩
  · cases h

/-- The one step from the placed word runs it: its result is under way and the pc stands behind it. -/
theorem test_step_runs_word : after (step oneWord) (fun s => (s.slots[(0 : Fin 8)].pc, (s.slots[(0 : Fin 8)].flight.map (·.ports)))) = some (fetchVa + 2, [[.aluO]]) := by decide +kernel

end Sys2Proof.Tests
end

section
/-! PROOF. The machine right after module reset: what each slot, track, stream and island reads, and memory's canonical form there (R10, R65, R117, R225, R398, R403, R404). -/

namespace Sys2Proof.Proofs.Scope

open Sys2Proof Sys2Proof.Machine Sys2Proof.Safety

/-- p0 reads true whatever the predicate registers hold. -/
@[simp] theorem pred_zero (t : Thread) : t.pred 0 = true := by
  simp [Thread.pred]

@[simp] theorem reset_slot (i : Fin 8) : State.reset.slots[i] = Thread.reset := by
  simp [State.reset]

@[simp] theorem reset_track (n : Fin 32) : State.reset.core.tracks[n] = Track.clean := by
  simp [State.reset, Core.reset]

@[simp] theorem reset_stream_bind (i : Fin 8) : State.reset.core.streams[i].bind = none := by
  simp [State.reset, Core.reset]

/-- An island that no entry names, so each one where none is listed, stands at its reset value (R403). -/
theorem islandAt_of_islands_nil {s : State} (h : s.host.islands = []) (i : Nat) : islandAt s i = Island.reset := by
  simp [islandAt, h]

@[simp] theorem islandAt_reset (i : Nat) : islandAt State.reset i = Island.reset :=
  islandAt_of_islands_nil rfl i

/-- Memory that lists no cell is canonical (log 7). -/
theorem memoryOk_of_mem_nil {s : State} (h : s.st.mem = []) : MemoryOk s := by
  simp [MemoryOk, h, Mem.wf, Mem.wfFrom]

theorem memoryOk_reset : MemoryOk State.reset := memoryOk_of_mem_nil rfl

/-- Each slot stands empty with p0 true (R10). -/
theorem reset_slot_absent (i : Fin 8) : State.reset.slots[i].mode = .absent ∧ State.reset.slots[i].pred 0 = true := by
  rw [reset_slot]
  exact ⟨rfl, pred_zero _⟩

/-- Each track has its head at 0, no owner and no cells (R117). -/
theorem reset_track_clear (n : Fin 32) :
    State.reset.core.tracks[n].h = 0 ∧ State.reset.core.tracks[n].owner = none ∧ State.reset.core.tracks[n].cells = [] := by
  rw [reset_track]
  exact ⟨rfl, rfl, rfl⟩

/-- Each island stands at step 0 with 64 permits (R403). -/
theorem reset_island_step (i : Nat) : (islandAt State.reset i).cur = 0 ∧ (islandAt State.reset i).perm = 64 := by
  rw [islandAt_reset]
  exact ⟨rfl, rfl⟩

/-- No feature is negotiated, no error stands and every PMAP entry is 0 (R398). -/
theorem reset_host_unnegotiated :
    State.reset.host.drvAcc = 0 ∧ State.reset.host.done = false ∧ State.reset.host.featEn = 0 ∧
      State.reset.host.herr = 0 ∧ State.reset.host.pmap = [] :=
  ⟨rfl, rfl, rfl, rfl, rfl⟩

/-- Settles O60: the slots, tracks, streams and islands by what each reads at reset, memory because it lists nothing, and the
registers and the lists of the host, the firmware, the store and the core from their reset values. -/
theorem resetState : Obligations.ResetState := by
  unfold Obligations.ResetState
  obtain ⟨drvAcc, done, featEn, herr, pmap⟩ := reset_host_unnegotiated
  exact ⟨memoryOk_reset, rfl, reset_slot_absent, drvAcc, done, featEn, herr, pmap, rfl, rfl, reset_track_clear,
    reset_stream_bind, rfl, reset_island_step, rfl, rfl⟩

end Sys2Proof.Proofs.Scope
end

section
/-! PROOF. Results on their way to the ports: fixed-latency and fenced deliveries, a paged load's read, late deliveries into a save area, and
the steps that release a marker's park and a held word (R22, R36, R40, R42, R44, R147, R152, R182, R258, R371). -/

namespace Sys2Proof.Proofs.Results

open Sys2Proof Sys2Proof.Machine Sys2Proof.Safety

-- ## Bytes and bits

@[simp] theorem bytesLE_length (k v : Nat) : (bytesLE k v).length = k := by
  induction k generalizing v with
  | zero => rfl
  | succ k ih => simp [bytesLE, ih]

/-- A number that fits in `k` bytes reads back from them (R8). -/
theorem natLE_bytesLE (k v : Nat) (h : v < 256 ^ k) : natLE (bytesLE k v) = v := by
  induction k generalizing v with
  | zero => simp at h; simp [bytesLE, natLE, h]
  | succ k ih =>
    rw [bytesLE, natLE, ih _ (by rw [Nat.pow_succ] at h; omega), BitVec.toNat_ofNat]
    omega

theorem natLE_lt (bs : List Byte) : natLE bs < 256 ^ bs.length := by
  induction bs with
  | nil => simp [natLE]
  | cons b bs ih =>
    have := b.isLt
    rw [natLE, List.length_cons, Nat.pow_succ]
    omega

/-- A bit of a number, taken away where it stands. -/
def clearBit (i x : Nat) : Nat := if x.testBit i then x - 2 ^ i else x

def setBit (i x : Nat) : Nat := x ||| 2 ^ i

theorem testBit_clearBit (i x j : Nat) : (clearBit i x).testBit j = (decide (j ≠ i) && x.testBit j) := by
  unfold clearBit
  split
  · rename_i h
    have hodd : x / 2 ^ i % 2 = 1 := by simpa [Nat.testBit_eq_decide_div_mod_eq] using h
    obtain ⟨q, r, hr, hx⟩ : ∃ q r, r < 2 ^ i ∧ x = 2 ^ (i + 1) * q + (2 ^ i + r) := by
      refine ⟨x / 2 ^ i / 2, x % 2 ^ i, Nat.mod_lt _ (Nat.two_pow_pos i), ?_⟩
      have h1 := Nat.div_add_mod x (2 ^ i)
      have h2 : x / 2 ^ i = 2 * (x / 2 ^ i / 2) + 1 := by omega
      rw [Nat.pow_succ, Nat.mul_assoc]
      generalize x / 2 ^ i / 2 = q at *
      rw [h2, Nat.mul_add, Nat.mul_one] at h1
      omega
    have hsub : x - 2 ^ i = 2 ^ (i + 1) * q + r := by omega
    have hr1 : 2 ^ i + r < 2 ^ (i + 1) := by rw [Nat.pow_succ]; omega
    rw [hsub, Nat.testBit_two_pow_mul_add q (by omega), hx, Nat.testBit_two_pow_mul_add q hr1]
    rcases Nat.lt_trichotomy j i with hj | rfl | hj
    · simp [Nat.lt_succ_of_lt hj, Nat.ne_of_lt hj, Nat.testBit_two_pow_add_gt hj]
    · simp [Nat.testBit_lt_two_pow hr]
    · have : ¬ j < i + 1 := by omega
      simp [this, Nat.ne_of_gt hj]
  · rename_i h
    by_cases hj : j = i
    · simpa [hj] using h
    · simp [hj]

theorem testBit_setBit (i x j : Nat) : (setBit i x).testBit j = (decide (j = i) || x.testBit j) := by
  rw [setBit, Nat.testBit_or, Nat.testBit_two_pow, Bool.or_comm]
  simp [eq_comm]

theorem clearBit_lt {i x n : Nat} (h : x < n) : clearBit i x < n := by
  unfold clearBit
  split
  · exact Nat.lt_of_le_of_lt (Nat.sub_le _ _) h
  · exact h

theorem setBit_lt {i x n : Nat} (h : x < 2 ^ n) (hi : i < n) : setBit i x < 2 ^ n :=
  Nat.or_lt_two_pow h (Nat.pow_lt_pow_right (by decide) hi)

-- ## Memory: numbers at places

/-- A write leaves a range apart from its own alone. -/
theorem read_write_other {m : List Host.Cell} (h : Mem.wf m = true) (a b n : Nat) (bs : List Byte)
    (hd : b + n ≤ a ∨ a + bs.length ≤ b) : Mem.read (Mem.write m a bs) b n = Mem.read m b n := by
  induction n generalizing b with
  | zero => rfl
  | succ n ih => rw [Mem.read, Mem.read, Mem.get_write_other bs a b h (by omega), ih (b + 1) (by omega)]

theorem write_append (m : List Host.Cell) (a : Nat) (xs ys : List Byte) :
    Mem.write m a (xs ++ ys) = Mem.write (Mem.write m a xs) (a + xs.length) ys := by
  induction xs generalizing m a with
  | nil => rfl
  | cons x xs ih => rw [List.cons_append, Mem.write, Mem.write, ih, List.length_cons, Nat.add_right_comm, Nat.add_assoc a]

/-- The `n` bytes of memory at a place, as a number (R8). -/
def numAt (m : List Host.Cell) (a n : Nat) : Nat := natLE (Mem.read m a n)

theorem numAt_lt (m : List Host.Cell) (a n : Nat) : numAt m a n < 256 ^ n := by
  simpa [numAt] using natLE_lt (Mem.read m a n)

/-- A number written in some bytes at a place. -/
structure Field where
  loc : Nat
  size : Nat
  val : Nat

/-- Two fields share no byte. -/
def Field.apart (f g : Field) : Prop := f.loc + f.size ≤ g.loc ∨ g.loc + g.size ≤ f.loc

def putFields (m : List Host.Cell) (fs : List Field) : List Host.Cell :=
  fs.foldl (fun m f => Mem.write m f.loc (bytesLE f.size f.val)) m

theorem putFields_singleton (m : List Host.Cell) (f : Field) : putFields m [f] = Mem.write m f.loc (bytesLE f.size f.val) := rfl

/-- Bytes that no field covers stay. -/
theorem read_putFields_other (fs : List Field) {m : List Host.Cell} (h : Mem.wf m = true) (a n : Nat)
    (hd : ∀ f ∈ fs, a + n ≤ f.loc ∨ f.loc + f.size ≤ a) : Mem.read (putFields m fs) a n = Mem.read m a n := by
  induction fs generalizing m with
  | nil => rfl
  | cons f fs ih =>
    rw [List.forall_mem_cons] at hd
    exact (ih (Mem.wf_write _ _ h) hd.2).trans (read_write_other h _ _ _ _ (by simpa using hd.1))

/-- A field among others that it shares no byte with reads back. -/
theorem numAt_putFields (fs : List Field) {m : List Host.Cell} (h : Mem.wf m = true) (hp : fs.Pairwise Field.apart)
    {f : Field} (hf : f ∈ fs) (hv : f.val < 256 ^ f.size) : numAt (putFields m fs) f.loc f.size = f.val := by
  induction fs generalizing m with
  | nil => simp at hf
  | cons g fs ih =>
    rw [List.pairwise_cons] at hp
    obtain ⟨hg, hp⟩ := hp
    have hw : Mem.wf (Mem.write m g.loc (bytesLE g.size g.val)) = true := Mem.wf_write _ _ h
    rcases List.mem_cons.mp hf with rfl | hf
    · have hr := Mem.read_write (bytesLE f.size f.val) f.loc h
      rw [bytesLE_length] at hr
      calc numAt (putFields m (f :: fs)) f.loc f.size
          = numAt (Mem.write m f.loc (bytesLE f.size f.val)) f.loc f.size := congrArg natLE (read_putFields_other fs hw _ _ hg)
        _ = f.val := by rw [numAt, hr, natLE_bytesLE _ _ hv]
    · exact ih hw hp hf

-- ## Slots and ports

theorem onSlot_same (s : State) (i : Fin 8) (f : Thread → Thread) : (s.onSlot i f).slots[i] = f s.slots[i] := by simp

theorem onSlot_other (s : State) {i j : Fin 8} (f : Thread → Thread) (h : j ≠ i) : (s.onSlot i f).slots[j] = s.slots[j] := by
  have : (i : Nat) ≠ j := fun e => h (Fin.ext e.symm)
  simp [this]

theorem onSlot_onSlot (s : State) (i : Fin 8) (f g : Thread → Thread) : (s.onSlot i f).onSlot i g = s.onSlot i (fun t => g (f t)) := by
  simp [State.onSlot, State.setSlot]

/-- Nothing but one slot has changed. -/
def OnlySlot (slot : Fin 8) (s t : State) : Prop :=
  (∀ i : Fin 8, i ≠ slot → t.slots[i] = s.slots[i]) ∧ t.core = s.core ∧ t.st = s.st ∧ t.cur = s.cur

theorem onSlot_onlySlot (slot : Fin 8) (s : State) (f : Thread → Thread) : OnlySlot slot s (s.onSlot slot f) :=
  ⟨fun _ h => onSlot_other s f h, rfl, rfl, rfl⟩

theorem OnlySlot.trans {slot : Fin 8} {s t u : State} (h1 : OnlySlot slot s t) (h2 : OnlySlot slot t u) : OnlySlot slot s u := by
  obtain ⟨others1, core1, st1, cur1⟩ := h1
  obtain ⟨others2, core2, st2, cur2⟩ := h2
  exact ⟨fun i h => (others2 i h).trans (others1 i h), core2.trans core1, st2.trans st1, cur2.trans cur1⟩

theorem all_getElem_fin (p : RPort) : RPort.all[p.fin.val]? = some p := by cases p <;> rfl

/-- Each port has a place of its own. -/
theorem fin_inj {p r : RPort} (h : p.fin = r.fin) : p = r :=
  Option.some.inj ((all_getElem_fin p).symm.trans (h ▸ all_getElem_fin r))

theorem rpq_set (t : Thread) (p r : RPort) (v : Quad) :
    ({ t with rp := t.rp.set p.fin v } : Thread).rpq r = if r = p then v else t.rpq r := by
  by_cases h : r = p
  · simp [Thread.rpq, h]
  · have : (p.fin : Nat) ≠ r.fin := fun e => h (fin_inj (Fin.ext e.symm))
    simp [Thread.rpq, h, this]

/-- A value at its port's width (R38). -/
def atWidth (v : PortVal) : Quad := if v.port.wide then v.val else quad (low64 v.val)

/-- A delivery replaces its port's value; of the rest it touches the marks and their causes alone (R40, R140). -/
theorem deliver_eq (t : Thread) (v : PortVal) : ∃ po np c hl,
    t.deliver v = { t with rp := t.rp.set v.port.fin (atWidth v), poison := po, np := np, cause4 := c, headLost := hl } := by
  unfold Thread.deliver
  dsimp only
  split
  · exact ⟨_, _, _, _, rfl⟩
  · exact ⟨_, _, _, _, rfl⟩
  · split <;> exact ⟨_, _, _, _, rfl⟩

-- ## Fixed-latency results (R22, R258)

theorem deliverDue_single {t : Thread} {f : Flight} {v : PortVal} (hf : t.flight = [f]) (hd : f.due ≤ t.rot) (hv : f.vals = some [v]) :
    deliverDue t t.flight.length = deliverFlight { t with flight := [] } f := by
  have hdue : dueFlights t = [f] := by simp [dueFlights, hf, hd, hv]
  simp [hf, deliverDue, hdue]

/-- With no other result under way, a trigger's flags change fpu.f alone (R258). -/
theorem orFlags_eq {t : Thread} (ht : t.flight = []) (tag : Nat) (g : BitVec 6) (clear : Bool) :
    t.orFlags tag g clear = { t with rp := t.rp.set RPort.fpuF.fin ((if clear then 0 else t.rpq .fpuF) ||| g.setWidth 128) } := by
  simp [Thread.orFlags, Thread.rpq, ht]

/-- What a slot holds once its one fixed-latency result, with its flags, has reached it. -/
theorem deliverDue_arrives {t : Thread} {f : Flight} {v : PortVal} (hf : t.flight = [f]) (hd : f.due ≤ t.rot) (hv : f.vals = some [v])
    (hp : v.port ≠ .fpuF) :
    let b := deliverDue t t.flight.length
    b.flight = [] ∧ b.rpq v.port = atWidth v ∧ (∀ r : RPort, r ≠ v.port → r ≠ .fpuF → b.rpq r = t.rpq r) ∧
    b.rpq .fpuF = (match f.flags with
      | none => t.rpq .fpuF
      | some (g, clear) => (if clear then 0 else t.rpq .fpuF) ||| g.setWidth 128) ∧
    b.fence = t.fence ∧ b.w = t.w ∧ b.q = t.q ∧ b.pc = t.pc := by
  dsimp only
  rw [deliverDue_single hf hd hv]
  obtain ⟨po, np, c, hl, hdel⟩ := deliver_eq { t with flight := [] } v
  have hrp (r : RPort) : (({ t with flight := [] } : Thread).deliver v).rpq r = if r = v.port then atWidth v else t.rpq r := by
    rw [hdel]; exact rpq_set t v.port r (atWidth v)
  have hflags : (({ t with flight := [] } : Thread).deliver v).rpq .fpuF = t.rpq .fpuF := by rw [hrp, if_neg hp.symm]
  unfold deliverFlight
  simp only [hv, Option.getD_some, List.foldl_cons, List.foldl_nil]
  cases f.flags with
  | none =>
    refine ⟨by rw [hdel], by rw [hrp, if_pos rfl], fun r h _ => by rw [hrp, if_neg h], hflags, ?_⟩
    rw [hdel]; exact ⟨rfl, rfl, rfl, rfl⟩
  | some g =>
    dsimp only
    rw [orFlags_eq (by rw [hdel])]
    refine ⟨by rw [hdel], ?_, fun r h hr => ?_, ?_, ?_⟩
    · rw [rpq_set, if_neg hp, hrp, if_pos rfl]
    · rw [rpq_set, if_neg hr, hrp, if_neg h]
    · rw [rpq_set, if_pos rfl, hflags]
    · rw [hdel]; exact ⟨rfl, rfl, rfl, rfl⟩

-- ## Fenced results that reach their ports (R42)

theorem nextOwed_single {t : Thread} {o : Owed} (ho : t.owed = [o]) (hf : t.flight = []) (hv : (o.vals.isSome || o.read.isSome) = true) :
    nextOwed t = some o := by
  have hfirst : firstOfPort t o = true := by simp [firstOfPort, ho, hf]
  simp only [nextOwed, ho, List.find?_cons, hv, hfirst, Bool.and_self]

/-- The one result that a slot was owed, without commands or releases to count as returned, is owed no longer. -/
theorem owedDone_eq {s : State} {slot : Fin 8} {o : Owed} (ho : s.slots[slot].owed = [o]) (hw : o.work = []) (hr : o.rels = []) :
    ∃ ring, owedDone s slot o = s.onSlot slot (fun t => { t with owed := [], ring }) := by
  have hout : s.slots[slot].owed.filter (fun p => p.tag != o.tag) = [] := by rw [ho]; simp
  by_cases hc : s.slots[slot].counted.any (fun c => c.tag == o.tag) = true
  · exact ⟨s.slots[slot].ring, by simp only [owedDone, hw, hr, State.onSlot, hc, hout]; rfl⟩
  · exact ⟨s.slots[slot].ring.filter (fun e => e.tag != o.tag || e.refused), by
      simp only [owedDone, hw, hr, State.onSlot, hc, hout, Thread.ringFree]; rfl⟩

/-- A slot's one owed result has reached its port: what has changed, and what has not. -/
structure Arrived (slot : Fin 8) (port : RPort) (v : Quad) (s t : State) : Prop where
  owed : t.slots[slot].owed = []
  value : t.slots[slot].rpq port = v
  ports : ∀ r : RPort, r ≠ port → t.slots[slot].rpq r = s.slots[slot].rpq r
  fence : t.slots[slot].fence = s.slots[slot].fence
  w : t.slots[slot].w = s.slots[slot].w
  q : t.slots[slot].q = s.slots[slot].q
  pc : t.slots[slot].pc = s.slots[slot].pc
  mode : t.slots[slot].mode = s.slots[slot].mode
  rest : OnlySlot slot s t

/-- While its area is in use, a result reaches its port. -/
theorem placeResult_reaches {s : State} {slot : Fin 8} {o : Owed} {v : PortVal} (ho : s.slots[slot].owed = [o]) (hf : o.flags = none)
    (hw : o.work = []) (hr : o.rels = []) (h : s.slots[slot].reaches o.tag o.area = true) :
    ∃ t, placeResult (owedDone s slot o) slot o [v] = .next t ∧ Arrived slot v.port (atWidth v) s t := by
  obtain ⟨ring, hdone⟩ := owedDone_eq ho hw hr
  have hreach : (owedDone s slot o).slots[slot].reaches o.tag o.area = true := by rw [hdone, onSlot_same]; exact h
  have hplace : placeResult (owedDone s slot o) slot o [v] = .next (s.onSlot slot (fun t => ({ t with owed := [], ring } : Thread).deliver v)) := by
    simp only [placeResult, hreach, if_true, hf, List.foldl_cons, List.foldl_nil]
    rw [hdone, onSlot_onSlot]
  refine ⟨_, hplace, ?_⟩
  obtain ⟨po, np, c, hl, hdel⟩ := deliver_eq { s.slots[slot] with owed := [], ring } v
  have hrp (r : RPort) : (({ s.slots[slot] with owed := [], ring } : Thread).deliver v).rpq r = if r = v.port then atWidth v else s.slots[slot].rpq r := by
    rw [hdel]; exact rpq_set s.slots[slot] v.port r (atWidth v)
  constructor
  case rest => exact onSlot_onlySlot _ _ _
  case value => rw [onSlot_same, hrp, if_pos rfl]
  case ports => exact fun r h => by rw [onSlot_same, hrp, if_neg h]
  all_goals rw [onSlot_same, hdel]

-- ## A paged load's read (R147, R297)

/-- A choice among moments gives one of them, and at most draws a free value (log 10). -/
theorem viewPick_mem (s : State) {ms : List Moment} (h : ms ≠ []) : ∃ m ∈ ms, ∃ c, viewPick s ms = (some m, { s with freeCtr := c }) := by
  match ms, h with
  | [m], _ => exact ⟨m, by simp, s.freeCtr, rfl⟩
  | m :: n :: r, _ =>
    have hlt : Config.viewChoice s.freeCtr % (m :: n :: r).length < (m :: n :: r).length := Nat.mod_lt _ (by simp)
    exact ⟨_, List.getElem_mem hlt, s.freeCtr + 1, by simp only [viewPick, List.getElem?_eq_getElem hlt, Option.some_or]⟩

/-- Where no recorded write touches the bytes, each moment has them as they stand (R295). -/
theorem momentsFrom_bytes (loc : Nat) (cur : List Byte) (h : List HWrite)
    (hd : ∀ w ∈ h, w.loc + w.old.length ≤ loc ∨ loc + cur.length ≤ w.loc) (marks : List (Nat × BitVec 2)) (fresh : Bool) (last : Nat) :
    ∀ m ∈ momentsFrom loc h cur marks fresh last, m.bytes = cur := by
  induction h generalizing marks fresh last with
  | nil =>
    intro m hm
    cases fresh <;> simp_all [momentsFrom]
  | cons w r ih =>
    rw [List.forall_mem_cons] at hd
    obtain ⟨hw, hr⟩ := hd
    have hmiss : (decide (w.loc < loc + cur.length) && decide (loc < w.loc + w.old.length)) = false := by simp; omega
    intro m hm
    simp only [momentsFrom, hmiss, Bool.false_eq_true, if_false, List.mem_append] at hm
    rcases hm with hm | hm
    · split at hm
      · rw [List.mem_singleton.mp hm]
      · simp at hm
    · exact ih hr _ _ _ m hm

/-- A line that stands in the L1 with its parity good is read there (R146). -/
theorem l1Read_hit {s : State} {pa : Nat} (hl : s.core.l1.contains pa = true) (hb : s.core.l1bad.contains pa = false) : l1Read s pa = s := by
  unfold l1Read
  rw [if_pos hl, hb]
  rfl

/-- A load's value from the bytes that it read: zero- or sign-extended (R152). -/
def loadValue (r : ReadSpec) (b : List Byte) : Quad :=
  if r.ext then quad (BitVec.ofInt 64 (signedAt (8 * r.bytes) (natLE b))) else BitVec.ofNat 128 (natLE b)

/-- The moments that a paged load may return when its result is delivered (R297, R147). -/
def loadMoments (s : State) (slot : Fin 8) (tag : Nat) (r : ReadSpec) : List Moment :=
  viewMoments { s.st with marks := soundMarks s.st none } s.slots[slot].floor (s.src slot) (forwarded s slot tag) r.loc r.bytes

theorem loadMoments_bytes {s : State} {slot : Fin 8} {tag : Nat} {r : ReadSpec}
    (hd : ∀ w ∈ s.st.hist, w.loc + w.old.length ≤ r.loc ∨ r.loc + r.bytes ≤ w.loc) :
    ∀ m ∈ loadMoments s slot tag r, m.bytes = Mem.read s.st.mem r.loc r.bytes := by
  intro m hm
  exact momentsFrom_bytes r.loc _ s.st.hist (by simpa using hd) _ _ _ m (List.mem_filter.mp hm).1

/-- A paged load whose line stands in the L1 returns one of its moments, the thread's own writes before it forwarded. -/
theorem returnRead_hit {s : State} {slot : Fin 8} {o : Owed} {r : ReadSpec} (hb : isBank r.loc = false)
    (hl : s.core.l1.contains (lineOf r.loc) = true) (hbad : s.core.l1bad.contains (lineOf r.loc) = false) (hms : loadMoments s slot o.tag r ≠ []) :
    ∃ m ∈ loadMoments s slot o.tag r, ∃ c mark, returnRead s slot o r =
      ({ port := o.ports.headD .memO, val := loadValue r (forwardOwn s slot o.tag r.loc m.bytes), mark }, gains { s with freeCtr := c } slot o.tag r.loc m) := by
  obtain ⟨m, hm, c, hpick⟩ := viewPick_mem s hms
  refine ⟨m, hm, c, ?_⟩
  unfold loadMoments at hpick
  unfold returnRead threadRead
  simp only [l1Read_hit hl hbad, hb, Bool.false_eq_true, if_false, hpick, Option.getD_some]
  exact ⟨_, rfl⟩

/-- What a read adds to its thread's floor changes nothing that a delivery meets. -/
theorem gains_eq (s : State) (slot : Fin 8) (tag loc : Nat) (m : Moment) (c : Nat) :
    ∃ floor relReads, gains { s with freeCtr := c } slot tag loc m =
      ({ s with freeCtr := c } : State).onSlot slot (fun t => { t with floor, relReads }) :=
  ⟨_, _, rfl⟩

/-- A paged load's owed result, when it is delivered while its area is in use (R147, R152, R297). -/
theorem readDelivery_arrives {s : State} {slot : Fin 8} {o : Owed} {r : ReadSpec} (ho : s.slots[slot].owed = [o]) (hf : o.flags = none)
    (hw : o.work = []) (hr : o.rels = []) (h : s.slots[slot].reaches o.tag o.area = true) (hb : isBank r.loc = false)
    (hl : s.core.l1.contains (lineOf r.loc) = true) (hbad : s.core.l1bad.contains (lineOf r.loc) = false) (hms : loadMoments s slot o.tag r ≠ []) :
    ∃ m ∈ loadMoments s slot o.tag r, ∃ v s1 t, returnRead s slot o r = (v, s1) ∧ placeResult (owedDone s1 slot o) slot o [v] = .next t ∧
      v.port = o.ports.headD .memO ∧ v.val = loadValue r (forwardOwn s slot o.tag r.loc m.bytes) ∧ Arrived slot v.port (atWidth v) s t := by
  obtain ⟨m, hm, c, mark, hread⟩ := returnRead_hit hb hl hbad hms
  obtain ⟨floor, relReads, hgains⟩ := gains_eq s slot o.tag r.loc m c
  rw [hgains] at hread
  obtain ⟨t, hplace, harr⟩ := placeResult_reaches (s := ({ s with freeCtr := c } : State).onSlot slot (fun t => { t with floor, relReads }))
    (slot := slot) (o := o) (v := { port := o.ports.headD .memO, val := loadValue r (forwardOwn s slot o.tag r.loc m.bytes), mark })
    (by rw [onSlot_same]; exact ho) hf hw hr (by rw [onSlot_same]; exact h)
  refine ⟨m, hm, _, _, t, hread, hplace, rfl, rfl, ?_⟩
  obtain ⟨owed, value, ports, fence, w, q, pc, mode, rest⟩ := harr
  rw [onSlot_same] at ports fence w q pc mode
  exact ⟨owed, value, ports, fence, w, q, pc, mode, (onSlot_onlySlot slot ({ s with freeCtr := c } : State) _).trans rest⟩

-- ## Places of an area in the own-cluster window (R54, R183)

/-- An offset below 1024 into an aligned area reaches no field above its first ten bits. -/
theorem field_add_offset {area : Word} (ha : field area 9 0 = 0) {o : Nat} (ho : o < 1024) {hi lo : Nat} (hlo : 10 ≤ lo) :
    field (area + BitVec.ofNat 64 o) hi lo = field area hi lo := by
  have hlow : area.toNat % 1024 = 0 := by simpa [field] using ha
  have hsum : (area + BitVec.ofNat 64 o).toNat = area.toNat + o := by
    have := area.isLt
    rw [BitVec.toNat_add, BitVec.toNat_ofNat]
    omega
  have hdiv : (area.toNat + o) / 1024 = area.toNat / 1024 := by omega
  obtain ⟨k, rfl⟩ := Nat.exists_eq_add_of_le hlo
  have hshift (x : Nat) : x >>> (10 + k) = x / 1024 / 2 ^ k := by rw [Nat.shiftRight_eq_div_pow, Nat.pow_add, Nat.div_div_eq_div_mul]
  simp only [field, hsum, hshift, hdiv]

theorem classify_own {area : Word} {off : Nat} (h : classify area = .own off) :
    field area 63 48 = 0 ∧ field area 47 40 = 0xFE ∧ field area 39 17 = 0 ∧ off = field area 16 0 := by
  unfold classify at h
  split at h
  · simp at h
  · rename_i h1
    split at h
    · rename_i h2
      split at h
      · simp at h
      · rename_i h3
        simp only [VaClass.own.injEq] at h
        exact ⟨Decidable.not_not.mp h1, h2, Decidable.not_not.mp h3, h.symm⟩
    · split at h
      · split at h <;> simp at h
      · simp at h

/-- Every byte of an aligned own-window area stands in the own window. -/
theorem isOwn_add_offset {area : Word} {off o : Nat} (h : classify area = .own off) (ha : field area 9 0 = 0) (ho : o < 1024) :
    isOwn (area + BitVec.ofNat 64 o) = true := by
  obtain ⟨h1, h2, h3, -⟩ := classify_own h
  have hc : classify (area + BitVec.ofNat 64 o) = .own (field (area + BitVec.ofNat 64 o) 16 0) := by
    simp [classify, field_add_offset ha ho, h1, h2, h3]
  simp [isOwn, hc]

/-- An area of the own window starts at a multiple of its 1024 bytes. -/
theorem own_offset_aligned {area : Word} {off : Nat} (h : classify area = .own off) (ha : field area 9 0 = 0) : off % 1024 = 0 := by
  obtain ⟨-, -, -, rfl⟩ := classify_own h
  simp only [field, Nat.shiftRight_zero] at ha ⊢
  omega

theorem isBank_winLoc_add (s : State) (off o : Nat) : isBank (winLoc s off + o) = true := by
  unfold isBank winLoc bankLoc
  exact decide_eq_true (by omega)

/-- The bytes of an aligned area have one ordering point, their bank (R136). -/
theorem pointOf_winLoc_add (s : State) {off o : Nat} (h : off % 1024 = 0) (ho : o < 1024) :
    pointOf (winLoc s off + o) = pointOf (winLoc s off) := by
  have hbank : isBank (winLoc s off) = true := isBank_winLoc_add s off 0
  rw [pointOf, if_pos (isBank_winLoc_add s off o), pointOf, if_pos hbank]
  unfold bankCore winLoc bankLoc
  omega

theorem areaPlace_own {s : State} {slot : Fin 8} {area : Word} {off : Nat} (h : classify area = .own off) :
    areaPlace s slot area true = .ok (winLoc s off) 0b01111#5 s := by
  have hmesh : meshRefused s s.slots[slot].cid.val area (winLoc s off) = false :=
    meshRefused_eq_false (fun core off' e => by rw [h] at e; cases e)
  simp only [areaPlace, Machine.translate, h, hmesh, Bool.false_eq_true, if_false]

-- ## Accesses to an area that nothing of the thread precedes (R85, R147, R183)

/-- What a slot's requests and its thread are read from. -/
def requestsOf (s : State) : Core × Vector Thread 8 × List BankReq × List Req × List Req :=
  (s.core, s.slots, s.st.bankq, s.st.queue, s.st.paths)

theorem scrubWord_requests (s : State) (w : Nat) : requestsOf (scrubWord s w) = requestsOf s := by
  unfold scrubWord
  split
  · rfl
  · dsimp only
    split
    · rfl
    · split
      · split <;> rfl
      · rfl

/-- A bank's check of the words that are read leaves the requests and the threads as they were (R139). -/
theorem scrub_requests (s : State) (loc n : Nat) : requestsOf (scrub s loc n) = requestsOf s := foldl_keeps _ _ scrubWord_requests _ _

/-- A slot's accesses to its area have kept its requests on their way, and of its thread all but its floor and what is recorded lost. -/
structure AreaKept (slot : Fin 8) (s t : State) : Prop where
  pending : pendingReqs t slot = pendingReqs s slot
  thread : ∃ floor headLost, t.slots[slot] = { s.slots[slot] with floor, headLost }

theorem AreaKept.refl (slot : Fin 8) (s : State) : AreaKept slot s s := ⟨rfl, _, _, rfl⟩

theorem AreaKept.trans {slot : Fin 8} {s t u : State} (h1 : AreaKept slot s t) (h2 : AreaKept slot t u) : AreaKept slot s u := by
  obtain ⟨pending1, floor1, lost1, thread1⟩ := h1
  obtain ⟨pending2, floor2, lost2, thread2⟩ := h2
  exact ⟨pending2.trans pending1, floor2, lost2, by rw [thread2, thread1]⟩

theorem areaKept_of_requests {slot : Fin 8} {s t : State} (h : requestsOf t = requestsOf s) : AreaKept slot s t := by
  simp only [requestsOf, Prod.mk.injEq] at h
  obtain ⟨hcore, hslots, hbankq, hqueue, hpaths⟩ := h
  exact ⟨by simp only [pendingReqs, hcore, hslots, hbankq, hqueue, hpaths], s.slots[slot].floor, s.slots[slot].headLost, by rw [hslots]⟩

theorem coreRead_bank_areaKept (slot : Fin 8) {s : State} {loc n : Nat} (h : isBank loc = true) : AreaKept slot s (coreRead s loc n) := by
  rw [coreRead, if_pos h]
  exact areaKept_of_requests (scrub_requests s loc n)

theorem coreRead_mem (s : State) (loc n : Nat) : (coreRead s loc n).st.mem = s.st.mem := congrArg Prod.fst (coreRead_bytes s loc n)

/-- The area at a place stands in the own window, and of the thread's requests on their way none goes to its bank and none stores. -/
structure QuietArea (s : State) (slot : Fin 8) (area : Word) (loc : Nat) : Prop where
  own : ∀ o < 1024, isOwn (area + BitVec.ofNat 64 o) = true
  bank : ∀ o < 1024, isBank (loc + o) = true
  free : ∀ o < 1024, ownPending s slot (loc + o) = false
  stores : ∀ q ∈ pendingReqs s slot, q.stores? = none

theorem quietArea_own {s : State} {slot : Fin 8} {area : Word} {off : Nat} (h : classify area = .own off) (ha : field area 9 0 = 0)
    (hp : ownPending s slot (winLoc s off) = false) (hs : ∀ q ∈ pendingReqs s slot, q.stores? = none) :
    QuietArea s slot area (winLoc s off) where
  own _ ho := isOwn_add_offset h ha ho
  bank o _ := isBank_winLoc_add s off o
  free o ho := by rw [ownPending, pointOf_winLoc_add s (own_offset_aligned h ha) ho]; exact hp
  stores := hs

theorem QuietArea.kept {s t : State} {slot : Fin 8} {area : Word} {loc : Nat} (h : QuietArea s slot area loc) (hk : AreaKept slot s t) :
    QuietArea t slot area loc where
  own := h.own
  bank := h.bank
  free o ho := by rw [ownPending, hk.pending]; exact h.free o ho
  stores := by rw [hk.pending]; exact h.stores

/-- A store into a quiet area is performed at once (R136, R183). -/
theorem QuietArea.store {s : State} {slot : Fin 8} {area : Word} {loc : Nat} (h : QuietArea s slot area loc) {o : Nat} (ho : o < 1024)
    (d : List Byte) : AreaKept slot s (areaStore s slot (area + BitVec.ofNat 64 o) (loc + o) d) ∧
      (areaStore s slot (area + BitVec.ofNat 64 o) (loc + o) d).st.mem = Mem.write s.st.mem (loc + o) d := by
  have heq : areaStore s slot (area + BitVec.ofNat 64 o) (loc + o) d =
      (floorOwn (s.bump.onSlot slot (fun t => t)) (some slot) (loc + o) d.length s.nextId).onSt (fun st => st.put
        { id := s.nextId, src := s.src slot, loc := loc + o, data := d, fe := none, rmw := false, known := s.slots[slot].floor, rel := none }) := by
    unfold areaStore
    simp [h.own o ho, h.bank o ho, h.free o ho, l1Drop, perform, sendAck]
  rw [heq]
  refine ⟨⟨?_, ?_⟩, rfl⟩
  · simp [pendingReqs, floorOwn, Store.put]
  · exact ⟨floorAdd s.slots[slot].floor ((List.range d.length).map (fun k => (loc + o + k, s.nextId))), s.slots[slot].headLost, by simp [floorOwn]⟩

/-- Where none of a thread's requests on their way stores, its reads take memory's own bytes (R147). -/
theorem forwardOwn_of_no_stores {s : State} {slot : Fin 8} (h : ∀ q ∈ pendingReqs s slot, q.stores? = none) (tag loc : Nat) (bytes : List Byte) :
    forwardOwn s slot tag loc bytes = bytes := by
  have hl : ∀ q ∈ (pendingReqs s slot).filter (fun r => decide (r.tag < tag)), q.stores? = none := fun q hq => h q (List.mem_filter.mp hq).1
  unfold forwardOwn
  generalize (pendingReqs s slot).filter (fun r => decide (r.tag < tag)) = l at hl
  induction l with
  | nil => rfl
  | cons q l ih =>
    rw [List.forall_mem_cons] at hl
    rw [List.foldl_cons, hl.1]
    exact ih hl.2

theorem QuietArea.read {s : State} {slot : Fin 8} {area : Word} {loc : Nat} (h : QuietArea s slot area loc) (a n : Nat) :
    areaRead s slot a n = Mem.read s.st.mem a n := forwardOwn_of_no_stores h.stores _ _ _

-- ## A late delivery into its area (R182, R371)

/-- Word `k` of entry 56 once a value has come late: its port's poison and never-produced bits as its mark says, its owed mark clear. -/
def lateWord (v : PortVal) (k x : Nat) : Nat :=
  match k, v.mark with
  | 0, _ => x
  | 1, some (false, _) => setBit v.port.fin.val x
  | 2, some (true, _) => setBit v.port.fin.val x
  | _, _ => clearBit v.port.fin.val x

/-- The saved cause that comes with a value: that of its mark, or none. -/
def lateCause (v : PortVal) : Nat := match v.mark with | some m => m.2.toNat | none => 0

theorem lateWord_lt (v : PortVal) (k : Nat) {x : Nat} (h : x < 2 ^ 32) : lateWord v k x < 2 ^ 32 := by
  have hi : v.port.fin.val < 32 := by omega
  unfold lateWord
  split
  · exact h
  · exact setBit_lt h hi
  · exact setBit_lt h hi
  · exact clearBit_lt h

/-- The poisoned, never-produced and owed bits of the ports after a late delivery (R182). -/
theorem testBit_lateWord (v : PortVal) (x1 x2 x3 : Nat) (j : Fin 26) :
    (lateWord v 1 x1).testBit j.val = (if j = v.port.fin then v.mark.any (fun m => !m.1) else x1.testBit j.val) ∧
    (lateWord v 2 x2).testBit j.val = (if j = v.port.fin then v.mark.any (fun m => m.1) else x2.testBit j.val) ∧
    (lateWord v 3 x3).testBit j.val = (decide (j ≠ v.port.fin) && x3.testBit j.val) := by
  have hset (x : Nat) : (setBit v.port.fin.val x).testBit j.val = if j = v.port.fin then true else x.testBit j.val := by
    rw [testBit_setBit]; by_cases h : j = v.port.fin <;> simp [h, Fin.val_inj]
  have hclear (x : Nat) : (clearBit v.port.fin.val x).testBit j.val = if j = v.port.fin then false else x.testBit j.val := by
    rw [testBit_clearBit]; by_cases h : j = v.port.fin <;> simp [h, Fin.val_inj]
  have howed : (clearBit v.port.fin.val x3).testBit j.val = (decide (j ≠ v.port.fin) && x3.testBit j.val) := by
    rw [testBit_clearBit]; simp [Fin.val_inj]
  unfold lateWord
  match v.mark with
  | none => exact ⟨hclear x1, hclear x2, howed⟩
  | some (true, _) => exact ⟨hclear x1, hset x2, howed⟩
  | some (false, _) => exact ⟨hset x1, hclear x2, howed⟩

/-- The port's entry of the area. -/
def entryField (loc : Nat) (v : PortVal) : Field := ⟨loc + 16 * (24 + v.port.fin.val), 16, (atWidth v).toNat⟩

/-- The four words of entry 56. -/
def markFields (m : List Host.Cell) (loc : Nat) (v : PortVal) : List Field :=
  [⟨loc + 16 * 56, 4, lateWord v 0 (numAt m (loc + 16 * 56) 4)⟩, ⟨loc + 16 * 56 + 4, 4, lateWord v 1 (numAt m (loc + 16 * 56 + 4) 4)⟩,
   ⟨loc + 16 * 56 + 8, 4, lateWord v 2 (numAt m (loc + 16 * 56 + 8) 4)⟩, ⟨loc + 16 * 56 + 12, 4, lateWord v 3 (numAt m (loc + 16 * 56 + 12) 4)⟩]

/-- The saved cause, where the port has one. -/
def causeFields (loc : Nat) (v : PortVal) : List Field :=
  match v.port.mark? with
  | none => []
  | some k => [⟨loc + (16 * 50 + 8 * k.val), 8, lateCause v⟩]

/-- The fields of the area that a late delivery writes. -/
def lateFields (m : List Host.Cell) (loc : Nat) (v : PortVal) : List Field := entryField loc v :: (markFields m loc v ++ causeFields loc v)

theorem lateFields_apart (m : List Host.Cell) (loc : Nat) (v : PortVal) : (lateFields m loc v).Pairwise Field.apart := by
  have hi := v.port.fin.isLt
  unfold lateFields entryField markFields causeFields
  cases v.port.mark? with
  | none => simp [Field.apart]; omega
  | some k => simp [Field.apart]; omega

theorem lateFields_fit (m : List Host.Cell) (loc : Nat) (v : PortVal) : ∀ f ∈ lateFields m loc v, f.val < 256 ^ f.size := by
  have hword (k a : Nat) : lateWord v k (numAt m a 4) < 256 ^ 4 := lateWord_lt v k (numAt_lt m a 4)
  have hcause : lateCause v < 256 ^ 8 := by
    unfold lateCause
    split
    · rename_i p _; exact p.2.isLt
    · decide
  intro f hf
  rcases List.mem_cons.mp hf with rfl | hf
  · exact (atWidth v).isLt
  rcases List.mem_append.mp hf with hf | hf
  · simp only [markFields, List.mem_cons, List.not_mem_nil, or_false] at hf
    rcases hf with rfl | rfl | rfl | rfl
    · exact hword 0 _
    · exact hword 1 _
    · exact hword 2 _
    · exact hword 3 _
  · unfold causeFields at hf
    split at hf
    · simp at hf
    · rw [List.mem_singleton.mp hf]; exact hcause

/-- Each field of a late delivery reads back. -/
theorem numAt_lateFields {m : List Host.Cell} (h : Mem.wf m = true) (loc : Nat) (v : PortVal) {f : Field} (hf : f ∈ lateFields m loc v) :
    numAt (putFields m (lateFields m loc v)) f.loc f.size = f.val :=
  numAt_putFields _ h (lateFields_apart m loc v) hf (lateFields_fit m loc v f hf)

theorem numAt_lateFields_word {m : List Host.Cell} (h : Mem.wf m = true) (loc : Nat) (v : PortVal) {k : Nat} (hk : k < 4) :
    numAt (putFields m (lateFields m loc v)) (loc + 16 * 56 + 4 * k) 4 = lateWord v k (numAt m (loc + 16 * 56 + 4 * k) 4) := by
  refine numAt_lateFields h loc v (f := ⟨loc + 16 * 56 + 4 * k, 4, lateWord v k (numAt m (loc + 16 * 56 + 4 * k) 4)⟩) ?_
  match k, hk with
  | 0, _ | 1, _ | 2, _ | 3, _ => simp [lateFields, markFields]

/-- Entry 56 after a late delivery: the other ports' bits stay. -/
theorem testBit_lateFields {m : List Host.Cell} (h : Mem.wf m = true) (loc : Nat) (v : PortVal) (j : Fin 26) :
    let bit (m : List Host.Cell) (k : Nat) : Bool := (numAt m (loc + 16 * 56 + 4 * k) 4).testBit j.val
    let m' := putFields m (lateFields m loc v)
    bit m' 1 = (if j = v.port.fin then v.mark.any (fun m => !m.1) else bit m 1) ∧
    bit m' 2 = (if j = v.port.fin then v.mark.any (fun m => m.1) else bit m 2) ∧
    bit m' 3 = (decide (j ≠ v.port.fin) && bit m 3) := by
  dsimp only
  rw [numAt_lateFields_word h loc v (k := 1) (by decide), numAt_lateFields_word h loc v (k := 2) (by decide),
    numAt_lateFields_word h loc v (k := 3) (by decide)]
  exact testBit_lateWord v _ _ _ j

/-- Bytes outside the port's entry, entry 56 and the port's saved cause stay. -/
theorem read_lateFields_other {m : List Host.Cell} (h : Mem.wf m = true) (loc : Nat) (v : PortVal) (a n : Nat)
    (hentry : a + n ≤ loc + 16 * (24 + v.port.fin.val) ∨ loc + 16 * (25 + v.port.fin.val) ≤ a)
    (hcause : ∀ k, v.port.mark? = some k → a + n ≤ loc + (800 + 8 * k.val) ∨ loc + (808 + 8 * k.val) ≤ a)
    (hmarks : a + n ≤ loc + 896 ∨ loc + 912 ≤ a) : Mem.read (putFields m (lateFields m loc v)) a n = Mem.read m a n := by
  refine read_putFields_other _ h a n ?_
  unfold lateFields entryField markFields causeFields
  cases hk : v.port.mark? with
  | none => simp; omega
  | some k => have := hcause k hk; simp; omega

theorem get_lateFields_other {m : List Host.Cell} (h : Mem.wf m = true) (loc : Nat) (v : PortVal) (c : Nat)
    (hentry : c < loc + 16 * (24 + v.port.fin.val) ∨ loc + 16 * (25 + v.port.fin.val) ≤ c) (hcauses : c < loc + 800 ∨ loc + 832 ≤ c)
    (hmarks : c < loc + 896 ∨ loc + 912 ≤ c) : Mem.get (putFields m (lateFields m loc v)) c = Mem.get m c :=
  (List.cons.inj (read_lateFields_other h loc v c 1 (by omega) (fun k _ => by omega) (by omega))).1

/-- The saved causes after a late delivery: its own port's is the one that came, the others stay (R140, R182). -/
theorem numAt_lateFields_cause {m : List Host.Cell} (h : Mem.wf m = true) (loc : Nat) (v : PortVal) (k : Fin 4) :
    numAt (putFields m (lateFields m loc v)) (loc + (800 + 8 * k.val)) 8 =
      if v.port.mark? = some k then lateCause v else numAt m (loc + (800 + 8 * k.val)) 8 := by
  split
  · rename_i hk
    exact numAt_lateFields h loc v (f := ⟨loc + (800 + 8 * k.val), 8, lateCause v⟩) (by simp [lateFields, causeFields, hk])
  · rename_i hk
    have hi := v.port.fin.isLt
    refine congrArg natLE (read_lateFields_other h loc v _ _ (by omega) (fun j hj => ?_) (by omega))
    have : j.val ≠ k.val := fun e => hk (hj.trans (congrArg some (Fin.ext e)))
    omega

/-- The first store of a late delivery: the port's entry. -/
def lateEntryStore (s : State) (slot : Fin 8) (area : Word) (loc : Nat) (v : PortVal) : State :=
  areaStore s slot (area + BitVec.ofNat 64 (16 * (24 + v.port.fin.val))) (loc + 16 * (24 + v.port.fin.val)) (bytesLE 16 (atWidth v).toNat)

/-- The second: entry 56, from what stands there, where no other result is still to come for the port. -/
def lateMarkStore (s : State) (slot : Fin 8) (area : Word) (loc : Nat) (v : PortVal) : State :=
  let word (k : Nat) : Nat := lateWord v k (natLE (areaRead s slot (loc + 16 * 56 + 4 * k) 4))
  areaStore s slot (area + BitVec.ofNat 64 (16 * 56)) (loc + 16 * 56)
    (bytesLE 4 (word 0) ++ bytesLE 4 (word 1) ++ bytesLE 4 (word 2) ++ bytesLE 4 (word 3))

/-- The last: the saved cause, or for trk.h what is recorded lost (R130). -/
def lateCauseStore (s : State) (slot : Fin 8) (area : Word) (loc : Nat) (v : PortVal) : State :=
  match v.port.mark? with
  | none => if v.port = .trkH then s.onSlot slot (fun t => { t with headLost := setLost t.headLost (some area) (v.mark.map (·.2)) }) else s
  | some k => areaStore s slot (area + BitVec.ofNat 64 (16 * 50 + 8 * k.val)) (loc + (16 * 50 + 8 * k.val)) (bytesLE 8 (lateCause v))

/-- What a late delivery into an area at a place does to the machine. -/
def lateDelivery (s : State) (slot : Fin 8) (area : Word) (loc : Nat) (v : PortVal) : State :=
  lateCauseStore (lateMarkStore (lateEntryStore s slot area loc v) slot area loc v) slot area loc v

/-- A delivery to an area of a thread that awaits no other result is a late delivery there, once entry 56 has been read. -/
theorem deliverToArea_eq {s s0 : State} {slot : Fin 8} {area : Word} {loc : Nat} {attr : BitVec 5} (v : PortVal)
    (hp : areaPlace s slot area true = .ok loc attr s0) (ho : (coreRead s0 (loc + 16 * 56) 16).slots[slot].owed = []) :
    deliverToArea s slot area [v] = .next (lateDelivery (coreRead s0 (loc + 16 * 56) 16) slot area loc v) := by
  unfold deliverToArea
  rw [hp]
  simp only [List.foldl_cons, List.foldl_nil, ho, List.any_nil, Bool.false_eq_true, if_false]
  obtain ⟨port, val, mark⟩ := v
  match mark with
  | none => rfl
  | some (true, _) => rfl
  | some (false, _) => rfl

section
variable {s : State} {slot : Fin 8} {area : Word} {loc : Nat}

theorem QuietArea.entryStored (h : QuietArea s slot area loc) (v : PortVal) :
    AreaKept slot s (lateEntryStore s slot area loc v) ∧ (lateEntryStore s slot area loc v).st.mem = putFields s.st.mem [entryField loc v] := by
  have hi := v.port.fin.isLt
  unfold lateEntryStore
  rw [putFields_singleton]
  exact h.store (o := 16 * (24 + v.port.fin.val)) (by omega) _

theorem QuietArea.marksStored (h : QuietArea s slot area loc) (v : PortVal) :
    AreaKept slot s (lateMarkStore s slot area loc v) ∧
    (lateMarkStore s slot area loc v).st.mem = putFields s.st.mem (markFields s.st.mem loc v) := by
  unfold lateMarkStore
  obtain ⟨hkept, hmem⟩ := h.store (o := 16 * 56) (by decide) _
  refine ⟨hkept, hmem.trans ?_⟩
  simp [h.read, write_append, putFields, markFields, numAt, Nat.add_assoc]

theorem QuietArea.causeStored (h : QuietArea s slot area loc) (v : PortVal) :
    AreaKept slot s (lateCauseStore s slot area loc v) ∧ (lateCauseStore s slot area loc v).st.mem = putFields s.st.mem (causeFields loc v) := by
  unfold lateCauseStore causeFields
  cases v.port.mark? with
  | none =>
    dsimp only
    split
    · exact ⟨⟨by simp [pendingReqs], s.slots[slot].floor, _, onSlot_same _ _ _⟩, rfl⟩
    · exact ⟨AreaKept.refl slot s, rfl⟩
  | some k =>
    dsimp only
    rw [putFields_singleton]
    exact h.store (o := 16 * 50 + 8 * k.val) (by omega) _

/-- The port's entry lies apart from entry 56. -/
theorem markFields_entry {m : List Host.Cell} (hm : Mem.wf m = true) (v : PortVal) :
    markFields (putFields m [entryField loc v]) loc v = markFields m loc v := by
  have hi := v.port.fin.isLt
  have hnum (k : Nat) : numAt (putFields m [entryField loc v]) (loc + 16 * 56 + k) 4 = numAt m (loc + 16 * 56 + k) 4 :=
    congrArg natLE (read_putFields_other _ hm _ _ (by simp [entryField]; omega))
  have h0 := hnum 0
  rw [Nat.add_zero] at h0
  simp only [markFields, hnum, h0]

/-- A late delivery into a quiet area writes its fields at once, and keeps the thread's ports (R182, R371). -/
theorem QuietArea.delivered (h : QuietArea s slot area loc) (hm : MemoryOk s) (v : PortVal) :
    AreaKept slot s (lateDelivery s slot area loc v) ∧
    (lateDelivery s slot area loc v).st.mem = putFields s.st.mem (lateFields s.st.mem loc v) := by
  obtain ⟨kept1, mem1⟩ := h.entryStored v
  obtain ⟨kept2, mem2⟩ := (h.kept kept1).marksStored v
  obtain ⟨kept3, mem3⟩ := (h.kept (kept1.trans kept2)).causeStored v
  refine ⟨(kept1.trans kept2).trans kept3, mem3.trans ?_⟩
  rw [mem2, mem1, markFields_entry hm]
  simp [lateFields, putFields, List.foldl_append]

end

-- ## The steps

theorem exec_fixedResultDelivery (slot : Fin 8) (s : State) :
    exec (.fixedResultDelivery slot) s = .next (s.onSlot slot (fun t => deliverDue t t.flight.length)) := rfl

theorem exec_fencedResultDelivery_vals {slot : Fin 8} {s : State} {o : Owed} {vs : List PortVal} (ho : s.slots[slot].owed = [o])
    (hf : s.slots[slot].flight = []) (hv : o.vals = some vs) :
    exec (.fencedResultDelivery slot) s = placeResult (owedDone s slot o) slot o vs := by
  have hnext := nextOwed_single ho hf (by simp [hv])
  change execFencedResultDelivery slot s = _
  simp only [execFencedResultDelivery, hnext, hv]

theorem exec_fencedResultDelivery_read {slot : Fin 8} {s s1 : State} {o : Owed} {r : ReadSpec} {v : PortVal} (ho : s.slots[slot].owed = [o])
    (hf : s.slots[slot].flight = []) (hv : o.vals = none) (hr : o.read = some r) (hread : returnRead s slot o r = (v, s1)) :
    exec (.fencedResultDelivery slot) s = placeResult (owedDone s1 slot o) slot o [v] := by
  have hnext := nextOwed_single ho hf (by simp [hr])
  change execFencedResultDelivery slot s = _
  simp only [execFencedResultDelivery, hnext, hv, hr, hread]

/-- While its area is out of use, a result goes into the area (R371). -/
theorem placeResult_area {s : State} {slot : Fin 8} {o : Owed} {area : Word} (vs : List PortVal) (ho : s.slots[slot].owed = [o]) (hf : o.flags = none)
    (hw : o.work = []) (hr : o.rels = []) (ha : o.area = some area) (h : s.slots[slot].reaches o.tag o.area = false) :
    placeResult (owedDone s slot o) slot o vs = deliverToArea (owedDone s slot o) slot area vs := by
  obtain ⟨ring, hdone⟩ := owedDone_eq ho hw hr
  have hreach : (owedDone s slot o).slots[slot].reaches o.tag o.area = false := by rw [hdone, onSlot_same]; exact h
  rw [ha] at hreach
  simp only [placeResult, ha, hreach, Bool.false_eq_true, if_false, hf]

/-- A value that comes late to an own-window area, of a thread that awaits nothing else and has nothing on its way there: memory with the
area's fields, and the thread's registers as they were. -/
theorem deliverToArea_writes {s : State} {slot : Fin 8} {area : Word} {off : Nat} (v : PortVal) (ho : s.slots[slot].owed = [])
    (hc : classify area = .own off) (hal : field area 9 0 = 0) (hm : MemoryOk s) (hp : ownPending s slot (winLoc s off) = false)
    (hs : ∀ q ∈ pendingReqs s slot, q.stores? = none) :
    ∃ t, deliverToArea s slot area [v] = .next t ∧ t.st.mem = putFields s.st.mem (lateFields s.st.mem (winLoc s off) v) ∧
      t.slots[slot].rp = s.slots[slot].rp ∧ t.slots[slot].w = s.slots[slot].w ∧ t.slots[slot].pc = s.slots[slot].pc := by
  have hquiet := quietArea_own hc hal hp hs
  have hkept := coreRead_bank_areaKept slot (s := s) (n := 16) (hquiet.bank (16 * 56) (by decide))
  have hmem := coreRead_mem s (winLoc s off + 16 * 56) 16
  have howed : (coreRead s (winLoc s off + 16 * 56) 16).slots[slot].owed = [] := by
    obtain ⟨-, floor, lost, hthr⟩ := hkept
    rw [hthr]; exact ho
  obtain ⟨hlate, hwrite⟩ := (hquiet.kept hkept).delivered (by rw [MemoryOk, hmem]; exact hm) v
  obtain ⟨-, floor, lost, hthr⟩ := hkept.trans hlate
  rw [hmem] at hwrite
  exact ⟨_, deliverToArea_eq v (areaPlace_own hc) howed, hwrite, by rw [hthr], by rw [hthr], by rw [hthr]⟩

/-- The same for the one result that a slot is owed. -/
theorem lateResult_writes {s : State} {slot : Fin 8} {o : Owed} {area : Word} {off : Nat} (v : PortVal) (ho : s.slots[slot].owed = [o])
    (hw : o.work = []) (hr : o.rels = []) (hc : classify area = .own off) (hal : field area 9 0 = 0) (hm : MemoryOk s)
    (hp : ownPending s slot (winLoc s off) = false) (hs : ∀ q ∈ pendingReqs s slot, q.stores? = none) :
    ∃ t, deliverToArea (owedDone s slot o) slot area [v] = .next t ∧
      t.st.mem = putFields s.st.mem (lateFields s.st.mem (winLoc s off) v) ∧
      t.slots[slot].rp = s.slots[slot].rp ∧ t.slots[slot].w = s.slots[slot].w ∧ t.slots[slot].pc = s.slots[slot].pc := by
  obtain ⟨ring, hdone⟩ := owedDone_eq ho hw hr
  have hpend : pendingReqs (owedDone s slot o) slot = pendingReqs s slot := by rw [hdone]; simp [pendingReqs]
  have hloc : winLoc (owedDone s slot o) off = winLoc s off := by rw [hdone]; rfl
  have hst : (owedDone s slot o).st = s.st := by rw [hdone]; rfl
  have hthr : (owedDone s slot o).slots[slot] = { s.slots[slot] with owed := [], ring } := by rw [hdone, onSlot_same]
  obtain ⟨t, hdeliver, hmem, hrp, hreg, hpc⟩ := deliverToArea_writes (s := owedDone s slot o) (slot := slot) v (by rw [hthr]) hc hal
    (by rw [MemoryOk, hst]; exact hm) (by rw [ownPending, hpend, hloc]; exact hp) (by rw [hpend]; exact hs)
  rw [hst, hloc] at hmem
  rw [hthr] at hrp hreg hpc
  exact ⟨t, hdeliver, hmem, hrp, hreg, hpc⟩

theorem exec_switchMarkerRelease {slot : Fin 8} {s : State} (hm : s.slots[slot].mode = .marker) (hp : s.slots[slot].pending = false) :
    exec (.switchMarkerRelease slot) s = .next (s.onSlot slot (fun t => { t with mode := .run, fence := 0 })) :=
  if_pos ⟨hm, hp⟩

theorem exec_streamWordHoldRelease {slot : Fin 8} {s : State} {h : Hold} (hh : s.slots[slot].held = some h)
    (hr : mayRelease { s with cur := slot } h = true) :
    exec (.streamWordHoldRelease slot) s = .next (s.onSlot slot (fun t => { t with held := none })) := by
  change execStreamWordHoldRelease slot s = _
  simp only [execStreamWordHoldRelease, hh, hr, Bool.true_or, if_true]

/-- Settles O45: a fixed-latency result by its one delivery, a fenced one at its port or in its area's fields, a paged load's by one of its
moments, and the marker and the hold by their steps. -/
theorem resultsReachPorts : Obligations.ResultsReachPorts := by
  unfold Obligations.ResultsReachPorts
  intro slot s
  refine ⟨?fixed, ?owed, ?read, ?marker, ?held⟩
  case fixed =>
    intro f v hf hd hv hp
    refine ⟨_, exec_fixedResultDelivery slot s, ?_⟩
    dsimp only
    rw [onSlot_same]
    obtain ⟨flight, port, others, flags, fence, w, q, pc⟩ := deliverDue_arrives hf hd hv hp
    exact ⟨flight, port, others, flags, fence, w, q, pc, onSlot_onlySlot _ _ _⟩
  case owed =>
    intro o v ho hfl hv hf hw hr
    have hexec := exec_fencedResultDelivery_vals ho hfl hv
    refine ⟨fun h => ?_, fun area ha h => ?_⟩
    · obtain ⟨t, hplace, harr⟩ := placeResult_reaches (v := v) ho hf hw hr h
      exact ⟨t, hexec.trans hplace, harr.owed, harr.value, harr.ports, harr.fence, harr.w, harr.q, harr.pc, harr.mode, harr.rest⟩
    · have harea := hexec.trans (placeResult_area [v] ho hf hw hr ha h)
      refine ⟨harea, fun off hc hal hm hp hs => ?_⟩
      obtain ⟨t, hdeliver, hmem, hrp, hreg, hpc⟩ := lateResult_writes v ho hw hr hc hal hm hp hs
      refine ⟨t, harea.trans hdeliver, ?_⟩
      dsimp only
      rw [hmem]
      refine ⟨?value, ?unused, fun i => ?bits, fun k => ?cause, fun c hentry hcauses hmarks => ?bytes, fun r => ?ports, hreg, hpc⟩
      case value => exact numAt_lateFields hm _ v (f := entryField _ v) (by simp [lateFields])
      case unused => exact numAt_lateFields_word hm _ v (k := 0) (by decide)
      case bits => exact testBit_lateFields hm (winLoc s off) v i
      case cause =>
        have haddr : winLoc s off + 16 * (50 + k.val / 2) + 8 * (k.val % 2) = winLoc s off + (800 + 8 * k.val) := by omega
        rw [haddr]
        exact numAt_lateFields_cause hm _ v k
      case bytes => exact get_lateFields_other hm _ v c hentry hcauses hmarks
      case ports => simp only [Thread.rpq, hrp]
  case read =>
    intro o r ho hfl hv hread hf hw hr h hb hl hbad ms hms
    obtain ⟨m, hm, v, s1, t, hret, hplace, hport, hval, harr⟩ := readDelivery_arrives ho hf hw hr h hb hl hbad hms
    refine ⟨t, (exec_fencedResultDelivery_read ho hfl hv hread hret).trans hplace, harr.owed, ?_⟩
    rw [hport] at harr
    refine ⟨harr.ports, harr.fence, harr.w, harr.q, harr.pc, harr.mode, harr.rest, m, hm, ?_, fun hd => loadMoments_bytes hd m hm⟩
    rw [harr.value, atWidth, hval, hport]
    rfl
  case marker =>
    intro hm hp
    exact ⟨_, exec_switchMarkerRelease hm hp, onSlot_same _ _ _, onSlot_onlySlot _ _ _⟩
  case held =>
    intro h hh hr
    exact ⟨_, exec_streamWordHoldRelease hh hr, onSlot_same _ _ _, onSlot_onlySlot _ _ _⟩

end Sys2Proof.Proofs.Results
end

section
/-! PROOF. Every well-formed word's encoding decodes to it, with every operand (R24 to R36, R46), and the words that the spec's own chapters write out. -/

namespace Sys2Proof.Proofs.Encoding

open Sys2Proof Sys2Proof.Laws.Encoding

-- ## Each field reads back from its code

/-- The codes 0 to 89 are common to both forms of a word (R35). -/
theorem sourceOfCode_code {x : Source} (hs : x.short = true) (hl : x.long = true) : sourceOfCode x.code = some x := by
  cases x with
  | w i => simp [sourceOfCode, Source.code]
  | q i | str i | x i => revert i; decide
  | pw | lk | pc => rfl
  | port r => cases r <;> rfl
  | imm5 v => cases hl
  | imm8 v | imm15 v => cases hs

theorem code_lt_of_short_of_long {x : Source} (hs : x.short = true) (hl : x.long = true) : x.code < 90 := by
  cases x with
  | port r => cases r <;> decide
  | imm5 v => cases hl
  | imm8 v | imm15 v => cases hs
  | _ => simp only [Source.code]; omega

theorem shortSource_code {x : Source} (hs : x.short = true) : shortSource x.code = some x := by
  cases hl : x.long with
  | true =>
    have := code_lt_of_short_of_long hs hl
    rw [shortSource, if_pos (by omega), sourceOfCode_code hs hl]
  | false =>
    cases x with
    | imm5 v => rw [shortSource, Source.code, if_neg (by omega), Nat.add_sub_cancel_left, BitVec.ofNat_toNat, BitVec.setWidth_eq]
    | _ => cases hl

/-- The source of a long word from its L and its fifteen source bits, as `decodeLongFields` reads it (R30). -/
def longSource (l src : Nat) : Option Source :=
  if l = 1 then some (.imm15 (BitVec.ofNat 15 src)) else if 512 ≤ src then none else src9 src

theorem longSource_code {x : Source} (hl : x.long = true) : longSource x.l x.code = some x := by
  cases hs : x.short with
  | true =>
    have hc := code_lt_of_short_of_long hs hl
    have h0 : x.l = 0 := by cases x with | imm15 v => cases hs | _ => rfl
    rw [longSource, if_neg (by omega), if_neg (by omega), src9, if_pos (by omega), sourceOfCode_code hs hl]
  | false =>
    cases x with
    | imm15 v => simp [longSource, Source.l, Source.code]
    | imm8 v =>
      have := v.isLt
      rw [longSource, if_neg (by simp [Source.l]), if_neg (by simp only [Source.code]; omega), src9,
        if_neg (by simp only [Source.code]; omega)]
      simp [Source.code]
    | _ => cases hs

theorem destOfCode_code (d : Dest) : destOfCode d.code = some d := by
  cases d with
  | w i => simp [destOfCode, Dest.code]
  | q i | str i | p i | x i | xsh i => revert i; decide
  | port r => cases r <;> rfl

theorem dest_code_lt_of_short {d : Dest} (h : d.short = true) : d.code < 64 := by
  cases d with
  | x i | xsh i | port r => cases h
  | _ => simp only [Dest.code]; omega

theorem guardOf_code {g : Guard} (h : g.ok = true) : guardOf g.code = some g := by
  cases g with
  | always => rfl
  | ifTrue n | ifFalse n => revert n; decide

@[simp] theorem opOfCode_code (o : Op) : Op.ofCode o.code = some o := by cases o <;> rfl

/-- Only the operations numbered 0 to 63 have a short form (R46). -/
theorem op_code_lt_of_shortForm {o : Op} {s : Bool} {c : Source} {i : Instr} (h : o.shortForm s c = some i) : o.code < 64 := by
  by_cases ho : o.code < 64
  · exact ho
  · exfalso; revert ho h; cases o <;> simp [Op.shortForm, Op.code, Op.ctorIdx]

-- ## A word's fields read back from its bits

theorem decodeShort_shortWord (s : Bool) {d c : Nat} (hd : d < 128) (hc : c < 128) :
    decodeShort (shortWord s d c) = decodeShortFields s d c := by
  have hs := bit_lt s
  have h1 : shortWord s d c / 2 ^ 14 % 2 = s.toNat := by simp only [shortWord]; omega
  have h2 : shortWord s d c / 2 ^ 7 % 128 = d := by simp only [shortWord]; omega
  have h3 : shortWord s d c % 128 = c := by simp only [shortWord]; omega
  rw [decodeShort, h1, h2, h3]
  cases s <;> rfl

theorem decodeLong_longWord (s : Bool) {g d l src : Nat} (hg : g < 32) (hd : d < 512) (hl : l < 2) (hsrc : src < 2 ^ 15) :
    decodeLong (longWord s g d l src) = decodeLongFields s g d l src := by
  have hs := bit_lt s
  have h1 : longWord s g d l src / 2 ^ 30 % 2 = s.toNat := by simp only [longWord]; omega
  have h2 : longWord s g d l src / 2 ^ 25 % 32 = g := by simp only [longWord]; omega
  have h3 : longWord s g d l src / 2 ^ 16 % 512 = d := by simp only [longWord]; omega
  have h4 : longWord s g d l src / 2 ^ 15 % 2 = l := by simp only [longWord]; omega
  have h5 : longWord s g d l src % 2 ^ 15 = src := by simp only [longWord]; omega
  rw [decodeLong, h1, h2, h3, h4, h5]
  cases s <;> rfl

theorem decodeShortFields_dest (s : Bool) {d : Dest} {c : Source} (hd : d.short = true) (hc : c.short = true) :
    decodeShortFields s d.code c.code = .ok (.transportShort s d c) 2 := by
  have := dest_code_lt_of_short hd
  simp only [decodeShortFields, shortSource_code hc, if_pos this, destOfCode_code]

theorem decodeShortFields_op (s : Bool) {o : Op} {c : Source} {i : Instr} (hi : o.shortForm s c = some i) (hc : c.short = true) :
    decodeShortFields s (64 + o.code) c.code = .ok i 2 := by
  simp only [decodeShortFields, shortSource_code hc, if_neg (show ¬ 64 + o.code < 64 by omega), Nat.add_sub_cancel_left, opOfCode_code,
    Option.bind_some, hi]

theorem decodeLongFields_dest (s : Bool) {g : Guard} (d : Dest) {x : Source} (hg : g.ok = true) (hx : x.long = true) :
    decodeLongFields s g.code d.code x.l x.code = .ok (.transportLong s g d x) 4 := by
  have hd := dest_code_lt d
  have hs := longSource_code hx
  rw [longSource] at hs
  simp only [decodeLongFields, guardOf_code hg, hs, if_pos (show d.code < 128 by omega), destOfCode_code]

theorem decodeLongFields_op (s : Bool) {g : Guard} (o : Op) {x : Source} (hg : g.ok = true) (hx : x.long = true) :
    decodeLongFields s g.code (128 + o.code) x.l x.code = .ok (o.longForm s g x) 4 := by
  have hs := longSource_code hx
  rw [longSource] at hs
  simp only [decodeLongFields, guardOf_code hg, hs, if_neg (show ¬ 128 + o.code < 128 by omega), Nat.add_sub_cancel_left, opOfCode_code]

-- ## The shapes of a word

/-- What decoding gives for the bits of an encoded word. -/
def decodeEncoded : Encoded → Decoded
  | .short h => decodeShort h
  | .long w => decodeLong w

/-- The four shapes that an instruction with an encoding has: a transport or an operation, in its short or its long form (R28, R29, R46). -/
inductive Shape : Instr → Encoded → Prop where
  | transportShort (s : Bool) {d : Dest} {c : Source} (hd : d.short = true) (hc : c.short = true) :
      Shape (.transportShort s d c) (.short (shortWord s d.code c.code))
  | transportLong (s : Bool) {g : Guard} (d : Dest) {x : Source} (hg : g.ok = true) (hx : x.long = true) :
      Shape (.transportLong s g d x) (.long (longWord s g.code d.code x.l x.code))
  | opShort (s : Bool) {o : Op} {c : Source} {i : Instr} (hi : o.shortForm s c = some i) (hc : c.short = true) :
      Shape i (.short (shortWord s (64 + o.code) c.code))
  | opLong (s : Bool) {g : Guard} (o : Op) {x : Source} (hg : g.ok = true) (hx : x.long = true) :
      Shape (o.longForm s g x) (.long (longWord s g.code (128 + o.code) x.l x.code))

theorem shape_of_encShort {s : Bool} {o : Op} {c : Source} {i : Instr} {e : Encoded} (h : encShort s o c = some e)
    (hi : o.shortForm s c = some i) (hc : c.short = true) : Shape i e := by
  cases h; exact .opShort s hi hc

theorem shape_of_encLong {s : Bool} {g : Guard} {o : Op} {x : Source} {e : Encoded} (h : encLong s g o x = some e)
    (hw : (g.ok && x.long) = true) : Shape (o.longForm s g x) e := by
  obtain ⟨hg, hx⟩ := Bool.and_eq_true_iff.mp hw
  cases h; exact .opLong s o hg hx

/-- A well-formed instruction with an encoding has one of the four shapes; the steps that no word encodes have none. -/
theorem shape_of_encodeWord {i : Instr} {e : Encoded} (hw : i.wellFormed = true) (h : encodeWord i = some e) : Shape i e := by
  cases i with
  | transportShort s d c =>
    obtain ⟨hd, hc⟩ := Bool.and_eq_true_iff.mp hw
    cases h; exact .transportShort s hd hc
  | transportLong s g d x =>
    obtain ⟨hg, hx⟩ := Bool.and_eq_true_iff.mp hw
    cases h; exact .transportLong s d hg hx
  | _ =>
    first
    | exact shape_of_encLong h hw
    | exact shape_of_encShort h rfl hw
    | cases h

theorem decodeEncoded_shape {i : Instr} {e : Encoded} (h : Shape i e) : decodeEncoded e = .ok i e.bytes.length := by
  cases h with
  | transportShort s hd hc =>
    have := dest_code_lt_of_short hd
    exact (decodeShort_shortWord s (by omega) (short_code_lt _ hc)).trans (decodeShortFields_dest s hd hc)
  | transportLong s d hg hx =>
    have := dest_code_lt d
    exact (decodeLong_longWord s (guard_code_lt _) (by omega) (l_lt _) (code_lt _)).trans (decodeLongFields_dest s d hg hx)
  | opShort s hi hc =>
    have := op_code_lt_of_shortForm hi
    exact (decodeShort_shortWord s (by omega) (short_code_lt _ hc)).trans (decodeShortFields_op s hi hc)
  | opLong s o hg hx =>
    have := op_code_lt o
    exact (decodeLong_longWord s (guard_code_lt _) (by omega) (l_lt _) (code_lt _)).trans (decodeLongFields_op s o hg hx)

-- ## From bits to bytes (R24)

/-- The low halfword reads back from its two bytes, lower byte first. -/
theorem half_bytes (w : Nat) : half (BitVec.ofNat 8 w) (BitVec.ofNat 8 (w / 256)) = w % 2 ^ 16 := by
  simp only [half, BitVec.toNat_ofNat]; omega

theorem decode_bytes {e : Encoded} (he : Fits (some e)) (more : List Byte) : decode (e.bytes ++ more) = decodeEncoded e := by
  cases e with
  | short h =>
    have h15 : h < 2 ^ 15 := he
    have hl : isLong h = false := by simp only [isLong]; rw [Nat.div_eq_of_lt h15]; rfl
    simp only [Encoded.bytes, bytesLE, List.cons_append, List.nil_append, decode, half_bytes, Nat.mod_eq_of_lt (show h < 2 ^ 16 by omega), hl]
    rfl
  | long w =>
    obtain ⟨hlo, hhi⟩ : 2 ^ 31 ≤ w ∧ w < 2 ^ 32 := he
    have hl : isLong (w / 2 ^ 16) = true := by simp only [isLong, beq_iff_eq]; omega
    have hw : w / 2 ^ 16 * 2 ^ 16 + w % 2 ^ 16 = w := by omega
    simp only [Encoded.bytes, bytesLE, List.cons_append, List.nil_append, decode, half_bytes,
      Nat.mod_eq_of_lt (show w / 2 ^ 16 < 2 ^ 16 by omega), hl, if_true, hw]
    rfl

theorem shape_fits {i : Instr} {e : Encoded} (h : Shape i e) : Fits (some e) := by
  cases h with
  | transportShort s hd hc => exact shortWord_fits s _ _ (by have := dest_code_lt_of_short hd; omega) hc
  | transportLong s d hg hx => exact longWord_fits s _ _ _ (by have := dest_code_lt d; omega)
  | opShort s hi hc => exact encShort_fits s _ _ (op_code_lt_of_shortForm hi) hc
  | opLong s o hg hx => exact encLong_fits s _ o _

/-- Settles O58: an instruction with an encoding has one of four shapes, whose fields read back from the word's bits, and the bits from
its bytes. -/
theorem encodingRoundTrips : Obligations.EncodingRoundTrips := by
  unfold Obligations.EncodingRoundTrips
  intro i bytes more hw henc
  obtain ⟨e, he, rfl⟩ := Option.map_eq_some_iff.mp henc
  have hs := shape_of_encodeWord hw he
  rw [decode_bytes (shape_fits hs), decodeEncoded_shape hs]

/-- Settles O57: each word's fields, read by the decoder. -/
theorem specWordsDecode : Obligations.SpecWordsDecode := by
  unfold Obligations.SpecWordsDecode
  exact ⟨rfl, rfl, rfl, rfl, rfl, rfl, rfl, rfl, rfl, _, rfl⟩

end Sys2Proof.Proofs.Encoding
end

section
/-! PROOF. What a word does before its operation: a transport's write (R28, R29, R31), a false guard (R37), a fence bit (R42), a level that it lacks
(R48), for transports and operations alike. -/

namespace Sys2Proof.Proofs.Words

open Sys2Proof Sys2Proof.Machine Sys2Proof.Safety Sys2Proof.Slice0

-- ## Words that complete

/-- A word whose operation is done within the parts `ex` is done. -/
theorem done_of_run {len : Nat} {sw : Bool} {g : Guard} {x : Source} {p : Plan} {s s1 : State} {ex : List Part} {P : State → Prop}
    (h : CanIssue g x s) (hs : p.sup s = true → s.thr.sup = true)
    (hf : ∀ b, p.feat s (peekSource s x) = some b → featOn s (dieOf s.coreId) b = true)
    (hw : p.miss s = none) (h7 : p.fault7 s = none) (hh : p.held7 s = false) (hr : p.run (popped s x) (operand s x) = .done s1)
    (hk : Keeps ex (popped s x) s1) (hm : s1.thr.mode = .run)
    (hP : P (finish s s1 (s.thr.pc + BitVec.ofNat 64 len) sw false)) : Done len sw x ex s P (issue len sw g x p s) := by
  obtain ⟨hpassed, hkeeps⟩ := finish_done sw x (s.thr.pc + BitVec.ofNat 64 len) hk hm
  exact ⟨_, issue_done h hs hf hw h7 hh hr, hpassed, hkeeps, hP⟩

-- ## Transports (R28, R29, R31)

theorem setPred_same (t : Thread) (i : Fin 16) (b : Bool) : (t.setPred i b).pred i = (i.val == 0 || b) := by
  by_cases h : i.val = 0
  · simp [Thread.pred, h]
  · have hi := i.isLt
    cases b <;> simp [Thread.pred, Thread.setPred, h, hi]

theorem setPred_other (t : Thread) {i j : Fin 16} (b : Bool) (h : j ≠ i) : (t.setPred i b).pred j = t.pred j := by
  by_cases h0 : i.val = 0
  · simp [Thread.setPred, h0]
  · rcases Nat.lt_or_gt_of_ne (Fin.val_ne_of_ne h) with hlt | hgt
    · simp [Thread.pred, Thread.setPred, h0, hlt]
    · have hlow : ¬ j < i := Nat.lt_asymm hgt
      have hbit : j.val - i.val ≠ 0 := Nat.sub_ne_zero_of_lt hgt
      cases b <;> simp [Thread.pred, Thread.setPred, h0, hlow, hbit]

theorem setPred_eq (t : Thread) (i : Fin 16) (b : Bool) : ∃ p, t.setPred i b = { t with p } := by
  unfold Thread.setPred
  split
  · exact ⟨t.p, rfl⟩
  · exact ⟨_, rfl⟩

theorem oport_list_fin (p : OPort) : OPort.list[p.fin.val]? = some p := by cases p <;> rfl

theorem oport_fin_inj {p r : OPort} (h : p.fin = r.fin) : p = r :=
  Option.some.inj ((oport_list_fin p).symm.trans (h ▸ oport_list_fin r))

theorem setOp_other (t : Thread) {p r : OPort} (v : Quad) (h : r ≠ p) : (t.setOp p v).opq r = t.opq r := by
  have : (p.fin : Nat) ≠ r.fin := fun e => h (oport_fin_inj (Fin.ext e.symm))
  simp [Thread.opq, Thread.setOp, this]

theorem vector_set_other {α : Type} {n : Nat} (a : Vector α n) {i j : Fin n} (v : α) (h : j ≠ i) : (a.set i v)[j] = a[j] := by
  have : (i : Nat) ≠ j := fun e => h (Fin.ext e.symm)
  simp [this]

theorem set_w_keeps (s : State) (i : Fin 24) (v : Word) : Keeps [.w i] s (s.setThr { s.thr with w := s.thr.w.set i v }) := by
  refine ⟨rfl, fun part hp => ?_⟩
  cases part with
  | others => exact fun i hi => setThr_other s _ i hi
  | w j =>
    have hj : j ≠ i := by rintro rfl; simp at hp
    simp only [same, State.setThr_thr, vector_set_other _ _ hj]
  | _ => simp [same, Thread.pred, Thread.opq, Thread.rpq]

theorem set_q_keeps (s : State) (i : Fin 16) (v : Quad) : Keeps [.q i] s (s.setThr { s.thr with q := s.thr.q.set i v }) := by
  refine ⟨rfl, fun part hp => ?_⟩
  cases part with
  | others => exact fun i hi => setThr_other s _ i hi
  | q j =>
    have hj : j ≠ i := by rintro rfl; simp at hp
    simp only [same, State.setThr_thr, vector_set_other _ _ hj]
  | _ => simp [same, Thread.pred, Thread.opq, Thread.rpq]

theorem set_x_keeps (s : State) (i : Fin 4) (v : Word) : Keeps [.x i] s (s.setThr { s.thr with x := s.thr.x.set i v }) := by
  refine ⟨rfl, fun part hp => ?_⟩
  cases part with
  | others => exact fun i hi => setThr_other s _ i hi
  | x j =>
    have hj : j ≠ i := by rintro rfl; simp at hp
    simp only [same, State.setThr_thr, vector_set_other _ _ hj]
  | _ => simp [same, Thread.pred, Thread.opq, Thread.rpq]

theorem setPred_keeps (s : State) (i : Fin 16) (b : Bool) : Keeps [.p i] s (s.setThr (s.thr.setPred i b)) := by
  obtain ⟨p, he⟩ := setPred_eq s.thr i b
  refine ⟨rfl, fun part hp => ?_⟩
  cases part with
  | others => exact fun i hi => setThr_other s _ i hi
  | p j =>
    have hj : j ≠ i := by rintro rfl; simp at hp
    simp only [same, State.setThr_thr, setPred_other _ _ hj]
  | _ => rw [he]; simp [same, Thread.opq, Thread.rpq]

theorem setOp_keeps (s : State) (r : OPort) (v : Quad) : Keeps [.op r] s (s.setThr (s.thr.setOp r v)) := by
  refine ⟨rfl, fun part hp => ?_⟩
  cases part with
  | others => exact fun i hi => setThr_other s _ i hi
  | op j =>
    have hj : j ≠ r := by rintro rfl; simp at hp
    simp only [same, State.setThr_thr, setOp_other _ _ hj]
  | _ => simp [same, Thread.pred, Thread.rpq, Thread.setOp]

/-- A destination's write changes its own part alone. -/
theorem writeDest_keeps (s : State) {d : Dest} (v : Quad) (hd : plainDest d = true) : Keeps [destPart d] s (writeDest s d v) := by
  cases d with
  | str i => cases hd
  | w i => exact set_w_keeps s i _
  | q i => exact set_q_keeps s i _
  | p i => exact setPred_keeps s i _
  | x i | xsh i => exact set_x_keeps s i _
  | port r => exact setOp_keeps s r _

theorem writeDest_written (s : State) (d : Dest) (v : Quad) : Written d v s (writeDest s d v) := by
  cases d with
  | str i => trivial
  | p i => simp [Written, writeDest, setPred_same]
  | w i | q i | x i | xsh i => simp [Written, writeDest]
  | port r => simp [Written, writeDest, Thread.opq, Thread.setOp]

/-- What a destination holds is read from the slot's registers alone. -/
theorem written_of_registers {d : Dest} {v : Quad} {s s' t t' : State} (h : Written d v s t) (hs : s'.thr.x = s.thr.x)
    (hw : t'.thr.w = t.thr.w) (hq : t'.thr.q = t.thr.q) (hp : t'.thr.p = t.thr.p) (hx : t'.thr.x = t.thr.x)
    (hop : t'.thr.op = t.thr.op) : Written d v s' t' := by
  cases d with
  | str i => trivial
  | _ => simpa only [Written, Thread.pred, Thread.opq, hs, hw, hq, hp, hx, hop] using h

theorem transport_done {len : Nat} {sw : Bool} {g : Guard} {d : Dest} {x : Source} {s : State} (hd : plainDest d = true)
    (h : CanIssue g x s) :
    Done len sw x [destPart d] s (Written d (operand s x) s) (issue len sw g x (transportPlan d x) s) := by
  have hk := writeDest_keeps (popped s x) (operand s x) hd
  have hmode : (writeDest (popped s x) d (operand s x)).thr.mode = .run := by
    rw [hk.2 .mode (by cases d <;> simp [destPart]), popped_thr, h.runs]
  obtain ⟨-, -, -, -, -, hw, hq, hp, hx, hop, -⟩ := finish_thr s _ (s.thr.pc + BitVec.ofNat 64 len) sw hmode
  have hwritten := written_of_registers (s' := s) (writeDest_written (popped s x) d (operand s x)) (by rw [popped_thr]) hw hq hp hx hop
  refine done_of_run h nofun nofun ?miss ?fault ?held rfl hk hmode hwritten
  all_goals cases d <;> first | rfl | cases hd

/-- Settles O1: the transport's operation is its destination's write, in the short and in the long word. -/
theorem transportWritesDestination : Obligations.TransportWritesDestination := by
  unfold Obligations.TransportWritesDestination
  exact fun _ _ _ _ _ _ hd => ⟨transport_done hd, transport_done hd⟩

-- ## Every word's plan

/-- A long word whose operation has a plan. -/
def LongWord (w : Bool → Guard → Source → Instr) (p : Plan) : Prop := ∀ sw g x s, exec (w sw g x) s = issueLong sw g x p s

/-- A short word whose operation has a plan. -/
def ShortWord (w : Bool → Source → Instr) (p : Plan) : Prop := ∀ sw c s, exec (w sw c) s = issueShort sw c p s

/-- A state holds the level and the feature that a plan asks for. -/
structure Admits (p : Plan) (s : State) : Prop where
  sup : p.sup s = true → s.thr.sup = true
  feat : ∀ v b, p.feat s v = some b → featOn s (dieOf s.coreId) b = true

/-- A plan that every level may run, with no feature. -/
structure Open (p : Plan) : Prop where
  sup : p.sup = fun _ => false
  feat : p.feat = fun _ _ => none

theorem Open.admits {p : Plan} (h : Open p) (s : State) : Admits p s :=
  ⟨fun hs => by simp [h.sup] at hs, fun v b hf => by simp [h.feat] at hf⟩

/-- A plan that checks nothing before its run. -/
structure Simple (p : Plan) : Prop extends Open p where
  miss : p.miss = fun _ => none
  fault7 : p.fault7 = fun _ => none
  held7 : p.held7 = fun _ => false

/-- Both words of an operation are done where its run is done within the parts `ex`. -/
theorem bothDone_of_run {i : Words} {sw : Bool} {g : Guard} {x : Source} {p : Plan} {s s1 : State} {ex : List Part} {P : State → Prop}
    (hshort : ShortWord i.1 p) (hlong : LongWord i.2 p) (hp : Simple p) (hr : p.run (popped s x) (operand s x) = .done s1)
    (hk : Keeps ex (popped s x) s1) (hex : Part.mode ∉ ex)
    (hP : ∀ next, s1.thr.mode = .run → P (finish s s1 next sw false)) : BothDone i sw g x x s ex (fun _ => P) := by
  have hdone {len : Nat} {g : Guard} (h : CanIssue g x s) : Done len sw x ex s P (issue len sw g x p s) := by
    have hm : s1.thr.mode = .run := by rw [hk.2 .mode hex, popped_thr, h.runs]
    exact done_of_run h (hp.admits s).sup ((hp.admits s).feat _) (by rw [hp.miss]) (by rw [hp.fault7]) (by rw [hp.held7]) hr hk hm (hP _ hm)
  exact ⟨fun h => by rw [hshort]; exact hdone h, fun h => by rw [hlong]; exact hdone h⟩

/-- A long word's operation has a plan, whose level and feature are those of R48 and R49. -/
def Planned (w : Bool → Guard → Source → Instr) : Prop := ∃ p, LongWord w p ∧ ∀ s, Admitted w s → Admits p s

theorem planned_open {w : Bool → Guard → Source → Instr} {p : Plan} (h : LongWord w p) (hp : Open p) : Planned w :=
  ⟨p, h, fun s _ => hp.admits s⟩

-- The words that ask for a level or a feature, as `Admitted` lists them.
def supervisorWords : List (Bool → Guard → Source → Instr) := [.synMask, .msgAny, .tskPush, .tskPop, .sysTlbi, .sysMwait]
def fpuWords : List (Bool → Guard → Source → Instr) :=
  [.fpuAdd, .fpuSub, .fpuMul, .fpuFma, .fpuDiv, .fpuSqrt, .fpuCmp, .fpuToi, .fpuTof]
def sfuWords : List (Bool → Guard → Source → Instr) := [.sfuExp2, .sfuLog2, .sfuRcp, .sfuRsq, .sfuSin, .sfuCos]
def mxWords : List (Bool → Guard → Source → Instr) := [.mxCnt, .mxDrn, .mxMrg]

theorem supervisorWords_planned : ∀ w ∈ supervisorWords, Planned w := by
  intro w hw
  obtain ⟨p, h, hf⟩ : ∃ p, LongWord w p ∧ p.feat = fun _ _ => none := by
    simp only [supervisorWords, List.mem_cons, List.not_mem_nil, or_false] at hw
    rcases hw with rfl | rfl | rfl | rfl | rfl | rfl <;> exact ⟨_, fun _ _ _ _ => rfl, rfl⟩
  exact ⟨p, h, fun _ ⟨hsup, _⟩ => ⟨fun _ => hsup hw, fun v b he => by simp [hf] at he⟩⟩

theorem fpuWords_planned : ∀ w ∈ fpuWords, Planned w := by
  intro w hw
  obtain ⟨lat, f, o, h⟩ : ∃ lat f o, LongWord w ((fpuPlan lat f).covered o) := by
    simp only [fpuWords, List.mem_cons, List.not_mem_nil, or_false] at hw
    rcases hw with rfl | rfl | rfl | rfl | rfl | rfl | rfl | rfl | rfl <;> exact ⟨_, _, _, fun _ _ _ _ => rfl⟩
  refine ⟨_, h, fun s ⟨_, _, hfpu, _⟩ => ⟨nofun, fun v b hf => ?_⟩⟩
  have hf' : (if (s.thr.opw .fpuTy).getLsbD 0 then some 2 else none) = some b := hf
  split at hf'
  · rename_i hty; cases hf'; exact hfpu hw hty
  · cases hf'

theorem sfuWords_planned : ∀ w ∈ sfuWords, Planned w := by
  intro w hw
  obtain ⟨f, o, h⟩ : ∃ f o, LongWord w ((sfuPlan f).covered o) := by
    simp only [sfuWords, List.mem_cons, List.not_mem_nil, or_false] at hw
    rcases hw with rfl | rfl | rfl | rfl | rfl | rfl <;> exact ⟨_, _, fun _ _ _ _ => rfl⟩
  refine ⟨_, h, fun s ⟨_, _, _, hsfu, _⟩ => ⟨nofun, fun v b hf => ?_⟩⟩
  have hf' : some 0 = some b := hf
  cases hf'; exact hsfu hw

theorem mxWords_planned : ∀ w ∈ mxWords, Planned w := by
  intro w hw
  obtain ⟨o, o', bad, h⟩ : ∃ o o' bad, LongWord w ((mxPlan o (fun _ => some 1) bad).covered o') := by
    simp only [mxWords, List.mem_cons, List.not_mem_nil, or_false] at hw
    rcases hw with rfl | rfl | rfl <;> exact ⟨_, _, _, fun _ _ _ _ => rfl⟩
  refine ⟨_, h, fun s ⟨_, _, _, _, hmx, _⟩ => ⟨nofun, fun v b hf => ?_⟩⟩
  have hf' : some 1 = some b := hf
  cases hf'; exact hmx hw

theorem mxRun_planned : Planned .mxRun := by
  refine ⟨mxRunPlan.covered .mxRun, fun _ _ _ _ => rfl, fun s ⟨_, _, _, _, _, hrun⟩ => ⟨nofun, fun v b hf => ?_⟩⟩
  have hf' : (if mxPat s.thr.x[(1 : Fin 4)] ≠ 0 then some 3 else none) = some b := hf
  split at hf'
  · rename_i hpat; cases hf'; exact hrun rfl hpat
  · cases hf'

theorem sysEret_planned : Planned .sysEret := by
  refine ⟨sysEretPlan, fun _ _ _ _ => rfl, fun s ⟨_, heret, _⟩ => ⟨fun hs => ?_, nofun⟩⟩
  rcases heret rfl with hsup | huh
  · exact hsup
  · simp [sysEretPlan, huh] at hs

/-- Every long word has a plan: most ask for nothing, and the others stand in one of the lists above. -/
theorem longWords_planned : ∀ w ∈ longWords, Planned w := by
  simp only [longWords, List.forall_mem_append, List.forall_mem_cons, List.not_mem_nil, false_implies, implies_true, and_true]
  and_intros
  all_goals first
    | exact planned_open (fun _ _ _ _ => rfl) ⟨rfl, rfl⟩
    | exact sysEret_planned
    | exact mxRun_planned
    | (apply supervisorWords_planned; simp [supervisorWords]; done)
    | (apply fpuWords_planned; simp [fpuWords]; done)
    | (apply sfuWords_planned; simp [sfuWords]; done)
    | (apply mxWords_planned; simp [mxWords])

/-- Every short word has a plan, which asks for no level and no feature. -/
theorem shortWords_planned : ∀ w ∈ shortWords, ∃ p, ShortWord w p ∧ Open p := by
  simp only [shortWords, List.forall_mem_append, List.forall_mem_cons, List.not_mem_nil, false_implies, implies_true, and_true]
  and_intros
  all_goals exact ⟨_, fun _ _ _ => rfl, rfl, rfl⟩

theorem transportLong_word (d : Dest) (sw : Bool) (g : Guard) (x : Source) (s : State) :
    exec (.transportLong sw g d x) s = issueLong sw g x (transportPlan d x) s := rfl

theorem transportShort_word (d : Dest) (sw : Bool) (c : Source) (s : State) :
    exec (.transportShort sw d c) s = issueShort sw c (transportPlan d c) s := rfl

theorem transportPlan_open (d : Dest) (x : Source) : Open (transportPlan d x) := ⟨rfl, rfl⟩

-- ## Guards (R37)

/-- A long word whose guard is false issues, and its plan does nothing. -/
theorem issue_unguarded {len : Nat} {sw : Bool} {g : Guard} {x : Source} {p : Plan} {s : State} (hm : s.thr.mode = .run)
    (hq : s.thr.event? = none) (hc : s.thr.seqr.left = 0) (hg : guardHolds g s.thr = false) :
    issue len sw g x p s = .next (finish s s (s.thr.pc + BitVec.ofNat 64 len) sw false) := by
  have hv : verdict sw g x p s = .done s := by simp [verdict, hc, hg]
  simp [issue, hm, hv, hq]

/-- Settles O14: whatever its plan, a word under a false guard comes to `finish` of the state as it stands. -/
theorem falseGuardHasNoEffect : Obligations.FalseGuardHasNoEffect := by
  unfold Obligations.FalseGuardHasNoEffect
  intro sw g x s hm hq hc hg
  have hno (p : Plan) : Completes (issueLong sw g x p s) (fun t => Passed sw (s.thr.pc + 4) t ∧ Keeps (issued sw .pc) s t) :=
    ⟨_, issue_unguarded hm hq hc hg, finish_passed s s _ sw hm, finish_keeps s s _ sw .pc hm⟩
  refine ⟨fun d => hno (transportPlan d x), fun w hw => ?_⟩
  obtain ⟨p, hp, -⟩ := longWords_planned w hw
  rw [hp]
  exact hno p

-- ## Fence bits (R42, R51)

/-- With the level and the feature held, a port's fence bit comes before the operation's own checks. -/
theorem issue_fenced {len : Nat} {sw : Bool} {g : Guard} {r : RPort} {p : Plan} {s : State} (hm : s.thr.mode = .run)
    (hc : s.thr.seqr.left = 0 ∨ s.thr.seqr.paused ≠ 0) (hr : s.thr.seqr.run = none) (hf : s.thr.fenced r = true)
    (hg : guardHolds g s.thr = true) (ha : Admits p s) :
    issue len sw g (.port r) p s = takePrecise s s.cur (causeOf 4 (64 + r.fin.val)) := by
  have hbody : verdict.body (.port r) p s s.thr = .trap s (causeOf 4 (64 + r.fin.val)) := by
    simp [verdict.body, hr, sourceFault, hf]
  have hsup : (p.sup s && !s.thr.sup) = false := by
    cases hp : p.sup s
    · rfl
    · simp [ha.sup hp]
  have hv : verdict sw g (.port r) p s = .trap s (causeOf 4 (64 + r.fin.val)) := by
    rw [verdict, if_neg (by rintro ⟨hl, hp⟩; exact hc.elim hl (fun h => h hp)), hg, hsup]
    simp only [Bool.not_true, Bool.false_eq_true, if_false]
    split
    · rename_i b hb
      rw [if_pos (ha.feat _ b hb), hbody]
    · exact hbody
  simp [issue, hm, hv]

/-- Settles O15: every word has a plan, and no plan comes before the fence bit but by its level and feature. -/
theorem fenceBitFaults : Obligations.FenceBitFaults := by
  unfold Obligations.FenceBitFaults
  intro sw g r s hm hc hr hf
  refine ⟨fun d => ?_, fun w hw => ?_, fun hg => ⟨fun d => ?_, fun w hw ha => ?_⟩⟩
  · exact issue_fenced hm hc hr hf rfl ((transportPlan_open d _).admits s)
  · obtain ⟨p, hp, hopen⟩ := shortWords_planned w hw
    exact (hp _ _ _).trans (issue_fenced hm hc hr hf rfl (hopen.admits s))
  · exact issue_fenced hm hc hr hf hg ((transportPlan_open d _).admits s)
  · obtain ⟨p, hp, hadm⟩ := longWords_planned w hw
    exact (hp _ _ _ _).trans (issue_fenced hm hc hr hf hg (hadm s ha))

-- ## Levels (R48, R50, R51)

/-- A word that asks for the supervisor's level raises 0x03 below it, before its source is read. -/
theorem issue_unprivileged {len : Nat} {sw : Bool} {g : Guard} {x : Source} {p : Plan} {s : State} (h : CanIssue g x s)
    (hp : p.sup s = true) (hs : s.thr.sup = false) : issue len sw g x p s = takePrecise s s.cur (causeOf 3) := by
  have hv : verdict sw g x p s = .trap s (causeOf 3) := by simp [verdict, h.noCapture, h.guarded, hp, hs]
  simp [issue, h.runs, hv]

/-- Settles O13: each of the words asks for the level, sys.eret where no user-level handler runs. -/
theorem privilegedWordsFaultAtUser : Obligations.PrivilegedWordsFaultAtUser := by
  unfold Obligations.PrivilegedWordsFaultAtUser
  intro sw g x s h hs
  refine ⟨?tlbi, ?mwait, ?mask, ?any, ?push, ?pop, fun huh => ?eret⟩
  case eret => exact issue_unprivileged h (by simp [sysEretPlan, huh]) hs
  all_goals exact issue_unprivileged h rfl hs


end Sys2Proof.Proofs.Words
end

section
/-! PROOF. Loads of operations 27 to 34 on their way (R43, R136, R147, R152): a translation that needs no walk changes the TLBs alone (R70, R72, R382), and what the
load then sends. -/

namespace Sys2Proof.Proofs.Loads

open Sys2Proof Sys2Proof.Machine Sys2Proof.Safety Sys2Proof.Slice0 Sys2Proof.Proofs.Words

-- ## Translations that need no walk (R67, R71)

/-- What a translation that needs no walk may change: the TLBs, and the bank log where an entry's parity fails (R70, R72, R382). -/
def TlbStep (s t : State) : Prop :=
  ∃ l1 l2 mc host, t = { s with core := { s.core with tlb1 := l1 }, st := { s.st with tlb2 := l2 }, mc, host }

theorem TlbStep.refl (s : State) : TlbStep s s := ⟨_, _, _, _, rfl⟩

theorem TlbStep.trans {s t u : State} (h1 : TlbStep s t) (h2 : TlbStep t u) : TlbStep s u := by
  obtain ⟨_, _, _, _, rfl⟩ := h1
  obtain ⟨_, _, _, _, rfl⟩ := h2
  exact ⟨_, _, _, _, rfl⟩

theorem TlbStep.keeps {s t : State} (h : TlbStep s t) : Keeps walks s t := by
  obtain ⟨_, _, _, _, rfl⟩ := h
  refine ⟨rfl, fun p hp => ?_⟩
  cases p with
  | tlbs | mc | host => simp [walks] at hp
  | _ => exact (keeps_refl walks s).2 _ hp

theorem TlbStep.thr {s t : State} (h : TlbStep s t) : t.thr = s.thr := by obtain ⟨_, _, _, _, rfl⟩ := h; rfl
theorem TlbStep.nextId {s t : State} (h : TlbStep s t) : t.nextId = s.nextId := by obtain ⟨_, _, _, _, rfl⟩ := h; rfl
theorem TlbStep.bankq {s t : State} (h : TlbStep s t) : t.st.bankq = s.st.bankq := by obtain ⟨_, _, _, _, rfl⟩ := h; rfl
theorem TlbStep.paths {s t : State} (h : TlbStep s t) : t.st.paths = s.st.paths := by obtain ⟨_, _, _, _, rfl⟩ := h; rfl

/-- A flawed entry that serves an address is dropped, and the other entries stay (R382). -/
theorem tlbScrub_step (s : State) {w : Walker} (hw : w.l1 = true) (va : Nat) :
    TlbStep s (tlbScrub s w va) ∧
    (∀ e ∈ s.core.tlb1, e.flaw = false → e ∈ (tlbScrub s w va).core.tlb1) ∧ (∀ e ∈ s.st.tlb2, e.flaw = false → e ∈ (tlbScrub s w va).st.tlb2) := by
  unfold tlbScrub
  dsimp only
  split
  · refine ⟨⟨_, _, _, _, rfl⟩, fun e he hf => ?_, fun e he hf => ?_⟩ <;> simp [State.mcLog, he, hf]
  · exact ⟨.refl s, fun _ he _ => he, fun _ he _ => he⟩

theorem install1_step (s : State) (e : TlbEntry) : TlbStep s (install1 s e) := ⟨_, _, _, _, rfl⟩

/-- A word that needs no walk is served by a sound entry of a TLB, or by the walk that it has waited for (R71). -/
theorem served_of_walkNeeded {s : State} {w : Walker} {va : Word} (h : walkNeeded s w va = none) :
    (∃ e ∈ s.core.tlb1, e.flaw = false ∧ e.hits (w.place s) w.cid (field va 47 0) = true) ∨
    (∃ e ∈ s.st.tlb2, e.flaw = false ∧ e.hits (w.place s) w.cid (field va 47 0) = true) ∨
    ((w.miss.filter (fun m => m.serves (field va 47 0))).bind TlbMiss.result).isSome = true := by
  unfold walkNeeded at h
  dsimp only at h
  split at h
  · rename_i hs
    simpa only [Bool.or_eq_true, List.any_eq_true, Bool.and_eq_true, Bool.not_eq_true', or_assoc] using hs
  · cases h

theorem lookup_step {s : State} {w : Walker} {va : Word} (hw : w.l1 = true) (h : walkNeeded s w va = none) :
    TlbStep s (lookup s w (field va 47 0)).2 := by
  obtain ⟨hscrub, hkept1, hkept2⟩ := tlbScrub_step s hw (field va 47 0)
  have hplace : w.place (tlbScrub s w (field va 47 0)) = w.place s := by obtain ⟨_, _, _, _, he⟩ := hscrub; rw [he]; rfl
  unfold lookup
  simp only [hw, if_true, hplace]
  split
  · exact hscrub
  · rename_i hmiss1
    split
    · exact hscrub.trans (install1_step _ _)
    · rename_i hmiss2
      split
      · exact hscrub
      · rename_i hres
        exfalso
        rw [List.find?_eq_none] at hmiss1 hmiss2
        obtain ⟨e, he, hf, hh⟩ | ⟨e, he, hf, hh⟩ | hs := served_of_walkNeeded h
        · exact hmiss1 e (hkept1 e he hf) hh
        · exact hmiss2 e (hkept2 e he hf) hh
        · simp [hres] at hs

/-- A data translation that needs no walk, and gives a place, changes the TLBs and the bank log alone. -/
theorem translate_step {s s1 : State} {w : Walker} {a : Acc} {va : Word} {loc : Nat} {attr : BitVec 5} (hw : w.l1 = true)
    (hwalk : dataWalk s w va = none) (h : Machine.translate s w a va = .ok loc attr s1) : TlbStep s s1 := by
  unfold Machine.translate at h
  split at h
  · cases h
  · cases h
  · cases h; exact .refl s
  · cases h; exact .refl s
  · rename_i hc
    have hstep := lookup_step hw (show walkNeeded s w va = none by simpa only [dataWalk, hc] using hwalk)
    unfold translatePaged at h
    split at h
    · rename_i hl
      split at h
      · cases h
      · cases h; rw [hl] at hstep; exact hstep
    all_goals cases h

-- ## What a load sends

theorem bump_keeps (s : State) : Keeps [.ids] s s.bump := by
  refine ⟨rfl, fun p hp => ?_⟩
  cases p with
  | ids => simp at hp
  | _ => exact (keeps_refl [.ids] s).2 _ hp

theorem toBank_keeps (s : State) (r : Req) : Keeps [.requests] s (toBank s r) := by
  refine ⟨rfl, fun p hp => ?_⟩
  cases p with
  | requests => simp at hp
  | _ => exact (keeps_refl [.requests] s).2 _ hp

theorem toPaths_keeps (s : State) (r : Req) : Keeps [.requests] s (s.onSt (fun st => { st with paths := st.paths ++ [r] })) := by
  refine ⟨rfl, fun p hp => ?_⟩
  cases p with
  | requests => simp at hp
  | _ => exact (keeps_refl [.requests] s).2 _ hp

theorem send_keeps (s : State) (tag lat : Nat) (ports : List RPort) (vals : Option (List PortVal)) (flags : Option (BitVec 6 × Bool)) :
    Keeps [.flight] s (s.setThr (s.thr.send tag lat ports vals flags)) := by
  refine ⟨rfl, fun p hp => ?_⟩
  cases p with
  | others => exact fun i hi => setThr_other s _ i hi
  | flight => simp at hp
  | _ => simp [same, Thread.send, Thread.pred, Thread.opq, Thread.rpq]

theorem owe_keeps (s : State) (tag : Nat) (ports : List RPort) (load : Bool) (read : Option ReadSpec) :
    Keeps [.owed, .fence] s (s.setThr (s.thr.owe tag ports load read)) := by
  refine ⟨rfl, fun p hp => ?_⟩
  cases p with
  | others => exact fun i hi => setThr_other s _ i hi
  | owed | fence => simp at hp
  | _ => simp [same, Thread.owe, Thread.pred, Thread.opq, Thread.rpq]

theorem ringTake_keeps (s : State) (tag : Nat) (op : Option Op) (target : Word) :
    Keeps [.ring, .cr crSeq] s (s.setThr (s.thr.ringTake tag op target)) := by
  refine ⟨rfl, fun p hp => ?_⟩
  cases p with
  | others => exact fun i hi => setThr_other s _ i hi
  | ring => simp at hp
  | cr i =>
    have hi : i ≠ crSeq := by rintro rfl; simp at hp
    simp only [same, State.setThr_thr, Thread.ringTake_cr, vector_set_other _ _ hi]
  | _ => simp [same, Thread.pred, Thread.opq, Thread.rpq]

/-- The checks that a memory word shares are behind it (R67, R150, R389). -/
theorem access_lands {s s1 : State} {n : Nat} {mis write sync lrw : Bool} {va : Word} {more : State → Nat → Option Word}
    {k : State → Nat → Verdict} {loc : Nat} {attr : BitVec 5} (hmis : mis = false) (hwalk : dataWalk s s.thr.walker va = none)
    (htr : Machine.translate s s.thr.walker { user := !s.thr.sup, fetch := false, write, sync } va = .ok loc attr s1)
    (hmore : more s1 loc = none) (hwatch : watched s1 (!write || lrw) write va = none) :
    access s n mis write sync va more k lrw = k s1 loc := by
  simp only [access, hmis, hwalk, htr, hmore, hwatch, Bool.false_eq_true, if_false]

theorem lands_step {x : Source} {write sync lrw : Bool} {loc : Nat} {s s1 : State} (h : Lands x write sync lrw loc s1 s) :
    TlbStep (popped s x) s1 := by
  obtain ⟨hwalk, ⟨attr, htr⟩, -⟩ := h
  exact translate_step rfl hwalk htr

/-- What an aligned load comes to at its place (R43, R136, R147, R152). -/
def loadAt (o : Op) (n : Nat) (ext : Bool) (va : Word) (s : State) (loc : Nat) : Verdict :=
  let t := s.thr
  let tag := s.nextId
  let port := loadPort n
  if amoPending s s.cur loc n then .hold none none .mem
  else if isOwn va then
    if t.fenced port then .done (sendRead (s.setThr (t.owe tag [port] true none)) true loc va (.load n ext))
    else if t.orderHold 2 [port] then .hold none none .vac
    else .done (sendRead (s.setThr (t.send tag 2 [port] none none)) true loc va (.load n ext))
  else if t.ringFull then .hold none none .mem
  else if isPaged va then .done (s.bump.setThr ((t.ringTake tag (some o) va).owe tag [port] true (some { loc, va, bytes := n, ext })))
  else .done (sendRead (s.setThr ((t.ringTake tag (some o) va).owe tag [port] true none)) false loc va (.load n ext))

theorem loadPlan_run {o : Op} {n : Nat} {ext : Bool} {x : Source} {loc : Nat} {s s1 : State} (h : Lands x false false false loc s1 s)
    (ha : (operand64 s x).toNat % n = 0) :
    (loadPlan o n ext).run (popped s x) (operand s x) = loadAt o n ext (operand64 s x) s1 loc := by
  obtain ⟨hwalk, ⟨attr, htr⟩, hwatch⟩ := h
  rw [← popped_thr s x] at hwalk htr
  exact access_lands (more := fun _ _ => none) (decide_eq_false (fun h => h ha)) hwalk htr rfl hwatch

/-- A load through the own-cluster window goes to its bank (R136). -/
theorem sendRead_own (s : State) (loc : Nat) (va : Word) (n : Nat) (ext : Bool) :
    ∃ r : Req, sendRead s true loc va (.load n ext) = toBank s.bump r ∧ r.kind = .load n ext ∧ r.loc = loc ∧ r.tag = s.nextId :=
  ⟨_, rfl, rfl, rfl, rfl⟩

/-- A load through a mesh window goes on its path (R136). -/
theorem sendRead_mesh (s : State) (loc : Nat) (va : Word) (n : Nat) (ext : Bool) :
    ∃ r : Req, sendRead s false loc va (.load n ext) = s.bump.onSt (fun st => { st with paths := st.paths ++ [r] }) ∧
      r.kind = .load n ext ∧ r.loc = loc ∧ r.tag = s.nextId :=
  ⟨_, rfl, rfl, rfl, rfl⟩

theorem popped_st (s : State) (x : Source) : (popped s x).st = s.st := by
  unfold popped readSource
  cases x with
  | str i => simp only [popStream]; split <;> rfl
  | _ => rfl

theorem isOwn_of_isPaged {va : Word} (h : isPaged va = true) : isOwn va = false := by
  unfold isPaged at h
  unfold isOwn
  split at h
  · rename_i hc; rw [hc]
  · cases h

section Load

variable {i : Words} {o o' : Op} {n : Nat} {ext : Bool} {x : Source} {loc : Nat} {s s1 : State} {ex : List Part} {P : State → Prop}

/-- Both words of a load are done where, at its place, it is done within the parts `ex`. -/
theorem load_done {s2 : State} (hshort : ShortWord i.1 ((loadPlan o n ext).covered o')) (hlong : LongWord i.2 ((loadPlan o n ext).covered o'))
    (h : Lands x false false false loc s1 s) (ha : (operand64 s x).toNat % n = 0)
    (hr : loadAt o n ext (operand64 s x) s1 loc = .done s2) (hk : Keeps ([.ids] ++ ex) s1 s2)
    (hex : Part.mode ∉ walks ++ [.ids] ++ ex)
    (sw : Bool) (g : Guard) (hP : ∀ next, s2.thr.mode = .run → P (finish s s2 next sw false)) :
    BothDone i sw g x x s (walks ++ [.ids] ++ ex) (fun _ => P) :=
  bothDone_of_run hshort hlong ⟨⟨rfl, rfl⟩, rfl, rfl, rfl⟩ ((loadPlan_run h ha).trans hr)
    ((lands_step h).keeps.trans hk (fun _ hp => List.mem_append_left _ (List.mem_append_left _ hp))
      (fun _ hp => by rw [List.append_assoc]; exact List.mem_append_right _ hp)) hex hP

/-- In the own-cluster window, with the port free, the result is under way: two rotations (R43, R136). -/
theorem loadAt_own (hp : amoPending s1 s1.cur loc n = false) (hown : isOwn (operand64 s x) = true) (hf : s1.thr.fenced (loadPort n) = false)
    (ho : s1.thr.orderHold 2 [loadPort n] = false) :
    loadAt o n ext (operand64 s x) s1 loc =
      .done (sendRead (s1.setThr (s1.thr.send s1.nextId 2 [loadPort n] none none)) true loc (operand64 s x) (.load n ext)) := by
  simp only [loadAt, hp, hown, hf, ho, Bool.false_eq_true, if_false, if_true]

/-- Behind a set fence bit, an own-cluster load is owed (R43). -/
theorem loadAt_own_fenced (hp : amoPending s1 s1.cur loc n = false) (hown : isOwn (operand64 s x) = true)
    (hf : s1.thr.fenced (loadPort n) = true) :
    loadAt o n ext (operand64 s x) s1 loc =
      .done (sendRead (s1.setThr (s1.thr.owe s1.nextId [loadPort n] true none)) true loc (operand64 s x) (.load n ext)) := by
  simp only [loadAt, hp, hown, hf, Bool.false_eq_true, if_false, if_true]

/-- A load of paged memory is an owed view read (R147). -/
theorem loadAt_paged (hp : amoPending s1 s1.cur loc n = false) (hpaged : isPaged (operand64 s x) = true) (hring : s1.thr.ringFull = false) :
    loadAt o n ext (operand64 s x) s1 loc =
      .done (s1.bump.setThr ((s1.thr.ringTake s1.nextId (some o) (operand64 s x)).owe s1.nextId [loadPort n] true
        (some { loc, va := operand64 s x, bytes := n, ext }))) := by
  simp only [loadAt, hp, isOwn_of_isPaged hpaged, hpaged, hring, Bool.false_eq_true, if_false, if_true]

/-- A load of a mesh window is owed, and goes on its path (R136). -/
theorem loadAt_mesh (hp : amoPending s1 s1.cur loc n = false) (hown : isOwn (operand64 s x) = false)
    (hpaged : isPaged (operand64 s x) = false) (hring : s1.thr.ringFull = false) :
    loadAt o n ext (operand64 s x) s1 loc =
      .done (sendRead (s1.setThr ((s1.thr.ringTake s1.nextId (some o) (operand64 s x)).owe s1.nextId [loadPort n] true none)) false loc
        (operand64 s x) (.load n ext)) := by
  simp only [loadAt, hp, hown, hpaged, hring, Bool.false_eq_true, if_false]

/-- The parts that a load's own send may change beside its translation's. -/
theorem sendRead_own_keeps {s : State} {t : Thread} {ps : List Part} (hk : Keeps ps s (s.setThr t)) (loc : Nat) (va : Word) (n : Nat)
    (ext : Bool) : Keeps ([.ids] ++ (ps ++ [.requests])) s (sendRead (s.setThr t) true loc va (.load n ext)) := by
  obtain ⟨r, he, -⟩ := sendRead_own (s.setThr t) loc va n ext
  rw [he]
  refine (hk.trans (bump_keeps _) (c := [.ids] ++ ps) ?_ ?_).trans (toBank_keeps _ r) ?_ ?_ <;> simp +contextual

theorem sendRead_mesh_keeps {s : State} {t : Thread} {ps : List Part} (hk : Keeps ps s (s.setThr t)) (loc : Nat) (va : Word) (n : Nat)
    (ext : Bool) : Keeps ([.ids] ++ (ps ++ [.requests])) s (sendRead (s.setThr t) false loc va (.load n ext)) := by
  obtain ⟨r, he, -⟩ := sendRead_mesh (s.setThr t) loc va n ext
  rw [he]
  refine (hk.trans (bump_keeps _) (c := [.ids] ++ ps) ?_ ?_).trans (toPaths_keeps _ r) ?_ ?_ <;> simp +contextual

/-- An owed result that also takes a place in the ring (R364). -/
theorem ringTake_owe_keeps (s : State) (tag tag' : Nat) (op : Option Op) (target : Word) (ports : List RPort) (load : Bool)
    (read : Option ReadSpec) :
    Keeps [.owed, .fence, .ring, .cr crSeq] s (s.setThr ((s.thr.ringTake tag op target).owe tag' ports load read)) := by
  have h := (ringTake_keeps s tag op target).trans (owe_keeps (s.setThr (s.thr.ringTake tag op target)) tag' ports load read)
    (c := [.owed, .fence, .ring, .cr crSeq]) (by simp) (by simp)
  simpa [State.setThr, State.setSlot, State.thr] using h

theorem sendRead_own_effect (s : State) (t : Thread) (loc : Nat) (va : Word) (n : Nat) (ext : Bool) :
    (sendRead (s.setThr t) true loc va (.load n ext)).thr = t ∧
    ∃ b : BankReq, (sendRead (s.setThr t) true loc va (.load n ext)).st.bankq = s.st.bankq ++ [b] ∧
      b.req.kind = .load n ext ∧ b.req.loc = loc ∧ b.req.tag = s.nextId := by
  obtain ⟨r, he, hkind, hloc, htag⟩ := sendRead_own (s.setThr t) loc va n ext
  rw [he]
  exact ⟨by simp [toBank], _, rfl, hkind, hloc, htag⟩

theorem sendRead_mesh_effect (s : State) (t : Thread) (loc : Nat) (va : Word) (n : Nat) (ext : Bool) :
    (sendRead (s.setThr t) false loc va (.load n ext)).thr = t ∧
    ∃ r : Req, (sendRead (s.setThr t) false loc va (.load n ext)).st.paths = s.st.paths ++ [r] ∧
      r.kind = .load n ext ∧ r.loc = loc ∧ r.tag = s.nextId := by
  obtain ⟨r, he, hkind, hloc, htag⟩ := sendRead_mesh (s.setThr t) loc va n ext
  rw [he]
  exact ⟨by simp, _, rfl, hkind, hloc, htag⟩

theorem owe_last (t : Thread) (tag : Nat) (ports : List RPort) (load : Bool) (read : Option ReadSpec) :
    ∃ owed : Owed, (t.owe tag ports load read).owed.getLast? = some owed ∧ owed.read = read :=
  ⟨_, List.getLast?_concat, rfl⟩

/-- A result owed at a load's issue is owed once the word has issued. -/
theorem owes_finish {s s2 : State} {next : Word} {sw : Bool} {ports : List RPort} {owed : Owed} (hm : s2.thr.mode = .run)
    (he : s2.thr.owed = s.thr.owed ++ [owed]) (htag : owed.tag = s.nextId) (hports : owed.ports = ports) (harea : owed.area = s.thr.areaUse) :
    Owes ports s (finish s s2 next sw false) := by
  obtain ⟨-, howed, -⟩ := finish_thr s s2 next sw hm
  exact ⟨owed, howed.trans he, htag, hports, harea⟩

end Load

/-- Each load's plan, with its width and its extension (R152). -/
theorem loadOps_planned : ∀ op ∈ loadOps, ∃ o o', ShortWord op.1.1 ((loadPlan o op.2.1 op.2.2).covered o') ∧
    LongWord op.1.2 ((loadPlan o op.2.1 op.2.2).covered o') := by
  simp only [loadOps, List.forall_mem_cons, List.not_mem_nil, false_implies, implies_true, and_true]
  and_intros
  all_goals exact ⟨_, _, fun _ _ _ => rfl, fun _ _ _ _ => rfl⟩

/-- Settles O17: each load is a plan of one shape, which at its place sends a request to the bank, makes an owed view read, or sends a
request on its path. -/
theorem loadsIssue : Obligations.LoadsIssue := by
  unfold Obligations.LoadsIssue
  intro op hop sw g x loc s s1
  obtain ⟨o, o', hshort, hlong⟩ := loadOps_planned op hop
  dsimp only
  intro h ha hp
  have hstep := lands_step h
  have hthr : s1.thr = s.thr := hstep.thr.trans (popped_thr s x)
  have hid : s1.nextId = s.nextId := hstep.nextId.trans (popped_nextId s x)
  have hbankq : s1.st.bankq = s.st.bankq := hstep.bankq.trans (by rw [popped_st])
  have hpaths : s1.st.paths = s.st.paths := hstep.paths.trans (by rw [popped_st])
  rw [← hthr, ← hid, ← hbankq, ← hpaths]
  refine ⟨fun hown hf ho => ?own, fun hown hf => ?fenced, fun hpaged hring => ?paged, fun hown hpaged hring => ?mesh⟩
  case own =>
    refine load_done (ex := [.flight, .requests]) hshort hlong h ha (loadAt_own hp hown hf ho)
      (sendRead_own_keeps (send_keeps _ _ _ _ _ _) _ _ _ _) (by decide) sw g fun next hm => ?_
    obtain ⟨ht, hbank⟩ := sendRead_own_effect s1 (s1.thr.send s1.nextId 2 [loadPort op.2.1] none none) loc (operand64 s x) op.2.1 op.2.2
    obtain ⟨hflight, -⟩ := finish_thr s _ next sw hm
    rw [finish_st]
    exact ⟨by rw [hflight, ht]; rfl, hbank⟩
  case fenced =>
    refine load_done (ex := [.owed, .fence, .requests]) hshort hlong h ha (loadAt_own_fenced hp hown hf)
      (sendRead_own_keeps (owe_keeps _ _ _ _ _) _ _ _ _) (by decide) sw g fun next hm => ?_
    obtain ⟨ht, hbank⟩ := sendRead_own_effect s1 (s1.thr.owe s1.nextId [loadPort op.2.1] true none) loc (operand64 s x) op.2.1 op.2.2
    rw [finish_st]
    exact ⟨owes_finish hm (by rw [ht, ← hthr]; rfl) hid rfl (by rw [← hthr]; rfl), hbank⟩
  case paged =>
    refine load_done (ex := [.owed, .fence, .ring, .cr crSeq]) hshort hlong h ha (loadAt_paged hp hpaged hring)
      ((bump_keeps s1).trans (ringTake_owe_keeps s1.bump _ _ _ _ _ _ _) (by simp) (by simp)) (by decide) sw g fun next hm => ?_
    obtain ⟨-, howed, -⟩ := finish_thr s _ next sw hm
    refine ⟨owes_finish hm (by rw [State.setThr_thr, ← hthr]; rfl) hid rfl (by rw [← hthr]; rfl), ?_⟩
    rw [howed, State.setThr_thr]
    exact owe_last _ _ _ _ _
  case mesh =>
    refine load_done (ex := [.owed, .fence, .ring, .cr crSeq, .requests]) hshort hlong h ha (loadAt_mesh hp hown hpaged hring)
      (sendRead_mesh_keeps (ringTake_owe_keeps _ _ _ _ _ _ _ _) _ _ _ _) (by decide) sw g fun next hm => ?_
    obtain ⟨ht, hpath⟩ := sendRead_mesh_effect s1 ((s1.thr.ringTake s1.nextId (some o) (operand64 s x)).owe s1.nextId [loadPort op.2.1] true none)
      loc (operand64 s x) op.2.1 op.2.2
    rw [finish_st]
    exact ⟨owes_finish hm (by rw [ht, ← hthr]; rfl) hid rfl (by rw [← hthr]; rfl), hpath⟩

end Sys2Proof.Proofs.Loads
end

section
/-! PROOF. The slot's cycle fetches, decodes and runs the word at its pc (R24, R27, R37, R50, R51, R67, R148, R179): what the slices' reads leave alone, the
halfword that a fill brings, and the step. -/

namespace Sys2Proof.Proofs.Fetch

open Sys2Proof Sys2Proof.Machine Sys2Proof.Safety Sys2Proof.Slice0

-- ## What the slices' reads leave alone (R80 to R84)

/-- A word is not poisoned, and its code has no error to report. -/
def WordClean (s : State) (w : Nat) : Prop := markOf s.st.marks w ≠ 1#2 ∧ ∀ e ∈ s.st.ecc, e.1 ≠ w

/-- A step of the slices: the slots and the core stay, and a clean word stays clean. -/
structure SliceStep (s t : State) : Prop where
  cur : t.cur = s.cur
  slots : t.slots = s.slots
  core : t.core = s.core
  clean : ∀ w, WordClean s w → WordClean t w

theorem SliceStep.refl (s : State) : SliceStep s s := ⟨rfl, rfl, rfl, fun _ h => h⟩

theorem SliceStep.trans {s t u : State} (h1 : SliceStep s t) (h2 : SliceStep t u) : SliceStep s u :=
  ⟨h2.cur.trans h1.cur, h2.slots.trans h1.slots, h2.core.trans h1.core, fun w h => h2.clean w (h1.clean w h)⟩

theorem SliceStep.ite {s t : State} {c : Prop} [Decidable c] (h : SliceStep s t) : SliceStep s (if c then t else s) := by
  split
  · exact h
  · exact .refl s

theorem SliceStep.foldl {α : Type} {f : State → α → State} (h : ∀ s a, SliceStep s (f s a)) (l : List α) (s : State) :
    SliceStep s (l.foldl f s) := by
  induction l generalizing s with
  | nil => exact .refl s
  | cons a l ih => exact (h s a).trans (ih _)

/-- Lines and copies carry no word's mark and no code. -/
theorem onSt_step (s : State) {f : Store → Store} (hm : (f s.st).marks = s.st.marks) (he : (f s.st).ecc = s.st.ecc) : SliceStep s (s.onSt f) :=
  ⟨rfl, rfl, rfl, fun w ⟨hmark, hecc⟩ => ⟨by rw [State.onSt_st, hm]; exact hmark, by rw [State.onSt_st, he]; exact hecc⟩⟩

theorem mcLog_step (s : State) (e : McEvent) : SliceStep s (s.mcLog e) := ⟨rfl, rfl, rfl, fun _ h => h⟩

theorem markOf_markSet_other (l : List (Nat × BitVec 2)) {w w' : Nat} (k : BitVec 2) (h : w ≠ w') : markOf (markSet l w k) w' = markOf l w' := by
  have hf : (l.filter (fun p => p.1 != w)).find? (fun p => p.1 == w') = l.find? (fun p => p.1 == w') := by
    rw [List.find?_filter]
    congr 1
    funext p
    by_cases hp : p.1 = w'
    · simp [hp, h.symm]
    · simp [hp]
  unfold markSet
  dsimp only
  split
  · simp only [markOf, hf]
  · simp only [markOf, List.find?_cons, beq_eq_false_iff_ne.mpr h, hf]

/-- Poisoning a word leaves the others as they are. -/
theorem wordClean_markSet {s : State} {w w' : Nat} (k : BitVec 2) {f : Store → Store} (hm : (f s.st).marks = markSet s.st.marks w k)
    (he : (f s.st).ecc = s.st.ecc) (hw : w ≠ w') (h : WordClean s w') : WordClean (s.onSt f) w' :=
  ⟨by rw [State.onSt_st, hm, markOf_markSet_other _ _ hw]; exact h.1, by rw [State.onSt_st, he]; exact h.2⟩

theorem scrubWord_step (s : State) (w : Nat) : SliceStep s (scrubWord s w) := by
  unfold scrubWord
  split
  · exact .refl s
  · rename_i w0 two hfind
    have hw0 : w0 = w := by simpa using List.find?_some hfind
    have hmem := List.mem_of_find?_eq_some hfind
    have hother {w' : Nat} (h : WordClean s w') : w ≠ w' := hw0 ▸ h.2 _ hmem
    have hfewer {e : McEvent} {w' : Nat} (h : WordClean s w') :
        WordClean ((s.onSt (fun st => { st with ecc := st.ecc.filter (fun e => e.1 != w) })).mcLog e) w' :=
      ⟨h.1, fun e he => h.2 e (List.mem_filter.mp he).1⟩
    dsimp only
    split
    · exact .refl s
    · split
      · split
        · exact ⟨rfl, rfl, rfl, fun w' h => wordClean_markSet 1#2 rfl rfl (hother h) (hfewer h)⟩
        · exact ⟨rfl, rfl, rfl, fun w' h => wordClean_markSet 1#2 rfl rfl (hother h) (hfewer h)⟩
      · exact ⟨rfl, rfl, rfl, fun w' h => hfewer h⟩

theorem scrub_step (s : State) (loc n : Nat) : SliceStep s (scrub s loc n) := .foldl scrubWord_step _ s

theorem hostAsk_step (s : State) (op : CacheOp) (pa : Nat) : SliceStep s (hostAsk s op pa) := by
  unfold hostAsk
  split
  · exact ⟨rfl, rfl, rfl, fun _ h => h⟩
  · exact .refl s

theorem lineEvict_step (s : State) (d pa : Nat) : SliceStep s (lineEvict s d pa) := by
  unfold lineEvict
  dsimp only
  exact ((scrub_step _ _ _).ite.trans (hostAsk_step _ _ _).ite).trans (onSt_step _ rfl rfl)

theorem lineRoom_step (s : State) (d pa : Nat) : SliceStep s (lineRoom s d pa) := by
  unfold lineRoom
  dsimp only
  split
  · exact (lineEvict_step _ _ _).ite
  · exact .refl s

/-- Poisoning words other than a clean one leaves it clean. -/
theorem poison_foldl_step (l : List Nat) (s : State) :
    let t := l.foldl (fun s w => poisonWord (s.mcLog (poisonEvent (8 * w) 0x34)) w) s
    t.cur = s.cur ∧ t.slots = s.slots ∧ t.core = s.core ∧ ∀ w, w ∉ l → WordClean s w → WordClean t w := by
  induction l generalizing s with
  | nil => exact ⟨rfl, rfl, rfl, fun _ _ h => h⟩
  | cons v l ih =>
    obtain ⟨cur, slots, core, clean⟩ := ih (poisonWord (s.mcLog (poisonEvent (8 * v) 0x34)) v)
    refine ⟨cur, slots, core, fun w hw h => ?_⟩
    rw [List.mem_cons, not_or] at hw
    obtain ⟨hv, hl⟩ := hw
    exact clean w hl (wordClean_markSet (s := s.mcLog _) 1#2 rfl rfl (Ne.symm hv) h)

/-- Of the words that a line brings from its tier, only one with a code enters poisoned (R84). -/
theorem lineCarried_step (s : State) (pa : Nat) : SliceStep s (lineCarried s pa) := by
  unfold lineCarried
  dsimp only
  obtain ⟨cur, slots, core, clean⟩ := poison_foldl_step ((s.st.ecc.filter (fun e => lineOf (8 * e.1) == pa && e.2)).map (·.1))
    (s.onSt (fun st => { st with ecc := st.ecc.filter (fun e => !(lineOf (8 * e.1) == pa)) }))
  refine ⟨cur, slots, core, fun w h => clean w (fun hw => ?_) ⟨h.1, fun e he => h.2 e (List.mem_filter.mp he).1⟩⟩
  obtain ⟨e, he, rfl⟩ := List.mem_map.mp hw
  exact h.2 e (List.mem_filter.mp he).1 rfl

theorem lineEnter_step (s : State) (pa : Nat) : SliceStep s (lineEnter s pa) := by
  unfold lineEnter
  dsimp only
  split
  · exact .refl s
  · have hin := ((lineRoom_step s (homeDie pa) pa).trans (hostAsk_step _ .rdShared pa)).trans (onSt_step _ rfl rfl
      (f := fun st => { st with lines := linePut st.lines { lineFind s.st.lines pa with home := true, dirty := false, tag := 0, sharers := 0, shared := 0, flaws := 0, own := false } }))
    have h := hin.trans (lineCarried_step _ pa)
    split
    · exact h.trans ⟨rfl, rfl, rfl, fun _ h => h⟩
    · exact h

theorem lineFlawed_step (s : State) (d pa : Nat) : SliceStep s (lineFlawed s d pa) :=
  (onSt_step s rfl rfl).trans (mcLog_step _ _)

theorem lineHome_step (s : State) (pa : Nat) : SliceStep s (lineHome s pa) := by
  unfold lineHome
  dsimp only
  split
  · exact (lineFlawed_step _ _ _).ite
  · exact lineEnter_step _ _

theorem lineFetch_step (s : State) (d pa : Nat) : SliceStep s (lineFetch s d pa) :=
  ((lineHome_step s pa).trans (scrub_step _ _ _)).trans (onSt_step _ rfl rfl)

/-- A die's slice that reads a line changes no slot, nor the core, and poisons no clean word (R81, R84). -/
theorem lineRead_step (s : State) (d pa : Nat) : SliceStep s (lineRead s d pa) := by
  unfold lineRead
  dsimp only
  split
  · exact (lineHome_step s pa).trans (scrub_step _ _ _)
  · split
    · exact ((lineFlawed_step s d pa).trans (lineFetch_step _ d pa)).ite
    · exact ((lineFetch_step s d pa).trans (lineRoom_step _ d pa)).trans (onSt_step _ rfl rfl)

theorem pointScrub_step (s : State) (loc n : Nat) : SliceStep s (pointScrub s loc n) := by
  unfold pointScrub
  split
  · exact scrub_step _ _ _
  · exact (lineHome_step _ _).trans (scrub_step _ _ _)

-- ## The slot whose cycle it is stays through a fetch

theorem walkGains_cur (s : State) (slots : List (Fin 8)) (loc n : Nat) : (walkGains s slots loc n).cur = s.cur :=
  foldl_keeps (fun s i => readGains s i _) State.cur (fun _ _ => rfl) _ _

theorem walkFrom_cur (cluster : Nat) (cid : BitVec 6) (slots : List (Fin 8)) (va n table : Nat) (seen : List WalkEntry) (s : State) :
    (walkFrom cluster cid slots va n table seen s).2.cur = s.cur := by
  induction n generalizing table seen s with
  | zero => rfl
  | succ n ih =>
    have hread (pa : Nat) : (walkGains (pointScrub s pa 8) slots pa 8).cur = s.cur :=
      (walkGains_cur _ _ _ _).trans (pointScrub_step s pa 8).cur
    unfold walkFrom
    dsimp only
    split
    · exact ih _ _ _
    · repeat' split
      all_goals first
        | rfl
        | exact hread _
        | exact (ih _ _ _).trans (hread _)

theorem walkNow_cur (s : State) (w : Walker) (va : Nat) : (walkNow s w va).2.cur = s.cur := by
  have h := walkFrom_cur (w.place s) (BitVec.ofNat 6 w.cid) w.slots va 4 w.root [] s
  unfold walkNow
  dsimp only
  split
  · rename_i hw
    rw [hw] at h
    dsimp only
    split <;> exact h
  · rename_i hw
    rw [hw] at h
    exact h
  · exact h

theorem tlbScrub_cur (s : State) (w : Walker) (va : Nat) : (tlbScrub s w va).cur = s.cur := by
  unfold tlbScrub
  dsimp only
  split <;> rfl

theorem lookup_cur (s : State) (w : Walker) (va : Nat) : (lookup s w va).2.cur = s.cur := by
  have h := tlbScrub_cur s w va
  unfold lookup
  dsimp only
  split
  · exact h
  · split
    · dsimp only
      split <;> exact h
    · split
      · exact h
      · exact (walkNow_cur _ _ _).trans h

/-- The state that a translation gives, if it gives one, has the current slot `k`. -/
def TransAt (k : Fin 8) : Trans → Prop
  | .ok _ _ s | .bad _ s => s.cur = k
  | .stop _ => True

theorem translatePaged_cur (s : State) (w : Walker) (a : Acc) (va : Word) : TransAt s.cur (translatePaged s w a va) := by
  have h := lookup_cur s w (field va 47 0)
  unfold translatePaged
  split <;> rename_i hl <;> rw [hl] at h
  · split <;> exact h
  · exact h
  · exact h
  · trivial

theorem translateFetch_cur (s : State) (w : Walker) (va : Word) : TransAt s.cur (translateFetch s w va) := by
  unfold translateFetch
  split
  · rfl
  · split
    · rfl
    · exact translatePaged_cur _ _ _ _

/-- The state that a fetch gives, if it gives one, has the current slot `k`. -/
def FetchedAt {α : Type} (k : Fin 8) : Fetched α → Prop
  | .ok _ s | .bad _ s | .miss _ s => s.cur = k
  | .stop _ => True

theorem fetchFill_cur (s : State) (va : Word) (loc : Nat) : FetchedAt s.cur (fetchFill s va loc) := by
  have h := (lineRead_step s (dieOf s.coreId) (lineOf loc)).cur
  unfold fetchFill
  dsimp only
  split <;> exact h

theorem fetchHalf_cur (s : State) (va : Word) : FetchedAt s.cur (fetchHalf s va) := by
  have ht := translateFetch_cur s s.thr.walker va
  unfold fetchHalf
  split
  · rfl
  · split <;> rename_i he <;> rw [he] at ht
    · exact ht
    · trivial
    · rename_i loc _ s1
      have hs : s1.cur = s.cur := ht
      have hf := fetchFill_cur s1 va loc
      rw [hs] at hf
      dsimp only
      split
      · exact hs
      · split <;> rename_i hfill <;> rw [hfill] at hf <;> exact hf

theorem fetchWord_cur (s : State) : FetchedAt s.cur (fetchWord s) := by
  have h0 := fetchHalf_cur s s.thr.pc
  unfold fetchWord
  split <;> rename_i he <;> rw [he] at h0
  · exact h0
  · exact h0
  · trivial
  · rename_i x s1
    have hs : s1.cur = s.cur := h0
    have h1 := fetchHalf_cur s1 (s.thr.pc + 2#64)
    rw [hs] at h1
    split
    · split <;> rename_i he1 <;> rw [he1] at h1
      · exact h1
      · exact h1
      · trivial
      · split <;> exact h1
    · split <;> exact hs

-- ## A halfword's fill (R81, R148)

theorem read_drop (m : List Host.Cell) (a n k : Nat) : (Mem.read m a n).drop k = Mem.read m (a + k) (n - k) := by
  induction k generalizing a n with
  | zero => simp
  | succ k ih =>
    cases n with
    | zero => simp [Mem.read]
    | succ n => rw [Mem.read, List.drop_succ_cons, ih, Nat.add_right_comm, Nat.add_assoc a, Nat.add_sub_add_right]

theorem read_take (m : List Host.Cell) (a : Nat) {n k : Nat} (h : k ≤ n) : (Mem.read m a n).take k = Mem.read m a k := by
  induction k generalizing a n with
  | zero => simp [Mem.read]
  | succ k ih =>
    cases n with
    | zero => omega
    | succ n => rw [Mem.read, List.take_succ_cons, ih (a + 1) (by omega), Mem.read]

/-- Dropping poison marks of other words, or of none, leaves a word that is not poisoned its mark. -/
theorem markOf_filter {l : List (Nat × BitVec 2)} {w : Nat} {f : Nat × BitVec 2 → Bool} (hf : ∀ p, p.2 ≠ 1#2 → f p = true)
    (h : markOf l w ≠ 1#2) : markOf (l.filter f) w = markOf l w := by
  induction l with
  | nil => rfl
  | cons p l ih =>
    by_cases hp : p.1 = w
    · have hv : markOf (p :: l) w = p.2 := by simp [markOf, hp]
      rw [hv] at h
      rw [List.filter_cons_of_pos (hf p h)]
      simp [markOf, hp]
    · have hskip (r : List (Nat × BitVec 2)) : markOf (p :: r) w = markOf r w := by simp [markOf, hp]
      rw [hskip] at h
      rw [List.filter_cons, hskip]
      split
      · rw [hskip, ih h]
      · exact ih h

/-- A word that is not poisoned is met unpoisoned through every copy (R81, R84). -/
theorem markOf_soundMarks {st : Store} (via : Option Nat) {w : Nat} (h : markOf st.marks w ≠ 1#2) : markOf (soundMarks st via) w ≠ 1#2 := by
  rw [soundMarks, markOf_filter (fun p hp => by simp [hp]) h]
  exact h

theorem lineRead_mem (s : State) (d pa : Nat) : (lineRead s d pa).st.mem = s.st.mem := congrArg Prod.fst (lineRead_bytes s d pa)

/-- A line whose word is sound fills the instruction cache with memory's bytes. -/
theorem fetchFill_ok {s : State} (va : Word) {loc : Nat} (h : WordClean s (loc / 8)) :
    ∃ s2, fetchFill s va loc = .ok (Mem.read s.st.mem (lineOf loc) 128) s2 ∧ s2.slots = s.slots ∧ s2.st.mem = s.st.mem := by
  have hstep := lineRead_step s (dieOf s.coreId) (lineOf loc)
  have hmem := lineRead_mem s (dieOf s.coreId) (lineOf loc)
  have hmark (via : Option Nat) := markOf_soundMarks via (hstep.clean _ h).1
  unfold fetchFill
  simp only [hmark, if_false, hmem]
  exact ⟨_, rfl, hstep.slots, hmem⟩

/-- A halfword at an even place that the instruction cache does not hold is the two bytes of memory there (R148). -/
theorem fetchHalf_fill {s s1 : State} {va : Word} {loc : Nat} {attr : BitVec 5} (hwalk : fetchWalk s va = none)
    (htr : translateFetch s s.thr.walker va = .ok loc attr s1) (heven : loc % 2 = 0)
    (hmiss : s1.core.icache.find? (fun l => l.1 == lineOf loc) = none) (hsound : Sound s1 loc 2) :
    ∃ s2, fetchHalf s va = .ok (natLE (Mem.read s1.st.mem loc 2)) s2 ∧ s2.slots = s1.slots ∧ s2.st.mem = s1.st.mem := by
  have hword : loc / 8 ∈ touchedWords loc 2 := by
    simp only [touchedWords, if_neg (show ¬ (2 = 0) by decide), List.mem_map, List.mem_range]
    exact ⟨0, by omega, by omega⟩
  obtain ⟨s2, hfill, hslots, hmem⟩ := fetchFill_ok va (hsound _ hword)
  have hline : lineOf loc + (loc - lineOf loc) = loc := by simp only [lineOf]; omega
  have hroom : 2 ≤ 128 - (loc - lineOf loc) := by simp only [lineOf]; omega
  refine ⟨s2, ?_, hslots, hmem⟩
  unfold fetchHalf
  simp only [hwalk, htr, hmiss, hfill, read_drop, hline, read_take _ _ hroom]

-- ## The slot's cycle

/-- What a fetch makes of the slot's cycle (R37, R50, R67). -/
def fetchTurn : Fetched Instr → SlotTurn
  | .ok i s => .word i s
  | .bad c s => .bad c s
  | .miss va s => missTurn s { va, result := none }
  | .stop f => .stop f

/-- The slot is to run a word: its clock and its core go, it holds none, its walk has ended, and its team stays. -/
structure Fetches (s : State) : Prop where
  clock : s.clockOff = false
  normal : recovery s = false
  going : s.core.stopped = false
  runs : s.thr.mode = .run
  free : s.thr.held = none
  walked : ∀ m, s.thr.miss = some m → m.result.isSome = true
  stays : s.thr.stop ≠ .yes
  kept : s.fw.chosen = false

theorem slotTurn_fetches {s : State} (h : Fetches s) : slotTurn s = fetchTurn (fetchWord s) := by
  have hstop : stopTurn? s = none := by simp [stopTurn?, h.stays, h.kept]
  unfold slotTurn
  simp only [h.clock, h.normal, h.going, hstop, h.runs, h.free, Bool.false_eq_true, if_false]
  cases hmiss : s.thr.miss with
  | none => cases fetchWord s <;> rfl
  | some m =>
    obtain ⟨va, _ | r⟩ := m
    · cases h.walked _ hmiss
    · cases fetchWord s <;> rfl

/-- Where no agent's and no unit's step comes first, the step is the slot's cycle. -/
theorem step_turn {s : State} (hsched : s.schedule = []) (hpick : pick? s = none) : step s = turnStep { s with gap := false, wrote := false } := by
  unfold step
  simp only [hsched, ite_self, hpick]

theorem missTurn_quiet {s : State} {m : TlbMiss} (h : s.thr.event? = none) :
    missTurn s m = .vacant { s.onThr (fun t => { t with miss := some m }) with turn := .mem } := by
  simp [missTurn, h]

/-- Settles O56: the step is the slot's cycle, which goes by its fetch; the fetch decodes the pc's halfwords, and a fill brings memory's bytes. -/
theorem stepRunsDecoded : Obligations.StepRunsDecoded := by
  unfold Obligations.StepRunsDecoded
  refine ⟨?step, fun t => rfl, ?decodes, fun s s1 va loc attr => fetchHalf_fill⟩
  case step =>
    intro s hsched hpick hclock hnormal hgoing hruns hfree hwalked hstays hkept
    have hturn := slotTurn_fetches (s := { s with gap := false, wrote := false }) ⟨hclock, hnormal, hgoing, hruns, hfree, hwalked, hstays, hkept⟩
    rw [step_turn hsched hpick, turnStep, hturn]
    refine ⟨fun i s1 hf => ?_, fun c s1 hf => ?_, fun va s1 hf hquiet => ?_⟩
    · rw [hf]; rfl
    · have hcur := fetchWord_cur { s with gap := false, wrote := false }
      rw [hf] at hcur ⊢
      have hcur' : s1.cur = s.cur := hcur
      rw [hcur']; rfl
    · simp only [hf, fetchTurn, missTurn_quiet hquiet]
  case decodes =>
    intro s s1 s2 h0 h1 hhalf0
    refine ⟨fun hshort => ?_, fun hlong hhalf1 => ?_⟩
    · simp only [fetchWord, hhalf0, hshort, Bool.false_eq_true, if_false] <;> rfl
    · have hhalf1' : fetchHalf s1 (s.thr.pc + 2#64) = .ok h1 s2 := hhalf1
      simp only [fetchWord, hhalf0, hlong, if_true, hhalf1'] <;> rfl

end Sys2Proof.Proofs.Fetch
end

section
/-! PROOF. What a translation leaves alone (R64, R70, R72, R81): the parts that the home slices' lines and codes are, what a table's read adds to its threads,
and the walk. -/

namespace Sys2Proof.Proofs.Translation

open Sys2Proof Sys2Proof.Machine Sys2Proof.Safety Sys2Proof.Slice0 Sys2Proof.Proofs.Results Sys2Proof.Proofs.Loads Sys2Proof.Proofs.Fetch

-- ## Frames with one list of parts

section Frame

variable {c : List Part}

theorem keeps_trans {s t u : State} (h1 : Keeps c s t) (h2 : Keeps c t u) : Keeps c s u := h1.trans h2 (fun _ h => h) (fun _ h => h)

theorem keeps_ite {s t : State} {p : Prop} [Decidable p] (h : Keeps c s t) : Keeps c s (if p then t else s) := by
  split
  · exact h
  · exact keeps_refl c s

theorem keeps_foldl {α : Type} {f : State → α → State} (h : ∀ s a, Keeps c s (f s a)) (l : List α) (s : State) : Keeps c s (l.foldl f s) := by
  induction l generalizing s with
  | nil => exact keeps_refl c s
  | cons a l ih => exact keeps_trans (h s a) (ih _)

end Frame

-- ## The home slices' lines (R80 to R84)

/-- What the slices' reads may change: their lines, what the words' codes report, the bank log, what is asked of the host, and the trace. -/
def sliceParts : List Part := [.lines, .errors, .mc, .host, .dbg]

theorem keeps_of_slices (s : State) (lines : List Line) (marks : List (Nat × BitVec 2)) (ecc : List (Nat × Bool)) (sound : List (Option Nat × Nat))
    (mc : List McBank) (host : HostRegs) (dbg : Debug) :
    Keeps sliceParts s { s with st := { s.st with lines, marks, ecc, sound }, mc, host, dbg } := by
  refine ⟨rfl, fun p hp => ?_⟩
  cases p with
  | lines | errors | mc | host | dbg => simp [sliceParts] at hp
  | _ => exact (keeps_refl sliceParts s).2 _ hp

theorem mcLog_keeps (s : State) (e : McEvent) : Keeps sliceParts s (s.mcLog e) := keeps_of_slices s _ _ _ _ _ _ _

theorem poisonWord_keeps (s : State) (w : Nat) : Keeps sliceParts s (poisonWord s w) := keeps_of_slices s _ _ _ _ _ _ _

theorem scrubWord_keeps (s : State) (w : Nat) : Keeps sliceParts s (scrubWord s w) := by
  unfold scrubWord
  split
  · exact keeps_refl _ s
  · dsimp only
    split
    · exact keeps_refl _ s
    · split
      · split
        · exact keeps_of_slices s _ _ _ _ _ _ _
        · exact keeps_of_slices s _ _ _ _ _ _ _
      · exact keeps_of_slices s _ _ _ _ _ _ _

theorem scrub_keeps (s : State) (loc n : Nat) : Keeps sliceParts s (scrub s loc n) := keeps_foldl scrubWord_keeps _ s

theorem hostAsk_keeps (s : State) (op : CacheOp) (pa : Nat) : Keeps sliceParts s (hostAsk s op pa) := keeps_ite (keeps_of_slices s _ _ _ _ _ _ _)

theorem lineEvict_keeps (s : State) (d pa : Nat) : Keeps sliceParts s (lineEvict s d pa) :=
  keeps_trans (keeps_trans (keeps_ite (scrub_keeps _ _ _)) (keeps_ite (hostAsk_keeps _ _ _))) (keeps_of_slices _ _ _ _ _ _ _ _)

theorem lineRoom_keeps (s : State) (d pa : Nat) : Keeps sliceParts s (lineRoom s d pa) := by
  unfold lineRoom
  dsimp only
  split
  · exact keeps_ite (lineEvict_keeps _ _ _)
  · exact keeps_refl _ s

theorem lineCarried_keeps (s : State) (pa : Nat) : Keeps sliceParts s (lineCarried s pa) :=
  keeps_trans (keeps_of_slices s _ _ _ _ _ _ _) (keeps_foldl (fun _ _ => keeps_trans (mcLog_keeps _ _) (poisonWord_keeps _ _)) _ _)

theorem lineEnter_keeps (s : State) (pa : Nat) : Keeps sliceParts s (lineEnter s pa) := by
  unfold lineEnter
  dsimp only
  split
  · exact keeps_refl _ s
  · have hasked := keeps_trans (lineRoom_keeps s (homeDie pa) pa) (hostAsk_keeps _ .rdShared pa)
    exact keeps_trans (keeps_trans (keeps_trans hasked (keeps_of_slices _ _ _ _ _ _ _ _)) (lineCarried_keeps _ pa))
      (keeps_ite (keeps_of_slices _ _ _ _ _ _ _ _))

theorem lineHome_keeps (s : State) (pa : Nat) : Keeps sliceParts s (lineHome s pa) := by
  unfold lineHome
  dsimp only
  split
  · exact keeps_ite (keeps_of_slices s _ _ _ _ _ _ _)
  · exact lineEnter_keeps s pa

/-- A read at its ordering point changes the slices' lines and what its words' codes report (R81, R84, R139). -/
theorem pointScrub_keeps (s : State) (loc n : Nat) : Keeps sliceParts s (pointScrub s loc n) := by
  unfold pointScrub
  split
  · exact scrub_keeps s loc n
  · exact keeps_trans (lineHome_keeps s _) (scrub_keeps _ loc n)

-- ## Reading the tables (R70, R72, R297)

/-- What a translation for the threads of some slots may change. -/
structure TableStep (slots : List (Fin 8)) (s t : State) : Prop where
  keeps : Keeps (.others :: reads) s t
  slots : ∀ i : Fin 8, i ∉ slots → t.slots[i] = s.slots[i]

namespace TableStep

variable {slots : List (Fin 8)} {s t u : State}

theorem refl (slots : List (Fin 8)) (s : State) : TableStep slots s s := ⟨keeps_refl _ s, fun _ _ => rfl⟩

theorem trans (h1 : TableStep slots s t) (h2 : TableStep slots t u) : TableStep slots s u :=
  ⟨keeps_trans h1.keeps h2.keeps, fun i hi => (h2.slots i hi).trans (h1.slots i hi)⟩

/-- A step of the slices, or of the TLBs, leaves the slots alone. -/
theorem of_keeps {ex : List Part} (h : Keeps ex s t) (hs : t.slots = s.slots) (hex : ∀ p, p ∈ ex → p ∈ Part.others :: reads) :
    TableStep slots s t := ⟨h.mono hex, fun i _ => by rw [hs]⟩

theorem foldl {α : Type} {f : State → α → State} {l : List α} (h : ∀ a ∈ l, ∀ s, TableStep slots s (f s a)) (s : State) :
    TableStep slots s (l.foldl f s) := by
  induction l generalizing s with
  | nil => exact refl slots s
  | cons a l ih =>
    rw [List.forall_mem_cons] at h
    exact (h.1 s).trans (ih h.2 _)

end TableStep

theorem pointScrub_tables (slots : List (Fin 8)) (s : State) (loc n : Nat) : TableStep slots s (pointScrub s loc n) :=
  .of_keeps (pointScrub_keeps s loc n) (pointScrub_step s loc n).slots (by decide)

/-- A read for a slot's thread adds to what that thread knows, and to nothing else (R297, R306). -/
theorem readGains_keeps (s : State) (i : Fin 8) (g : List (Nat × Nat)) : Keeps (.others :: reads) s (readGains s i g) := by
  have hthr : ∃ floor relReads, (readGains s i g).thr = { s.thr with floor, relReads } := by
    by_cases h : s.cur = i
    · exact ⟨_, _, by rw [← h]; exact onSlot_same s s.cur _⟩
    · exact ⟨s.thr.floor, s.thr.relReads, onSlot_other s _ h⟩
  obtain ⟨slots, hslots⟩ : ∃ slots, readGains s i g = { s with slots } := ⟨_, rfl⟩
  obtain ⟨floor, relReads, hthr⟩ := hthr
  rw [hslots] at hthr ⊢
  refine ⟨rfl, fun p hp => ?_⟩
  cases p with
  | others | floor | releases => simp [reads] at hp
  | _ => simp [same, hthr, Thread.pred, Thread.opq, Thread.rpq]

theorem readGains_tables {slots : List (Fin 8)} (s : State) {i : Fin 8} (g : List (Nat × Nat)) (hi : i ∈ slots) :
    TableStep slots s (readGains s i g) :=
  ⟨readGains_keeps s i g, fun _ hj => onSlot_other s _ (fun h => hj (h ▸ hi))⟩

theorem walkGains_tables (slots : List (Fin 8)) (s : State) (loc n : Nat) : TableStep slots s (walkGains s slots loc n) :=
  .foldl (fun _ hi s => readGains_tables s _ hi) s

/-- An entry's read, for the threads of some slots (R72, R81, R297). -/
theorem entryRead_tables (slots : List (Fin 8)) (s : State) (pa : Nat) : TableStep slots s (walkGains (pointScrub s pa 8) slots pa 8) :=
  (pointScrub_tables slots s pa 8).trans (walkGains_tables slots _ pa 8)

/-- A walk changes what its entries' reads change. -/
theorem walkFrom_tables (cluster : Nat) (cid : BitVec 6) (slots : List (Fin 8)) (va n table : Nat) (seen : List WalkEntry) (s : State) :
    TableStep slots s (walkFrom cluster cid slots va n table seen s).2 := by
  induction n generalizing table seen s with
  | zero => exact .refl slots s
  | succ n ih =>
    have hread (pa : Nat) := entryRead_tables slots s pa
    unfold walkFrom
    dsimp only
    split
    case h_1 => exact ih _ _ _
    case h_2 =>
      split
      case isTrue => exact .refl slots s
      case isFalse =>
        split
        case isTrue => exact hread _
        case isFalse =>
          split
          case isTrue => exact hread _
          case isFalse =>
            split
            case isTrue => exact hread _
            case isFalse =>
              split
              case isTrue =>
                split
                case isTrue => exact hread _
                case isFalse =>
                  split
                  case isTrue => exact hread _
                  case isFalse => exact (hread _).trans (ih _ _ _)
              case isFalse =>
                repeat' split
                all_goals exact hread _

/-- What the TLBs, the walk cache and the bank log may take. -/
theorem keeps_of_tlbs (s : State) (tlb1 tlb2 : List TlbEntry) (walkc : List WalkEntry) (mc : List McBank) (host : HostRegs) :
    Keeps walks s { s with core := { s.core with tlb1 }, st := { s.st with tlb2, walkc }, mc, host } := by
  refine ⟨rfl, fun p hp => ?_⟩
  cases p with
  | tlbs | mc | host => simp [walks] at hp
  | _ => exact (keeps_refl walks s).2 _ hp

theorem tables_of_tlbs (slots : List (Fin 8)) (s : State) (tlb1 tlb2 : List TlbEntry) (walkc : List WalkEntry) (mc : List McBank) (host : HostRegs) :
    TableStep slots s { s with core := { s.core with tlb1 }, st := { s.st with tlb2, walkc }, mc, host } :=
  .of_keeps (keeps_of_tlbs s tlb1 tlb2 walkc mc host) rfl (by decide)

theorem tlbScrub_tables (slots : List (Fin 8)) (s : State) (w : Walker) (va : Nat) : TableStep slots s (tlbScrub s w va) := by
  unfold tlbScrub
  dsimp only
  split
  · exact tables_of_tlbs slots s _ _ _ _ _
  · exact .refl slots s

theorem walkNow_tables (s : State) (w : Walker) (va : Nat) : TableStep w.slots s (walkNow s w va).2 := by
  have h := walkFrom_tables (w.place s) (BitVec.ofNat 6 w.cid) w.slots va 4 w.root [] s
  unfold walkNow
  dsimp only
  split
  · rename_i hw
    rw [hw] at h
    dsimp only
    split
    · exact h.trans (tables_of_tlbs _ _ _ _ _ _ _)
    · exact h.trans (tables_of_tlbs _ _ _ _ _ _ _)
  · rename_i hw
    rw [hw] at h
    exact h.trans (tables_of_tlbs _ _ _ _ _ _ _)
  · exact h

/-- Looking an address up installs entries, and where it walks, reads the tables (R70 to R72). -/
theorem lookup_tables (s : State) (w : Walker) (va : Nat) : TableStep w.slots s (lookup s w va).2 := by
  have h := tlbScrub_tables w.slots s w va
  unfold lookup
  dsimp only
  split
  · exact h
  · split
    · dsimp only
      split
      · exact h.trans (tables_of_tlbs _ _ _ _ _ _ _)
      · exact h
    · split
      · exact h
      · exact h.trans (walkNow_tables _ w va)

theorem translate_tables {s s1 : State} {w : Walker} {a : Acc} {va : Word} {loc : Nat} {attr : BitVec 5}
    (h : Machine.translate s w a va = .ok loc attr s1) : TableStep w.slots s s1 := by
  unfold Machine.translate at h
  split at h
  · cases h
  · cases h
  · cases h; exact .refl _ s
  · cases h; exact .refl _ s
  · have hstep := lookup_tables s w (field va 47 0)
    unfold translatePaged at h
    split at h <;> rename_i hl
    · split at h
      · cases h
      · cases h; rw [hl] at hstep; exact hstep
    all_goals cases h

/-- Settles O16: a translation that needs no walk changes the TLBs alone, and every translation what its lookup does. -/
theorem translationKeepsTheRest : Obligations.TranslationKeepsTheRest := by
  unfold Obligations.TranslationKeepsTheRest
  intro s s1 w a va loc attr h
  obtain ⟨hkeeps, hslots⟩ := translate_tables h
  exact ⟨fun hw hwalk => (translate_step hw hwalk h).keeps, hkeeps, hslots⟩

end Sys2Proof.Proofs.Translation
end

section
/-! PROOF. The words sys.tlbi, sys.mwait and sys.halt (R75 to R77, R87, R88, R314, R376 to R380): what a word that parks its slot leaves behind, the monitor
table, and each word's run. -/

namespace Sys2Proof.Proofs.SystemWords

open Sys2Proof Sys2Proof.Machine Sys2Proof.Safety Sys2Proof.Slice0 Sys2Proof.Proofs.Results Sys2Proof.Proofs.Words Sys2Proof.Proofs.Loads
  Sys2Proof.Proofs.Fetch Sys2Proof.Proofs.Translation

-- ## Words that park their slot

/-- A mode that a word of its own leaves its slot in: it does not run, it is not the marker's park, and the thread lives. -/
structure ParkMode (m : Mode) : Prop where
  run : m ≠ .run
  marker : m ≠ .marker
  killed : m ≠ .killed

/-- What `finish` does to a parked thread: the pc and the bookkeeping, and S stays for the park's end (R44). -/
theorem finish_park (s0 s : State) (next : Word) (sw : Bool) (hm : ParkMode s.thr.mode) :
    ∃ cr r e, finish s0 s next sw false = { s.setThr { s.thr with
        cr := cr, reissue := r, expiry := e, pc := next, wordPc := s0.thr.pc, held := none, miss := none, relMark := none
        sAfter := sw } with turn := .iss } ∧ ∀ i : Fin 25, i ≠ crQleft → i ≠ crWp → cr[i] = s.thr.cr[i] := by
  obtain ⟨c, r, e, hc, hcr⟩ := countWord_frame s.thr s0.thr.areaUse s0.thr.pc s0.thr.sup s0.thr.uh
  obtain ⟨d, hd, hdr⟩ := clearSkip_frame (s.thr.countWord s0.thr.areaUse s0.thr.pc s0.thr.sup s0.thr.uh) s0.thr.sup
  refine ⟨d, r, e, ?_, fun i hq hw => by rw [hdr i hw, hc]; exact hcr i hq⟩
  unfold finish
  rw [if_neg hm.killed]
  dsimp only
  rw [hd, hc]
  simp [hm.run, hm.marker]

/-- The pc and the mode of a parked thread, and the frame of its issue. -/
theorem finish_parked (s0 s : State) (next : Word) (sw : Bool) (x : Source) (hm : ParkMode s.thr.mode) :
    (finish s0 s next sw false).thr.mode = s.thr.mode ∧ (finish s0 s next sw false).thr.pc = next ∧
      Keeps (issued sw x) s (finish s0 s next sw false) := by
  obtain ⟨c, r, e, h, hcr⟩ := finish_park s0 s next sw hm
  have hthr (t : Thread) : ({ s.setThr t with turn := .iss } : State).thr = t := by simp [State.thr]
  rw [h]
  refine ⟨by rw [hthr], by rw [hthr], rfl, fun p hp => ?_⟩
  cases p with
  | cr i =>
    have hq : i ≠ crQleft := by rintro rfl; simp [issued] at hp
    have hw : i ≠ crWp := by rintro rfl; simp [issued] at hp
    simp only [same, hthr]; exact hcr i hq hw
  | others => exact fun i hi => setThr_other s _ i hi
  | pc | expiry | relMark | book | turns => simp [issued] at hp
  | _ => simp [same, State.thr, Thread.pred, Thread.opq, Thread.rpq]

/-- A long word completes and parks its slot: the mode, the next pc, the frame with the parts `ex` besides what issuing may change, and `P`. -/
def Parks (sw : Bool) (x : Source) (s : State) (m : Mode) (ex : List Part) (P : State → Prop) (o : Host.Outcome State Fault Refusal) : Prop :=
  Completes o (fun t => t.thr.mode = m ∧ t.thr.pc = s.thr.pc + 4 ∧ Keeps (.mode :: issued sw x ++ ex) s t ∧ P t)

theorem Parks.imp {sw : Bool} {x : Source} {s : State} {m : Mode} {ex : List Part} {P Q : State → Prop} {o : Host.Outcome State Fault Refusal}
    (h : Parks sw x s m ex P o) (hq : ∀ t, P t → Q t) : Parks sw x s m ex Q o := by
  obtain ⟨t, ho, hmode, hpc, hkept, hp⟩ := h
  exact ⟨t, ho, hmode, hpc, hkept, hq t hp⟩

/-- Issuing leaves alone every part but its own, the stream that it pops, and under S the mode and the fence bits. -/
theorem not_mem_issued {p : Part} (h : p ∉ [.pc, .cr crQleft, .cr crWp, .expiry, .relMark, .book, .turns, .mode, .fence]) (hs : ∀ i, p ≠ .stream i)
    (sw : Bool) (x : Source) : p ∉ issued sw x := by
  unfold issued
  cases popOf x <;> cases sw <;> simp_all

section Run

variable {sw : Bool} {g : Guard} {x : Source} {p : Plan} {s s1 : State} {ex : List Part} {P : State → Prop}

/-- A long word whose operation checks nothing before its run, and is done within the parts `ex`, is done. -/
theorem done_of_plan (h : CanIssue g x s) (ha : Admits p s) (hw : p.miss s = none) (h7 : p.fault7 s = none) (hh : p.held7 s = false)
    (hr : p.run (popped s x) (operand s x) = .done s1) (hk : Keeps ex (popped s x) s1) (hm : s1.thr.mode = s.thr.mode)
    (hP : ∀ t, Keeps (issued sw x) s1 t → P t) : Done 4 sw x ex s P (issueLong sw g x p s) :=
  have hrun := hm.trans h.runs
  done_of_run h ha.sup (ha.feat _) hw h7 hh hr hk hrun (hP _ (finish_keeps s s1 _ sw x hrun))

/-- The same for one that leaves its slot parked. -/
theorem parks_of_plan {m : Mode} (h : CanIssue g x s) (ha : Admits p s) (hw : p.miss s = none) (h7 : p.fault7 s = none)
    (hh : p.held7 s = false) (hr : p.run (popped s x) (operand s x) = .done s1) (hk : Keeps (.mode :: ex) (popped s x) s1)
    (hm : s1.thr.mode = m) (hpark : ParkMode m) (hP : ∀ t, Keeps (issued sw x) s1 t → P t) :
    Parks sw x s m ex P (issueLong sw g x p s) := by
  obtain ⟨hmode, hpc, hkept⟩ := finish_parked s s1 (s.thr.pc + BitVec.ofNat 64 4) sw x (hm ▸ hpark)
  refine ⟨_, issue_done h ha.sup (ha.feat _) hw h7 hh hr, hmode.trans hm, hpc, ?_, hP _ hkept⟩
  have hrun : Keeps (.mode :: issued sw x ++ ex) s s1 := (popped_keeps sw s x).trans hk (by simp +contextual) (by simp +contextual [or_imp])
  exact hrun.trans hkept (fun _ hp => hp) (by simp +contextual)

end Run

-- ## sys.halt (R314, R376, R380)

theorem set_mode_keeps (s : State) (m : Mode) : Keeps [.mode] s (s.setThr { s.thr with mode := m }) := by
  refine ⟨rfl, fun p hp => ?_⟩
  cases p with
  | mode => simp at hp
  | others => exact fun i hi => setThr_other s _ i hi
  | _ => simp [same, Thread.pred, Thread.opq, Thread.rpq]

/-- The mode that the end of a thread's task leaves it in (R314, R341). -/
def haltMode (t : Thread) : Mode := if t.dispatched then .dispatch else if t.more then .taskEnd else .ending

theorem haltMode_park (t : Thread) : ParkMode (haltMode t) := by
  unfold haltMode
  split
  · exact ⟨nofun, nofun, nofun⟩
  · split <;> exact ⟨nofun, nofun, nofun⟩

/-- A halt whose run leaves its slot in a mode parks it there. -/
theorem sysHalt_parks {sw : Bool} {g : Guard} {x : Source} {s : State} {m : Mode} (h : CanIssue g x s)
    (hr : sysHaltPlan.run (popped s x) (operand s x) = .done ((popped s x).setThr { (popped s x).thr with mode := m })) (hm : ParkMode m) :
    Parks sw x s m [] (fun _ => True) (exec (.sysHalt sw g x) s) :=
  parks_of_plan h ⟨nofun, nofun⟩ rfl rfl rfl hr (set_mode_keeps _ m) (by rw [State.setThr_thr]) hm (fun _ _ => trivial)

section Halt

variable {sw : Bool} {g : Guard} {x : Source} {s : State} (h : CanIssue g x s) (hu : s.thr.uh = false)

include h hu

/-- sys.halt 0 ends the thread's task. -/
theorem sysHalt_ends (hv : operand64 s x = 0) : Parks sw x s (haltMode s.thr) [] (fun _ => True) (exec (.sysHalt sw g x) s) :=
  sysHalt_parks h (by simp [sysHaltPlan, hv, hu, field, haltMode, popped_thr]) (haltMode_park _)

/-- sys.halt 1 asks for a die with the features of cr.feat and of x0. -/
theorem sysHalt_migrates (hv : operand64 s x = 1) (hs : s.thr.sup = true) :
    Parks sw x s (.migrate (s.thr.cr[crFeat] ||| s.thr.x[(0 : Fin 4)])) [] (fun _ => True) (exec (.sysHalt sw g x) s) :=
  sysHalt_parks h (by simp [sysHaltPlan, hv, hs, hu, field, popped_thr]) ⟨nofun, nofun, nofun⟩

end Halt

-- ## sys.tlbi (R75 to R77)

/-- The shootdown that sys.tlbi lists. -/
def shootdown (s : State) (va : Word) : Tlbi :=
  { slot := s.cur, tag := s.nextId, kind := s.thr.x[(0 : Fin 4)].setWidth 2, cid := BitVec.ofNat 6 (field s.thr.x[(0 : Fin 4)] 13 8), va
    scope := s.thr.x[(1 : Fin 4)].setWidth 42, sent := false, waits := [] }

/-- The thread once its shootdown is counted (R77). -/
def tlbiCounted (s : State) (va : Word) : Thread :=
  (s.thr.ringTake s.nextId (some .sysTlbi) va).count s.nextId (.scope (s.thr.x[(1 : Fin 4)].setWidth 42))

def tlbiListed (s : State) (va : Word) : State :=
  (s.bump.setThr (tlbiCounted s va)).onSt (fun st => { st with tlbis := st.tlbis ++ [shootdown s va] })

theorem sysTlbi_run {s : State} {v : Quad} (hv : tlbiBad (low64 v) s.thr.x[(0 : Fin 4)] s.thr.x[(1 : Fin 4)] = false)
    (hf : s.thr.ringFull = false) : sysTlbiPlan.run s v = .done (tlbiListed s (low64 v)) := by
  simp only [sysTlbiPlan, hv, hf, Bool.false_eq_true, if_false]
  rfl

theorem tlbiListed_keeps (s : State) (va : Word) : Keeps [.ring, .cr crSeq, .counted, .requests, .ids] s (tlbiListed s va) := by
  refine ⟨rfl, fun p hp => ?_⟩
  cases p with
  | ring | counted | requests | ids => simp at hp
  | others => exact fun i hi => setThr_other s.bump _ i hi
  | cr i =>
    have hi : i ≠ crSeq := by rintro rfl; simp at hp
    simp [same, tlbiListed, tlbiCounted, vector_set_other _ _ hi]
  | _ => simp [same, tlbiListed, tlbiCounted, Thread.pred, Thread.opq, Thread.rpq]

/-- What sys.tlbi leaves: its shootdown listed and counted (R76, R77). -/
theorem tlbi_lists {sw : Bool} {g : Guard} {x : Source} {s : State} (hi : CanIssue g x s) (hsup : s.thr.sup = true)
    (hv : tlbiBad (operand64 s x) s.thr.x[(0 : Fin 4)] s.thr.x[(1 : Fin 4)] = false) (hf : s.thr.ringFull = false) :
    Done 4 sw x [.ring, .cr crSeq, .counted, .requests, .ids] s (fun t => t.st.tlbis = s.st.tlbis ++ [shootdown s (operand64 s x)] ∧
        t.thr.counted = s.thr.counted ++ [{ tag := s.nextId, reach := .scope (s.thr.x[(1 : Fin 4)].setWidth 42), refused := false }])
      (exec (.sysTlbi sw g x) s) := by
  have hthr := popped_thr s x
  refine done_of_plan hi ⟨fun _ => hsup, nofun⟩ rfl rfl rfl (sysTlbi_run (by rw [hthr]; exact hv) (by rw [hthr]; exact hf))
    (tlbiListed_keeps _ _) (by simp [tlbiListed, tlbiCounted, hthr]) fun t ht => ⟨?listed, ?counted⟩
  case listed =>
    obtain ⟨-, -, -, -, -, -, -, htlbis⟩ := ht.2 .requests (not_mem_issued (by decide) (by decide) _ _)
    rw [htlbis]
    simp [tlbiListed, shootdown, popped_st, popped_cur, popped_nextId, hthr]
  case counted =>
    rw [ht.2 .counted (not_mem_issued (by decide) (by decide) _ _)]
    simp [tlbiListed, tlbiCounted, popped_nextId, hthr]

-- ## The monitor table (R87, R88)

/-- The entries of the table but the current slot's own. -/
def otherMonitors (s : State) : List Monitor := s.st.monitors.filter (fun m => !(m.core == s.coreId && m.slot == s.cur))

/-- Of them, those at the ordering point of a place: one table of 64. -/
def monitorTable (s : State) (loc : Nat) : List Monitor := (otherMonitors s).filter (fun m => pointOf m.line == pointOf (lineOf loc))

def ownMonitor (s : State) (loc : Nat) : Monitor := { line := lineOf loc, core := s.coreId, slot := s.cur }

theorem slot_ne_of_otherMonitor {s : State} {m : Monitor} (h : m ∈ otherMonitors s) (hc : m.core = s.coreId) : m.slot ≠ s.cur := by
  intro hs
  simp [otherMonitors, hc, hs] at h

theorem monitors_keeps (s : State) (l : List Monitor) : Keeps [.monitors] s (s.onSt (fun st => { st with monitors := l })) := by
  refine ⟨rfl, fun p hp => ?_⟩
  cases p with
  | monitors => simp at hp
  | _ => exact (keeps_refl [.monitors] s).2 _ hp

theorem monitorPut_room {s : State} {loc : Nat} (h : (monitorTable s loc).length < 64) :
    monitorPut s (ownMonitor s loc) = s.onSt (fun st => { st with monitors := otherMonitors s ++ [ownMonitor s loc] }) := by
  unfold monitorTable at h
  unfold monitorPut
  dsimp only
  split
  · exact if_neg (Nat.not_le.mpr h)
  · rfl

theorem monitorPut_full {s : State} {loc : Nat} {m : Monitor} (h : 64 ≤ (monitorTable s loc).length) (hm : (monitorTable s loc).head? = some m) :
    monitorPut s (ownMonitor s loc) =
      wakeEntry (s.onSt (fun st => { st with monitors := (otherMonitors s).erase m ++ [ownMonitor s loc] })) m 2 := by
  unfold monitorTable at h hm
  unfold monitorPut
  dsimp only
  split
  · rename_i v hv
    obtain rfl : v = m := Option.some.inj (hv.symm.trans hm)
    exact if_pos h
  · rename_i hv
    cases hv.symm.trans hm

/-- A woken slot no longer waits at a line. -/
theorem unpark_mode (t : Thread) : t.unpark.mode ≠ .mwait := by
  unfold Thread.unpark Thread.enterMarker
  split
  · split <;> nofun
  · nofun

theorem wakeSlot_mode (s : State) (i : Fin 8) (reason : Nat) : (wakeSlot s i reason).slots[i].mode ≠ .mwait := by
  unfold wakeSlot
  dsimp only
  split
  · simp [unpark_mode]
  · assumption

/-- Waking another slot changes that slot alone (R88, R378). -/
theorem wakeSlot_other_keeps {s : State} {i : Fin 8} (reason : Nat) (h : i ≠ s.cur) : Keeps [.others] s (wakeSlot s i reason) := by
  unfold wakeSlot
  dsimp only
  split
  · have hthr (t : Thread) : (s.setSlot i t).thr = s.thr := vector_set_other s.slots t (Ne.symm h)
    refine ⟨rfl, fun p hp => ?_⟩
    cases p with
    | others => simp at hp
    | _ => simp [same, hthr]
  · exact keeps_refl _ s

/-- A displaced waiter of the observed core wakes, and nothing else happens. -/
theorem wakeEntry_keeps {s : State} {m : Monitor} (reason : Nat) (h : m.core = s.coreId → m.slot ≠ s.cur) : Keeps [.others] s (wakeEntry s m reason) := by
  unfold wakeEntry
  split
  · exact wakeSlot_other_keeps reason (h ‹_›)
  · exact keeps_refl _ s

theorem wakeEntry_mode {s : State} {m : Monitor} (reason : Nat) (h : m.core = s.coreId) : (wakeEntry s m reason).slots[m.slot].mode ≠ .mwait := by
  rw [wakeEntry, if_pos h]
  exact wakeSlot_mode s m.slot reason

/-- A displaced entry's waiter is woken, where it is another slot of the observed core that waits. -/
def Wakes (m : Monitor) (s t : State) : Prop := m.core = s.coreId → s.slots[m.slot].mode = .mwait → t.slots[m.slot].mode ≠ .mwait

-- ## sys.mwait (R376, R378)

/-- cr.mon's address field. -/
def monAddress (va : Word) : Word := va &&& 0x0000FFFFFFFFFF80#64

/-- The word's own monitor stands in the table, before the compare. -/
def monitored (s : State) (loc : Nat) : State := monitorPut s (ownMonitor s loc)

/-- The compare has found another value: 4 goes to sys.o, and the slot monitors nothing. -/
def mwaitGone (va : Word) (s : State) : State :=
  (s.bump.setThr ((s.thr.setCr crMon (monAddress va)).send s.nextId 1 [.sysO] (some [{ port := .sysO, val := 4#128, mark := none }]) none)).unmonitor
    s.cur

/-- The compare has found the value: the slot waits. -/
def mwaitParked (va : Word) (s : State) : State := s.setThr { s.thr.setCr crMon (monAddress va ||| 1#64) with mode := .mwait }

theorem sysMwait_run {s s0 : State} {v : Quad} {loc : Nat} {attr : BitVec 5} (hrange : ¬(field (low64 v) 63 48 = 0 ∧ field (low64 v) 47 41 = 0x7F))
    (halign : (low64 v).toNat % 8 = 0) (hwalk : dataWalk s s.thr.walker (low64 v) = none)
    (htr : Machine.translate s s.thr.walker { user := !s.thr.sup, fetch := false, write := false, sync := false } (low64 v) = .ok loc attr s0) :
    sysMwaitPlan.run s v = .done (if BitVec.ofNat 64 (read64 (pointScrub s0 loc 8).st loc) ≠ s.thr.x[(0 : Fin 4)]
      then mwaitGone (low64 v) (monitored (pointScrub s0 loc 8) loc) else mwaitParked (low64 v) (monitored (pointScrub s0 loc 8) loc)) := by
  simp only [sysMwaitPlan, if_neg hrange, halign, ne_eq, not_true_eq_false, if_false, hwalk, htr]
  split <;> rfl

theorem mwaitGone_keeps (va : Word) (s : State) : Keeps [.cr crMon, .flight, .ids, .monitors] s (mwaitGone va s) := by
  refine ⟨rfl, fun p hp => ?_⟩
  cases p with
  | flight | ids | monitors => simp at hp
  | others => exact fun i hi => setThr_other s.bump _ i hi
  | cr i =>
    have hi : i ≠ crMon := by rintro rfl; simp at hp
    simp [same, mwaitGone, State.unmonitor, vector_set_other _ _ hi]
  | _ => simp [same, mwaitGone, State.unmonitor, Thread.pred, Thread.opq, Thread.rpq]

theorem mwaitParked_keeps (va : Word) (s : State) : Keeps [.mode, .cr crMon] s (mwaitParked va s) := by
  refine ⟨rfl, fun p hp => ?_⟩
  cases p with
  | mode => simp at hp
  | others => exact fun i hi => setThr_other s _ i hi
  | cr i =>
    have hi : i ≠ crMon := by rintro rfl; simp at hp
    simp [same, mwaitParked, vector_set_other _ _ hi]
  | _ => simp [same, mwaitParked, Thread.pred, Thread.opq, Thread.rpq]

-- ## The monitor stands: before the compare

theorem coreId_kept {c : List Part} {s t : State} (h : Keeps c s t) (hc : Part.coreRegs ∉ c) : t.coreId = s.coreId := by
  obtain ⟨hx, hy, -⟩ := h.2 .coreRegs hc
  simp only [State.coreId, hx, hy]

/-- A frame that holds the table and the core's place keeps what the word sees of the table. -/
theorem tables_kept {c : List Part} {s t : State} (h : Keeps c s t) (hc : Part.coreRegs ∉ c) (hm : Part.monitors ∉ c) (loc : Nat) :
    otherMonitors t = otherMonitors s ∧ monitorTable t loc = monitorTable s loc ∧ ownMonitor t loc = ownMonitor s loc := by
  have hmon : t.st.monitors = s.st.monitors := h.2 .monitors hm
  have hother : otherMonitors t = otherMonitors s := by rw [otherMonitors, otherMonitors, hmon, coreId_kept h hc, h.1]
  exact ⟨hother, by rw [monitorTable, monitorTable, hother], by rw [ownMonitor, ownMonitor, coreId_kept h hc, h.1]⟩

/-- What the translation and the read of the compare may change. -/
def compareParts : List Part := walks ++ [.lines, .errors, .dbg]

/-- When sys.mwait compares, its translation and its read are behind it, and nothing else (R81, R376). -/
theorem compare_keeps {s s0 : State} {w : Walker} {a : Acc} {va : Word} {loc : Nat} {attr : BitVec 5} (hw : w.l1 = true)
    (hwalk : dataWalk s w va = none) (htr : Machine.translate s w a va = .ok loc attr s0) : Keeps compareParts s (pointScrub s0 loc 8) :=
  (translate_step hw hwalk htr).keeps.trans (pointScrub_keeps s0 loc 8) (by decide) (by decide)

/-- The word's own monitor stands behind those that the table keeps, beside which the parts `more` may have changed; `P` holds wherever
the other slots are as this state has them. -/
structure Monitors (s s2 : State) (loc : Nat) (kept : List Monitor) (more : List Part) (P : State → Prop) : Prop where
  keeps : Keeps (compareParts ++ .monitors :: more) s s2
  bound : more ⊆ [.others, .ids]
  table : s2.st.monitors = kept ++ [ownMonitor s loc]
  sub : ∀ m ∈ kept, m ∈ otherMonitors s
  woken : ∀ t : State, same s2 t .others → P t

section Bound

variable {s s2 : State} {loc : Nat} {kept : List Monitor} {more more' : List Part} {P : State → Prop} (h : Monitors s s2 loc kept more P)

include h

theorem Monitors.mono (hm : more ⊆ more') (hb : more' ⊆ [.others, .ids]) : Monitors s s2 loc kept more' P :=
  ⟨h.keeps.mono (fun _ hp => List.mem_append.mpr ((List.mem_append.mp hp).imp_right (fun hp => List.cons_subset_cons _ hm hp))), hb,
    h.table, h.sub, h.woken⟩

theorem Monitors.same {p : Part} (hp : p ∉ compareParts ++ [.monitors, .others, .ids]) : same s s2 p :=
  (h.mono h.bound (List.Subset.refl _)).keeps.2 p hp

theorem Monitors.coreId : s2.coreId = s.coreId := coreId_kept (h.mono h.bound (List.Subset.refl _)).keeps (by decide)

end Bound

section Monitored

variable {s y : State} {loc : Nat} (hk : Keeps compareParts s y)

include hk

/-- A table with room takes the monitor (R87). -/
theorem monitored_room (h : (monitorTable s loc).length < 64) : Monitors s (monitored y loc) loc (otherMonitors s) [] (fun _ => True) := by
  obtain ⟨hother, htable, hown⟩ := tables_kept hk (by decide) (by decide) loc
  rw [monitored, monitorPut_room (by rw [htable]; exact h), hother, hown]
  exact ⟨hk.trans (monitors_keeps _ _) (by decide) (by decide), by decide, rfl, fun _ hm => hm, fun _ _ => trivial⟩

/-- In a full table it takes the place of the oldest, whose waiter wakes (R88). -/
theorem monitored_full {r : State} {m : Monitor} (hr : r.coreId = s.coreId) (h : 64 ≤ (monitorTable s loc).length)
    (hm : (monitorTable s loc).head? = some m) :
    Monitors s (monitored y loc) loc ((otherMonitors s).erase m) [.others] (Wakes m r) := by
  obtain ⟨hother, htable, hown⟩ := tables_kept hk (by decide) (by decide) loc
  have hslot : m.core = s.coreId → m.slot ≠ s.cur := slot_ne_of_otherMonitor (List.mem_filter.mp (List.mem_of_head? hm)).1
  rw [monitored, monitorPut_full (by rw [htable]; exact h) (by rw [htable]; exact hm), hother, hown]
  have hput := hk.trans (monitors_keeps y ((otherMonitors s).erase m ++ [ownMonitor s loc])) (c := compareParts ++ [.monitors]) (by decide) (by decide)
  have hcore := coreId_kept hput (by decide)
  have hwake := wakeEntry_keeps (m := m) 2 (fun hc => hput.1 ▸ hslot (hc.trans hcore))
  have hkept := hput.trans hwake (c := compareParts ++ [.monitors, .others]) (by decide) (by decide)
  refine ⟨hkept, by decide, hwake.2 .monitors (by decide), fun _ hm => List.mem_of_mem_erase hm, fun t ht hc _ => ?_⟩
  rw [ht m.slot (hkept.1 ▸ hslot (hc.trans hr))]
  exact wakeEntry_mode 2 ((hc.trans hr).trans hcore.symm)

end Monitored

/-- Popping a source keeps the core's place and what the word sees of the table. -/
theorem popped_tables (s : State) (x : Source) (loc : Nat) : (popped s x).coreId = s.coreId ∧ otherMonitors (popped s x) = otherMonitors s ∧
    monitorTable (popped s x) loc = monitorTable s loc ∧ ownMonitor (popped s x) loc = ownMonitor s loc := by
  have hk := popped_keeps false s x
  have hcore : Part.coreRegs ∉ issued false x := not_mem_issued (by decide) (by decide) _ _
  exact ⟨coreId_kept hk hcore, tables_kept hk hcore (not_mem_issued (by decide) (by decide) _ _) loc⟩

section Compared

variable {sw : Bool} {g : Guard} {x : Source} {s s2 : State} {loc : Nat} {kept : List Monitor} {more : List Part} {P : State → Prop}

/-- Where the word goes on, the slot's own monitor leaves the table. -/
theorem mwaitGone_monitors (h : Monitors s s2 loc kept more P) (va : Word) : (mwaitGone va s2).st.monitors = kept := by
  have hkept : kept.filter (fun m => !(m.core == s.coreId && m.slot == s.cur)) = kept :=
    List.filter_eq_self.mpr (fun m hm => (List.mem_filter.mp (h.sub m hm)).2)
  have hgone : (mwaitGone va s2).st.monitors = s2.st.monitors.filter (fun m => !(m.core == s2.coreId && m.slot == s2.cur)) := rfl
  rw [hgone, h.table, h.coreId, h.keeps.1, List.filter_append, hkept]
  simp [ownMonitor]

/-- What the word leaves where it goes on: 4 on its way to sys.o, no monitor of its slot, and it runs (R378). -/
theorem mwait_goes (hi : CanIssue g x s) (hsup : s.thr.sup = true) (h : Monitors (popped s x) s2 loc kept more P)
    (hr : sysMwaitPlan.run (popped s x) (operand s x) = .done (mwaitGone (operand64 s x) s2)) :
    Done 4 sw x (walks ++ [.lines, .errors, .dbg, .monitors, .cr crMon] ++ [.flight, .ids] ++ more) s
      (fun t => t.thr.cr[crMon] = monAddress (operand64 s x) ∧ t.st.monitors = kept ∧ P t ∧ ∃ tag, t.thr.flight = s.thr.flight ++
        [{ due := s.thr.rot + 1, tag, ports := [.sysO], vals := some [{ port := .sysO, val := 4#128, mark := none }], flags := none }])
      (exec (.sysMwait sw g x) s) := by
  have hgone := mwaitGone_keeps (operand64 s x) s2
  have hk : Keeps (walks ++ [.lines, .errors, .dbg, .monitors, .cr crMon] ++ [.flight, .ids] ++ more) (popped s x) (mwaitGone (operand64 s x) s2) := by
    refine h.keeps.trans hgone ?_ ?_ <;> simp +contextual [compareParts, walks, or_imp]
  have hmode : s2.thr.mode = s.thr.mode := (h.same (p := .mode) (by decide)).trans (by rw [popped_thr])
  have hflight : s2.thr.flight = s.thr.flight := (h.same (p := .flight) (by decide)).trans (by rw [popped_thr])
  have hrot : s2.thr.rot = s.thr.rot := (h.same (p := .rot) (by decide)).1.trans (by rw [popped_thr])
  refine done_of_plan hi ⟨fun _ => hsup, nofun⟩ rfl rfl rfl hr hk ((hgone.2 .mode (by decide)).trans hmode)
    fun t ht => ⟨?mon, ?table, ?woken, s2.nextId, ?answer⟩
  case mon =>
    rw [ht.2 (.cr crMon) (not_mem_issued (by decide) (by decide) _ _)]
    simp [mwaitGone, State.unmonitor]
  case table =>
    rw [ht.2 .monitors (not_mem_issued (by decide) (by decide) _ _)]
    exact mwaitGone_monitors h _
  case woken => exact h.woken t (same_trans hgone.1 (hgone.2 .others (by decide)) (ht.2 .others (not_mem_issued (by decide) (by decide) _ _)))
  case answer =>
    rw [ht.2 .flight (not_mem_issued (by decide) (by decide) _ _)]
    simp [mwaitGone, State.unmonitor, hflight, hrot]

/-- What it leaves where it waits: its monitor in the table, and the slot parked (R376, R378). -/
theorem mwait_parks (hi : CanIssue g x s) (hsup : s.thr.sup = true) (h : Monitors (popped s x) s2 loc kept more P)
    (hr : sysMwaitPlan.run (popped s x) (operand s x) = .done (mwaitParked (operand64 s x) s2)) :
    Parks sw x s .mwait (walks ++ [.lines, .errors, .dbg, .monitors, .cr crMon] ++ more)
      (fun t => t.thr.cr[crMon] = monAddress (operand64 s x) ||| 1#64 ∧ t.st.monitors = kept ++ [ownMonitor s loc] ∧ P t)
      (exec (.sysMwait sw g x) s) := by
  have hparked := mwaitParked_keeps (operand64 s x) s2
  have hk : Keeps (.mode :: (walks ++ [.lines, .errors, .dbg, .monitors, .cr crMon] ++ more)) (popped s x) (mwaitParked (operand64 s x) s2) := by
    refine h.keeps.trans hparked ?_ ?_ <;> simp +contextual [compareParts, walks, or_imp]
  refine parks_of_plan hi ⟨fun _ => hsup, nofun⟩ rfl rfl rfl hr hk (by simp [mwaitParked]) ⟨nofun, nofun, nofun⟩
    fun t ht => ⟨?mon, ?table, ?woken⟩
  case mon =>
    rw [ht.2 (.cr crMon) (not_mem_issued (by decide) (by decide) _ _)]
    simp [mwaitParked]
  case table =>
    obtain ⟨-, -, -, hown⟩ := popped_tables s x loc
    rw [ht.2 .monitors (not_mem_issued (by decide) (by decide) _ _), ← hown]
    exact h.table
  case woken => exact h.woken t (same_trans hparked.1 (hparked.2 .others (by decide)) (ht.2 .others (not_mem_issued (by decide) (by decide) _ _)))

end Compared

/-- The value that the compare reads is memory's own: neither the translation nor the read changes a byte. -/
theorem compare_read {s y : State} {x : Source} (hk : Keeps compareParts (popped s x) y) (loc : Nat) : read64 y.st loc = read64 s.st loc := by
  obtain ⟨hmem, -⟩ := hk.2 .memory (by decide)
  rw [read64, read64, hmem, popped_st]

/-- Settles O44: sys.tlbi and sys.halt by their one effect, sys.mwait by the room in its monitor's table and by what its compare finds. -/
theorem systemWordsAct : Obligations.SystemWordsAct := by
  unfold Obligations.SystemWordsAct
  intro sw g x s hi
  dsimp only
  refine ⟨fun hsup hbad hring => tlbi_lists hi hsup hbad hring, fun loc attr s1 hsup hrange halign hwalk htr => ?mwait,
    fun hv hu => sysHalt_ends hi hu hv, fun hv hsup hu => sysHalt_migrates hi hu hv hsup⟩
  case mwait =>
    have hthr := popped_thr s x
    rw [← hthr] at hwalk htr
    have hk := compare_keeps (w := (popped s x).thr.walker) rfl hwalk htr
    have hrun := sysMwait_run hrange halign hwalk htr
    rw [compare_read hk, hthr] at hrun
    obtain ⟨hcore, hother, htable, -⟩ := popped_tables s x loc
    have hroom (h : (monitorTable s loc).length < 64) := monitored_room hk (loc := loc) (by rw [htable]; exact h)
    have hfull {m : Monitor} (h : 64 ≤ (monitorTable s loc).length) (hm : (monitorTable s loc).head? = some m) :=
      monitored_full hk (r := s) (loc := loc) hcore.symm (by rw [htable]; exact h) (by rw [htable]; exact hm)
    rw [hother] at hroom hfull
    refine ⟨fun hv => ?goes, fun hv => ?parks⟩
    case goes =>
      rw [if_pos hv] at hrun
      exact ⟨fun h => mwait_goes hi hsup (hroom h) hrun, fun m h hm => mwait_goes hi hsup (hfull h hm) hrun⟩
    case parks =>
      rw [if_neg (not_not.mpr hv)] at hrun
      refine ⟨fun h => ?room, fun m h hm => ?full⟩
      case room => exact (mwait_parks hi hsup (hroom h) hrun).imp (fun t ⟨hmon, hkept, _⟩ => ⟨hmon, hkept⟩)
      case full => exact mwait_parks hi hsup ((hfull h hm).mono (by decide) (List.Subset.refl _)) hrun

end Sys2Proof.Proofs.SystemWords
end

section
/-! PROOF. Canonical memory (log 7, R82, R136): what every action of the machine does to the list of cells, from the state's operations up to the step. -/

namespace Sys2Proof.Proofs.Canonical

open Sys2Proof Sys2Proof.Machine Sys2Proof.Safety Sys2Proof.Proofs.Translation

-- ## Folds and table reads

theorem foldl_mem {α : Type} {f : State → α → State} (h : ∀ s a, (f s a).st.mem = s.st.mem) (l : List α) (s : State) :
    (l.foldl f s).st.mem = s.st.mem := foldl_keeps f (fun s => s.st.mem) h l s

theorem foldl_wf {α : Type} {f : State → α → State} (h : ∀ s a, Mem.wf s.st.mem = true → Mem.wf (f s a).st.mem = true) (l : List α) {s : State}
    (hs : Mem.wf s.st.mem = true) : Mem.wf (l.foldl f s).st.mem = true := by
  induction l generalizing s with
  | nil => exact hs
  | cons a l ih => exact ih (h s a hs)

theorem tableStep_mem {slots : List (Fin 8)} {s t : State} (h : TableStep slots s t) : t.st.mem = s.st.mem := (h.keeps.2 .memory (by decide)).1

-- ## The rules of the state's operations: reads and logs leave memory alone, writes keep it canonical

@[simp] theorem crWrite_mem (s : State) (i : Fin 25) (v : Word) : (crWrite s i v).st.mem = s.st.mem := by
  unfold crWrite
  repeat' split
  all_goals simp

@[simp] theorem bump_mem (s : State) : s.bump.st.mem = s.st.mem := rfl

@[simp] theorem mcLog_mem (s : State) (e : McEvent) : (s.mcLog e).st.mem = s.st.mem := congrArg Prod.fst (mcLog_bytes s e)

@[simp] theorem traceAt_mem (s : State) (k type low : Nat) (hi : Word) : (s.traceAt k type low hi).st.mem = s.st.mem := rfl

@[simp] theorem reclock_mem (s old : State) : (s.reclock old).st.mem = s.st.mem := rfl

@[simp] theorem trace_mem (s : State) (type low : Nat) (hi : Word) : (s.trace type low hi).st.mem = s.st.mem := rfl

@[simp] theorem readGains_mem (s : State) (slot : Fin 8) (g : List (Nat × Nat)) : (readGains s slot g).st.mem = s.st.mem := rfl

@[simp] theorem walkGains_mem (s : State) (slots : List (Fin 8)) (loc n : Nat) : (walkGains s slots loc n).st.mem = s.st.mem :=
  foldl_mem (fun s i => readGains_mem s i _) slots s

@[simp] theorem poisonWord_mem (s : State) (w : Nat) : (poisonWord s w).st.mem = s.st.mem := congrArg Prod.fst (poisonWord_bytes s w)

@[simp] theorem scrubWord_mem (s : State) (w : Nat) : (scrubWord s w).st.mem = s.st.mem := congrArg Prod.fst (scrubWord_bytes s w)

@[simp] theorem scrub_mem (s : State) (loc n : Nat) : (scrub s loc n).st.mem = s.st.mem := congrArg Prod.fst (scrub_bytes s loc n)

@[simp] theorem onOut_mem (s : State) (f : HostOut → HostOut) : (s.onOut f).st.mem = s.st.mem := rfl

@[simp] theorem hostAsk_mem (s : State) (op : CacheOp) (pa : Nat) : (hostAsk s op pa).st.mem = s.st.mem := congrArg Prod.fst (hostAsk_bytes s op pa)

@[simp] theorem hostOwn_mem (s : State) (pa : Nat) : (hostOwn s pa).st.mem = s.st.mem := congrArg Prod.fst (hostOwn_bytes s pa)

@[simp] theorem lineEvict_mem (s : State) (d pa : Nat) : (lineEvict s d pa).st.mem = s.st.mem := congrArg Prod.fst (lineEvict_bytes s d pa)

@[simp] theorem lineRoom_mem (s : State) (d pa : Nat) : (lineRoom s d pa).st.mem = s.st.mem := congrArg Prod.fst (lineRoom_bytes s d pa)

@[simp] theorem lineCarried_mem (s : State) (pa : Nat) : (lineCarried s pa).st.mem = s.st.mem := congrArg Prod.fst (lineCarried_bytes s pa)

@[simp] theorem lineEnter_mem (s : State) (pa : Nat) : (lineEnter s pa).st.mem = s.st.mem := congrArg Prod.fst (lineEnter_bytes s pa)

@[simp] theorem lineFlawed_mem (s : State) (d pa : Nat) : (lineFlawed s d pa).st.mem = s.st.mem := congrArg Prod.fst (lineFlawed_bytes s d pa)

@[simp] theorem lineHome_mem (s : State) (pa : Nat) : (lineHome s pa).st.mem = s.st.mem := congrArg Prod.fst (lineHome_bytes s pa)

@[simp] theorem lineFetch_mem (s : State) (d pa : Nat) : (lineFetch s d pa).st.mem = s.st.mem := congrArg Prod.fst (lineFetch_bytes s d pa)

@[simp] theorem lineRead_mem (s : State) (d pa : Nat) : (lineRead s d pa).st.mem = s.st.mem := congrArg Prod.fst (lineRead_bytes s d pa)

@[simp] theorem pointScrub_mem (s : State) (loc n : Nat) : (pointScrub s loc n).st.mem = s.st.mem := congrArg Prod.fst (pointScrub_bytes s loc n)

@[simp] theorem tlbScrub_mem (s : State) (w : Walker) (va : Nat) : (tlbScrub s w va).st.mem = s.st.mem := by
  unfold tlbScrub
  simp only []
  split <;> simp

@[simp] theorem install1_mem (s : State) (e : TlbEntry) : (install1 s e).st.mem = s.st.mem := rfl

@[simp] theorem walkFrom_mem (cluster : Nat) (cid : BitVec 6) (slots : List (Fin 8)) (va n table : Nat) (seen : List WalkEntry) (s : State) :
    (walkFrom cluster cid slots va n table seen s).2.st.mem = s.st.mem := tableStep_mem (walkFrom_tables cluster cid slots va n table seen s)

@[simp] theorem walkNow_mem (s : State) (w : Walker) (va : Nat) : (walkNow s w va).2.st.mem = s.st.mem := tableStep_mem (walkNow_tables s w va)

@[simp] theorem lookup_mem (s : State) (w : Walker) (va : Nat) : (lookup s w va).2.st.mem = s.st.mem := tableStep_mem (lookup_tables s w va)

/-- The state that a translation comes to, if it comes to one, has this memory. -/
def TransMem (m : List Host.Cell) : Trans → Prop
  | .ok _ _ s => s.st.mem = m
  | .bad _ s => s.st.mem = m
  | .stop _ => True

theorem translatePaged_mem (s : State) (w : Walker) (a : Acc) (va : Word) : TransMem s.st.mem (translatePaged s w a va) := by
  have hl := lookup_mem s w (field va 47 0)
  unfold translatePaged
  split <;> rename_i e <;> rw [e] at hl
  · split <;> exact hl
  · exact hl
  · exact hl
  · trivial

theorem translate_mem (s : State) (w : Walker) (a : Acc) (va : Word) : TransMem s.st.mem (Machine.translate s w a va) := by
  unfold Machine.translate
  split
  case h_5 => exact translatePaged_mem s w a va
  all_goals exact rfl

theorem translate_ok_mem {s s1 : State} {w : Walker} {a : Acc} {va : Word} {loc : Nat} {attr : BitVec 5} (e : Machine.translate s w a va = .ok loc attr s1) :
    s1.st.mem = s.st.mem := by
  have h := translate_mem s w a va
  rwa [e] at h

theorem translate_bad_mem {s s1 : State} {w : Walker} {a : Acc} {va c : Word} (e : Machine.translate s w a va = .bad c s1) : s1.st.mem = s.st.mem := by
  have h := translate_mem s w a va
  rwa [e] at h

@[simp] theorem l1Drop_mem (s : State) (loc : Nat) : (l1Drop s loc).st.mem = s.st.mem := by
  unfold l1Drop
  split <;> simp

@[simp] theorem gains_mem (s : State) (slot : Fin 8) (tag loc : Nat) (m : Moment) : (gains s slot tag loc m).st.mem = s.st.mem := rfl

@[simp] theorem viewPick_mem (s : State) (ms : List Moment) : (viewPick s ms).2.st.mem = s.st.mem := by
  unfold viewPick
  split <;> rfl

@[simp] theorem put_wf (st : Store) (p : PWrite) (h : Mem.wf st.mem = true) : Mem.wf (st.put p).mem = true := Mem.wf_write p.data p.loc h

@[simp] theorem wakeSlot_mem (s : State) (slot : Fin 8) (reason : Nat) : (wakeSlot s slot reason).st.mem = s.st.mem := by
  unfold wakeSlot
  simp only []
  split <;> simp

@[simp] theorem wakeEntry_mem (s : State) (m : Monitor) (reason : Nat) : (wakeEntry s m reason).st.mem = s.st.mem := by
  unfold wakeEntry
  split <;> simp

@[simp] theorem wakeLine_mem (s : State) (line : Nat) : (wakeLine s line).st.mem = s.st.mem := by simp [wakeLine, foldl_mem]

@[simp] theorem unmonitor_mem (s : State) (slot : Fin 8) : (s.unmonitor slot).st.mem = s.st.mem := rfl

@[simp] theorem monitorPut_mem (s : State) (m : Monitor) : (monitorPut s m).st.mem = s.st.mem := by
  unfold monitorPut
  simp only []
  repeat' split
  all_goals simp

@[simp] theorem touchLine_mem (s : State) (loc : Nat) : (touchLine s loc).1.st.mem = s.st.mem := by simp [touchLine]

@[simp] theorem sendAck_mem (s : State) (r : Req) (seqTag await : BitVec 16) : (sendAck s r seqTag await).st.mem = s.st.mem := by
  unfold sendAck
  repeat' split
  all_goals simp

@[simp] theorem perform_wf (s : State) (p : PWrite) (h : Mem.wf s.st.mem = true) : Mem.wf (perform s p).1.st.mem = true := by
  unfold perform
  split <;> simp [h]

@[simp] theorem performFree_wf (s : State) (p : PWrite) (tag : Nat) (h : Mem.wf s.st.mem = true) : Mem.wf (performFree s p tag).st.mem = true := by
  have hp := perform_wf s p h
  unfold performFree
  split
  split <;> simp_all

@[simp] theorem coreRead_mem (s : State) (loc n : Nat) : (coreRead s loc n).st.mem = s.st.mem := congrArg Prod.fst (coreRead_bytes s loc n)

@[simp] theorem threadRead_mem (s : State) (slot : Fin 8) (via : Option Nat) (tag loc n : Nat) : (threadRead s slot via tag loc n).2.st.mem = s.st.mem := by
  unfold threadRead
  dsimp only
  split <;> simp

@[simp] theorem homeRead_mem (s : State) (slot : Fin 8) (tag loc n : Nat) : (homeRead s slot tag loc n).2.st.mem = s.st.mem := by simp [homeRead]

@[simp] theorem rmwGains_mem (s : State) (r : Req) : (rmwGains s r).st.mem = s.st.mem := by
  unfold rmwGains
  split <;> simp

@[simp] theorem floorOwn_mem (s : State) (slot : Option (Fin 8)) (loc n id : Nat) : (floorOwn s slot loc n id).st.mem = s.st.mem := by
  unfold floorOwn
  split <;> simp

@[simp] theorem refuse_mem (s : State) (slot : Option (Fin 8)) (tag : Nat) (cause : Nat → Word) (stays : Bool) :
    (refuse s slot tag cause stays).st.mem = s.st.mem := by
  unfold refuse
  split <;> simp

@[simp] theorem onImage_mem (s : State) (a : Nat × Nat × Fin 8) (f : Thread → Thread) : (onImage s a f).st.mem = s.st.mem := rfl

@[simp] theorem pointRead_mem (s : State) (i : Fin 8) (r : Req) (port : RPort) (n : Nat) (ext : Bool) : (pointRead s i r port n ext).2.st.mem = s.st.mem := rfl

@[simp] theorem answer_mem (s : State) (r : Req) (port : RPort) (n : Nat) (ext : Bool) : (answer s r port n ext).st.mem = s.st.mem := by
  unfold answer
  dsimp only
  split <;> simp

@[simp] theorem serve_wf (s : State) (r : Req) (h : Mem.wf s.st.mem = true) : Mem.wf (serve s r).st.mem = true := by
  unfold serve
  split <;> simp [h]

@[simp] theorem serveLoads_wf (s : State) (l : List Req) (h : Mem.wf s.st.mem = true) : Mem.wf (serveLoads s l).st.mem = true := by
  induction l generalizing s with
  | nil => exact h
  | cons r l ih =>
    unfold serveLoads
    split
    · simp [h]
    · exact ih _ (by simp [h])

@[simp] theorem serviceLoop_wf (s : State) (loc n : Nat) (h : Mem.wf s.st.mem = true) : Mem.wf (serviceLoop s loc n).st.mem = true := by
  induction n generalizing s with
  | zero => exact h
  | succ n ih =>
    unfold serviceLoop
    dsimp only
    split
    · exact ih _ (by split <;> simp [h])
    · split <;> simp [h]

@[simp] theorem enlist_wf (s : State) (r : Req) (h : Mem.wf s.st.mem = true) : Mem.wf (enlist s r).st.mem = true := by
  unfold enlist
  dsimp only
  split <;> simp [h]

@[simp] theorem waitRetry_wf (s : State) (n : Nat) (h : Mem.wf s.st.mem = true) : Mem.wf (waitRetry s n).st.mem = true := by
  induction n generalizing s with
  | zero => exact h
  | succ n ih =>
    unfold waitRetry
    split
    · exact h
    · exact ih _ (by simp [h])

@[simp] theorem refillWaiters_wf (s : State) (h : Mem.wf s.st.mem = true) : Mem.wf (refillWaiters s).st.mem = true := waitRetry_wf s _ h

@[simp] theorem service_wf (s : State) (loc : Nat) (h : Mem.wf s.st.mem = true) : Mem.wf (service s loc).st.mem = true :=
  refillWaiters_wf _ (serviceLoop_wf s loc _ h)

@[simp] theorem dropWaiting_wf (s : State) (gone : Req → Bool) (h : Mem.wf s.st.mem = true) : Mem.wf (dropWaiting s gone).st.mem = true := by
  simp [dropWaiting, h]

theorem areaPlace_mem (s : State) (slot : Fin 8) (area : Word) (write : Bool) : TransMem s.st.mem (areaPlace s slot area write) := by
  unfold areaPlace
  dsimp only
  split
  · rename_i e
    split <;> exact translate_ok_mem e
  · exact translate_mem ..

theorem areaPlace_ok_mem {s s1 : State} {slot : Fin 8} {area : Word} {write : Bool} {loc : Nat} {attr : BitVec 5} (e : areaPlace s slot area write = .ok loc attr s1) :
    s1.st.mem = s.st.mem := by
  have h := areaPlace_mem s slot area write
  rwa [e] at h

theorem areaPlace_bad_mem {s s1 : State} {slot : Fin 8} {area c : Word} {write : Bool} (e : areaPlace s slot area write = .bad c s1) :
    s1.st.mem = s.st.mem := by
  have h := areaPlace_mem s slot area write
  rwa [e] at h

@[simp] theorem areaStore_wf (s : State) (slot : Fin 8) (va : Word) (loc : Nat) (data : List Byte) (h : Mem.wf s.st.mem = true) :
    Mem.wf (areaStore s slot va loc data).st.mem = true := by
  unfold areaStore
  dsimp only
  split <;> simp [h]

@[simp] theorem resvSettle_wf (s : State) (slot : Fin 8) (r : Req) (grant : Bool) (h : Mem.wf s.st.mem = true) :
    Mem.wf (resvSettle s slot r grant).st.mem = true := by
  unfold resvSettle
  dsimp only
  split
  · simp [h]
  · split
    · rename_i e
      split <;> simp [areaPlace_ok_mem e, h]
    · rename_i e
      simp [areaPlace_bad_mem e, h]
    · exact h

@[simp] theorem awayGrant_wf (s : State) (img : Image) (l : Launch) (slot : Fin 8) (tag : Nat) (v : Quad) (h : Mem.wf s.st.mem = true) :
    Mem.wf (awayGrant s img l slot tag v).st.mem = true := by
  unfold awayGrant
  repeat' split
  all_goals simp [h]

@[simp] theorem settleAway_wf (s : State) (a : Nat × Nat × Fin 8) (x : Settled) (h : Mem.wf s.st.mem = true) : Mem.wf (settleAway s a x).st.mem = true := by
  unfold settleAway
  repeat' split
  all_goals simp [h]

@[simp] theorem refuseLrw_wf (s : State) (r : Req) (kind : Nat) (h : Mem.wf s.st.mem = true) : Mem.wf (refuseLrw s r kind).st.mem = true := by
  unfold refuseLrw
  repeat' split
  all_goals simp [h]

@[simp] theorem giveGrant_wf (s0 : State) (r : Req) (h : Mem.wf s0.st.mem = true) : Mem.wf (giveGrant s0 r).st.mem = true := by
  unfold giveGrant
  repeat' split
  all_goals simp [h]

@[simp] theorem grantNext_wf (s : State) (e : Resv) (h : Mem.wf s.st.mem = true) : Mem.wf (grantNext s e).st.mem = true := by
  unfold grantNext
  repeat' split
  all_goals simp [h]

@[simp] theorem lrwArrive_wf (s : State) (r : Req) (grp : GroupKey) (gen tkt : Nat) (h : Mem.wf s.st.mem = true) :
    Mem.wf (lrwArrive s r grp gen tkt).st.mem = true := by
  unfold lrwArrive
  repeat' split
  all_goals simp [h]

@[simp] theorem resvRetry_wf (s : State) (n : Nat) (h : Mem.wf s.st.mem = true) : Mem.wf (resvRetry s n).st.mem = true := by
  induction n generalizing s with
  | zero => exact h
  | succ n ih =>
    unfold resvRetry
    split
    · exact h
    · dsimp only
      split <;> exact ih _ (by simp [h])

@[simp] theorem resvPass_wf (s : State) (loc : Nat) (last : Bool) (h : Mem.wf s.st.mem = true) : Mem.wf (resvPass s loc last).st.mem = true := by
  unfold resvPass
  split
  · exact h
  · split
    · exact resvRetry_wf _ _ (foldl_wf (fun s w h => refuseLrw_wf s w.2 3 h) _ (by simp [h]))
    · simp [h]

@[simp] theorem poisonRefuse_mem (s : State) (r : Req) : (poisonRefuse s r).st.mem = s.st.mem := by
  unfold poisonRefuse
  split <;> simp

@[simp] theorem performReq_wf (s : State) (r : Req) (h : Mem.wf s.st.mem = true) : Mem.wf (performReq s r).st.mem = true := by
  unfold performReq
  extract_lets whole s1 poisoned
  have h1 : Mem.wf s1.st.mem = true := by simp only [s1]; split <;> simp [h]
  split
  · split
    · simp [h1]
    · simp only []
      split <;> simp [h1]
  · split <;> simp [h1]
  · split <;> simp [h1]
  all_goals simp [h1]

@[simp] theorem pushPacket_mem (s : State) (k : Nat) (p : Packet) : (pushPacket s k p).st.mem = s.st.mem := rfl

@[simp] theorem leaveBy_mem (s : State) (p : Fin 16) (k : Packet) : (leaveBy s p k).st.mem = s.st.mem := rfl

@[simp] theorem takePacket_mem (s : State) (k : Nat) (p : Packet) : (takePacket s k p).st.mem = s.st.mem := rfl

@[simp] theorem sendUp_mem (s : State) (up : Option (Nat × Face)) (pk : Face → Packet) : (sendUp s up pk).st.mem = s.st.mem := by
  unfold sendUp
  split <;> simp

@[simp] theorem putRouter_mem (s : State) (r : Router) : (putRouter s r).st.mem = s.st.mem := rfl

@[simp] theorem pitScrub_mem (s : State) (k : Nat) (nm : Option TileName) : (pitScrub s k nm).st.mem = s.st.mem := by
  unfold pitScrub
  simp only []
  repeat' split
  all_goals simp

@[simp] theorem dropFace_mem (s : State) (k : Nat) (nm : TileName) (f : Face) : (dropFace s k nm f).st.mem = s.st.mem := by
  unfold dropFace
  simp only []
  repeat' split
  all_goals simp

@[simp] theorem dropInterest_mem (s : State) (i : Interest) : (dropInterest s i).st.mem = s.st.mem := by
  unfold dropInterest
  simp only []
  split <;> simp

@[simp] theorem storeEntries_wf (s : State) (slot : Fin 8) (va : Word) (loc : Nat) (l : List (List Byte)) (h : Mem.wf s.st.mem = true) :
    Mem.wf (storeEntries s slot va loc l).st.mem = true := by
  induction l generalizing s va loc with
  | nil => exact h
  | cons e l ih => exact ih _ _ _ (areaStore_wf s slot va loc e h)

@[simp] theorem leaveThread_mem (s : State) (n : Nat) : (leaveThread s n).st.mem = s.st.mem := rfl

@[simp] theorem leaveAll_mem (s : State) (slot : Fin 8) : (leaveAll s slot).st.mem = s.st.mem := rfl

@[simp] theorem killUnits_wf (s : State) (slot : Fin 8) (h : Mem.wf s.st.mem = true) : Mem.wf (killUnits s slot).st.mem = true := by
  unfold killUnits
  extract_lets s1 c c1 mine reads st
  have h1 : Mem.wf s1.st.mem = true := by simpa [s1, foldl_mem] using h
  exact dropWaiting_wf _ _ h1

@[simp] theorem killThread_wf (s : State) (slot : Fin 8) (h : Mem.wf s.st.mem = true) : Mem.wf (killThread s slot).st.mem = true := by
  simp [killThread, h]

end Sys2Proof.Proofs.Canonical
end

section
/-! PROOF. Canonical memory, continued: exceptions, save areas, and the words' common way from issue to the end (R37, R368, R370). -/

namespace Sys2Proof.Proofs.Canonical

open Sys2Proof Sys2Proof.Machine Sys2Proof.Safety Sys2Proof.Proofs.Translation

-- ## Outcomes, exceptions and the issue of a word

/-- The outcome is no next state, or one whose memory is canonical. -/
def OutWf : Out → Prop
  | .next s => Mem.wf s.st.mem = true
  | .fault _ => True
  | .refused _ => True

@[simp] theorem outWf_next (s : State) : OutWf (.next s) ↔ Mem.wf s.st.mem = true := .rfl

@[simp] theorem outWf_fault (f : Fault) : OutWf (.fault f) := trivial

@[simp] theorem outWf_refused (r : Refusal) : OutWf (.refused r) := trivial

theorem outWf_ite {c : Prop} {_ : Decidable c} {a b : Out} (ha : OutWf a) (hb : OutWf b) : OutWf (if c then a else b) := by
  split
  · exact ha
  · exact hb

@[simp] theorem enterVector_mem (s : State) (slot : Fin 8) (e : Entry) (uhf : Bool) : (enterVector s slot e uhf).st.mem = s.st.mem := rfl

@[simp] theorem trackTold_mem (s : State) (slot : Fin 8) (cause : Word) : (trackTold s slot cause).st.mem = s.st.mem := by
  unfold trackTold
  simp only []
  split <;> simp

theorem andThen_wf {o : Out} {f : State → Out} (ho : OutWf o) (hf : ∀ s, Mem.wf s.st.mem = true → OutWf (f s)) : OutWf (andThen o f) := by
  cases o with
  | next s => exact hf s ho
  | fault _ => trivial
  | refused _ => trivial

/-- The state that a translation comes to, if it comes to one, has canonical memory. -/
def TransWf : Trans → Prop
  | .ok _ _ s => Mem.wf s.st.mem = true
  | .bad _ s => Mem.wf s.st.mem = true
  | .stop _ => True

theorem TransMem.wf {m : List Host.Cell} {t : Trans} (h : TransMem m t) (hm : Mem.wf m = true) : TransWf t := by
  cases t with
  | ok loc attr s => exact (congrArg Mem.wf h).trans hm
  | bad c s => exact (congrArg Mem.wf h).trans hm
  | stop f => trivial

theorem saveArea_wf (s : State) (slot : Fin 8) (u : Option (Word × Word)) (h : Mem.wf s.st.mem = true) : TransWf (saveArea s slot u) := by
  have ha := (areaPlace_mem s slot s.slots[slot].psave true).wf h
  unfold saveArea
  dsimp only
  split
  · rename_i loc attr s1 e
    rw [e] at ha
    have h1 : Mem.wf s1.st.mem = true := ha
    simp [TransWf, h1]
  · exact ha

theorem takeException_wf (s : State) (slot : Fin 8) (e : Entry) (h : Mem.wf s.st.mem = true) : OutWf (takeException s slot e) := by
  have ha := (areaPlace_mem s slot s.slots[slot].psave true).wf h
  have hs := saveArea_wf s slot (s.slots[slot].uintOf s.slots[slot].areaUse) h
  unfold takeException
  dsimp only
  split
  · simp [h]
  · split
    · split <;> rename_i e <;> rw [e] at ha
      · trivial
      · exact killThread_wf _ _ ha
      · rename_i s1
        have h1 : Mem.wf s1.st.mem = true := ha
        simp only [outWf_next, enterVector_mem, State.onSlot_st]
        split <;> simp [h1]
    · split <;> rename_i e <;> rw [e] at hs
      · trivial
      · exact killThread_wf _ _ hs
      · exact hs

theorem takePrecise_wf (s : State) (slot : Fin 8) (cause : Word) (h : Mem.wf s.st.mem = true) : OutWf (takePrecise s slot cause) := by
  unfold takePrecise
  dsimp only
  split
  · simp [h]
  · exact takeException_wf _ _ _ (by simp [h])

theorem takeUser_wf (s : State) (slot : Fin 8) (next : Word) (marker : Bool) (h : Mem.wf s.st.mem = true) : OutWf (takeUser s slot next marker) := by
  have hs := saveArea_wf s slot none h
  unfold takeUser
  dsimp only
  split
  · exact h
  · split
    · exact h
    · split <;> rename_i e <;> rw [e] at hs
      · trivial
      · exact killThread_wf _ _ hs
      · exact hs

theorem takeEvent_wf (s : State) (slot : Fin 8) (h : Mem.wf s.st.mem = true) : OutWf (takeEvent s slot) := by
  unfold takeEvent
  extract_lets t
  split
  · exact h
  · split
    rename_i s1 _ _ _ _ _ _ _ _
    extract_lets s2 go
    have h1 : Mem.wf s1.st.mem = true := by
      simp only [s1]
      split <;> simp [h]
    have hgo (c : Word) (f : Thread → Thread) : OutWf (go c f) := takeException_wf _ _ _ h1
    split
    · split
      · exact h
      · exact hgo _ _
    · exact hgo _ _
    · exact hgo _ _
    · exact hgo _ _
    · exact takeUser_wf _ _ _ _ h1

theorem restoreArea_mem (s : State) (slot : Fin 8) : TransMem s.st.mem (restoreArea s slot) := by
  have ha := areaPlace_mem s slot s.slots[slot].psave false
  unfold restoreArea
  dsimp only
  split
  · rename_i s1 e
    rw [e] at ha
    have h1 : s1.st.mem = s.st.mem := ha
    split <;> simp [TransMem, h1]
  · exact ha

theorem returnFromException_wf (s : State) (slot : Fin 8) (h : Mem.wf s.st.mem = true) : OutWf (returnFromException s slot) := by
  have hr := (restoreArea_mem s slot).wf h
  unfold returnFromException
  dsimp only
  split <;> rename_i e <;> rw [e] at hr
  · trivial
  · exact killThread_wf _ _ hr
  · split <;> exact hr

theorem deliverToArea_wf (s : State) (slot : Fin 8) (area : Word) (vs : List PortVal) (h : Mem.wf s.st.mem = true) : OutWf (deliverToArea s slot area vs) := by
  have ha := (areaPlace_mem s slot area true).wf h
  unfold deliverToArea
  split <;> rename_i e <;> rw [e] at ha
  · trivial
  · exact killThread_wf _ _ ha
  · rename_i loc _ s1
    have h1 : Mem.wf s1.st.mem = true := ha
    refine foldl_wf (fun s v h => ?_) vs (by simp [h1])
    have hstore (s : State) (o : Nat) (d : List Byte) (hs : Mem.wf s.st.mem = true) :=
      areaStore_wf s slot (area + BitVec.ofNat 64 o) (loc + o) d hs
    extract_lets i s2
    have h2 : Mem.wf s2.st.mem = true := hstore s _ _ h
    clear_value s2
    split
    rename_i p n _
    extract_lets s3
    have h3 : Mem.wf s3.st.mem = true := hstore s2 _ _ h2
    clear_value s3
    split
    · split <;> exact h3
    · exact hstore s3 _ _ h3

theorem addUint_wf (s : State) (slot : Fin 8) (tag : Nat) (area : Option Word) (status seq : Word) (h : Mem.wf s.st.mem = true) :
    OutWf (addUint s slot tag area status seq) := by
  unfold addUint
  dsimp only
  split
  · exact h
  · rename_i a
    have ha := (areaPlace_mem s slot a true).wf h
    split
    · exact h
    · split <;> rename_i e <;> rw [e] at ha
      · trivial
      · exact killThread_wf _ _ ha
      · rename_i loc _ s1
        have h1 : Mem.wf s1.st.mem = true := ha
        have h2 : Mem.wf (coreRead s1 (loc + 16 * 61) 16).st.mem = true := by simp [h1]
        generalize coreRead s1 (loc + 16 * 61) 16 = s2 at h2 ⊢
        generalize natLE _ = k
        refine outWf_ite ?_ ?_
        · exact areaStore_wf s2 _ _ _ _ h2
        · exact h

@[simp] theorem toBank_mem (s : State) (r : Req) : (toBank s r).st.mem = s.st.mem := rfl

@[simp] theorem sendWrite_mem (s : State) (o : Op) (own : Bool) (loc : Nat) (va : Word) (kind : ReqKind) (counted : Bool) (n : Nat) :
    (sendWrite s o own loc va kind counted n).st.mem = s.st.mem := by
  unfold sendWrite
  simp only []
  split <;> simp

@[simp] theorem sendRead_mem (s : State) (own : Bool) (loc : Nat) (va : Word) (kind : ReqKind) : (sendRead s own loc va kind).st.mem = s.st.mem := by
  unfold sendRead
  simp only []
  repeat' split
  all_goals simp

@[simp] theorem sendOther_mem (s : State) (o : Op) (target : Word) (kind : ReqKind) (counted : Bool) (reach : Reach) (rel : Option Release) (waits : List Nat) :
    (sendOther s o target kind counted reach rel waits).st.mem = s.st.mem := rfl

@[simp] theorem popStream_mem (s : State) (n : Fin 8) : (popStream s n).2.st.mem = s.st.mem := by
  unfold popStream
  simp only []
  split <;> simp

@[simp] theorem pushStream_mem (s : State) (n : Fin 8) (v : Quad) : (pushStream s n v).st.mem = s.st.mem := by
  unfold pushStream
  dsimp only
  split
  · split
    · rename_i e
      have hm := translate_ok_mem e
      split <;> simp [hm]
    · rfl
  · rfl

@[simp] theorem readSource_mem (s : State) (x : Source) : (readSource s x).2.st.mem = s.st.mem := by
  cases x with
  | str i => exact popStream_mem s i
  | _ => rfl

@[simp] theorem writeDest_mem (s : State) (d : Dest) (v : Quad) : (writeDest s d v).st.mem = s.st.mem := by
  cases d with
  | str i => exact pushStream_mem s i v
  | _ => rfl

/-- The state that a word's verdict carries, if it carries one, has canonical memory. -/
def VerdictWf : Verdict → Prop
  | .done s => Mem.wf s.st.mem = true
  | .jump s _ => Mem.wf s.st.mem = true
  | .marked s => Mem.wf s.st.mem = true
  | .raise s _ => Mem.wf s.st.mem = true
  | .trap s _ => Mem.wf s.st.mem = true
  | .hold _ _ _ => True
  | .walk _ => True
  | .stop _ => True

@[simp] theorem verdictWf_done (s : State) : VerdictWf (.done s) ↔ Mem.wf s.st.mem = true := .rfl

@[simp] theorem verdictWf_jump (s : State) (pc : Word) : VerdictWf (.jump s pc) ↔ Mem.wf s.st.mem = true := .rfl

@[simp] theorem verdictWf_marked (s : State) : VerdictWf (.marked s) ↔ Mem.wf s.st.mem = true := .rfl

@[simp] theorem verdictWf_raise (s : State) (c : Word) : VerdictWf (.raise s c) ↔ Mem.wf s.st.mem = true := .rfl

@[simp] theorem verdictWf_trap (s : State) (c : Word) : VerdictWf (.trap s c) ↔ Mem.wf s.st.mem = true := .rfl

@[simp] theorem verdictWf_hold (a b : Option (Fin 8)) (w : Turn) : VerdictWf (.hold a b w) := trivial

@[simp] theorem verdictWf_walk (va : Nat) : VerdictWf (.walk va) := trivial

@[simp] theorem verdictWf_stop (f : Fault) : VerdictWf (.stop f) := trivial

/-- An operation's run keeps memory canonical. -/
def PlanWf (p : Plan) : Prop := ∀ s v, Mem.wf s.st.mem = true → VerdictWf (p.run s v)

theorem capture_wf (s : State) (sw : Bool) (g : Guard) (x : Source) (p : Plan) (h : Mem.wf s.st.mem = true) : VerdictWf (capture s sw g x p) := by
  unfold capture
  dsimp only
  split <;> exact h

theorem unpop_wf (s : State) {v : Verdict} (h : VerdictWf v) : VerdictWf (unpop s v) := by cases v <;> exact h

theorem winnow_wf {s : State} (c : Option Op) {v : Verdict} (hs : Mem.wf s.st.mem = true) (h : VerdictWf v) : VerdictWf (winnow s c v) := by
  unfold winnow
  split
  · split
    · exact h
    · split
      · exact h
      · exact hs
  · exact h

theorem body_wf (x : Source) {p : Plan} (hp : PlanWf p) {s : State} (h : Mem.wf s.st.mem = true) (t : Thread) : VerdictWf (verdict.body x p s t) := by
  unfold verdict.body
  split
  · trivial
  · split
    · exact h
    · split
      · trivial
      · split
        · exact h
        · split
          · trivial
          · split
            · trivial
            · exact unpop_wf s (winnow_wf p.check h (hp _ _ (by simp [h])))

theorem verdict_wf (sw : Bool) (g : Guard) (x : Source) {p : Plan} (hp : PlanWf p) {s : State} (h : Mem.wf s.st.mem = true) :
    VerdictWf (verdict sw g x p s) := by
  have hb := body_wf x hp h s.thr
  unfold verdict
  dsimp only
  split
  · exact capture_wf s sw g x p h
  · repeat' split
    all_goals first | exact h | exact hb

@[simp] theorem finish_mem (s0 s : State) (next : Word) (sw keep : Bool) : (finish s0 s next sw keep).st.mem = s.st.mem := by simp

theorem issue_wf (len : Nat) (sw : Bool) (g : Guard) (x : Source) {p : Plan} (hp : PlanWf p) {s : State} (h : Mem.wf s.st.mem = true) :
    OutWf (issue len sw g x p s) := by
  have hv := verdict_wf sw g x hp h
  have he := takeEvent_wf s s.cur h
  unfold issue
  dsimp only
  split
  · exact h
  · split <;> rename_i e <;> rw [e] at hv
    case h_1 => exact takePrecise_wf _ _ _ hv
    case h_2 => trivial
    case h_8 =>
      split
      · exact he
      · exact takeException_wf _ _ _ (by simpa using hv)
    all_goals
      split
      · exact he
      · first | exact h | simpa using hv

theorem transportPlan_wf (d : Dest) (x : Source) : PlanWf (transportPlan d x) := fun s v h => by simp [transportPlan, h]

theorem sendFixed_wf (s : State) (lat : Nat) (ports : List (RPort × Quad)) (h : Mem.wf s.st.mem = true) : VerdictWf (sendFixed s lat ports) := by
  unfold sendFixed
  dsimp only
  split
  · trivial
  · exact h

theorem valuePlan_wf (lat : Nat) (f : Thread → Quad → Word ⊕ List (RPort × Quad)) : PlanWf (valuePlan lat f) := by
  intro s v h
  unfold valuePlan
  dsimp only
  split
  · exact h
  · exact sendFixed_wf _ _ _ h

end Sys2Proof.Proofs.Canonical
end

section
/-! PROOF. Canonical memory, continued: the words of the scalar units, memory, synchronisation, the system, streams and tracks, and the steps of their units. -/

namespace Sys2Proof.Proofs.Canonical

open Sys2Proof Sys2Proof.Machine Sys2Proof.Safety Sys2Proof.Proofs.Translation

-- ## Arithmetic, predicates and control

theorem covered_wf {p : Plan} (h : PlanWf p) (o : Op) : PlanWf (p.covered o) := h

theorem aluPlan_wf (f : Word → Word → Word) : PlanWf (aluPlan f) := valuePlan_wf _ _

theorem mulPlan_wf (lat : Nat) (f : Word → Word → Word → Word × Word) : PlanWf (mulPlan lat f) := valuePlan_wf _ _

theorem prdPlan_wf (f : Bool → Bool → Bool) : PlanWf (prdPlan f) := by
  intro s v h
  unfold prdPlan
  dsimp only
  split <;> simp [h]

theorem ctlJmpPlan_wf : PlanWf ctlJmpPlan := by
  intro s v h
  unfold ctlJmpPlan
  dsimp only
  split <;> simp [h]

theorem ctlJrelPlan_wf : PlanWf ctlJrelPlan := fun s v h => by simp [ctlJrelPlan, h]

theorem ctlCallPlan_wf (len : Nat) : PlanWf (ctlCallPlan len) := by
  intro s v h
  unfold ctlCallPlan
  dsimp only
  split <;> simp [h]

theorem ctlRetPlan_wf : PlanWf ctlRetPlan := by
  intro s v h
  unfold ctlRetPlan
  dsimp only
  repeat' split
  all_goals simp [h]

theorem ctlTrapPlan_wf : PlanWf ctlTrapPlan := fun s v h => by simp [ctlTrapPlan, h]

theorem shapeWords_mem (s : State) (slot : Fin 8) (va : Word) (loc n : Nat) (acc : List Word) : (shapeWords s slot va loc n acc).2.st.mem = s.st.mem := by
  induction n generalizing s acc with
  | zero => rfl
  | succ n ih =>
    have hr := homeRead_mem s slot s.nextId (loc + 8 * (15 - n)) 8
    unfold shapeWords
    dsimp only
    split <;> rename_i e <;> rw [e] at hr
    · exact hr
    · exact (ih _ _).trans hr

theorem shapeRead_wf (s : State) (va : Word) {k : State → List Word → Verdict} (hk : ∀ s ws, Mem.wf s.st.mem = true → VerdictWf (k s ws))
    (h : Mem.wf s.st.mem = true) : VerdictWf (shapeRead s va k) := by
  have ht := (translate_mem s { s.thr.walker with user := false } { user := false, fetch := false, write := false, sync := false } va).wf h
  unfold shapeRead
  dsimp only
  split
  · exact hk _ _ h
  · split
    · trivial
    · split <;> rename_i e <;> rw [e] at ht
      · exact ht
      · trivial
      · rename_i loc _ s1
        have hw := shapeWords_mem s1 s1.cur va loc 16 []
        split
        · exact ht
        · split
          · trivial
          · split <;> rename_i e <;> rw [e] at hw
            · exact (congrArg Mem.wf hw).trans ht
            · exact hk _ _ ((congrArg Mem.wf hw).trans ht)

theorem idxTixPlan_wf : PlanWf idxTixPlan := by
  intro s v h
  unfold idxTixPlan
  dsimp only
  split
  · exact h
  · split
    · exact h
    · refine shapeRead_wf _ _ (fun s ws h => ?_) h
      split
      · exact h
      · exact sendFixed_wf _ _ _ h

theorem idxAdrPlan_wf : PlanWf idxAdrPlan := valuePlan_wf _ _

theorem idxBndPlan_wf : PlanWf idxBndPlan := valuePlan_wf _ _

-- ## Memory, synchronisation and system words

@[simp] theorem watchHit_mem (s : State) (va : Word) : (watchHit s va).st.mem = s.st.mem := by
  unfold watchHit
  split <;> simp

theorem access_wf (s : State) (n : Nat) (misaligned write sync : Bool) (va : Word) (more : State → Nat → Option Word) {k : State → Nat → Verdict} (lrw : Bool)
    (hk : ∀ s loc, Mem.wf s.st.mem = true → VerdictWf (k s loc)) (h : Mem.wf s.st.mem = true) : VerdictWf (access s n misaligned write sync va more k lrw) := by
  have ht := (translate_mem s s.thr.walker { user := !s.thr.sup, fetch := false, write, sync } va).wf h
  unfold access
  split
  · exact h
  · split
    · trivial
    · split <;> rename_i e <;> rw [e] at ht
      · exact ht
      · trivial
      · rename_i s1
        have h1 : Mem.wf s1.st.mem = true := ht
        repeat' split
        · exact h1
        · simp [h1]
        · exact hk _ _ h1

theorem loadPlan_wf (o : Op) (n : Nat) (ext : Bool) : PlanWf (loadPlan o n ext) := by
  intro s v h
  unfold loadPlan
  dsimp only
  refine access_wf s n _ false false _ _ false (fun s loc h => ?_) h
  repeat' split
  all_goals simp [h]

theorem waitLoadPlan_wf (o : Op) (kind : ReqKind) : PlanWf (waitLoadPlan o kind) := by
  intro s v h
  unfold waitLoadPlan
  dsimp only
  refine access_wf s 8 _ false true _ _ false (fun s loc h => ?_) h
  repeat' split
  all_goals simp [h]

theorem writePlan_wf (o : Op) (n : Nat) (sync ste : Bool) (kind : Thread → ReqKind) : PlanWf (writePlan o n sync ste kind) := by
  intro s v h
  unfold writePlan
  dsimp only
  refine access_wf s n _ true sync _ _ false (fun s loc h => ?_) h
  split <;> simp [h]

theorem storePlan_wf (o : Op) (n : Nat) (full : Bool) : PlanWf (storePlan o n full) := writePlan_wf _ _ _ _ _

theorem amoPlan_wf (o : Op) (k : AmoKind) : PlanWf (amoPlan o k) := by
  intro s v h
  unfold amoPlan
  dsimp only
  refine access_wf s 8 _ true false _ _ false (fun s loc h => ?_) h
  split <;> simp [h]

theorem amoLrwPlan_wf : PlanWf amoLrwPlan := by
  intro s v h
  unfold amoLrwPlan
  dsimp only
  refine access_wf s 8 _ true false _ _ true (fun s loc h => ?_) h
  split <;> simp [h]

theorem amoScrPlan_wf : PlanWf amoScrPlan := by
  intro s v h
  unfold amoScrPlan
  dsimp only
  split
  · exact h
  · refine access_wf s 8 _ true false _ _ false (fun s loc h => ?_) h
    split <;> simp [h]

theorem synCheck_wf (s : State) (v : Quad) {k : Scope → Verdict} (hk : ∀ sc, VerdictWf (k sc)) (h : Mem.wf s.st.mem = true) : VerdictWf (synCheck s v k) := by
  unfold synCheck
  dsimp only
  split
  · exact h
  · exact hk _

theorem synFencePlan_wf : PlanWf synFencePlan := by
  intro s v h
  unfold synFencePlan
  dsimp only
  refine synCheck_wf s v (fun sc => ?_) h
  split <;> simp [h]

@[simp] theorem acquire_mem (s : State) (slot : Fin 8) (sc : Scope) : (acquire s slot sc).st.mem = s.st.mem := rfl

theorem synAcqPlan_wf : PlanWf synAcqPlan := by
  intro s v h
  unfold synAcqPlan
  dsimp only
  refine synCheck_wf s v (fun sc => ?_) h
  split <;> simp [h]

theorem synRelPlan_wf : PlanWf synRelPlan := by
  intro s v h
  unfold synRelPlan
  dsimp only
  exact synCheck_wf s v (fun sc => by simp [h]) h

@[simp] theorem putGroup_mem (s : State) (g : Group) : (putGroup s g).st.mem = s.st.mem := rfl

@[simp] theorem netWrite_wf (s : State) (loc v : Nat) (h : Mem.wf s.st.mem = true) : Mem.wf (netWrite s loc v).st.mem = true :=
  service_wf _ _ (performFree_wf _ _ _ h)

@[simp] theorem writeBarrier_wf (s : State) (g : Group) (h : Mem.wf s.st.mem = true) : Mem.wf (writeBarrier s g).st.mem = true := by
  refine foldl_wf (fun s c h => ?_) _ h
  split <;> simp [h]

theorem synArrivePlan_wf : PlanWf synArrivePlan := by
  intro s v h
  unfold synArrivePlan
  dsimp only
  repeat' split
  all_goals simp [h]

@[simp] theorem deliverWait_mem (s : State) (g : Group) (slot : Fin 8) (tag gen : Nat) : (deliverWait s g slot tag gen).st.mem = s.st.mem := rfl

theorem synWaitPlan_wf : PlanWf synWaitPlan := by
  intro s v h
  unfold synWaitPlan
  dsimp only
  repeat' split
  all_goals simp [h]

@[simp] theorem applyMask_wf (s : State) (g : Group) (rect : BitVec 40) (mask : Byte) (h : Mem.wf s.st.mem = true) :
    Mem.wf (applyMask s g rect mask).st.mem = true := by simp [applyMask, h]

theorem synMaskPlan_wf : PlanWf synMaskPlan := by
  intro s v h
  unfold synMaskPlan
  dsimp -zeta only
  extract_lets a k x0 x1 rect mask die inDie
  split
  · exact h
  · rename_i g0 src s0 g _
    have h0 : Mem.wf s0.st.mem = true := by simp only [s0]; split <;> exact h
    split <;> simp [h0]

theorem execBarrierNetworkArrival_wf (grp : GroupKey) (thread : Arriving) (s : State) (h : Mem.wf s.st.mem = true) :
    OutWf (execBarrierNetworkArrival grp thread s) := by
  unfold execBarrierNetworkArrival
  dsimp only
  split
  · exact h
  · split
    · exact h
    · split
      · split
        · exact h
        · split <;> simp [h]
      · split <;> simp [h]

@[simp] theorem strandAway_wf (s : State) (grp : GroupKey) (gen : Nat) (h : Mem.wf s.st.mem = true) : Mem.wf (strandAway s grp gen).st.mem = true := by
  unfold strandAway
  dsimp only
  refine foldl_wf (fun s img h => ?_) _ h
  refine foldl_wf (fun s r h => ?_) _ h
  split <;> simp [h]

theorem execGenerationClose_wf (grp : GroupKey) (s : State) (h : Mem.wf s.st.mem = true) : OutWf (execGenerationClose grp s) := by
  unfold execGenerationClose
  split
  · exact h
  · split
    · exact h
    · extract_lets g1 s1 bound stranded s2 s3 s4 s5
      have h3 : Mem.wf s3.st.mem = true := foldl_wf (fun s r h => refuseLrw_wf s r 1 h) _ (strandAway_wf s2 grp _ h)
      have h4 : Mem.wf s4.st.mem = true := resvRetry_wf _ _ h3
      have h5 : Mem.wf s5.st.mem = true := by simp only [s5]; split <;> simp [h4]
      exact (congrArg Mem.wf (foldl_mem (fun s w => deliverWait_mem s g1 _ _ _) _ s5)).trans h5

@[simp] theorem engineWrite_wf (s : State) (src loc word : Nat) (full : Bool) (known : List (Nat × Nat)) (rel : Option Release) (mark : BitVec 2)
    (h : Mem.wf s.st.mem = true) : Mem.wf (engineWrite s src loc word full known rel mark).st.mem = true := by
  unfold engineWrite
  extract_lets p src s1 s2
  have h1 : Mem.wf s1.st.mem = true := performFree_wf { s.bump with wrote := true } p _ h
  have h2 : Mem.wf s2.st.mem = true := by simp only [s2]; split <;> simp [h1]
  split <;> simp [h2]

@[simp] theorem engineCheck_mem (s : State) : (engineCheck s).st.mem = s.st.mem := by
  unfold engineCheck
  split
  · rfl
  · exact foldl_mem (fun s _ => mcLog_mem s _) _ _

@[simp] theorem absorb_mem (s : State) (slot : Fin 8) (tags : List Nat) : (absorb s slot tags).st.mem = s.st.mem := rfl

@[simp] theorem winScrub_mem (s : State) (off n : Nat) : (winScrub s off n).st.mem = s.st.mem := by simp [winScrub, foldl_mem]

@[simp] theorem winGains_mem (s : State) (slot : Fin 8) (tag off n : Nat) : (winGains s slot tag off n).st.mem = s.st.mem :=
  foldl_mem (fun s _ => gains_mem s slot tag _ _) _ s

theorem verdictWf_ite {c : Prop} {_ : Decidable c} {a b : Verdict} (ha : VerdictWf a) (hb : VerdictWf b) : VerdictWf (if c then a else b) := by
  split
  · exact ha
  · exact hb

theorem sysCrrPlan_wf : PlanWf sysCrrPlan := by
  intro s v h
  unfold sysCrrPlan
  dsimp only
  split
  · exact h
  · exact sendFixed_wf _ _ _ h

theorem sysCrwPlan_wf : PlanWf sysCrwPlan := by
  intro s v h
  unfold sysCrwPlan
  dsimp only
  split <;> simp [h]

theorem verdictOf_wf {o : Out} {s : State} (ho : OutWf o) (h : Mem.wf s.st.mem = true) : VerdictWf (verdictOf o s) := by
  cases o with
  | next s1 => exact ho
  | fault f => trivial
  | refused r => exact h

theorem sysEretPlan_wf : PlanWf sysEretPlan := by
  intro s v h
  unfold sysEretPlan
  dsimp only
  split
  · exact h
  · split
    · exact h
    · exact verdictOf_wf (returnFromException_wf s s.cur h) h

theorem sysTlbiPlan_wf : PlanWf sysTlbiPlan := by
  intro s v h
  unfold sysTlbiPlan
  dsimp only
  repeat' split
  all_goals simp [h]

@[simp] theorem shoot_mem (s : State) (self : Nat) (e : Tlbi) : (shoot s self e).st.mem = s.st.mem := by
  unfold shoot
  split <;> simp

@[simp] theorem uncount_mem (s : State) (slot : Fin 8) (tag : Nat) : (uncount s slot tag).st.mem = s.st.mem := rfl

theorem execTlbiAcknowledge_wf (by_ : Shootdown) (s : State) (h : Mem.wf s.st.mem = true) : OutWf (execTlbiAcknowledge by_ s) := by
  unfold execTlbiAcknowledge
  repeat' split
  all_goals simp [h]

theorem sysMwaitPlan_wf : PlanWf sysMwaitPlan := by
  intro s v h
  have ht := (translate_mem s s.thr.walker { user := !s.thr.sup, fetch := false, write := false, sync := false } (low64 v)).wf h
  unfold sysMwaitPlan
  dsimp only
  split
  · exact h
  · split
    · exact h
    · split
      · trivial
      · split <;> rename_i e <;> rw [e] at ht
        · exact ht
        · trivial
        · rename_i s1
          have h1 : Mem.wf s1.st.mem = true := ht
          generalize BitVec.ofNat 64 (read64 _ _) = w
          exact verdictWf_ite (by simp [h1]) (by simp [h1])

theorem sysHaltPlan_wf : PlanWf sysHaltPlan := by
  intro s v h
  unfold sysHaltPlan
  dsimp only
  repeat' split
  all_goals simp [h]

-- ## Streams, tracks and copies

theorem strBindPlan_wf : PlanWf strBindPlan := by
  intro s v h
  unfold strBindPlan
  dsimp -zeta only
  extract_lets b t n st p c x wide store size counts strides base
  refine verdictWf_ite h (verdictWf_ite ?queue ?pattern)
  case queue => exact verdictWf_ite h (verdictWf_ite h (verdictWf_ite h h))
  case pattern =>
    refine verdictWf_ite h (verdictWf_ite h (verdictWf_ite h (verdictWf_ite h (verdictWf_ite h (verdictWf_ite ?_ h)))))
    trivial

theorem strFreePlan_wf : PlanWf strFreePlan := by
  intro s v h
  unfold strFreePlan
  dsimp only
  repeat' split
  all_goals simp [h]

theorem execPatternElementRead_wf (n : Fin 8) (s : State) (h : Mem.wf s.st.mem = true) : OutWf (execPatternElementRead n s) := by
  unfold execPatternElementRead
  extract_lets st
  split
  case h_2 => exact h
  case h_1 o user wide base counts strides next popped ctx _ =>
    split
    · exact h
    · extract_lets va size cid w push
      have hpush (s : State) (e : StrEntry) (hs : Mem.wf s.st.mem = true) : OutWf (push s e) := hs
      have ht := (translate_mem s w { user, fetch := false, write := false, sync := false } va).wf h
      split <;> rename_i e <;> rw [e] at ht
      · trivial
      · exact hpush _ _ ht
      · rename_i loc _ s1
        have h1 : Mem.wf s1.st.mem = true := ht
        split
        · exact hpush _ _ h1
        · split
          · exact h
          · have hm : Mem.wf (threadRead (if isBank loc then s1 else lineRead s1 (dieOf s1.coreId) (lineOf loc)) o (some (dieOf s1.coreId))
                s1.nextId loc size).2.st.mem = true := by
              rw [threadRead_mem]
              split <;> simp [h1]
            exact hpush _ _ hm

theorem execPatternElementWrite_wf (n : Fin 8) (s : State) (h : Mem.wf s.st.mem = true) : OutWf (execPatternElementWrite n s) := by
  unfold execPatternElementWrite
  dsimp only
  repeat' split
  all_goals simp [h]

@[simp] theorem setTrack_mem (s : State) (n : Fin 32) (k : Track) : (s.setTrack n k).st.mem = s.st.mem := rfl

theorem trackPlan_wf (step free : Bool) (valueOk : Word → Bool) (head : Thread → Word → Nat → Int) {effect : State → Fin 32 → Track → Word → Nat → State}
    (he : ∀ s n k v p, (effect s n k v p).st.mem = s.st.mem) : PlanWf (trackPlan step free valueOk head effect) := by
  intro s v h
  unfold trackPlan
  dsimp only
  repeat' split
  all_goals simp [h, he]

theorem trkClaimPlan_wf : PlanWf trkClaimPlan := by
  intro s v h
  unfold trkClaimPlan
  dsimp only
  repeat' split
  all_goals simp [h]

theorem trkFreePlan_wf : PlanWf trkFreePlan := trackPlan_wf _ _ _ _ (fun _ _ _ _ _ => rfl)

theorem trkSeekPlan_wf : PlanWf trkSeekPlan := trackPlan_wf _ _ _ _ (fun _ _ _ _ _ => rfl)

theorem trkStepPlan_wf : PlanWf trkStepPlan := trackPlan_wf _ _ _ _ (fun _ _ _ _ _ => rfl)

theorem trkRdsPlan_wf : PlanWf trkRdsPlan := trackPlan_wf _ _ _ _ (fun _ _ _ _ _ => rfl)

theorem trkWrsPlan_wf : PlanWf trkWrsPlan := trackPlan_wf _ _ _ _ (fun _ _ _ _ _ => rfl)

theorem trkRwdPlan_wf : PlanWf trkRwdPlan := trackPlan_wf _ _ _ _ (fun _ _ _ _ _ => rfl)

theorem trkHeadPlan_wf : PlanWf trkHeadPlan := trackPlan_wf _ _ _ _ (fun _ _ _ _ _ => rfl)

@[simp] theorem trackEvent_mem (s : State) (n : Fin 32) (pos cls src : Nat) : (trackEvent s n pos cls src).st.mem = s.st.mem := rfl

@[simp] theorem countRealigned_mem (s : State) (d : Nat) : (countRealigned s d).st.mem = s.st.mem := rfl

@[simp] theorem lostResult_mem (s : State) (n : Fin 32) (slot : Fin 8) (tag : Nat) (port : RPort) : (lostResult s n slot tag port).st.mem = s.st.mem := rfl

@[simp] theorem discardTrk_mem (s : State) (n : Fin 32) (c : TrkCmd) : (discardTrk s n c).st.mem = s.st.mem := by
  unfold discardTrk
  split <;> simp

@[simp] theorem poisonTrack_mem (s : State) (n : Fin 32) (pos : Nat) : (poisonTrack s n pos).st.mem = s.st.mem := by simp [poisonTrack, foldl_mem]

@[simp] theorem portAccess_mem (s : State) (n : Fin 32) (p : Nat) {k : State → Track → State} (hk : ∀ s t, (k s t).st.mem = s.st.mem) :
    (portAccess s n p k).st.mem = s.st.mem := by
  unfold portAccess
  dsimp only
  split
  · rw [hk]
    split <;> simp
  · simp

@[simp] theorem readCell_mem (s : State) (n : Fin 32) (k : Track) (p : Nat) : (readCell s n k p).2.2.st.mem = s.st.mem := by
  unfold readCell
  dsimp only
  repeat' split
  all_goals simp

theorem execTrackCommandPerform_wf (n : Fin 32) (s : State) (h : Mem.wf s.st.mem = true) : OutWf (execTrackCommandPerform n s) := by
  unfold execTrackCommandPerform
  extract_lets k
  split
  · exact h
  · split
    · exact h
    · exact h
    · rw [outWf_next, portAccess_mem s n _ (fun s t => by simp)]
      exact h
    · rw [outWf_next, portAccess_mem s n _ (fun s t => by simp)]
      exact h
    · split
      · exact h
      · split <;> simp [h]
    · exact h
    · exact h

@[simp] theorem trackClear_mem (n : Fin 32) (found : Bool) (s : State) : (trackClear n found s).st.mem = s.st.mem := by
  unfold trackClear
  dsimp only
  repeat' split
  all_goals simp

theorem execTrackClear_wf (n : Fin 32) (found : Bool) (s : State) (h : Mem.wf s.st.mem = true) : OutWf (execTrackClear n found s) := by
  unfold execTrackClear
  split <;> simp [h]

@[simp] theorem takeSide_mem (s : State) (c : Word) (tag half : Nat) (v : Word) : (takeSide s c tag half v).st.mem = s.st.mem := by
  unfold takeSide
  dsimp only
  split <;> rfl

theorem cpyGoPlan_wf : PlanWf cpyGoPlan := by
  intro s v h
  unfold cpyGoPlan
  dsimp only
  repeat' split
  all_goals simp [h]

@[simp] theorem putCopy_mem (s : State) (c : Copy) : (putCopy s c).st.mem = s.st.mem := rfl

theorem execCopyStart_wf (i : Nat) (s : State) (h : Mem.wf s.st.mem = true) : OutWf (execCopyStart i s) := by
  unfold execCopyStart
  repeat' split
  all_goals simp [h]

theorem copyPlace_mem (s : State) (c : Copy) (write : Bool) (va : Word) : TransMem s.st.mem (copyPlace s c write va) := by
  have ht := translate_mem s (c.walker s) { user := !c.sup, fetch := false, write, sync := false } va
  unfold copyPlace
  split
  · rename_i e
    rw [e] at ht
    split <;> exact ht
  · exact ht

theorem copyTrack_mem (s : State) (c : Copy) (n : Fin 32) (p : Nat) {k : State → Track → State × (Quad ⊕ Word)} (hk : ∀ s t, (k s t).1.st.mem = s.st.mem) :
    (copyTrack s c n p k).1.st.mem = s.st.mem := by
  unfold copyTrack
  dsimp only
  split
  · rfl
  · split
    · rw [hk]
      split <;> simp
    · simp

@[simp] theorem copyWord_mem (s : State) (c : Copy) (loc : Nat) : (copyWord s c loc).2.2.st.mem = s.st.mem := by
  unfold copyWord
  dsimp only
  split <;> split <;> simp

/-- The state that a step of a copy comes to, if it does not fault, has canonical memory. -/
def RunWf {α : Type} : (State × α) ⊕ Fault → Prop
  | .inl r => Mem.wf r.1.st.mem = true
  | .inr _ => True

theorem RunWf.of_track {s : State} {r : State × (Quad ⊕ Word)} {f : Quad → Nat} (hr : r.1.st.mem = s.st.mem) (h : Mem.wf s.st.mem = true) :
    RunWf (match r with
      | (s1, .inl d) => (.inl (s1, .inl (f d)) : (State × (Nat ⊕ Word)) ⊕ Fault)
      | (s1, .inr e) => .inl (s1, .inr e)) := by
  obtain ⟨s1, d | e⟩ := r <;> exact (congrArg Mem.wf hr).trans h

theorem copyRead_wf (s : State) (c : Copy) (k : Nat) (h : Mem.wf s.st.mem = true) : RunWf (copyRead s c k) := by
  unfold copyRead
  extract_lets v n p va
  split
  case isTrue =>
    split
    · exact h
    · refine RunWf.of_track (f := fun d => d.toNat / 2 ^ (64 * (k % 2)) % 2 ^ 64) (copyTrack_mem s c n p (fun s t => ?_)) h
      simp
  case isFalse =>
    have hp := (copyPlace_mem s c false va).wf h
    split <;> rename_i e <;> rw [e] at hp
    · trivial
    · exact hp
    · rename_i loc _ s1
      have hw : (copyWord s1 c loc).2.2.st.mem = s1.st.mem := copyWord_mem s1 c loc
      split
      rename_i e
      rw [e] at hw
      split <;> exact (congrArg Mem.wf hw).trans hp

theorem copyPut_wf (s : State) (c : Copy) (va : Word) (v : Nat) (h : Mem.wf s.st.mem = true) : RunWf (copyPut s c va v) := by
  have hp := (copyPlace_mem s c true va).wf h
  unfold copyPut
  split <;> rename_i e <;> rw [e] at hp
  · trivial
  · exact hp
  · exact engineWrite_wf _ _ _ _ _ _ _ _ hp

theorem copyPutPos_mem (s : State) (c : Copy) (k lo : Nat) (hi : Option Nat) : (copyPutPos s c k lo hi).1.st.mem = s.st.mem := by
  unfold copyPutPos
  dsimp only
  split
  · simp
  · have ht := copyTrack_mem s c (selTrack c.xs[(1 : Fin 4)]) (sideStart c c.xs[(1 : Fin 4)] + k / 2)
      (k := fun s1 t1 => (s1.setTrack (selTrack c.xs[(1 : Fin 4)]) (t1.write ((sideStart c c.xs[(1 : Fin 4)] + k / 2 : Nat) + t1.slip).toNat
        (BitVec.ofNat 128 (lo + hi.getD ((t1.cell ((sideStart c c.xs[(1 : Fin 4)] + k / 2 : Nat) + t1.slip).toNat).toNat / 2 ^ 64) * 2 ^ 64))), .inl 0))
      (fun s t => setTrack_mem s _ _)
    split <;> rename_i e <;> rw [e] at ht <;> exact ht

theorem copyUnit_wf (s : State) (c : Copy) (h : Mem.wf s.st.mem = true) : RunWf (copyUnit s c) := by
  have hr := copyRead_wf s c c.done h
  unfold copyUnit
  split
  · exact h
  · split <;> rename_i e <;> rw [e] at hr
    · trivial
    · exact hr
    · rename_i s1 v
      have h1 : Mem.wf s1.st.mem = true := hr
      split
      · exact h1
      · split
        case isTrue =>
          have hr2 := copyRead_wf s1 c (c.done + 1) h1
          split <;> rename_i e <;> rw [e] at hr2
          · trivial
          · rename_i s2 v2
            have hm := copyPutPos_mem s2 c c.done v (some v2)
            split <;> rename_i e <;> rw [e] at hm <;> exact (congrArg Mem.wf hm).trans hr2
          · rename_i s2 _
            have hm := copyPutPos_mem s2 c c.done v none
            split <;> rename_i e <;> rw [e] at hm <;> exact (congrArg Mem.wf hm).trans hr2
        case isFalse =>
          have hp := copyPut_wf s1 c (sideVa c.xs[(1 : Fin 4)] c.xs[(2 : Fin 4)] (stride c.xs[(3 : Fin 4)] true) c.done) v h1
          split <;> rename_i e <;> rw [e] at hp
          · trivial
          · exact hp
          · exact hp

theorem copyRun_wf (s : State) (c : Copy) (n : Nat) (h : Mem.wf s.st.mem = true) : RunWf (copyRun s c n) := by
  induction n generalizing s c with
  | zero => exact h
  | succ n ih =>
    have hu := copyUnit_wf s c h
    unfold copyRun
    split <;> rename_i e <;> rw [e] at hu
    · exact ih _ _ hu
    · trivial

theorem digestOut_wf (s : State) (c : Copy) (n : Nat) (h : Mem.wf s.st.mem = true) : RunWf (digestOut s c n) := by
  induction n with
  | zero => exact h
  | succ n ih =>
    unfold digestOut
    split <;> rename_i e <;> rw [e] at ih
    · trivial
    · rename_i s1 c1
      have h1 : Mem.wf s1.st.mem = true := ih
      split
      · exact h1
      · have hp := copyPut_wf s1 c1 (c1.xs[(1 : Fin 4)] + BitVec.ofNat 64 (8 * n)) (c1.sum / 2 ^ (64 * n) % 2 ^ 64) h1
        split <;> rename_i e <;> rw [e] at hp
        · trivial
        · exact hp
        · exact hp

theorem execCopyChunk_wf (i : Nat) (s : State) (h : Mem.wf s.st.mem = true) : OutWf (execCopyChunk i s) := by
  unfold execCopyChunk
  split
  · exact h
  · rename_i c _
    have hr := copyRun_wf (engineCheck s) c (if ctlDtrk c.ctl then 32 else 64) (by simp [h])
    split
    · exact h
    · split <;> rename_i e <;> rw [e] at hr
      · trivial
      · exact hr

theorem copyNotice_wf (s : State) (c : Copy) (h : Mem.wf s.st.mem = true) : OutWf (copyNotice s c) := by
  unfold copyNotice
  dsimp only
  split
  · exact h
  · exact addUint_wf _ _ _ _ _ _ h
  · split
    · exact outWf_ite h h
    · exact h

@[simp] theorem dropCopy_mem (s : State) (c : Copy) : (dropCopy s c).st.mem = s.st.mem := foldl_mem (fun s n => setTrack_mem s n _) _ s

@[simp] theorem copyUncount_mem (s : State) (c : Copy) : (copyUncount s c).st.mem = s.st.mem := by
  unfold copyUncount
  split <;> rfl

theorem execCopyComplete_wf (i : Nat) (s : State) (h : Mem.wf s.st.mem = true) : OutWf (execCopyComplete i s) := by
  unfold execCopyComplete
  split
  · exact h
  · rename_i c _
    have hd := digestOut_wf (engineCheck s) c 4 (by simp [h])
    split
    · exact h
    · split
      · split <;> rename_i e <;> rw [e] at hd
        · trivial
        · exact hd
      · split
        · exact h
        · exact copyNotice_wf _ _ (by simp [h])

-- ## Messages

theorem msgSendPlan_wf : PlanWf msgSendPlan := by
  intro s v h
  unfold msgSendPlan
  dsimp only
  repeat' split
  all_goals simp [h]

@[simp] theorem spillWord_wf (s : State) (loc v : Nat) (h : Mem.wf s.st.mem = true) : Mem.wf (spillWord s loc v).st.mem = true := by simp [spillWord, h]

@[simp] theorem spillWrite_wf (s : State) (i : Nat) (m : Message) (h : Mem.wf s.st.mem = true) : Mem.wf (spillWrite s i m).st.mem = true :=
  spillWord_wf _ _ _ (spillWord_wf _ _ _ (spillWord_wf _ _ _ (spillWord_wf _ _ _ h)))

@[simp] theorem spillTake_wf (s : State) (i : Nat) (h : Mem.wf s.st.mem = true) : Mem.wf (spillTake s i).st.mem = true := by simp [spillTake, h]

@[simp] theorem refill_wf (s : State) (mbox : Nat) (h : Mem.wf s.st.mem = true) : Mem.wf (refill s mbox).st.mem = true := by
  unfold refill
  repeat' split
  all_goals simp [h]

@[simp] theorem takeMessage_wf (s : State) (m : Message) (h : Mem.wf s.st.mem = true) : Mem.wf (takeMessage s m).st.mem = true := by
  unfold takeMessage
  repeat' split
  all_goals simp [h]

@[simp] theorem giveMessage_mem (s : State) (slot : Fin 8) (tag : Nat) (id : Word) (data : Quad) (rel : Option Release) :
    (giveMessage s slot tag id data rel).st.mem = s.st.mem := rfl

@[simp] theorem receive_wf (s : State) (ident : Option Word) (mask : BitVec 16) (h : Mem.wf s.st.mem = true) : VerdictWf (receive s ident mask) := by
  unfold receive
  dsimp only
  repeat' split
  all_goals simp [h]

theorem msgRecvPlan_wf : PlanWf msgRecvPlan := by
  intro s v h
  unfold msgRecvPlan
  dsimp only
  split <;> simp [h]

theorem msgAnyPlan_wf : PlanWf msgAnyPlan := by
  intro s v h
  unfold msgAnyPlan
  dsimp only
  split <;> simp [h]

@[simp] theorem arrivalInterrupt_mem (s : State) (mbox : Nat) : (arrivalInterrupt s mbox).st.mem = s.st.mem := rfl

theorem placeMessage_wf (s : State) (id : Word) (data : Quad) (rel : Option Release) (h : Mem.wf s.st.mem = true) :
    (∀ t ∈ (placeMessage s id data rel).1, Mem.wf t.st.mem = true) ∧ Mem.wf (placeMessage s id data rel).2.st.mem = true := by
  unfold placeMessage
  dsimp only
  repeat' split
  all_goals simp [h]

theorem execMessageArrive_wf (core : Nat) (id : Word) (data : Posted) (s : State) (h : Mem.wf s.st.mem = true) : OutWf (execMessageArrive core id data s) := by
  unfold execMessageArrive
  split
  · rename_i r _
    extract_lets gone acked phys s1
    have hgone (s : State) (h : Mem.wf s.st.mem = true) : Mem.wf (gone s).st.mem = true := h
    have hacked (s : State) (h : Mem.wf s.st.mem = true) : Mem.wf (acked s).st.mem = true := by
      simp only [acked]
      split <;> simp [h]
    clear_value gone acked
    split
    · split <;> simp [hgone s h]
    · split
      · obtain ⟨hp, hq⟩ := placeMessage_wf s id data.data (r.rel.map (fun x => { x with scope := coreScope s.home })) h
        split <;> rename_i e <;> rw [e] at hp hq
        · exact hacked _ (hgone _ (hp _ rfl))
        · exact hq
      · exact hacked _ (hgone _ h)
  · split
    · obtain ⟨hp, hq⟩ := placeMessage_wf s id data.data (some (foreignRel s id data)) h
      split <;> rename_i e <;> rw [e] at hp hq
      · exact hp _ rfl
      · exact hq
    · exact h

-- ## The tile network

@[simp] theorem writeWords_wf (s : State) (src core off : Nat) (known : List (Nat × Nat)) (rel : Release) (ws : List (Nat × BitVec 2))
    (h : Mem.wf s.st.mem = true) : Mem.wf (writeWords s src core off known rel ws).st.mem = true := by
  induction ws generalizing s off with
  | nil => exact h
  | cons w ws ih => exact ih _ _ (engineWrite_wf _ _ _ _ _ _ _ _ h)

@[simp] theorem settled_mem (s : State) (i : Interest) : (settled s i).st.mem = s.st.mem := by
  unfold settled
  dsimp only
  split <;> simp

@[simp] theorem deliver_wf (s : State) (nm : TileName) (core dest num : Nat) (r : Tile ⊕ Bool) (h : Mem.wf s.st.mem = true) :
    Mem.wf (deliver s nm core dest num r).st.mem = true := by
  unfold deliver
  extract_lets n write
  have hw : Mem.wf (write s).st.mem = true := by
    simp only [write]
    split <;> exact writeWords_wf _ _ _ _ _ _ _ h
  split
  · split
    · simpa using hw
    · exact h
  · exact hw

@[simp] theorem answerFace_wf (s : State) (k : Nat) (nm : TileName) (r : Tile ⊕ Bool) (f : Face) (h : Mem.wf s.st.mem = true) :
    Mem.wf (answerFace s k nm r f).st.mem = true := by
  unfold answerFace
  dsimp only
  split <;> simp [h]

@[simp] theorem settleEntry_wf (s : State) (k : Nat) (nm : TileName) (r : Tile ⊕ Bool) (keep : Face → Bool) (h : Mem.wf s.st.mem = true) :
    Mem.wf (settleEntry s k nm r keep).st.mem = true := by
  unfold settleEntry
  dsimp only
  split
  · exact h
  · exact foldl_wf (fun s f h => answerFace_wf s k nm r f h) _ h

@[simp] theorem settleWhere_wf (s : State) (sel : Nat → TileName → Bool) (keep : Face → Bool) (withdrawn : Bool) (h : Mem.wf s.st.mem = true) :
    Mem.wf (settleWhere s sel keep withdrawn).st.mem = true := foldl_wf (fun s _ h => settleEntry_wf s _ _ _ keep h) _ h

theorem backWrite_wf (s : State) (w : Walker) (src va : Nat) (rel : Release) (bad : Option Word) (ws : List (Nat × BitVec 2)) (h : Mem.wf s.st.mem = true) :
    RunWf (backWrite s w src va rel bad ws) := by
  induction ws generalizing s va bad with
  | nil => exact h
  | cons x ws ih =>
    have ht := (translate_mem s w { user := false, fetch := false, write := true, sync := false } (BitVec.ofNat 64 va)).wf h
    unfold backWrite
    split <;> rename_i e <;> rw [e] at ht
    · exact ih _ _ _ (engineWrite_wf _ _ _ _ _ _ _ _ ht)
    · exact ih _ _ _ ht
    · trivial

theorem backRead_wf (s : State) (w : Walker) (va n : Nat) (h : Mem.wf s.st.mem = true) : RunWf (backRead s w va n) := by
  induction n generalizing s va with
  | zero => exact h
  | succ n ih =>
    have ht := (translate_mem s w { user := false, fetch := false, write := false, sync := false } (BitVec.ofNat 64 va)).wf h
    unfold backRead
    split <;> rename_i e <;> rw [e] at ht
    · trivial
    · exact ht
    · rename_i loc _ s0
      have h0 : Mem.wf s0.st.mem = true := ht
      extract_lets s1
      have h1 : Mem.wf s1.st.mem = true := by
        simp only [s1]
        split <;> simp [h0]
      have hr := ih s1 (va + 8) h1
      split
      · rename_i e
        rw [e] at hr
        exact hr
      · exact hr

theorem headerValid_wf (s : State) (k : Nat) (t : Tensor) (nm : TileName) (h : Mem.wf s.st.mem = true) : RunWf (headerValid s k t nm) := by
  have hr := backRead_wf s (backWalker s k nm.cid t) (t.headVa nm.iter.toNat nm.tile.toNat) 1 h
  unfold headerValid
  split <;> rename_i e <;> rw [e] at hr
  · trivial
  · exact hr
  · exact hr

theorem backTile_wf (s : State) (k : Nat) (t : Tensor) (nm : TileName) (h : Mem.wf s.st.mem = true) : RunWf (backTile s k t nm) := by
  have hr := backRead_wf s (backWalker s k nm.cid t) (t.dataVa nm.iter.toNat nm.tile.toNat) (t.size / 8) h
  unfold backTile
  split <;> rename_i e <;> rw [e] at hr
  · trivial
  · exact hr
  · exact hr

@[simp] theorem cribRead_mem (s : State) (k : Nat) (nm : TileName) : (cribRead s k nm).2.st.mem = s.st.mem := by
  unfold cribRead
  dsimp only
  split <;> simp

theorem homeInterest_wf (s : State) (k : Nat) (t : Tensor) (nm : TileName) (f : Face) (h : Mem.wf s.st.mem = true) : OutWf (homeInterest s k t nm f) := by
  have hh := headerValid_wf s k t nm h
  unfold homeInterest
  extract_lets wait
  have hwait (s : State) (h : Mem.wf s.st.mem = true) : OutWf (wait s) := by
    simp only [wait]
    split <;> simp [h]
  split <;> rename_i e <;> rw [e] at hh
  · trivial
  · exact hwait _ hh
  · rename_i s1
    have ht := backTile_wf s1 k t nm hh
    split <;> rename_i e <;> rw [e] at ht
    · trivial
    · exact answerFace_wf _ _ _ _ _ ht
    · exact hwait _ ht

theorem taking_wf (k : Nat) (p : Packet) {s : State} {f : State → Out} (hf : ∀ s, Mem.wf s.st.mem = true → OutWf (f s)) (h : Mem.wf s.st.mem = true) :
    OutWf (taking k p s f) := by
  unfold taking
  split
  · exact hf _ (by simp [h])
  · exact h

theorem execInterestArrive_wf (k : Nat) (nm : TileName) (face : Face) (s0 : State) (h : Mem.wf s0.st.mem = true) : OutWf (execInterestArrive k nm face s0) := by
  refine taking_wf _ _ (fun s1 h1 => ?_) h
  have hc := (congrArg Mem.wf (cribRead_mem s1 k nm)).trans h1
  dsimp only
  split
  · exact h1
  · split <;> rename_i e <;> rw [e] at hc
    · exact answerFace_wf _ _ _ _ _ hc
    · split
      · exact hc
      · split
        · exact homeInterest_wf _ _ _ _ _ hc
        · simpa using hc

theorem execTileArrive_wf (k : Nat) (nm : TileName) (t : Tile) (s0 : State) (h : Mem.wf s0.st.mem = true) : OutWf (execTileArrive k nm t s0) := by
  refine taking_wf _ _ (fun s h => ?_) h
  dsimp only
  split
  · exact h
  · split
    · exact h
    · exact settleEntry_wf _ _ _ _ _ h

@[simp] theorem ackGive_mem (s : State) (b : Giver) : (ackGive s b).st.mem = s.st.mem := by
  unfold ackGive
  split <;> simp

@[simp] theorem giveFault_mem (s : State) (b : Giver) (cause : Word) : (giveFault s b cause).st.mem = s.st.mem := by
  unfold giveFault
  split <;> simp

theorem execGiveArrive_wf (k : Nat) (nm : TileName) (t : Tile) (by_ : Giver) (s0 : State) (h : Mem.wf s0.st.mem = true) :
    OutWf (execGiveArrive k nm t by_ s0) := by
  refine taking_wf _ _ (fun s h => ?_) h
  split
  · exact h
  · rename_i tr _
    have hh := headerValid_wf s k tr nm h
    split
    · simp [h]
    · split <;> rename_i e <;> rw [e] at hh
      · trivial
      · rw [outWf_next, ackGive_mem]
        exact hh
      · rename_i s1
        extract_lets _ w src g
        have hw := backWrite_wf s1.bump w src (tr.dataVa nm.iter.toNat nm.tile.toNat) g none (tileWords t (tr.size / 8)) hh
        split <;> rename_i e <;> rw [e] at hw
        · trivial
        · rename_i s2 bad
          have hv := backWrite_wf s2 w src (tr.headVa nm.iter.toNat nm.tile.toNat) g bad [(2 ^ 16 + nm.iter.toNat, 0#2)] hw
          split <;> rename_i e <;> rw [e] at hv
          · trivial
          · rename_i s3 bad
            have h3 : Mem.wf s3.st.mem = true := hv
            have h4 : Mem.wf (match bad with | some c => giveFault s3 by_ c | none => s3).st.mem = true := by
              split <;> simp [h3]
            rw [outWf_next, ackGive_mem]
            exact settleEntry_wf _ _ _ _ _ h4

theorem execRetireNoticeArrive_wf (cid : Fin 64) (tensor : BitVec 24) (iter : BitVec 16) (producer : Nat) (s : State) (h : Mem.wf s.st.mem = true) :
    OutWf (execRetireNoticeArrive cid tensor iter producer s) := by
  unfold execRetireNoticeArrive
  split
  · exact h
  · dsimp only
    refine outWf_ite h ?_
    rw [outWf_next]
    split <;> exact h

theorem execIterationClose_wf (k : Nat) (cid : Fin 64) (tensor : BitVec 24) (iter : BitVec 16) (s : State) (h : Mem.wf s.st.mem = true) :
    OutWf (execIterationClose k cid tensor iter s) := by
  unfold execIterationClose
  repeat' split
  all_goals simp [h]

theorem execSettleEmptyNotice_wf (k : Nat) (nm : TileName) (withdrawn : Bool) (s0 : State) (h : Mem.wf s0.st.mem = true) :
    OutWf (execSettleEmptyNotice k nm withdrawn s0) := taking_wf _ _ (fun _ h => settleEntry_wf _ _ _ _ _ h) h

theorem execInterestWithdrawal_wf (k : Nat) (nm : TileName) (face : Face) (s0 : State) (h : Mem.wf s0.st.mem = true) :
    OutWf (execInterestWithdrawal k nm face s0) := taking_wf _ _ (fun s h => by simp [h]) h

@[simp] theorem peerWithdrawn_wf (s : State) (port : Fin 16) (cid : Fin 64) (h : Mem.wf s.st.mem = true) :
    Mem.wf (peerWithdrawn s port cid).st.mem = true := by simp [peerWithdrawn, h]

theorem execPeerWithdrawalNotice_wf (port : Fin 16) (cid : Fin 64) (s : State) (h : Mem.wf s.st.mem = true) :
    OutWf (execPeerWithdrawalNotice port cid s) := taking_wf _ _ (fun _ h => peerWithdrawn_wf _ _ _ h) h

theorem execCardTaskPush_wf (id : Fin 32) (s : State) (h : Mem.wf s.st.mem = true) : OutWf (execCardTaskPush id s) := by
  unfold execCardTaskPush
  repeat' split
  all_goals simp [h]

theorem ndCheck_wf (dMask : Word) (kind1 produce : Bool) {s : State} (v : Word) {k : Tensor → TileName → Verdict} (hk : ∀ r nm, VerdictWf (k r nm))
    (h : Mem.wf s.st.mem = true) : VerdictWf (ndCheck dMask kind1 produce s v k) := by
  unfold ndCheck
  dsimp only
  refine verdictWf_ite h ?_
  split
  · exact h
  · split
    · exact h
    · exact verdictWf_ite h (hk _ _)

@[simp] theorem takeInterest_mem (s : State) (nm : TileName) (dest : Nat) (card : Option (Fin 32)) (tag : Nat) :
    (takeInterest s nm dest card tag).st.mem = s.st.mem := rfl

theorem ndWantPlan_wf : PlanWf ndWantPlan := by
  intro s v h
  unfold ndWantPlan
  dsimp only
  refine ndCheck_wf _ _ _ _ (fun r nm => ?_) h
  split
  · trivial
  · exact h

theorem ndGivePlan_wf : PlanWf ndGivePlan := by
  intro s v h
  unfold ndGivePlan
  dsimp only
  refine ndCheck_wf _ _ _ _ (fun r nm => ?_) h
  refine verdictWf_ite trivial ?_
  simp [h]

theorem ndDropPlan_wf : PlanWf ndDropPlan := by
  intro s v h
  unfold ndDropPlan
  dsimp only
  split
  · exact ndCheck_wf _ _ _ _ (fun r nm => h) h
  · refine ndCheck_wf _ _ _ _ (fun r nm => ?_) h
    split <;> simp [h]

theorem ndCardPlan_wf : PlanWf ndCardPlan := by
  intro s0 v h0
  unfold ndCardPlan
  dsimp -zeta only
  extract_lets w off s t held used ws b ctl n names id tag task s1 s2 s3
  have h : Mem.wf s.st.mem = true := by simp [s, h0]
  have h1 : Mem.wf s1.st.mem = true := (congrArg Mem.wf (foldl_mem (fun s k => winGains_mem s _ _ _ _) used s)).trans h
  have h3 : Mem.wf s3.st.mem = true := (congrArg Mem.wf (foldl_mem (fun s k => takeInterest_mem s _ _ _ _) _ s2)).trans h1
  clear_value s3 used names ctl
  split
  · exact h0
  · refine verdictWf_ite trivial (verdictWf_ite h ?_)
    split
    · exact h
    · exact verdictWf_ite trivial h3

-- ## Tasks

theorem tskPushPlan_wf : PlanWf tskPushPlan := by
  intro s0 v h0
  unfold tskPushPlan
  dsimp -zeta only
  extract_lets w s t off ws b
  have h : Mem.wf s.st.mem = true := by simp [s, h0]
  have h1 : Mem.wf (winGains s s.cur s.nextId off 64).st.mem = true := by simp [h]
  refine verdictWf_ite h0 ?_
  split
  · exact h0
  · generalize cardWord b 3 = z
    generalize List.find? _ (List.range 8) = o
    refine verdictWf_ite trivial (verdictWf_ite h ?_)
    cases o with
    | some k => exact h
    | none => exact verdictWf_ite trivial h1

theorem tskPopPlan_wf : PlanWf tskPopPlan := by
  intro s v h
  unfold tskPopPlan
  dsimp only
  repeat' split
  all_goals simp [h]

theorem tskParkPlan_wf : PlanWf tskParkPlan := by
  intro s v h
  unfold tskParkPlan
  dsimp only
  split <;> simp [h]

theorem tskYieldPlan_wf : PlanWf tskYieldPlan := by
  intro s v h
  unfold tskYieldPlan
  dsimp only
  split <;> simp [h]

theorem execTaskBegin_wf (slot : Fin 8) (s : State) (h : Mem.wf s.st.mem = true) : OutWf (execTaskBegin slot s) := by
  unfold execTaskBegin
  dsimp only
  repeat' split
  all_goals simp [h]

theorem execTaskDispatch_wf (s : State) (h : Mem.wf s.st.mem = true) : OutWf (execTaskDispatch s) := by
  unfold execTaskDispatch
  repeat' split
  all_goals simp [h]

@[simp] theorem arriveAll_wf (s : State) (slot : Fin 8) (h : Mem.wf s.st.mem = true) : Mem.wf (arriveAll s slot).st.mem = true := by
  unfold arriveAll
  refine foldl_wf (fun s g h => ?_) _ h
  exact writeBarrier_wf _ _ h

@[simp] theorem discardFaults_mem (s : State) (slot : Fin 8) : (discardFaults s slot).st.mem = s.st.mem := by
  have hf (e : McEvent) := foldl_mem (f := fun s (_ : Nat × Word) => s.mcLog e) (fun s _ => mcLog_mem s e) s.slots[slot].faults s
  unfold discardFaults
  dsimp only
  split <;> exact hf _

theorem execThreadEnd_wf (slot : Fin 8) (s : State) (h : Mem.wf s.st.mem = true) : OutWf (execThreadEnd slot s) := by
  unfold execThreadEnd
  extract_lets t late s1 b
  have h1 : Mem.wf s1.st.mem = true := by
    simp only [s1]
    split <;> simp [h]
  split
  · exact h
  · exact h1

end Sys2Proof.Proofs.Canonical
end

section
/-! PROOF. Canonical memory, continued: deliveries and memory's steps, the vector and matrix units, launches, reliability and debug, and the host. -/

namespace Sys2Proof.Proofs.Canonical

open Sys2Proof Sys2Proof.Machine Sys2Proof.Safety Sys2Proof.Proofs.Translation

-- ## Results, paths and ordering points

theorem execFixedResultDelivery_wf (slot : Fin 8) (s : State) (h : Mem.wf s.st.mem = true) :
    OutWf (execFixedResultDelivery slot s) := by simp [execFixedResultDelivery, h]

@[simp] theorem l1Read_mem (s : State) (pa : Nat) : (l1Read s pa).st.mem = s.st.mem := by
  unfold l1Read
  repeat' split
  all_goals simp

@[simp] theorem owedDone_mem (s : State) (slot : Fin 8) (o : Owed) : (owedDone s slot o).st.mem = s.st.mem := by
  unfold owedDone
  split <;> simp

theorem placeResult_wf (s : State) (slot : Fin 8) (o : Owed) (vs : List PortVal) (h : Mem.wf s.st.mem = true) : OutWf (placeResult s slot o vs) := by
  unfold placeResult
  extract_lets t
  split
  · exact h
  · rename_i a _
    split
    · exact deliverToArea_wf _ _ _ _ h
    · have ha := (areaPlace_mem s slot a true).wf h
      split
      · rename_i e
        rw [e] at ha
        exact deliverToArea_wf _ _ _ _ ((congrArg Mem.wf (coreRead_mem _ _ _)).trans ha)
      · exact deliverToArea_wf _ _ _ _ h

@[simp] theorem returnRead_mem (s : State) (slot : Fin 8) (o : Owed) (r : ReadSpec) : (returnRead s slot o r).2.st.mem = s.st.mem := by
  simp [returnRead]

theorem execFencedResultDelivery_wf (slot : Fin 8) (s : State) (h : Mem.wf s.st.mem = true) : OutWf (execFencedResultDelivery slot s) := by
  unfold execFencedResultDelivery
  split
  · exact h
  · rename_i o _
    split
    · exact placeResult_wf _ _ _ _ (by simp [h])
    · rename_i r _ _
      have hr : (owedDone (returnRead s slot o r).2 slot o).st.mem = s.st.mem := by rw [owedDone_mem, returnRead_mem]
      exact placeResult_wf _ _ _ _ ((congrArg Mem.wf hr).trans h)
    · exact h

theorem execStreamWordHoldRelease_wf (slot : Fin 8) (s : State) (h : Mem.wf s.st.mem = true) : OutWf (execStreamWordHoldRelease slot s) := by
  unfold execStreamWordHoldRelease
  repeat' split
  all_goals simp [h]

theorem execSwitchMarkerRelease_wf (slot : Fin 8) (s : State) (h : Mem.wf s.st.mem = true) : OutWf (execSwitchMarkerRelease slot s) := by
  unfold execSwitchMarkerRelease
  dsimp only
  split <;> simp [h]

theorem execTlbMissWalk_wf (slot : Fin 8) (va : Word) (s : State) (h : Mem.wf s.st.mem = true) : OutWf (execTlbMissWalk slot va s) := by
  unfold execTlbMissWalk
  dsimp only
  split
  · rename_i m _ _
    have hw := walkNow_mem s (missWalker s slot m.va) m.va
    split
    · exact h
    · split <;> rename_i e <;> rw [e] at hw
      · trivial
      · exact (congrArg Mem.wf hw).trans h
  · exact h

@[simp] theorem departed_mem (s : State) (r : Req) : (departed s r).st.mem = s.st.mem := by
  unfold departed
  repeat' split
  all_goals simp

theorem execPostedStoreDepart_wf (slot : Fin 8) (i : Nat) (s : State) (h : Mem.wf s.st.mem = true) : OutWf (execPostedStoreDepart slot i s) := by
  unfold execPostedStoreDepart
  dsimp only
  repeat' split
  all_goals simp [h]

@[simp] theorem reach_wf (s : State) (r : Req) (h : Mem.wf s.st.mem = true) : Mem.wf (reach s r).st.mem = true := by
  unfold reach
  repeat' split
  all_goals simp [h]

theorem arrival_mem {s s1 : State} {a : Arrival} {q : Req} (e : arrival s a = some (q, s1)) : s1.st.mem = s.st.mem := by
  unfold arrival at e
  split at e
  · split at e
    · split at e
      · cases e
        rfl
      · cases e
    · cases e
  · split at e
    · obtain ⟨k, _, hk⟩ := Option.map_eq_some_iff.1 e
      cases hk
      rfl
    · cases e

theorem execRequestArrive_wf (r : Arrival) (s : State) (h : Mem.wf s.st.mem = true) : OutWf (execRequestArrive r s) := by
  unfold execRequestArrive
  split
  · rename_i e
    have h1 := (congrArg Mem.wf (arrival_mem e)).trans h
    split
    · exact h1
    · exact reach_wf _ _ h1
  · rename_i e
    exact reach_wf _ _ ((congrArg Mem.wf (arrival_mem e)).trans h)
  · split
    · split
      · exact (congrArg Mem.wf (monitorPut_mem _ _)).trans h
      · exact h
    · exact h
    · exact h
  · exact h

theorem execLrwRequestArrive_wf (r : Arrival) (s : State) (h : Mem.wf s.st.mem = true) : OutWf (execLrwRequestArrive r s) := by
  unfold execLrwRequestArrive
  split
  · rename_i e
    have h1 := (congrArg Mem.wf (arrival_mem e)).trans h
    split
    · split
      · exact reach_wf _ _ h1
      · exact performReq_wf _ _ h1
    · exact h
  · exact h

theorem execHomeSliceWrite_wf (i : Nat) (s : State) (h : Mem.wf s.st.mem = true) : OutWf (execHomeSliceWrite i s) := by
  unfold execHomeSliceWrite
  repeat' split
  all_goals simp [h]

theorem execBankRequestPerform_wf (i : Nat) (s : State) (h : Mem.wf s.st.mem = true) : OutWf (execBankRequestPerform i s) := by
  unfold execBankRequestPerform
  dsimp only
  repeat' split
  all_goals simp [h]

theorem execSharedCopyInvalidation_wf (die : Fin 16) (line : Nat) (s : State) (h : Mem.wf s.st.mem = true) :
    OutWf (execSharedCopyInvalidation die line s) := by simp [execSharedCopyInvalidation, h]

theorem execWriteAcknowledge_wf (i : Nat) (s : State) (h : Mem.wf s.st.mem = true) : OutWf (execWriteAcknowledge i s) := by
  unfold execWriteAcknowledge
  dsimp only
  repeat' split
  all_goals simp [h]

@[simp] theorem tierBad_mem (s : State) (pa : Nat) (bad : List (Fin 16)) : (tierBad s pa bad).st.mem = s.st.mem :=
  foldl_mem (fun s i => by simp) bad s

theorem execLineReadMiss_wf (die : Fin 16) (line : LineRead) (s : State) (h : Mem.wf s.st.mem = true) : OutWf (execLineReadMiss die line s) := by
  unfold execLineReadMiss
  dsimp only
  repeat' split
  all_goals simp [h]

theorem execImpreciseFaultArrival_wf (slot : Fin 8) (seq : Nat) (cause : Word) (s : State) (h : Mem.wf s.st.mem = true) :
    OutWf (execImpreciseFaultArrival slot seq cause s) := by
  unfold execImpreciseFaultArrival
  dsimp only
  split <;> simp [h]

theorem execTrapEntry_wf (slot : Fin 8) (s : State) (h : Mem.wf s.st.mem = true) : OutWf (execTrapEntry slot s) := by
  unfold execTrapEntry
  extract_lets t
  split
  · exact outWf_ite h (takeException_wf _ _ _ h)
  · split
    · exact h
    · exact outWf_ite (takeEvent_wf _ _ h) h
    · exact h

theorem execUserLevelEntry_wf (slot : Fin 8) (s : State) (h : Mem.wf s.st.mem = true) : OutWf (execUserLevelEntry slot s) := by
  unfold execUserLevelEntry
  extract_lets t
  split
  · exact outWf_ite h (takeUser_wf _ _ _ _ h)
  · split
    · exact outWf_ite (takeEvent_wf _ _ h) h
    · exact h

theorem execThreadKill_wf (slot : Fin 8) (s : State) (h : Mem.wf s.st.mem = true) : OutWf (execThreadKill slot s) := by
  unfold execThreadKill
  split <;> simp [h]

-- ## The floating point and vector units

theorem fpuPlan_wf (lat : Nat) (f : FFmt → Word → Nat → Nat → Nat → Nat × BitVec 6) : PlanWf (fpuPlan lat f) := by
  intro s v h
  unfold fpuPlan
  dsimp only
  exact verdictWf_ite h (verdictWf_ite trivial h)

theorem sfuPlan_wf (f : FVal → Nat) : PlanWf (sfuPlan f) := fun s _ h => sendFixed_wf s 3 _ h

theorem vecPlan_wf (lat : Nat) (o : Op) : PlanWf (vecPlan lat o) := by
  intro s v h
  unfold vecPlan
  dsimp only
  split
  · exact h
  · exact verdictWf_ite trivial h

theorem vecRecPlan_wf : PlanWf vecRecPlan := by
  intro s v h
  unfold vecRecPlan
  dsimp only
  exact verdictWf_ite h h

theorem vecRunPlan_wf : PlanWf vecRunPlan := by
  intro s v h
  unfold vecRunPlan
  dsimp only
  refine verdictWf_ite h ?_
  split
  · exact h
  · exact verdictWf_ite h (verdictWf_ite trivial h)

@[simp] theorem runPort_wf (s : State) (slot : Fin 8) (r : Run) (entry : Nat) (v : Quad) (h : Mem.wf s.st.mem = true) : OutWf (runPort s slot r entry v) := by
  unfold runPort
  split
  · exact h
  · rename_i a _
    have ha := (areaPlace_mem s slot a true).wf h
    split <;> rename_i e <;> rw [e] at ha
    · exact areaStore_wf _ _ _ _ _ ha
    · exact killThread_wf _ _ ha
    · trivial

@[simp] theorem runClamp_wf (s : State) (slot : Fin 8) (r : Run) (h : Mem.wf s.st.mem = true) : OutWf (runClamp s slot r) := by
  unfold runClamp
  split
  · exact h
  · rename_i a _
    have ha := (areaPlace_mem s slot a true).wf h
    split <;> rename_i e <;> rw [e] at ha
    · exact areaStore_wf _ _ _ _ _ ha
    · exact killThread_wf _ _ ha
    · trivial

theorem endRun_wf (s : State) (slot : Fin 8) (r : Run) (fault : Option Word) (h : Mem.wf s.st.mem = true) : OutWf (endRun s slot r fault) := by
  unfold endRun
  dsimp only
  split <;> simp [h]

@[simp] theorem replayWalk_mem (s : State) (d : Option Dest) : (replayWalk s d).st.mem = s.st.mem := by
  unfold replayWalk
  split <;> simp

theorem asSlot_wf {α : Type} {s : State} (slot : Fin 8) (sup : Bool) {f : State → α × State} (hf : ∀ s, Mem.wf s.st.mem = true → Mem.wf (f s).2.st.mem = true)
    (h : Mem.wf s.st.mem = true) : Mem.wf (asSlot s slot sup f).2.st.mem = true := hf _ h

theorem replayVec_wf (s : State) (fmt : Word) (o : Op) (v : Quad) (h : Mem.wf s.st.mem = true) : Mem.wf (replayVec s fmt o v).2.st.mem = true := by
  unfold replayVec
  extract_lets t
  split
  · exact h
  · rename_i r cl _
    have hw : VerdictWf (winnow s (some o) (.done (s.onThr (fun t => t.deliver { port := .vecO, val := r, mark := none })))) := winnow_wf (some o) h h
    split
    · rename_i e
      rw [e] at hw
      exact hw
    · rename_i e
      rw [e] at hw
      exact hw
    · exact h

theorem replay_wf (c : Captured) (fmt : Word) (s0 : State) (h : Mem.wf s0.st.mem = true) : Mem.wf (replay c fmt s0).2.st.mem = true := by
  unfold replay
  extract_lets src imm dst s pops pushes entry
  have hs : Mem.wf s.st.mem = true := (congrArg Mem.wf (replayWalk_mem s0 dst)).trans h
  clear_value entry pushes pops s dst imm
  split
  · exact hs
  · exact hs
  · split
    · exact hs
    · split
      rename_i v s1 e
      have h1 : Mem.wf s1.st.mem = true := by
        have hr := (congrArg Mem.wf (readSource_mem s src)).trans hs
        split at e
        · cases e
          exact hs
        · rw [e] at hr
          exact hr
      split
      · simpa using h1
      · rename_i o _ _
        have hv := replayVec_wf s1 fmt o v h1
        split
        · rename_i e
          rw [e] at hv
          exact hv
        · exact hv
      · exact hs

theorem execVecReplayTransport_wf (slot : Fin 8) (s : State) (h : Mem.wf s.st.mem = true) : OutWf (execVecReplayTransport slot s) := by
  unfold execVecReplayTransport
  extract_lets t
  split
  · exact h
  · rename_i r _
    split
    · exact h
    · rename_i c _
      have ha := asSlot_wf slot r.sup (replay_wf c r.fmt) h
      split
      · exact h
      · split <;> rename_i e <;> rw [e] at ha
        · exact ha
        · exact endRun_wf _ _ _ _ ha
        · dsimp only
          refine andThen_wf ?_ (fun s3 h3 => outWf_ite (endRun_wf _ _ _ _ h3) h3)
          split
          · exact runPort_wf _ _ _ _ _ ha
          · exact ha

-- ## The matrix unit

theorem mxPlan_wf (o : Op) (feat : State → Option Nat) (bad : State → Word → Option Word) : PlanWf (mxPlan o feat bad) := by
  intro s v h
  unfold mxPlan
  dsimp only
  split
  · exact h
  · exact verdictWf_ite trivial h

@[simp] theorem mxSettle_mem (s : State) (slot : Fin 8) : (mxSettle s slot).st.mem = s.st.mem := rfl

theorem mxWaitPlan_wf : PlanWf mxWaitPlan := by
  intro s v h
  unfold mxWaitPlan
  dsimp only
  exact verdictWf_ite h (by simp [h])

@[simp] theorem mxLeave_mem (s : State) (c : MxCmd) (f : MxBatch → MxBatch) : (mxLeave s c f).st.mem = s.st.mem := rfl

@[simp] theorem mxComplete_mem (s : State) (c : MxCmd) : (mxComplete s c).st.mem = s.st.mem := rfl

@[simp] theorem mxFail_mem (s : State) (c : MxCmd) (cause : Word) : (mxFail s c cause).st.mem = s.st.mem := by
  unfold mxFail
  dsimp only
  rw [mxSettle_mem, State.onSlot_st, foldl_mem (fun s x => mxLeave_mem s x _), mxLeave_mem]

@[simp] theorem mxReads_mem (s : State) (c : MxCmd) (l : List (Nat × Nat)) : (mxReads s c l).st.mem = s.st.mem := by simp [mxReads, foldl_mem]

@[simp] theorem mxWork_mem (s0 : State) (c : MxCmd) (run : Bool) : (mxWork s0 c run).st.mem = s0.st.mem := by
  unfold mxWork
  extract_lets s x1 bank m
  have hs : s.st.mem = s0.st.mem := mxReads_mem s0 c _
  clear_value s
  split
  · simpa using hs
  · split
    · simpa using hs
    · extract_lets counted s2
      split
      · simpa using hs
      · split
        · exact hs
        · exact (mxComplete_mem _ _).trans hs

@[simp] theorem mxStoreStep_wf (s : State) (c : MxCmd) (h : Mem.wf s.st.mem = true) : Mem.wf (mxStoreStep s c).st.mem = true := by
  unfold mxStoreStep
  split
  extract_lets total s1 c1
  have h1 : Mem.wf s1.st.mem = true := by
    simp only [s1]
    exact engineWrite_wf _ _ _ _ _ _ _ _ h
  clear_value s1
  split
  · rw [mxComplete_mem]
    split <;> exact h1
  · exact h1

@[simp] theorem mxDrain_mem (s0 : State) (c : MxCmd) : (mxDrain s0 c).st.mem = s0.st.mem := by
  unfold mxDrain
  dsimp only
  split <;> simp

@[simp] theorem mxMerge_mem (s : State) (c : MxCmd) : (mxMerge s c).st.mem = s.st.mem := by
  unfold mxMerge
  dsimp only
  split <;> simp

@[simp] theorem mxPerform_wf (s : State) (c : MxCmd) (h : Mem.wf s.st.mem = true) : Mem.wf (mxPerform s c).st.mem = true := by
  unfold mxPerform
  split <;> simp [h]

@[simp] theorem mxChecked_wf (s0 : State) (c : MxCmd) (h : Mem.wf s0.st.mem = true) : Mem.wf (mxChecked s0 c).st.mem = true := by
  unfold mxChecked
  dsimp only
  repeat' split
  all_goals simp [h]

theorem execMxCommandPerform_wf (own : Bool) (s : State) (h : Mem.wf s.st.mem = true) : OutWf (execMxCommandPerform own s) := by
  unfold execMxCommandPerform
  repeat' split
  all_goals simp [h]

theorem execMxLatchHandoff_wf (d : Handoff) (s : State) (h : Mem.wf s.st.mem = true) : OutWf (execMxLatchHandoff d s) := by
  unfold execMxLatchHandoff
  split
  · exact outWf_ite h h
  · split
    · exact outWf_ite h (by simp [h])
    · exact h

-- ## Launches and swaps

/-- The state that a translation comes to, which is the state before it where it stops. -/
def translated (s : State) (w : Walker) (a : Acc) (va : Word) : State :=
  match Machine.translate s w a va with
  | .ok _ _ s1 => s1
  | .bad _ s1 => s1
  | .stop _ => s

theorem translated_mem (s : State) (w : Walker) (a : Acc) (va : Word) : (translated s w a va).st.mem = s.st.mem := by
  unfold translated
  split
  · exact translate_ok_mem ‹_›
  · exact translate_bad_mem ‹_›
  · rfl

/-- One page of `fwWalk`. -/
def fwPage (w : Walker) (va : Nat) (s : State) (k : Nat) : State :=
  match Machine.translate s w { user := false, fetch := false, write := false, sync := false } (BitVec.ofNat 64 ((va / 65536 + k) * 65536)) with
  | .ok _ _ s1 => s1
  | .bad _ s1 => s1
  | .stop _ => s

theorem fwPage_eq (w : Walker) (va : Nat) (s : State) (k : Nat) : fwPage w va s k =
    translated s w { user := false, fetch := false, write := false, sync := false } (BitVec.ofNat 64 ((va / 65536 + k) * 65536)) := rfl

theorem fwPage_mem (w : Walker) (va : Nat) (s : State) (k : Nat) : (fwPage w va s k).st.mem = s.st.mem := by
  rw [fwPage_eq]
  exact translated_mem _ _ _ _

theorem fwWalk_eq (s : State) (w : Walker) (va n : Nat) :
    fwWalk s w va n = if n = 0 then s else (List.range ((va + n - 1) / 65536 - va / 65536 + 1)).foldl (fwPage w va) s := rfl

@[simp] theorem fwWalk_mem (s : State) (w : Walker) (va n : Nat) : (fwWalk s w va n).st.mem = s.st.mem := by
  rw [fwWalk_eq]
  split
  · rfl
  · exact foldl_mem (fwPage_mem w va) _ s

@[simp] theorem fwTouch_mem (s : State) (w : Walker) (va n : Nat) : (fwTouch s w va n).st.mem = s.st.mem := by
  refine foldl_mem (fun s k => ?_) _ s
  split
  · exact (pointScrub_mem _ _ _).trans (translate_ok_mem ‹_›)
  · exact translate_bad_mem ‹_›
  · rfl

@[simp] theorem fwTouchAll_mem (s : State) (w : Walker) (l : List (Nat × Nat)) : (fwTouchAll s w l).st.mem = s.st.mem := by simp [fwTouchAll, foldl_mem]

@[simp] theorem launchReads_mem (s0 : State) (cid : Fin 64) (ctx : Word) (r : Vector Word 16) : (launchReads s0 cid ctx r).st.mem = s0.st.mem := by
  unfold launchReads
  extract_lets w n s1 s2 s3 s4 s5
  have h1 : s1.st.mem = s0.st.mem := by
    simp only [s1]
    split <;> simp
  have h2 : s2.st.mem = s0.st.mem := (fwTouch_mem _ _ _ _).trans h1
  have h3 : s3.st.mem = s0.st.mem := (foldl_mem (fun s x => fwWalk_mem s w _ _) _ s2).trans h2
  have h4 : s4.st.mem = s0.st.mem := (fwTouchAll_mem _ _ _).trans h3
  have h5 : s5.st.mem = s0.st.mem := (fwTouch_mem _ _ _ _).trans h4
  clear_value s1 s2 s3 s4 s5
  split
  · exact h1
  · split
    · exact h3
    · split
      · exact h4
      · exact (foldl_mem (fun s x => fwWalk_mem s w _ _) _ s5).trans h5

@[simp] theorem mapRels_mem (f : Nat → Nat) (g : Release → Release) (s : State) : (mapRels f g s).st.mem = s.st.mem := rfl

@[simp] theorem recordWord_wf (s : State) (loc v : Nat) (rel : List (Nat × Nat)) (h : Mem.wf s.st.mem = true) : Mem.wf (recordWord s loc v rel).st.mem = true :=
  engineWrite_wf _ _ _ _ _ _ _ _ h

@[simp] theorem writeRecord_wf (s0 : State) (cid : Fin 64) (ctx done : Word) (digest : Option Nat) (status : Nat)
    (rel : State → List Nat → List (Nat × Nat) := fun _ _ => []) (h : Mem.wf s0.st.mem = true) :
    Mem.wf (writeRecord s0 cid ctx done digest status rel).st.mem = true := by
  unfold writeRecord
  extract_lets s
  have hs : Mem.wf s.st.mem = true := (congrArg Mem.wf (fwWalk_mem _ _ _ _)).trans h
  split
  · exact h
  · split
    · refine recordWord_wf _ _ _ _ ?_
      split
      · exact foldl_wf (fun s p h => recordWord_wf s _ _ _ h) _ hs
      · exact hs
    · exact hs

@[simp] theorem clearTensors_wf (s0 : State) (cid : Fin 64) (h : Mem.wf s0.st.mem = true) : Mem.wf (clearTensors s0 cid).st.mem = true := by
  unfold clearTensors
  split <;> simp [h]

@[simp] theorem slotReads_mem (s : State) (w : Walker) (qu : Queue) : (slotReads s w qu).st.mem = s.st.mem := by simp [slotReads]

theorem execLaunchSlotTake_wf (cid q : Fin 64) (s0 : State) (h : Mem.wf s0.st.mem = true) : OutWf (execLaunchSlotTake cid q s0) := by
  unfold execLaunchSlotTake
  split
  · rename_i qu ctx _ _
    extract_lets w va s taken
    have hs : Mem.wf s.st.mem = true := (congrArg Mem.wf (slotReads_mem _ _ _)).trans h
    clear_value s
    split
    · exact h
    · split
      · exact h
      · split
        · extract_lets r s1 s2 fw s3 s4 kind
          have h1 : Mem.wf s1.st.mem = true := performFree_wf _ _ _ hs
          have h2 : Mem.wf s2.st.mem = true := engineWrite_wf _ _ _ _ _ _ _ _ (service_wf _ _ h1)
          have h4 : Mem.wf s4.st.mem = true := (congrArg Mem.wf (launchReads_mem _ _ _ _)).trans h2
          clear_value s1 s2 s3 s4 kind
          split
          · exact writeRecord_wf _ _ _ _ _ _ _ h4
          · split
            · exact clearTensors_wf _ _ h4
            · exact h4
        · exact hs
  · exact h

@[simp] theorem renewNeeds_mem (s : State) (launch : Nat) : (renewNeeds s launch).st.mem = s.st.mem := rfl

theorem foldl_store_wf {α : Type} {f : Store → α → Store} (h : ∀ st a, Mem.wf st.mem = true → Mem.wf (f st a).mem = true) (l : List α) {st : Store}
    (hs : Mem.wf st.mem = true) : Mem.wf (l.foldl f st).mem = true :=
  List.foldlRecOn (motive := fun st : Store => Mem.wf st.mem = true) l f hs (fun st hst a _ => h st a hst)

theorem initBytes_wf (st : Store) (loc : Nat) (b : List Byte) (h : Mem.wf st.mem = true) : Mem.wf (initBytes st loc b).mem = true := Mem.wf_write b loc h

theorem initItems_wf (st : Store) (ks : List Nat) (cores : Nat → Bool) (items : List (Nat × List Byte)) (h : Mem.wf st.mem = true) :
    Mem.wf (initItems st ks cores items).mem = true := by
  unfold initItems
  refine foldl_store_wf (fun st k h => ?_) ks h
  refine foldl_store_wf (fun st it h => ?_) items h
  refine foldl_store_wf (fun st i h => ?_) (List.range _) h
  dsimp only
  split
  · exact initBytes_wf _ _ _ h
  · exact h

theorem clearBanks_wf (st : Store) (cores : Nat → Bool) (h : Mem.wf st.mem = true) : Mem.wf (clearBanks st cores).mem = true := Mem.wf_filter _ h

@[simp] theorem initBarriers_wf (s : State) (n team : Nat) (l : Launch) (gs : List Group) (h : Mem.wf s.st.mem = true) :
    Mem.wf (initBarriers s n team l gs).st.mem = true := by
  refine foldl_wf (fun s g h => ?_) gs h
  refine foldl_wf (fun s c h => ?_) _ h
  split
  · exact initBytes_wf _ _ _ h
  · exact h

@[simp] theorem placeHere_wf (s : State) (n team x y : Nat) (l : Launch) (h : Mem.wf s.st.mem = true) :
    Mem.wf (placeHere s n team x y l).st.mem = true := by simp [placeHere, h]

theorem execPlacement_wf (launch team x y : Nat) (s : State) (h : Mem.wf s.st.mem = true) : OutWf (execPlacement launch team x y s) := by
  unfold execPlacement
  split
  · exact h
  · extract_lets here touched ks cores s1 l1 lim begun gs net fw s2 s3 s4 s5
    have h1 : Mem.wf s1.st.mem = true := initItems_wf _ _ _ _ (clearBanks_wf _ _ h)
    have h4 : Mem.wf s4.st.mem = true := (congrArg Mem.wf (foldl_mem leaveThread_mem _ s3)).trans h1
    have h5 : Mem.wf s5.st.mem = true := by
      simp only [s5]
      split
      · exact placeHere_wf _ _ _ _ _ _ h4
      · exact h4
    split
    · exact h
    · exact initBarriers_wf _ _ _ _ _ h5

@[simp] theorem digestReads_mem (s : State) (l : Launch) : (digestReads s l).st.mem = s.st.mem := by simp [digestReads]

@[simp] theorem vacate_wf (s0 : State) (h : Mem.wf s0.st.mem = true) : Mem.wf (vacate s0).st.mem = true := by
  unfold vacate
  extract_lets s
  have hs : Mem.wf s.st.mem = true := by
    simp only [s]
    refine foldl_wf (fun s n h => ?_) _ h
    split
    · simpa using h
    · exact h
  clear_value s
  exact dropWaiting_wf _ _ hs

@[simp] theorem endLaunch_wf (s : State) (n : Nat) (st : Byte) (h : Mem.wf s.st.mem = true) : Mem.wf (endLaunch s n st).st.mem = true := by
  unfold endLaunch
  split
  · exact h
  · extract_lets here raise bound asks ended s0 s1
    have hv : Mem.wf (if here then vacate s else s).st.mem = true := by
      split
      · exact vacate_wf s h
      · exact h
    have hd : Mem.wf (dropWaiting (if here then vacate s else s) ended).st.mem = true := dropWaiting_wf _ _ hv
    have h0 : Mem.wf s0.st.mem = true := hd
    clear_value s0
    have h1 : Mem.wf (resvRetry s0 s0.st.resvWait.length).st.mem = true := resvRetry_wf s0 _ h0
    exact (congrArg Mem.wf (mapRels_mem raise (Release.mapSrc raise) (resvRetry s0 s0.st.resvWait.length))).trans h1

theorem execLaunchCompletion_wf (launch : Nat) (s : State) (h : Mem.wf s.st.mem = true) : OutWf (execLaunchCompletion launch s) := by
  unfold execLaunchCompletion
  split
  · exact h
  · extract_lets here s1 s2 s3
    have h1 : Mem.wf s1.st.mem = true := by
      simp only [s1]
      split
      · refine foldl_wf (fun s i h => ?_) _ h
        split <;> exact h
      · exact h
    have h3 : Mem.wf s3.st.mem = true := writeRecord_wf _ _ _ _ _ _ _ ((congrArg Mem.wf (digestReads_mem _ _)).trans h1)
    split
    · exact h
    · exact endLaunch_wf _ _ _ h3

theorem execQuantumExpiry_wf (slot : Fin 8) (s : State) (h : Mem.wf s.st.mem = true) : OutWf (execQuantumExpiry slot s) := by
  unfold execQuantumExpiry
  dsimp only
  repeat' split
  all_goals simp [h]

@[simp] theorem saveFrom_mem (s : State) (n : Fin 32) (p : Nat) (got : List (Nat × Quad)) (bad : List (Nat × Bool)) (m : Nat) :
    (saveFrom s n p got bad m).st.mem = s.st.mem := by
  induction m generalizing s p got bad with
  | zero => rfl
  | succ m ih =>
    unfold saveFrom
    extract_lets k s1 k1 a d
    have h1 : s1.st.mem = s.st.mem := portAccess_mem s n p (fun s t => readCell_mem s n t p)
    split
    · exact h1
    · exact (ih _ _ _ _).trans h1

@[simp] theorem saveTrack_mem (s0 : State) (n : Fin 32) : (saveTrack s0 n).st.mem = s0.st.mem := by
  unfold saveTrack
  extract_lets s k
  split
  · rfl
  · exact saveFrom_mem _ _ _ _ _ _

@[simp] theorem saveBanks_mem (gone : Nat → Bool) (s : State) : (saveBanks gone s).st.mem = s.st.mem := by simp [saveBanks, foldl_mem]

theorem execTeamSwapOut_wf (s0 : State) (h : Mem.wf s0.st.mem = true) : OutWf (execTeamSwapOut s0) := by
  unfold execTeamSwapOut
  split
  · exact h
  · split
    · exact h
    · extract_lets fw corner exile raise woken gone s img away s1 s2
      have hw : woken.st.mem = s0.st.mem := by
        simp only [woken]
        exact foldl_mem (f := fun s i => wakeSlot s i 3) (fun s i => wakeSlot_mem s i 3) (List.finRange 8) s0
      have hs : Mem.wf s.st.mem = true := by
        have hm : s.st.mem = woken.st.mem := by
          simp [s, foldl_mem]
        rw [hm, hw]
        exact h
      clear_value s woken
      have hd : Mem.wf (s.core.interests.foldl dropInterest s).st.mem = true :=
        (congrArg Mem.wf (foldl_mem dropInterest_mem s.core.interests s)).trans hs
      have h1 : Mem.wf s1.st.mem = true := by
        simp only [s1, State.onSt_st]
        exact dropWaiting_wf _ _ hd
      clear_value s1
      have h2 : Mem.wf s2.st.mem = true := by
        simp only [s2]
        exact vacate_wf s1 h1
      clear_value s2
      split
      · exact h
      · split
        · exact h
        · exact h2

@[simp] theorem reenter_wf (s : State) (r : Req) (h : Mem.wf s.st.mem = true) : Mem.wf (reenter s r).st.mem = true := by simp [reenter, h]

@[simp] theorem resettle_wf (m : Move) (s : State) (x : Settled) (h : Mem.wf s.st.mem = true) : Mem.wf (resettle m s x).st.mem = true := by
  unfold resettle
  split <;> simp [h]

@[simp] theorem rewait_mem (s : State) (w : GroupKey × Fin 8 × Nat × Nat) : (rewait s w).st.mem = s.st.mem := by
  unfold rewait
  repeat' split
  all_goals simp

@[simp] theorem reinterest_mem (s : State) (i : Interest) : (reinterest s i).st.mem = s.st.mem := rfl

@[simp] theorem rewriteBarriers_wf (s : State) (img : Image) (l : Launch) (x y : Nat) (h : Mem.wf s.st.mem = true) :
    Mem.wf (rewriteBarriers s img l x y).st.mem = true := by
  refine foldl_wf (fun s b h => ?_) _ h
  split
  · exact netWrite_wf _ _ _ h
  · exact h

theorem restoreStore_wf (m : Move) (img : Image) (l : Launch) (st : Store) (h : Mem.wf st.mem = true) : Mem.wf (restoreStore m img l st).mem = true :=
  Mem.wf_foldl_put _ _ (Mem.wf_filter _ h)

theorem restoreTeam_wf (x y : Nat) (l : Launch) (m : Move) (s : State) (h : Mem.wf s.st.mem = true) : OutWf (restoreTeam x y l m s) := by
  unfold restoreTeam
  split
  · exact h
  · rename_i img others
    extract_lets new union slots team l1 fw s1 s2 s3 s4
    have h1 : Mem.wf s1.st.mem = true := restoreStore_wf _ _ _ _ h
    have h2 : Mem.wf s2.st.mem = true := foldl_wf (fun s x h => resettle_wf m s x h) _ (rewriteBarriers_wf _ _ _ _ _ h1)
    have h3 : Mem.wf s3.st.mem = true := resvRetry_wf s2 _ h2
    have h4 : Mem.wf s4.st.mem = true := foldl_wf reenter_wf _ h3
    exact (congrArg Mem.wf ((foldl_mem reinterest_mem _ _).trans (foldl_mem rewait_mem _ s4))).trans h4

theorem execTeamRestore_wf (x y : Nat) (s : State) (h : Mem.wf s.st.mem = true) : OutWf (execTeamRestore x y s) := by
  unfold execTeamRestore
  split
  · exact h
  · split
    · exact h
    · dsimp only
      split
      · exact h
      · exact restoreTeam_wf _ _ _ _ _ h

-- ## Gleaning and trace

@[simp] theorem retireCluster_mem (s : State) (k : Nat) : (s.retireCluster k).st.mem = s.st.mem := rfl

theorem gleanWords_wf (st : Store) (loc k n : Nat) (h : Mem.wf st.mem = true) : Mem.wf (gleanWords st loc k n).mem = true := by
  induction n generalizing st loc k with
  | zero => exact h
  | succ n ih => exact ih _ _ _ (Mem.wf_write _ _ h)

/-- What gleaning leaves in one bank of cluster `k`. -/
def gleanBank (k ctr : Nat) (st : Store) (b : Nat) : Store := gleanWords st (bankLoc (clusterCore k b) 0) (ctr + 2048 * b) 2048

theorem gleanBanks_eq (st : Store) (k ctr : Nat) :
    gleanBanks st k ctr = (List.range 8).foldl (gleanBank k ctr) (clearBanks st (fun c => clusterOf c == k)) := rfl

theorem gleanBank_wf (k ctr : Nat) (st : Store) (b : Nat) (h : Mem.wf st.mem = true) : Mem.wf (gleanBank k ctr st b).mem = true :=
  gleanWords_wf _ _ _ _ h

theorem gleanBanks_wf (st : Store) (k ctr : Nat) (h : Mem.wf st.mem = true) : Mem.wf (gleanBanks st k ctr).mem = true := by
  rw [gleanBanks_eq]
  exact foldl_store_wf (gleanBank_wf k ctr) _ (clearBanks_wf st _ h)

@[simp] theorem gleanCluster_wf (s : State) (cluster : Nat) (h : Mem.wf s.st.mem = true) : Mem.wf (gleanCluster s cluster).st.mem = true := by
  simp only [gleanCluster]
  exact gleanBanks_wf _ _ _ h

@[simp] theorem gleanFail_mem (s : State) (cluster : Nat) (part : Fin 4) (core : Fin 8) (ad : Word) :
    (gleanFail s cluster part core ad).st.mem = s.st.mem := rfl

theorem execGleaning_wf (cluster : Nat) (failed : Option (Fin 4 × Fin 8 × Word)) (s : State) (h : Mem.wf s.st.mem = true) :
    OutWf (execGleaning cluster failed s) := by
  unfold execGleaning
  repeat' split
  all_goals simp [h]

@[simp] theorem traceAll_mem (s : State) (type low : Nat) (hi : Word) : (s.traceAll type low hi).st.mem = s.st.mem :=
  foldl_mem (fun s _ => traceAt_mem s _ _ _ _) _ _

theorem execCrossTriggerStop_wf (wide : Bool) (s : State) (h : Mem.wf s.st.mem = true) : OutWf (execCrossTriggerStop wide s) := by
  unfold execCrossTriggerStop
  split <;> simp [h]

theorem execCrossTriggerRelease_wf (s : State) (h : Mem.wf s.st.mem = true) : OutWf (execCrossTriggerRelease s) := by
  unfold execCrossTriggerRelease
  split <;> simp [h]

theorem execWatchpointInsert_wf (g : BitVec 42) (s : State) (h : Mem.wf s.st.mem = true) : OutWf (execWatchpointInsert g s) := by simp [execWatchpointInsert, h]

theorem execWatchpointClear_wf (s : State) (h : Mem.wf s.st.mem = true) : OutWf (execWatchpointClear s) := by simp [execWatchpointClear, h]

@[simp] theorem debugWords_wf (s : State) (loc : Nat) (ws : List Nat) (h : Mem.wf s.st.mem = true) : Mem.wf (debugWords s loc ws).st.mem = true := by
  induction ws generalizing s loc with
  | nil => exact h
  | cons w ws ih => exact ih _ _ (engineWrite_wf _ _ _ _ _ _ _ _ h)

@[simp] theorem traceStep_wf (s : State) (k : Nat) (h : Mem.wf s.st.mem = true) : Mem.wf (traceStep s k).st.mem = true := by
  unfold traceStep
  dsimp only
  split
  · exact debugWords_wf _ _ _ h
  · exact h

@[simp] theorem traceWrite_wf (s : State) (h : Mem.wf s.st.mem = true) : Mem.wf (traceWrite s).st.mem = true := by
  unfold traceWrite
  split <;> simp [h]

@[simp] theorem traceBuffer_wf (s : State) (k base size : Nat) (h : Mem.wf s.st.mem = true) : Mem.wf (traceBuffer s k base size).st.mem = true :=
  foldl_wf (fun s _ h => traceStep_wf s k h) (List.range _) h

theorem execTraceEpochOverflow_wf (ticks : TraceEvent) (s : State) (h : Mem.wf s.st.mem = true) : OutWf (execTraceEpochOverflow ticks s) := by
  unfold execTraceEpochOverflow
  split
  · exact h
  · exact outWf_ite h (traceBuffer_wf _ _ _ _ h)
  · exact h
  · exact outWf_ite h (by simp [h])

theorem execMcstClear_wf (cluster : Nat) (bank : Fin 4) (v : Word) (s : State) (h : Mem.wf s.st.mem = true) :
    OutWf (execMcstClear cluster bank v s) := by simp [execMcstClear, h]

@[simp] theorem islandSet_mem (s : State) (i : Nat) (x : Island) : (islandSet s i x).st.mem = s.st.mem := rfl

theorem execIslandInterval_wf (s : State) (h : Mem.wf s.st.mem = true) : OutWf (execIslandInterval s) := by simp [execIslandInterval, h]

theorem execThermalOrCurrentLimit_wf (island : Nat) (on : Bool) (s : State) (h : Mem.wf s.st.mem = true) : OutWf (execThermalOrCurrentLimit island on s) := by
  unfold execThermalOrCurrentLimit
  split <;> simp [h]

theorem execFirmwareTgtWrite_wf (island : Nat) (tgt : BitVec 2) (s : State) (h : Mem.wf s.st.mem = true) : OutWf (execFirmwareTgtWrite island tgt s) := by
  unfold execFirmwareTgtWrite
  split <;> simp [h]

-- ## The host

@[simp] theorem herrLog_mem (s : State) (kind addr : Nat) : (herrLog s kind addr).st.mem = s.st.mem := by
  unfold herrLog
  split
  · rfl
  · exact onOut_mem _ _

theorem execCxlMemRead_wf (hpa : BitVec 52) (s0 : State) (h : Mem.wf s0.st.mem = true) : OutWf (execCxlMemRead hpa s0) := by
  unfold execCxlMemRead
  repeat' split
  all_goals simp [h]

@[simp] theorem hostScrub_mem (s : State) (loc : Nat) (en : BitVec 64) : (hostScrub s loc en).st.mem = s.st.mem := by
  refine foldl_mem (fun s k => ?_) (List.range 8) s
  dsimp only
  split
  · exact pointScrub_mem _ _ _
  · rfl

@[simp] theorem hostWrite_wf (s : State) (loc : Nat) (data : BitVec 512) (en : HostEnables) (full : Bool) (h : Mem.wf s.st.mem = true) :
    Mem.wf (hostWrite s loc data en full).st.mem = true := by
  unfold hostWrite
  extract_lets id rel ps s1
  have h1 : Mem.wf s1.st.mem = true := foldl_store_wf (fun st p h => put_wf st _ h) ps h
  clear_value s1 ps
  split
  · exact h
  · have ht : (touchLine s1 loc).1.st.mem = s1.st.mem := touchLine_mem s1 loc
    split
    rename_i s1a seqTag await e
    rw [e] at ht
    have h1a : Mem.wf s1a.st.mem = true := (congrArg Mem.wf ht).trans h1
    extract_lets s2
    have h2 : Mem.wf s2.st.mem = true := by
      simp only [s2]
      split <;> exact h1a
    clear_value s2
    split
    · exact foldl_wf (fun s p h => service_wf s _ h) _ h2
    · exact h2

@[simp] theorem cxlWrite_wf (s0 : State) (hpa : BitVec 52) (data : BitVec 512) (en : HostEnables) (h : Mem.wf s0.st.mem = true) :
    Mem.wf (cxlWrite s0 hpa data en).st.mem = true := by
  unfold cxlWrite
  split
  · exact h
  · extract_lets loc s bad s1
    have hs : Mem.wf s.st.mem = true := (congrArg Mem.wf (hostScrub_mem s0 loc en.bytes)).trans h
    have h1 : Mem.wf s1.st.mem = true := by
      simp only [s1, onOut_mem]
      exact hostWrite_wf s loc data en _ hs
    clear_value s1 bad
    split
    · exact h
    · split
      · simpa using h
      · split
        · rename_i k s2 e
          cases e
          exact (congrArg Mem.wf (herrLog_mem _ _ _)).trans h1
        · exact h1

theorem execCxlMemWritePlain_wf (hpa : BitVec 52) (data : BitVec 512) (en : HostEnables) (s : State) (h : Mem.wf s.st.mem = true) :
    OutWf (execCxlMemWritePlain hpa data en s) := by simp [execCxlMemWritePlain, h]

theorem execCxlMemWriteFull_wf (hpa : BitVec 52) (data : BitVec 512) (en : HostEnables) (s : State) (h : Mem.wf s.st.mem = true) :
    OutWf (execCxlMemWriteFull hpa data en s) := by simp [execCxlMemWriteFull, h]

@[simp] theorem drainLine_wf (s : State) (pa n : Nat) (h : Mem.wf s.st.mem = true) : Mem.wf (drainLine s pa n).st.mem = true := by
  induction n generalizing s with
  | zero => exact h
  | succ n ih =>
    unfold drainLine
    split
    · exact h
    · exact ih _ (performReq_wf _ _ h)

@[simp] theorem snoopLine_wf (s : State) (pa : Nat) (h : Mem.wf s.st.mem = true) : Mem.wf (snoopLine s pa).st.mem = true := by
  unfold snoopLine
  extract_lets s1
  have h1 : Mem.wf s1.st.mem = true := drainLine_wf s pa _ h
  clear_value s1
  split
  · simpa using h1
  · exact h1

@[simp] theorem snoopAnswer_mem (s : State) (pa : Nat) : (snoopAnswer s pa).st.mem = s.st.mem := rfl

theorem execSnpdata_wf (line : BitVec 52) (s : State) (h : Mem.wf s.st.mem = true) : OutWf (execSnpdata line s) := by
  unfold execSnpdata
  dsimp only
  split <;> simp [h]

@[simp] theorem hostLineWrite_wf (s : State) (pa : Nat) (data : BitVec 1024) (h : Mem.wf s.st.mem = true) : Mem.wf (hostLineWrite s pa data).st.mem = true :=
  put_wf _ _ h

theorem execSnpinv_wf (line : BitVec 52) (data : BitVec 1024) (s : State) (h : Mem.wf s.st.mem = true) : OutWf (execSnpinv line data s) := by
  unfold execSnpinv
  dsimp only
  repeat' split
  all_goals simp [h]

@[simp] theorem hostError_mem (s : State) (pa : Nat) (words : List Nat) : (hostError s pa words).st.mem = s.st.mem :=
  (herrLog_mem _ _ _).trans (foldl_mem poisonWord_mem words s)

@[simp] theorem hostAnswer_wf (s0 : State) (k : HostAsk) (data : BitVec 1024) (error : Bool) (h : Mem.wf s0.st.mem = true) :
    Mem.wf (hostAnswer s0 k data error).st.mem = true := by
  unfold hostAnswer
  dsimp only
  repeat' split
  all_goals simp [h]

theorem execCxlCacheResponse_wf (line : BitVec 52) (data : BitVec 1024) (error : Bool) (s : State) (h : Mem.wf s.st.mem = true) :
    OutWf (execCxlCacheResponse line data error s) := by
  unfold execCxlCacheResponse
  dsimp only
  repeat' split
  all_goals simp [h]

theorem execCxlIoUndefinedAccess_wf (off : BitVec 52) (s : State) (h : Mem.wf s.st.mem = true) :
    OutWf (execCxlIoUndefinedAccess off s) := by simp [execCxlIoUndefinedAccess, h]

theorem barAccess_wf {s : State} {k : State → Out} (hk : ∀ s, Mem.wf s.st.mem = true → OutWf (k s)) (h : Mem.wf s.st.mem = true) : OutWf (barAccess s k) :=
  outWf_ite h (hk _ h)

theorem execHerrClear_wf (s : State) (h : Mem.wf s.st.mem = true) : OutWf (execHerrClear s) := barAccess_wf (fun _ h => h) h

@[simp] theorem toState_mem (s : State) (n : Word) : (s.toState n).st.mem = s.st.mem := rfl

@[simp] theorem negotiate_mem (s0 : State) : (negotiate s0).st.mem = s0.st.mem := rfl

theorem execNegoGo_wf (s : State) (h : Mem.wf s.st.mem = true) : OutWf (execNegoGo s) := by
  refine barAccess_wf (fun s h => ?_) h
  dsimp only
  split <;> exact h

theorem execSysint_wf (v : Word) (s : State) (h : Mem.wf s.st.mem = true) : OutWf (execSysint v s) := barAccess_wf (fun _ h => outWf_ite h h) h

@[simp] theorem tableReads_mem (s : State) (pa n : Nat) : (tableReads s pa n).st.mem = s.st.mem := by
  refine foldl_mem (fun s k => ?_) _ s
  split
  · exact pointScrub_mem _ _ _
  · rfl

@[simp] theorem queueReads_mem (s : State) (c : Fin 64) (ctx : Word) : (queueReads s c ctx).st.mem = s.st.mem := by
  unfold queueReads
  extract_lets a w
  refine (foldl_mem (fun s q => ?_) (List.range 64) _).trans (tableReads_mem s _ _)
  split
  · split
    · rfl
    · rw [fwWalk_mem, fwWalk_mem]
  · rfl

theorem execCtxcmd_wf (v : Word) (s : State) (h : Mem.wf s.st.mem = true) : OutWf (execCtxcmd v s) := by
  refine barAccess_wf (fun s h => ?_) h
  extract_lets c host s1 a s1
  split
  · exact h
  · have h1 : Mem.wf s1.st.mem = true := (congrArg Mem.wf (tableReads_mem _ _ _)).trans h
    clear_value s1
    split
    · rename_i ctx k _ _
      have h2 : Mem.wf (if k.getLsbD 0 then queueReads s1 c ctx else s1).st.mem = true := by
        split
        · simpa using h1
        · exact h1
      generalize (if k.getLsbD 0 then queueReads s1 c ctx else s1) = s2 at h2 ⊢
      dsimp only
      split
      · exact h2
      · exact (congrArg Mem.wf (foldl_mem (fun s r => herrLog_mem s 3 _) _ _)).trans h2
    · exact h1

theorem bar0Write_wf (s : State) (o : Nat) (v : Word) (h : Mem.wf s.st.mem = true) : OutWf (bar0Write s o v) := by
  unfold bar0Write
  extract_lets set
  have hset (f : HostRegs → HostRegs) : OutWf (set f) := barAccess_wf (fun _ h => h) h
  clear_value set
  refine outWf_ite h (outWf_ite (hset _) (outWf_ite (outWf_ite (execNegoGo_wf s h) (hset _)) (outWf_ite (execSysint_wf v s h) (outWf_ite (hset _)
    (outWf_ite (hset _) (outWf_ite (execCtxcmd_wf v s h) (outWf_ite (outWf_ite (execHerrClear_wf s h) (hset _)) (outWf_ite (hset _) (hset _)))))))))

theorem execRegisterWrite_wf (at_ : BarAccess) (v : Word) (s : State) (h : Mem.wf s.st.mem = true) : OutWf (execRegisterWrite at_ v s) := by
  unfold execRegisterWrite
  extract_lets read low
  have hlow (off : BitVec 16) {k : Nat → Out} (hk : ∀ o, OutWf (k o)) : OutWf (low off k) :=
    outWf_ite h (outWf_ite (execCxlIoUndefinedAccess_wf _ _ h) (hk _))
  split
  · exact hlow _ (fun o => bar0Write_wf s o v h)
  · exact hlow _ (k := fun o => read (bar0Read s o) s) (fun o => h)
  · exact outWf_ite (execMcstClear_wf _ _ _ _ h) h
  · exact h

theorem execPsiporFlitReceive_wf (port : Fin 16) (crcOk : Bool) (k : Nat) (p : Packet) (s : State) (h : Mem.wf s.st.mem = true) :
    OutWf (execPsiporFlitReceive port crcOk k p s) := by
  unfold execPsiporFlitReceive
  repeat' split
  all_goals simp [h]

theorem execLinkFault_wf (port : Fin 16) (s : State) (h : Mem.wf s.st.mem = true) : OutWf (execLinkFault port s) := by simp [execLinkFault, h]

theorem execLinkRetrained_wf (port : Fin 16) (s : State) (h : Mem.wf s.st.mem = true) : OutWf (execLinkRetrained port s) := by simp [execLinkRetrained, h]

theorem execLinkRetrainTimeout_wf (port : Fin 16) (s : State) (h : Mem.wf s.st.mem = true) : OutWf (execLinkRetrainTimeout port s) := by
  unfold execLinkRetrainTimeout
  split
  · exact foldl_wf (fun s e h => peerWithdrawn_wf s port _ h) _ h
  · exact h

theorem execSpdmRequest_wf (block : Fin 5) (nonce : Nat) (s : State) (h : Mem.wf s.st.mem = true) :
    OutWf (execSpdmRequest block nonce s) := by simp [execSpdmRequest, h]

@[simp] theorem readRepair_mem (s : State) : (readRepair s).st.mem = s.st.mem := rfl

@[simp] theorem gleanStart_wf (s : State) (h : Mem.wf s.st.mem = true) : Mem.wf (gleanStart s).st.mem = true := by
  unfold gleanStart
  extract_lets s1
  have h1 : Mem.wf s1.st.mem = true := gleanCluster_wf s _ h
  clear_value s1
  exact (congrArg Mem.wf (foldl_mem (fun s f => gleanFail_mem s _ _ _ _) _ s1)).trans h1

theorem startStep_wf (s : State) (h : Mem.wf s.st.mem = true) : OutWf (startStep s) := by
  unfold startStep
  dsimp only
  repeat' split
  all_goals simp [h]

theorem execModuleReset_wf (s : State) (h : Mem.wf s.st.mem = true) : OutWf (execModuleReset s) := Mem.wf_filter _ h

theorem cancelCopy_wf {o : Out} (c : Copy) (h : OutWf o) : OutWf (cancelCopy o c) := by
  unfold cancelCopy
  split
  · rename_i s
    have hs : Mem.wf s.st.mem = true := h
    exact copyNotice_wf _ _ (by simp [hs])
  · exact h

theorem cancelWork_wf (s : State) (cid : Fin 64) (h : Mem.wf s.st.mem = true) : OutWf (cancelWork s cid) := by
  unfold cancelWork
  extract_lets reads elsewhere dead s1
  have h1 : Mem.wf s1.st.mem = true := by
    simp only [s1, State.onSt_st]
    exact dropWaiting_wf _ _ h
  clear_value s1
  split
  · exact h1
  · split
    · exact h1
    · have hc : OutWf (s1.core.copies.foldl cancelCopy (.next s1)) :=
        List.foldlRecOn (motive := OutWf) _ _ h1 (fun o ho c _ => cancelCopy_wf c ho)
      generalize s1.core.copies.foldl cancelCopy (.next s1) = o at hc ⊢
      cases o with
      | next s2 =>
        have hk : Mem.wf ((List.finRange 8).foldl killUnits s2).st.mem = true := foldl_wf killUnits_wf _ hc
        dsimp only
        generalize (List.finRange 8).foldl killUnits s2 = s3 at hk ⊢
        exact hk
      | fault _ => trivial
      | refused _ => trivial

@[simp] theorem endLaunches_wf (s : State) (cid : Fin 64) (h : Mem.wf s.st.mem = true) : Mem.wf (endLaunches s cid).st.mem = true := by
  refine foldl_wf (fun s l h => ?_) _ h
  split
  · exact endLaunch_wf _ _ _ (writeRecord_wf _ _ _ _ _ _ _ h)
  · exact h

theorem contextDies_wf (s : State) (cid : Fin 64) (h : Mem.wf s.st.mem = true) : OutWf (contextDies s cid) := by
  have hc := cancelWork_wf _ cid (settleWhere_wf s (fun _ nm => nm.cid == cid) (fun _ => true) true h)
  unfold contextDies
  split
  · rename_i s2 e
    rw [e] at hc
    have hf := foldl_mem (fun s p => leaveBy_mem s p (.notice p cid)) (if s.host.featEn.getLsbD 3 then pmapPorts s else []) s2
    exact endLaunches_wf _ _ ((congrArg Mem.wf hf).trans hc)
  · exact hc

theorem execContextDies_wf (why : Death) (s : State) (h : Mem.wf s.st.mem = true) : OutWf (execContextDies why s) := by
  unfold execContextDies
  split
  · exact contextDies_wf _ _ h
  · refine outWf_ite h ?_
    refine List.foldlRecOn (motive := OutWf) _ _ h (fun o ho c _ => ?_)
    split
    · exact contextDies_wf _ _ ho
    · exact ho

end Sys2Proof.Proofs.Canonical
end

section
/-! PROOF. Canonical memory, concluded: every instruction and event, the fetch, and the step (R24, R37, R137, R179). -/

namespace Sys2Proof.Proofs.Canonical

open Sys2Proof Sys2Proof.Machine Sys2Proof.Safety Sys2Proof.Proofs.Translation

-- ## Every instruction and event

theorem exec_wf (i : Instr) (s : State) (h : Mem.wf s.st.mem = true) : OutWf (exec i s) := by
  cases i
  case transportShort | transportLong => exact issue_wf _ _ _ _ (transportPlan_wf _ _) h
  case aluAddShort | aluAddLong | aluSubShort | aluSubLong | aluAndShort | aluAndLong | aluOrShort | aluOrLong | aluXorShort | aluXorLong | aluShlShort |
      aluShlLong | aluShrShort | aluShrLong | aluSraShort | aluSraLong | aluSltShort | aluSltLong | aluSltuShort | aluSltuLong | aluSeqShort | aluSeqLong |
      aluMinShort | aluMinLong | aluMaxShort | aluMaxLong | aluMinuShort | aluMinuLong | aluMaxuShort | aluMaxuLong | aluSxbShort | aluSxbLong |
      aluSxhShort | aluSxhLong | aluClzShort | aluClzLong | aluPopcShort | aluPopcLong =>
    exact issue_wf _ _ _ _ (covered_wf (aluPlan_wf _) _) h
  case mulMulShort | mulMulLong | mulMulhShort | mulMulhLong | mulMulhuShort | mulMulhuLong | mulMadShort | mulMadLong | mulDivShort | mulDivLong |
      mulDivuShort | mulDivuLong | mulRemShort | mulRemLong | mulRemuShort | mulRemuLong =>
    exact issue_wf _ _ _ _ (covered_wf (mulPlan_wf _ _) _) h
  case memLd8Short | memLd8Long | memLd8sShort | memLd8sLong | memLd16Short | memLd16Long | memLd16sShort | memLd16sLong | memLd32Short | memLd32Long |
      memLd32sShort | memLd32sLong | memLd64Short | memLd64Long | memLdqShort | memLdqLong =>
    exact issue_wf _ _ _ _ (covered_wf (loadPlan_wf _ _ _) _) h
  case memSt8Short | memSt8Long | memSt16Short | memSt16Long | memSt32Short | memSt32Long | memSt64Short | memSt64Long | memStqShort | memStqLong |
      memStfShort | memStfLong =>
    exact issue_wf _ _ _ _ (covered_wf (storePlan_wf _ _ _) _) h
  case memLdfShort | memLdfLong | memLdtShort | memLdtLong => exact issue_wf _ _ _ _ (covered_wf (waitLoadPlan_wf _ _) _) h
  case memSteShort | memSteLong => exact issue_wf _ _ _ _ (covered_wf (writePlan_wf _ _ _ _ _) _) h
  case prdPandShort | prdPandLong | prdPorShort | prdPorLong | prdPxorShort | prdPxorLong | prdPandnShort | prdPandnLong =>
    exact issue_wf _ _ _ _ (covered_wf (prdPlan_wf _) _) h
  case ctlJmpShort | ctlJmpLong => exact issue_wf _ _ _ _ ctlJmpPlan_wf h
  case ctlJrelShort | ctlJrelLong => exact issue_wf _ _ _ _ ctlJrelPlan_wf h
  case ctlCallShort | ctlCallLong => exact issue_wf _ _ _ _ (ctlCallPlan_wf _) h
  case ctlRetShort | ctlRetLong => exact issue_wf _ _ _ _ ctlRetPlan_wf h
  case ctlTrapShort | ctlTrapLong => exact issue_wf _ _ _ _ ctlTrapPlan_wf h
  case idxTixShort | idxTixLong => exact issue_wf _ _ _ _ (covered_wf idxTixPlan_wf _) h
  case idxAdrShort | idxAdrLong => exact issue_wf _ _ _ _ (covered_wf idxAdrPlan_wf _) h
  case idxBndShort | idxBndLong => exact issue_wf _ _ _ _ (covered_wf idxBndPlan_wf _) h
  case trkClaimShort | trkClaimLong => exact issue_wf _ _ _ _ (covered_wf trkClaimPlan_wf _) h
  case trkFreeShort | trkFreeLong => exact issue_wf _ _ _ _ (covered_wf trkFreePlan_wf _) h
  case trkSeekShort | trkSeekLong => exact issue_wf _ _ _ _ (covered_wf trkSeekPlan_wf _) h
  case trkStepShort | trkStepLong => exact issue_wf _ _ _ _ (covered_wf trkStepPlan_wf _) h
  case trkRdsShort | trkRdsLong => exact issue_wf _ _ _ _ (covered_wf trkRdsPlan_wf _) h
  case trkWrsShort | trkWrsLong => exact issue_wf _ _ _ _ (covered_wf trkWrsPlan_wf _) h
  case trkRwdShort | trkRwdLong => exact issue_wf _ _ _ _ (covered_wf trkRwdPlan_wf _) h
  case trkHeadShort | trkHeadLong => exact issue_wf _ _ _ _ (covered_wf trkHeadPlan_wf _) h
  case vecAdd | vecSub | vecMul | vecMad | vecMin | vecMax | vecAnd | vecOr | vecXor | vecShl | vecShr | vecSra | vecCeq | vecClt | vecSel | vecShf | vecPak |
      vecUnp | vecCvt | vecDot | vecSum | vecExt =>
    exact issue_wf _ _ _ _ (covered_wf (vecPlan_wf _ _) _) h
  case vecRec => exact issue_wf _ _ _ _ vecRecPlan_wf h
  case vecRun => exact issue_wf _ _ _ _ vecRunPlan_wf h
  case fpuAdd | fpuSub | fpuMul | fpuFma | fpuDiv | fpuSqrt | fpuCmp | fpuToi | fpuTof => exact issue_wf _ _ _ _ (covered_wf (fpuPlan_wf _ _) _) h
  case sfuExp2 | sfuLog2 | sfuRcp | sfuRsq | sfuSin | sfuCos => exact issue_wf _ _ _ _ (covered_wf (sfuPlan_wf _) _) h
  case amoAdd | amoMin | amoMax | amoAnd | amoOr | amoXor => exact issue_wf _ _ _ _ (covered_wf (amoPlan_wf _ _) _) h
  case amoLrw => exact issue_wf _ _ _ _ (covered_wf amoLrwPlan_wf _) h
  case amoScr => exact issue_wf _ _ _ _ (covered_wf amoScrPlan_wf _) h
  case synFence => exact issue_wf _ _ _ _ synFencePlan_wf h
  case synAcq => exact issue_wf _ _ _ _ synAcqPlan_wf h
  case synRel => exact issue_wf _ _ _ _ synRelPlan_wf h
  case synArrive => exact issue_wf _ _ _ _ synArrivePlan_wf h
  case synWait => exact issue_wf _ _ _ _ synWaitPlan_wf h
  case synMask => exact issue_wf _ _ _ _ synMaskPlan_wf h
  case strBind => exact issue_wf _ _ _ _ strBindPlan_wf h
  case strFree => exact issue_wf _ _ _ _ strFreePlan_wf h
  case mxRun | mxCnt | mxDrn | mxMrg | mxSt => exact issue_wf _ _ _ _ (covered_wf (mxPlan_wf _ _ _) _) h
  case mxWait => exact issue_wf _ _ _ _ (covered_wf mxWaitPlan_wf _) h
  case ndWant => exact issue_wf _ _ _ _ (covered_wf ndWantPlan_wf _) h
  case ndGive => exact issue_wf _ _ _ _ (covered_wf ndGivePlan_wf _) h
  case ndDrop => exact issue_wf _ _ _ _ (covered_wf ndDropPlan_wf _) h
  case ndCard => exact issue_wf _ _ _ _ (covered_wf ndCardPlan_wf _) h
  case cpyGo => exact issue_wf _ _ _ _ (covered_wf cpyGoPlan_wf _) h
  case msgSend => exact issue_wf _ _ _ _ msgSendPlan_wf h
  case msgRecv => exact issue_wf _ _ _ _ msgRecvPlan_wf h
  case msgAny => exact issue_wf _ _ _ _ msgAnyPlan_wf h
  case tskPush => exact issue_wf _ _ _ _ tskPushPlan_wf h
  case tskPop => exact issue_wf _ _ _ _ tskPopPlan_wf h
  case tskPark => exact issue_wf _ _ _ _ tskParkPlan_wf h
  case tskYield => exact issue_wf _ _ _ _ tskYieldPlan_wf h
  case sysCrr => exact issue_wf _ _ _ _ sysCrrPlan_wf h
  case sysCrw => exact issue_wf _ _ _ _ sysCrwPlan_wf h
  case sysEret => exact issue_wf _ _ _ _ sysEretPlan_wf h
  case sysTlbi => exact issue_wf _ _ _ _ sysTlbiPlan_wf h
  case sysMwait => exact issue_wf _ _ _ _ sysMwaitPlan_wf h
  case sysHalt => exact issue_wf _ _ _ _ sysHaltPlan_wf h
  case rngNext => exact issue_wf _ _ _ _ (covered_wf (valuePlan_wf _ _) _) h
  case streamWordHoldRelease slot => exact execStreamWordHoldRelease_wf slot s h
  case fixedResultDelivery slot => exact execFixedResultDelivery_wf slot s h
  case fencedResultDelivery slot => exact execFencedResultDelivery_wf slot s h
  case switchMarkerRelease slot => exact execSwitchMarkerRelease_wf slot s h
  case tlbMissWalk slot va => exact execTlbMissWalk_wf slot va s h
  case tlbiAcknowledge by_ => exact execTlbiAcknowledge_wf by_ s h
  case postedStoreDepart slot ix => exact execPostedStoreDepart_wf slot ix s h
  case requestArrive r => exact execRequestArrive_wf r s h
  case homeSliceWrite ix => exact execHomeSliceWrite_wf ix s h
  case sharedCopyInvalidation die line => exact execSharedCopyInvalidation_wf die line s h
  case writeAcknowledge ix => exact execWriteAcknowledge_wf ix s h
  case lineReadMiss die line => exact execLineReadMiss_wf die line s h
  case lrwRequestArrive r => exact execLrwRequestArrive_wf r s h
  case bankRequestPerform ix => exact execBankRequestPerform_wf ix s h
  case copyStart ix => exact execCopyStart_wf ix s h
  case copyChunk ix => exact execCopyChunk_wf ix s h
  case copyComplete ix => exact execCopyComplete_wf ix s h
  case trackCommandPerform n => exact execTrackCommandPerform_wf n s h
  case trackClear n found => exact execTrackClear_wf n found s h
  case patternElementRead n => exact execPatternElementRead_wf n s h
  case patternElementWrite n => exact execPatternElementWrite_wf n s h
  case vecReplayTransport slot => exact execVecReplayTransport_wf slot s h
  case mxCommandPerform own => exact execMxCommandPerform_wf own s h
  case mxLatchHandoff d => exact execMxLatchHandoff_wf d s h
  case interestArrive k nm face => exact execInterestArrive_wf k nm face s h
  case tileArrive k nm t => exact execTileArrive_wf k nm t s h
  case giveArrive k nm t by_ => exact execGiveArrive_wf k nm t by_ s h
  case retireNoticeArrive cid tensor iter producer => exact execRetireNoticeArrive_wf cid tensor iter producer s h
  case iterationClose k cid tensor iter => exact execIterationClose_wf k cid tensor iter s h
  case settleEmptyNotice k nm withdrawn => exact execSettleEmptyNotice_wf k nm withdrawn s h
  case interestWithdrawal k nm face => exact execInterestWithdrawal_wf k nm face s h
  case peerWithdrawalNotice port cid => exact execPeerWithdrawalNotice_wf port cid s h
  case cardTaskPush id => exact execCardTaskPush_wf id s h
  case messageArrive core id data => exact execMessageArrive_wf core id data s h
  case barrierNetworkArrival grp thread => exact execBarrierNetworkArrival_wf grp thread s h
  case generationClose grp => exact execGenerationClose_wf grp s h
  case launchSlotTake cid q => exact execLaunchSlotTake_wf cid q s h
  case placement launch team x y => exact execPlacement_wf launch team x y s h
  case taskBegin slot => exact execTaskBegin_wf slot s h
  case threadEnd slot => exact execThreadEnd_wf slot s h
  case taskDispatch => exact execTaskDispatch_wf s h
  case launchCompletion launch => exact execLaunchCompletion_wf launch s h
  case quantumExpiry slot => exact execQuantumExpiry_wf slot s h
  case teamSwapOut => exact execTeamSwapOut_wf s h
  case teamRestore x y => exact execTeamRestore_wf x y s h
  case impreciseFaultArrival slot seq cause => exact execImpreciseFaultArrival_wf slot seq cause s h
  case trapEntry slot => exact execTrapEntry_wf slot s h
  case userLevelEntry slot => exact execUserLevelEntry_wf slot s h
  case threadKill slot => exact execThreadKill_wf slot s h
  case gleaning cluster failed => exact execGleaning_wf cluster failed s h
  case crossTriggerStop wide => exact execCrossTriggerStop_wf wide s h
  case crossTriggerRelease => exact execCrossTriggerRelease_wf s h
  case watchpointInsert g => exact execWatchpointInsert_wf g s h
  case watchpointClear => exact execWatchpointClear_wf s h
  case traceEpochOverflow ticks => exact execTraceEpochOverflow_wf ticks s h
  case islandInterval => exact execIslandInterval_wf s h
  case cxlMemRead hpa => exact execCxlMemRead_wf hpa s h
  case cxlMemWritePlain hpa data en => exact execCxlMemWritePlain_wf hpa data en s h
  case cxlMemWriteFull hpa data en => exact execCxlMemWriteFull_wf hpa data en s h
  case snpdata line => exact execSnpdata_wf line s h
  case snpinv line data => exact execSnpinv_wf line data s h
  case cxlCacheResponse line data error => exact execCxlCacheResponse_wf line data error s h
  case psiporFlitReceive port crcOk k p => exact execPsiporFlitReceive_wf port crcOk k p s h
  case linkRetrainTimeout port => exact execLinkRetrainTimeout_wf port s h
  case herrClear => exact execHerrClear_wf s h
  case mcstClear cluster bank v => exact execMcstClear_wf cluster bank v s h
  case negoGo => exact execNegoGo_wf s h
  case sysint v => exact execSysint_wf v s h
  case ctxcmd v => exact execCtxcmd_wf v s h
  case registerWrite at_ v => exact execRegisterWrite_wf at_ v s h
  case spdmRequest block nonce => exact execSpdmRequest_wf block nonce s h
  case moduleReset => exact execModuleReset_wf s h
  case contextDies why => exact execContextDies_wf why s h
  case linkFault port => exact execLinkFault_wf port s h
  case linkRetrained port => exact execLinkRetrained_wf port s h
  case thermalOrCurrentLimit island on => exact execThermalOrCurrentLimit_wf island on s h
  case firmwareTgtWrite island tgt => exact execFirmwareTgtWrite_wf island tgt s h
  case cxlIoUndefinedAccess off => exact execCxlIoUndefinedAccess_wf off s h

-- ## The fetch and the step

/-- The state that a fetch comes to, if it comes to one, has canonical memory. -/
def FetchedWf {α : Type} : Fetched α → Prop
  | .ok _ s => Mem.wf s.st.mem = true
  | .bad _ s => Mem.wf s.st.mem = true
  | .miss _ s => Mem.wf s.st.mem = true
  | .stop _ => True

theorem translateFetch_mem (s : State) (w : Walker) (va : Word) : TransMem s.st.mem (translateFetch s w va) := by
  unfold translateFetch
  split
  · rfl
  · split
    · rfl
    · exact translatePaged_mem _ _ _ _

theorem fetchFill_wf (s : State) (va : Word) (loc : Nat) (h : Mem.wf s.st.mem = true) : FetchedWf (fetchFill s va loc) := by
  have hr : Mem.wf (lineRead s (dieOf s.coreId) (lineOf loc)).st.mem = true := by simp [h]
  unfold fetchFill
  dsimp only
  split <;> exact hr

theorem fetchHalf_wf (s : State) (va : Word) (h : Mem.wf s.st.mem = true) : FetchedWf (fetchHalf s va) := by
  have ht := (translateFetch_mem s s.thr.walker va).wf h
  unfold fetchHalf
  split
  · exact h
  · split <;> rename_i e <;> rw [e] at ht
    · exact ht
    · trivial
    · rename_i loc _ s1
      have hf := fetchFill_wf s1 va loc ht
      dsimp only
      split
      · exact ht
      · split <;> rename_i e <;> rw [e] at hf <;> exact hf

theorem fetchWord_wf (s : State) (h : Mem.wf s.st.mem = true) : FetchedWf (fetchWord s) := by
  have h0 := fetchHalf_wf s s.thr.pc h
  unfold fetchWord
  split <;> rename_i e <;> rw [e] at h0
  · exact h0
  · exact h0
  · trivial
  · rename_i s1
    have h1 := fetchHalf_wf s1 (s.thr.pc + 2#64) h0
    split
    · split <;> rename_i e <;> rw [e] at h1
      · exact h1
      · exact h1
      · trivial
      · split <;> exact h1
    · split <;> exact h0

/-- Every outcome in the list keeps memory canonical. -/
def AllWf (l : List Out) : Prop := ∀ o ∈ l, OutWf o

@[simp] theorem allWf_nil : AllWf [] := fun _ h => nomatch h

@[simp] theorem allWf_cons (o : Out) (l : List Out) : AllWf (o :: l) ↔ OutWf o ∧ AllWf l := List.forall_mem_cons

@[simp] theorem allWf_append (l k : List Out) : AllWf (l ++ k) ↔ AllWf l ∧ AllWf k := List.forall_mem_append

theorem allWf_map {α : Type} {f : α → Out} (l : List α) (h : ∀ a, OutWf (f a)) : AllWf (l.map f) := List.forall_mem_map.2 (fun a _ => h a)

theorem allWf_flatMap {α : Type} {f : α → List Out} (l : List α) (h : ∀ a, AllWf (f a)) : AllWf (l.flatMap f) := by
  intro o ho
  obtain ⟨a, _, ha⟩ := List.mem_flatMap.1 ho
  exact h a o ha

theorem does_wf {s : State} {o a : Out} (h : OutWf o) (e : does s o = some a) : OutWf a := by
  unfold does at e
  split at e
  · split at e
    · cases e
    · cases e
      exact h
  · cases e
    exact h

theorem firstDoes_wf {s : State} {l : List Out} {a : Out} (h : AllWf l) (e : firstDoes s l = some a) : OutWf a := by
  induction l with
  | nil => cases e
  | cons o l ih =>
    obtain ⟨ho, hl⟩ := (allWf_cons o l).1 h
    rcases Option.or_eq_some_iff.1 e with hd | ⟨_, hr⟩
    · exact does_wf ho hd
    · exact ih hl hr

theorem due_wf {s : State} {a : Out} (h : Mem.wf s.st.mem = true) (e : due? s = some a) : OutWf a := by
  unfold due? at e
  split at e
  · rename_i hf
    cases e
    exact firstDoes_wf (allWf_map _ (fun i => execBankRequestPerform_wf i s h)) hf
  · split at e
    · cases e
      exact execFixedResultDelivery_wf _ _ h
    · cases e

theorem interval_wf {s : State} {a : Out} (h : Mem.wf s.st.mem = true) (e : interval? s = some a) : OutWf a := by
  unfold interval? at e
  split at e
  · cases e
    exact execIslandInterval_wf _ h
  · cases e

theorem pathStep_wf (s : State) (i : Nat) (r : Req) (h : Mem.wf s.st.mem = true) : OutWf (pathStep s i r) := by
  unfold pathStep
  split
  · split
    · exact execMessageArrive_wf _ _ _ _ h
    · exact h
  · split
    · exact execBarrierNetworkArrival_wf _ _ _ h
    · exact h
  · exact execLrwRequestArrive_wf _ _ h
  · exact execRequestArrive_wf _ _ h

theorem packetStep_wf (s : State) (k : Nat) (p : Packet) (h : Mem.wf s.st.mem = true) : OutWf (packetStep s k p) := by
  cases p with
  | interest nm f => exact execInterestArrive_wf k nm f s h
  | tile nm t => exact execTileArrive_wf k nm t s h
  | give nm t b => exact execGiveArrive_wf k nm t b s h
  | empty nm w => exact execSettleEmptyNotice_wf k nm w s h
  | withdraw nm f => exact execInterestWithdrawal_wf k nm f s h
  | retire cid tensor iter n => exact execRetireNoticeArrive_wf cid tensor iter n s h
  | notice port cid => exact execPeerWithdrawalNotice_wf port cid s h

theorem slotSteps_wf (s : State) (i : Fin 8) (h : Mem.wf s.st.mem = true) : AllWf (slotSteps s i) := by
  simp only [slotSteps, allWf_append]
  refine ⟨⟨?departs, ?walk⟩, ?results⟩
  case departs => exact allWf_map _ (fun k => execPostedStoreDepart_wf i k s h)
  case walk => split <;> simp [execTlbMissWalk_wf, h]
  case results => simp [execFencedResultDelivery_wf, execVecReplayTransport_wf, execQuantumExpiry_wf, execTlbiAcknowledge_wf, h]

theorem memorySteps_wf (s : State) (h : Mem.wf s.st.mem = true) : AllWf (memorySteps s) := by
  simp only [memorySteps, allWf_append]
  refine ⟨⟨⟨?paths, ?queue⟩, ?copies⟩, ?acks⟩
  case paths => exact allWf_map _ (fun r => pathStep_wf s _ _ h)
  case queue => exact allWf_map _ (fun i => execHomeSliceWrite_wf i s h)
  case copies => exact allWf_flatMap _ (fun a => allWf_map _ (fun d => execSharedCopyInvalidation_wf d _ s h))
  case acks => exact allWf_map _ (fun i => execWriteAcknowledge_wf i s h)

theorem engineSteps_wf (s : State) (h : Mem.wf s.st.mem = true) : AllWf (engineSteps s) := by
  simp only [engineSteps, allWf_append]
  refine ⟨⟨⟨⟨⟨?tracks, ?streams⟩, ?copies⟩, ?mx⟩, ?tasks⟩, ?cards⟩
  case tracks => exact allWf_flatMap _ (fun n => by simp [execTrackCommandPerform_wf, execTrackClear_wf, h])
  case streams => exact allWf_flatMap _ (fun n => by simp [execPatternElementRead_wf, execPatternElementWrite_wf, h])
  case copies => exact allWf_flatMap _ (fun i => by simp [execCopyStart_wf, execCopyChunk_wf, execCopyComplete_wf, h])
  case mx => simp [execMxCommandPerform_wf, execMxLatchHandoff_wf, h]
  case tasks => split <;> simp [execTaskDispatch_wf, h]
  case cards => exact allWf_map _ (fun c => execCardTaskPush_wf _ s h)

theorem netSteps_wf (s : State) (h : Mem.wf s.st.mem = true) : AllWf (netSteps s) := by
  simp only [netSteps, allWf_append]
  refine ⟨⟨⟨?packets, ?retires⟩, ?routers⟩, ?groups⟩
  case packets => exact allWf_map _ (fun p => packetStep_wf s _ _ h)
  case retires => exact allWf_map _ (fun r => execRetireNoticeArrive_wf _ _ _ _ s h)
  case routers => exact allWf_flatMap _ (fun r => allWf_map _ (fun e => execIterationClose_wf _ _ _ _ s h))
  case groups => exact allWf_map _ (fun g => execGenerationClose_wf _ s h)

theorem swapSteps_wf (s : State) (h : Mem.wf s.st.mem = true) : AllWf (swapSteps s) := by
  unfold swapSteps
  split
  · split <;> simp [execTeamSwapOut_wf, h]
  · split
    · split <;> simp [execTeamRestore_wf, h]
    · simp
  · simp

theorem firmwareSteps_wf (s : State) (h : Mem.wf s.st.mem = true) : AllWf (firmwareSteps s) := by
  simp only [firmwareSteps, allWf_append]
  refine ⟨⟨⟨⟨?start, ?complete⟩, ?queues⟩, ?places⟩, swapSteps_wf s h⟩
  case start => simp [startStep_wf, h]
  case complete => split <;> simp [execLaunchCompletion_wf, h]
  case queues => exact allWf_map _ (fun q => execLaunchSlotTake_wf _ _ s h)
  case places =>
    intro o ho
    obtain ⟨l, _, hl⟩ := List.mem_filterMap.1 ho
    obtain ⟨p, _, rfl⟩ := Option.map_eq_some_iff.1 hl
    exact execPlacement_wf _ _ _ _ s h

theorem unitSteps_wf (s : State) (h : Mem.wf s.st.mem = true) : AllWf (unitSteps s) := by
  simp only [unitSteps, allWf_append]
  refine ⟨⟨⟨⟨?core, memorySteps_wf s h⟩, netSteps_wf s h⟩, firmwareSteps_wf s h⟩, ?trace⟩
  case core =>
    split
    · simp
    · exact (allWf_append _ _).2 ⟨allWf_flatMap _ (fun i => slotSteps_wf s i h), engineSteps_wf s h⟩
  case trace => simp [h]

theorem unitStep_wf {s : State} {a : Out} (h : Mem.wf s.st.mem = true) (e : unitStep? s = some a) : OutWf a := by
  refine firstDoes_wf (fun o ho => unitSteps_wf s h o ?_) e
  rcases List.mem_append.1 ho with hd | ht
  · exact List.mem_of_mem_drop hd
  · exact List.mem_of_mem_take ht

theorem pick_wf {s : State} {a : Out} (h : Mem.wf s.st.mem = true) (e : pick? s = some a) : OutWf a := by
  unfold pick? at e
  rcases Option.or_eq_some_iff.1 e with hu | ⟨_, hr⟩
  · split at hu
    · exact unitStep_wf (s := { s with gap := false }) h hu
    · cases hu
  · rcases Option.or_eq_some_iff.1 hr with hd | ⟨_, hi⟩
    · split at hd
      · cases hd
      · exact due_wf (s := { s with gap := false }) h hd
    · exact interval_wf (s := { s with gap := false }) h hi

/-- What the current slot does in its cycle keeps memory canonical. -/
def TurnWf : SlotTurn → Prop
  | .word _ s => Mem.wf s.st.mem = true
  | .again o => OutWf o
  | .event o => OutWf o
  | .bad _ s => Mem.wf s.st.mem = true
  | .vacant s => Mem.wf s.st.mem = true
  | .stop _ => True

theorem some_of_ite {c : Prop} {_ : Decidable c} {o a : Out} (ho : OutWf o) (e : (if c then none else some o) = some a) : OutWf a := by
  split at e
  · cases e
  · exact Option.some.inj e ▸ ho

theorem parkEnd_wf {s : State} {a : Out} (h : Mem.wf s.st.mem = true) (e : parkEnd? s = some a) : OutWf a := by
  unfold parkEnd? at e
  extract_lets t owes at e
  generalize t.mode = m at e
  cases m
  case marker => exact some_of_ite (execSwitchMarkerRelease_wf _ _ h) e
  case fence => exact some_of_ite (o := .next (s.onThr Thread.unpark)) h e
  case acq => exact some_of_ite (o := .next ((acquire s s.cur ((t.opw .synSc).setWidth 42)).onThr Thread.unpark)) h e
  case ereting => exact some_of_ite (returnFromException_wf _ _ h) e
  case migrate => exact some_of_ite (o := .next (s.onThr Thread.unpark)) h e
  case taskEnd =>
    dsimp only at e
    split at e
    · exact does_wf (execTaskBegin_wf _ _ h) e
    · cases e
  case ending =>
    dsimp only at e
    split at e
    · exact Option.some.inj e ▸ execThreadEnd_wf _ _ h
    · cases e
  all_goals cases e

theorem missTurn_wf (s : State) (m : TlbMiss) (h : Mem.wf s.st.mem = true) : TurnWf (missTurn s m) := by
  unfold missTurn
  split
  · exact takeEvent_wf _ _ h
  · exact h

theorem stopTurn_wf {s : State} {r : SlotTurn} (h : Mem.wf s.st.mem = true) (e : stopTurn? s = some r) : TurnWf r := by
  unfold stopTurn? at e
  dsimp only at e
  split at e
  · cases e
    exact h
  · split at e
    · cases e
      exact h
    · split at e
      · cases e
        exact h
      · cases e

theorem slotTurn_wf (s : State) (h : Mem.wf s.st.mem = true) : TurnWf (slotTurn s) := by
  have hf := fetchWord_wf s h
  unfold slotTurn
  extract_lets t
  split
  · exact h
  · split
    · exact h
    · split
      · exact h
      · split
        · exact stopTurn_wf h ‹_›
        · split
          · split
            · split
              · exact execStreamWordHoldRelease_wf _ _ h
              · exact h
            · exact missTurn_wf _ _ h
            · split <;> rename_i e <;> rw [e] at hf
              · exact hf
              · exact hf
              · exact missTurn_wf _ _ hf
              · trivial
          · exact h
          · exact h
          · split
            · rename_i e
              split at e
              · cases e
              · exact does_wf (execThreadEnd_wf _ _ h) e
            · exact h
          · exact execThreadKill_wf _ _ h
          · split
            · exact h
            · exact execTrapEntry_wf _ _ h
          · split
            · exact h
            · exact execUserLevelEntry_wf _ _ h
          · split
            · exact execUserLevelEntry_wf _ _ h
            · exact execTrapEntry_wf _ _ h
            · split
              · exact parkEnd_wf h ‹_›
              · exact h

@[simp] theorem advance_mem (s : State) : (advance s).st.mem = s.st.mem := rfl

theorem ending_wf {o : Out} (h : OutWf o) : OutWf (ending o) := by
  cases o with
  | next s => exact h
  | fault _ => trivial
  | refused _ => trivial

theorem turnStep_wf (s : State) (h : Mem.wf s.st.mem = true) : OutWf (turnStep s) := by
  have ht := slotTurn_wf s h
  unfold turnStep
  split <;> rename_i e <;> rw [e] at ht
  · exact ending_wf (exec_wf _ _ ht)
  · exact ht
  · exact ending_wf ht
  · exact ending_wf (takePrecise_wf _ _ _ ht)
  · exact ht
  · trivial

theorem step_wf (s : State) (h : Mem.wf s.st.mem = true) : OutWf (step s) := by
  unfold step
  split
  · exact exec_wf _ _ h
  · split
    · exact pick_wf h ‹_›
    · exact turnStep_wf _ h

/-- Settles O59: every action of the module keeps memory canonical, and a step is one of them. -/
theorem stepKeepsMemoryCanonical : Obligations.StepKeepsMemoryCanonical := by
  intro s t h e
  have hs := step_wf s h
  rw [e] at hs
  exact hs

end Sys2Proof.Proofs.Canonical
end

section
/-! PROOF. Requests and writes on their way (R85, R92 to R98, R142, R153, R154): what sending changes and what it leaves, and the waiting loads. -/

namespace Sys2Proof.Proofs.Sending

open Sys2Proof Sys2Proof.Machine Sys2Proof.Safety Sys2Proof.Slice0 Sys2Proof.Proofs.Words Sys2Proof.Proofs.Loads

-- ## A read request goes to its bank, or on its path (R136, R142)

/-- The read request of the current slot's word. -/
def readReq (s : State) (own : Bool) (loc : Nat) (va : Word) (kind : ReqKind) : Req :=
  { slot := some s.cur, src := s.src s.cur, tag := s.nextId, counted := false, kind, loc, va, known := s.thr.floor, rel := none, waits := [], own }

/-- An ldt may not overtake its thread's writes; no other read waits for them. -/
def passesWrites (s : State) (loc : Nat) (kind : ReqKind) : Bool :=
  match kind with
  | .ldt => departsAtIssue s loc none
  | _ => true

/-- A request from the own-cluster window goes to its bank, if it may pass its thread's writes; any other goes on its path. -/
theorem sendRead_eq (s : State) (own : Bool) (loc : Nat) (va : Word) (kind : ReqKind) :
    sendRead s own loc va kind = if own && passesWrites s loc kind then toBank s.bump (readReq s own loc va kind)
      else s.bump.onSt (fun st => { st with paths := st.paths ++ [readReq s own loc va kind] }) := by
  cases kind <;> rfl

theorem sendRead_bank_effect (s : State) (t : Thread) {kind : ReqKind} {loc : Nat} (h : passesWrites (s.setThr t) loc kind = true)
    (va : Word) :
    (sendRead (s.setThr t) true loc va kind).thr = t ∧ (sendRead (s.setThr t) true loc va kind).st.paths = s.st.paths ∧
    ∃ b : BankReq, (sendRead (s.setThr t) true loc va kind).st.bankq = s.st.bankq ++ [b] ∧
      b.req.kind = kind ∧ b.req.loc = loc ∧ b.req.tag = s.nextId := by
  rw [sendRead_eq, h, Bool.true_and, if_pos rfl]
  exact ⟨by simp [toBank], rfl, _, rfl, rfl, rfl, rfl⟩

theorem sendRead_path_effect (s : State) (t : Thread) {own : Bool} {kind : ReqKind} {loc : Nat}
    (h : (own && passesWrites (s.setThr t) loc kind) = false) (va : Word) :
    (sendRead (s.setThr t) own loc va kind).thr = t ∧ (sendRead (s.setThr t) own loc va kind).st.bankq = s.st.bankq ∧
    ∃ r : Req, (sendRead (s.setThr t) own loc va kind).st.paths = s.st.paths ++ [r] ∧ r.kind = kind ∧ r.loc = loc ∧ r.tag = s.nextId := by
  rw [sendRead_eq, h, if_neg Bool.false_ne_true]
  exact ⟨by simp, rfl, _, rfl, rfl, rfl, rfl⟩

/-- Wherever it goes, sending a request takes an id and adds the request. -/
theorem sendRead_keeps (s : State) (own : Bool) (loc : Nat) (va : Word) (kind : ReqKind) :
    Keeps [.ids, .requests] s (sendRead s own loc va kind) := by
  rw [sendRead_eq]
  split
  · exact (bump_keeps s).trans (toBank_keeps _ _) (by simp) (by simp)
  · exact (bump_keeps s).trans (toPaths_keeps _ _) (by simp) (by simp)

/-- A thread's own results play no part in whether its write waits behind others on their way. -/
theorem departsAtIssue_setThr (s : State) {t : Thread} (hc : t.counted = s.thr.counted) (hp : t.psq = s.thr.psq) (loc : Nat)
    (rel : Option Release) : departsAtIssue (s.setThr t) loc rel = departsAtIssue s loc rel := by
  have hr : t.released = s.thr.released := by funext r; simp only [Thread.released, hc]
  simp [departsAtIssue, hc, hp, hr]

-- ## A write drops the L1's copy of its line (R85)

theorem l1Drop_keeps (s : State) (loc : Nat) : Keeps [.l1] s (l1Drop s loc) := by
  unfold l1Drop
  split
  · exact keeps_refl _ s
  · refine ⟨rfl, fun p hp => ?_⟩
    cases p with
    | l1 => simp at hp
    | _ => exact (keeps_refl [.l1] s).2 _ hp

@[simp] theorem l1Drop_st (s : State) (loc : Nat) : (l1Drop s loc).st = s.st := by unfold l1Drop; split <;> rfl
@[simp] theorem l1Drop_thr (s : State) (loc : Nat) : (l1Drop s loc).thr = s.thr := by unfold l1Drop; split <;> rfl
@[simp] theorem l1Drop_nextId (s : State) (loc : Nat) : (l1Drop s loc).nextId = s.nextId := by unfold l1Drop; split <;> rfl
@[simp] theorem l1Drop_cur (s : State) (loc : Nat) : (l1Drop s loc).cur = s.cur := by unfold l1Drop; split <;> rfl

-- ## Words that reach their place

/-- What a memory word starts from at its place: the thread, the ids and the requests are those of before. -/
theorem lands_same {x : Source} {write sync lrw : Bool} {loc : Nat} {s s1 : State} (h : Lands x write sync lrw loc s1 s) :
    s1.thr = s.thr ∧ s1.nextId = s.nextId ∧ s1.st.bankq = s.st.bankq ∧ s1.st.paths = s.st.paths :=
  have hstep := lands_step h
  ⟨hstep.thr.trans (popped_thr s x), hstep.nextId.trans (popped_nextId s x), hstep.bankq.trans (by rw [popped_st]),
   hstep.paths.trans (by rw [popped_st])⟩

-- ## ldf and ldt (R142, R153)

/-- An ldf or an ldt at its place: owed at every address; an ldt of another place drops the L1's copy. -/
theorem waitLoadPlan_run {o : Op} {kind : ReqKind} {x : Source} {loc : Nat} {s s1 : State} (h : Lands x false true false loc s1 s)
    (ha : (operand64 s x).toNat % 8 = 0) (hp : amoPending s1 s1.cur loc 8 = false) :
    let t := s1.thr
    let va := operand64 s x
    (waitLoadPlan o kind).run (popped s x) (operand s x) =
      if isOwn va then .done (sendRead (s1.setThr (t.owe s1.nextId [.memO] false none)) true loc va kind)
      else if t.ringFull then .hold none none .mem
      else .done (sendRead ((if kind = .ldt then l1Drop s1 loc else s1).setThr
        ((t.ringTake s1.nextId (some o) va).owe s1.nextId [.memO] false none)) false loc va kind) := by
  obtain ⟨hwalk, ⟨attr, htr⟩, hwatch⟩ := h
  rw [← popped_thr s x] at hwalk htr
  refine (access_lands (more := fun _ _ => none) (decide_eq_false (fun h => h ha)) hwalk htr rfl hwatch).trans ?_
  simp only [hp, Bool.false_eq_true, if_false]

section WaitLoad

variable {i : Words} {o o' : Op} {kind : ReqKind} {x : Source} {loc : Nat} {s s1 : State} {P : State → Prop}

/-- Both words of a waiting load are done where, at its place, it is done within the parts that it may change. -/
theorem waitLoad_done {s2 : State} {ex : List Part} (hshort : ShortWord i.1 ((waitLoadPlan o kind).covered o'))
    (hlong : LongWord i.2 ((waitLoadPlan o kind).covered o')) (h : Lands x false true false loc s1 s)
    (hr : (waitLoadPlan o kind).run (popped s x) (operand s x) = .done s2) (hk : Keeps ([.ids, .owed, .fence, .requests] ++ ex) s1 s2)
    (hex : Part.mode ∉ walks ++ [.ids, .owed, .fence, .requests] ++ ex)
    (sw : Bool) (g : Guard) (hP : ∀ next, s2.thr.mode = .run → P (finish s s2 next sw false)) :
    BothDone i sw g x x s (walks ++ [.ids, .owed, .fence, .requests] ++ ex) (fun _ => P) :=
  bothDone_of_run hshort hlong ⟨⟨rfl, rfl⟩, rfl, rfl, rfl⟩ hr
    ((lands_step h).keeps.trans hk (fun _ hp => List.mem_append_left _ (List.mem_append_left _ hp))
      (fun _ hp => by rw [List.append_assoc]; exact List.mem_append_right _ hp)) hex hP

/-- A result that is owed, with its request sent. -/
theorem owe_sendRead_keeps (s : State) (tag : Nat) (ports : List RPort) (load own : Bool) (loc : Nat) (va : Word) (kind : ReqKind) :
    Keeps [.ids, .owed, .fence, .requests] s (sendRead (s.setThr (s.thr.owe tag ports load none)) own loc va kind) :=
  (owe_keeps s tag ports load none).trans (sendRead_keeps _ own loc va kind) (by simp) (by simp)

/-- The same with a place in the ring (R364). -/
theorem ringTake_owe_sendRead_keeps (s : State) (tag : Nat) (op : Option Op) (ports : List RPort) (load own : Bool) (loc : Nat) (va : Word)
    (kind : ReqKind) : Keeps [.ids, .owed, .fence, .requests, .ring, .cr crSeq] s
      (sendRead (s.setThr ((s.thr.ringTake tag op va).owe tag ports load none)) own loc va kind) :=
  (ringTake_owe_keeps s tag tag op va ports load none).trans (sendRead_keeps _ own loc va kind) (by simp) (by simp)

end WaitLoad

/-- The two waiting loads, with the plan of each. -/
theorem waitLoads_planned : ∀ op ∈ ([((.memLdfShort, .memLdfLong), .ldf), ((.memLdtShort, .memLdtLong), .ldt)] : List (Words × ReqKind)),
    (op.2 = .ldf ∨ op.2 = .ldt) ∧
    ∃ o o', ShortWord op.1.1 ((waitLoadPlan o op.2).covered o') ∧ LongWord op.1.2 ((waitLoadPlan o op.2).covered o') := by
  simp only [List.forall_mem_cons, List.not_mem_nil, false_implies, implies_true, and_true, true_or, or_true, true_and]
  constructor
  all_goals exact ⟨_, _, fun _ _ _ => rfl, fun _ _ _ _ => rfl⟩

/-- Settles O18: both loads are a plan of one shape, which at its place owes mem.o and sends its request to the bank, or on its path. -/
theorem waitingLoadsIssue : Obligations.WaitingLoadsIssue := by
  unfold Obligations.WaitingLoadsIssue
  intro op hop sw g x loc s s1
  obtain ⟨hkind, o, o', hshort, hlong⟩ := waitLoads_planned op hop
  dsimp only
  intro h ha hp
  obtain ⟨hthr, hid, hbankq, hpaths⟩ := lands_same h
  have hrun := waitLoadPlan_run (o := o) (kind := op.2) h ha hp
  have hpass (hldt : op.2 = .ldt) :
      passesWrites (s1.setThr (s1.thr.owe s1.nextId [.memO] false none)) loc op.2 = departsAtIssue s1 loc none := by
    rw [hldt]
    exact departsAtIssue_setThr s1 (t := s1.thr.owe s1.nextId [.memO] false none) rfl rfl loc none
  rw [← hthr, ← hid, ← hbankq, ← hpaths]
  refine ⟨fun hown hgo => ?bank, fun hown hldt hd => ?behind, fun hown hring => ?path⟩
  case bank =>
    refine waitLoad_done (ex := []) hshort hlong h (hrun.trans (if_pos hown)) (owe_sendRead_keeps ..) (by decide) sw g fun next hm => ?_
    have hbank : passesWrites (s1.setThr (s1.thr.owe s1.nextId [.memO] false none)) loc op.2 = true := by
      obtain hldf | hldt := hkind
      · rw [hldf]; rfl
      · exact (hpass hldt).trans (hgo.resolve_left (by rw [hldt]; nofun))
    obtain ⟨ht, -, hsent⟩ := sendRead_bank_effect s1 _ hbank (operand64 s x)
    rw [finish_st]
    exact ⟨owes_finish hm (by rw [ht, ← hthr]; rfl) hid rfl (by rw [← hthr]; rfl), hsent⟩
  case behind =>
    refine waitLoad_done (ex := []) hshort hlong h (hrun.trans (if_pos hown)) (owe_sendRead_keeps ..) (by decide) sw g fun next hm => ?_
    obtain ⟨ht, -, hsent⟩ := sendRead_path_effect s1 _ (own := true) ((hpass hldt).trans hd) (operand64 s x)
    rw [finish_st]
    exact ⟨owes_finish hm (by rw [ht, ← hthr]; rfl) hid rfl (by rw [← hthr]; rfl), hsent⟩
  case path =>
    have hdrop : Keeps [.l1] s1 (if op.2 = .ldt then l1Drop s1 loc else s1) := by
      split
      · exact l1Drop_keeps s1 loc
      · exact keeps_refl _ s1
    have hst : (if op.2 = .ldt then l1Drop s1 loc else s1).st = s1.st := by split <;> simp
    have ht1 : (if op.2 = .ldt then l1Drop s1 loc else s1).thr = s1.thr := by split <;> simp
    have hid1 : (if op.2 = .ldt then l1Drop s1 loc else s1).nextId = s1.nextId := by split <;> simp
    simp only [hown, hring, Bool.false_eq_true, if_false] at hrun
    generalize (if op.2 = .ldt then l1Drop s1 loc else s1) = s' at hrun hdrop hst ht1 hid1
    rw [← ht1, ← hid1] at hrun
    refine waitLoad_done (ex := [.ring, .cr crSeq, .l1]) hshort hlong h hrun
      (hdrop.trans (ringTake_owe_sendRead_keeps ..) (by simp) (by simp +contextual [or_imp])) (by decide) sw g fun next hm => ?_
    obtain ⟨ht, -, hsent⟩ := sendRead_path_effect s' ((s'.thr.ringTake s'.nextId (some o) (operand64 s x)).owe s'.nextId [.memO] false none)
      (own := false) (kind := op.2) (loc := loc) rfl (operand64 s x)
    rw [finish_st, ← hst, ← hid1]
    exact ⟨owes_finish hm (by rw [ht, ← hthr, ← ht1]; rfl) (hid1.trans hid) rfl (by rw [← hthr, ← ht1]; rfl), hsent⟩

end Sys2Proof.Proofs.Sending
end

section
/-! PROOF. Writes on their way (R85, R92, R93, R98, R154, R298): what sending one changes, the posted operations, and the reservation words (R95 to R98). -/

namespace Sys2Proof.Proofs.Sending

open Sys2Proof Sys2Proof.Machine Sys2Proof.Safety Sys2Proof.Slice0 Sys2Proof.Proofs.Words Sys2Proof.Proofs.Loads Sys2Proof.Proofs.SystemWords

-- ## A write goes to its bank, or into the posted-store queue (R154, R298)

/-- The write request of the current slot's word. -/
def writeReq (s : State) (own : Bool) (loc : Nat) (va : Word) (kind : ReqKind) (counted : Bool) : Req :=
  { slot := some s.cur, src := s.src s.cur, tag := s.nextId, counted, kind, loc, va, known := s.thr.floor, rel := s.release?
    waits := if s.release?.isSome then s.waitAll else [], own }

/-- A counted write takes a place in the ring and counts in cr.rsv (R364). -/
def countedThread (s : State) (o : Op) (va : Word) (counted : Bool) : Thread :=
  if counted then (s.thr.ringTake s.nextId (some o) va).count s.nextId (reachOf s va) else s.thr

/-- The floor behind a write: its bytes are its own, but an ste's are not until it is performed. -/
def writeFloor (s : State) (loc : Nat) (kind : ReqKind) (n : Nat) (floor : List (Nat × Nat)) : List (Nat × Nat) :=
  match kind with
  | .ste _ => floor
  | _ => floorAdd floor ((List.range n).map (fun k => (loc + k, s.nextId)))

/-- The writing thread behind its write. -/
def writeThread (s : State) (o : Op) (loc : Nat) (va : Word) (kind : ReqKind) (counted : Bool) (n : Nat) : Thread :=
  { countedThread s o va counted with floor := writeFloor s loc kind n (countedThread s o va counted).floor }

theorem sendWrite_eq (s : State) (o : Op) (own : Bool) (loc : Nat) (va : Word) (kind : ReqKind) (counted : Bool) (n : Nat) :
    sendWrite s o own loc va kind counted n =
      if own && departsAtIssue s loc s.release? then
        toBank (s.bump.setThr (writeThread s o loc va kind counted n)) (writeReq s own loc va kind counted)
      else s.bump.setThr { writeThread s o loc va kind counted n with
        psq := (writeThread s o loc va kind counted n).psq ++ [writeReq s own loc va kind counted] } := rfl

theorem set_psq_keeps (s : State) (l : List Req) : Keeps [.psq] s (s.setThr { s.thr with psq := l }) := by
  refine ⟨rfl, fun p hp => ?_⟩
  cases p with
  | psq => simp at hp
  | others => exact fun i hi => setThr_other s _ i hi
  | _ => simp [same, Thread.pred, Thread.opq, Thread.rpq]

theorem set_floor_keeps (s : State) (l : List (Nat × Nat)) : Keeps [.floor] s (s.setThr { s.thr with floor := l }) := by
  refine ⟨rfl, fun p hp => ?_⟩
  cases p with
  | floor => simp at hp
  | others => exact fun i hi => setThr_other s _ i hi
  | _ => simp [same, Thread.pred, Thread.opq, Thread.rpq]

theorem set_resv_keeps (s : State) (l : List ResRec) : Keeps [.resv] s (s.setThr { s.thr with resv := l }) := by
  refine ⟨rfl, fun p hp => ?_⟩
  cases p with
  | resv => simp at hp
  | others => exact fun i hi => setThr_other s _ i hi
  | _ => simp [same, Thread.pred, Thread.opq, Thread.rpq]

theorem count_keeps (s : State) (tag : Nat) (r : Reach) : Keeps [.counted] s (s.setThr (s.thr.count tag r)) := by
  refine ⟨rfl, fun p hp => ?_⟩
  cases p with
  | counted => simp at hp
  | others => exact fun i hi => setThr_other s _ i hi
  | _ => simp [same, Thread.count, Thread.pred, Thread.opq, Thread.rpq]

/-- Of two writes of the current thread the later stays. -/
theorem setThr_setThr (s : State) (t u : Thread) : (s.setThr t).setThr u = s.setThr u := by
  simp [State.setThr, State.setSlot]

theorem countedThread_keeps (s : State) (o : Op) (va : Word) (counted : Bool) :
    Keeps [.counted, .ring, .cr crSeq] s (s.setThr (countedThread s o va counted)) := by
  cases counted with
  | false => rw [show s.setThr (countedThread s o va false) = s by simp [countedThread, State.setThr, State.setSlot, State.thr]]; exact keeps_refl _ s
  | true =>
    have h := (ringTake_keeps s s.nextId (some o) va).trans
      (count_keeps (s.setThr (s.thr.ringTake s.nextId (some o) va)) s.nextId (reachOf s va)) (c := [.counted, .ring, .cr crSeq]) (by simp) (by simp)
    rwa [setThr_setThr, State.setThr_thr] at h

theorem writeThread_keeps (s : State) (o : Op) (loc : Nat) (va : Word) (kind : ReqKind) (counted : Bool) (n : Nat) :
    Keeps [.floor, .counted, .ring, .cr crSeq] s (s.setThr (writeThread s o loc va kind counted n)) := by
  have h := (countedThread_keeps s o va counted).trans (set_floor_keeps (s.setThr (countedThread s o va counted))
    (writeFloor s loc kind n (countedThread s o va counted).floor)) (c := [.floor, .counted, .ring, .cr crSeq]) (by simp) (by simp)
  rwa [setThr_setThr, State.setThr_thr] at h

/-- The parts that sending a write changes. -/
theorem sendWrite_keeps (s : State) (o : Op) (own : Bool) (loc : Nat) (va : Word) (kind : ReqKind) (counted : Bool) (n : Nat) :
    Keeps [.psq, .requests, .floor, .counted, .ring, .cr crSeq, .ids] s (sendWrite s o own loc va kind counted n) := by
  have hsent : Keeps [.floor, .counted, .ring, .cr crSeq, .ids] s (s.bump.setThr (writeThread s o loc va kind counted n)) :=
    (writeThread_keeps s o loc va kind counted n).trans (bump_keeps _) (by simp) (by simp)
  rw [sendWrite_eq]
  split
  · exact hsent.trans (toBank_keeps _ _) (by simp +contextual) (by simp)
  · have h := hsent.trans (set_psq_keeps (s.bump.setThr (writeThread s o loc va kind counted n))
      ((writeThread s o loc va kind counted n).psq ++ [writeReq s own loc va kind counted]))
      (c := [.psq, .requests, .floor, .counted, .ring, .cr crSeq, .ids]) (by simp +contextual) (by simp)
    rwa [setThr_setThr, State.setThr_thr] at h

theorem countedThread_sent (s : State) (o : Op) (va : Word) (counted : Bool) :
    (countedThread s o va counted).psq = s.thr.psq ∧
    (countedThread s o va counted).counted.map (·.tag) = s.thr.counted.map (·.tag) ++ (if counted then [s.nextId] else []) ∧
    (countedThread s o va counted).ring.map (·.tag) = s.thr.ring.map (·.tag) ++ (if counted then [s.nextId] else []) := by
  cases counted <;> simp [countedThread, Thread.count, Thread.ringTake, Thread.setCr]

/-- A sent write is on its way. -/
theorem sendWrite_sends (s : State) (o : Op) (own : Bool) (loc : Nat) (va : Word) (kind : ReqKind) (counted : Bool) (n : Nat) :
    SendsWrite counted kind loc s (sendWrite s o own loc va kind counted n) := by
  obtain ⟨hpsq, hcounted, hring⟩ := countedThread_sent s o va counted
  rw [sendWrite_eq]
  split
  · have ht : (toBank (s.bump.setThr (writeThread s o loc va kind counted n)) (writeReq s own loc va kind counted)).thr =
        writeThread s o loc va kind counted n := by simp [toBank]
    rw [SendsWrite, ht]
    exact ⟨⟨writeReq s own loc va kind counted, rfl, rfl, rfl, rfl, rfl, .inr ⟨hpsq, _, rfl, rfl⟩⟩, hcounted, hring⟩
  · rw [SendsWrite, State.setThr_thr]
    exact ⟨⟨writeReq s own loc va kind counted, rfl, rfl, rfl, rfl, rfl, .inl ⟨by rw [← hpsq]; rfl, rfl⟩⟩, hcounted, hring⟩

/-- Where a write starts from matters by its ids, its slot and the requests alone. -/
theorem sendsWrite_from {counted : Bool} {kind : ReqKind} {loc : Nat} {s s' t : State} (h : SendsWrite counted kind loc s' t)
    (hid : s'.nextId = s.nextId) (hcur : s'.cur = s.cur) (hbankq : s'.st.bankq = s.st.bankq) (hpsq : s'.thr.psq = s.thr.psq)
    (hcounted : s'.thr.counted = s.thr.counted) (hring : s'.thr.ring = s.thr.ring) : SendsWrite counted kind loc s t := by
  simpa only [SendsWrite, hid, hcur, hbankq, hpsq, hcounted, hring] using h

/-- Issuing leaves the write on its way. -/
theorem sendsWrite_issued {counted sw : Bool} {x : Source} {kind : ReqKind} {loc : Nat} {s t u : State} (h : SendsWrite counted kind loc s t)
    (hk : Keeps (issued sw x) t u) : SendsWrite counted kind loc s u := by
  have hkept (p : Part) (hp : p ∉ [.pc, .cr crQleft, .cr crWp, .expiry, .relMark, .book, .turns, .mode, .fence]) (hs : ∀ i, p ≠ .stream i) :
      same t u p := hk.2 p (not_mem_issued hp hs sw x)
  have hpsq : u.thr.psq = t.thr.psq := hkept .psq (by decide) nofun
  have hcounted : u.thr.counted = t.thr.counted := hkept .counted (by decide) nofun
  have hring : u.thr.ring = t.thr.ring := hkept .ring (by decide) nofun
  obtain ⟨-, -, hbankq, -⟩ := hkept .requests (by decide) nofun
  simpa only [SendsWrite, hpsq, hcounted, hring, hbankq] using h

/-- A word whose plan asks and checks nothing before its run is done where its run is. -/
theorem done_of_simple {sw : Bool} {g : Guard} {x : Source} {p : Plan} {s s1 : State} {ex : List Part} {P : State → Prop} (hp : Simple p)
    (h : CanIssue g x s) (hr : p.run (popped s x) (operand s x) = .done s1) (hk : Keeps ex (popped s x) s1) (hex : Part.mode ∉ ex)
    (hP : ∀ t, Keeps (issued sw x) s1 t → P t) : Done 4 sw x ex s P (issueLong sw g x p s) :=
  have hm : s1.thr.mode = s.thr.mode := by rw [hk.2 .mode hex, popped_thr]
  done_of_plan h (hp.admits s) (by rw [hp.miss]) (by rw [hp.fault7]) (by rw [hp.held7]) hr hk hm hP

-- ## Posted operations (R92, R93)

/-- A posted operation at its place, with room in its queues. -/
theorem amoPlan_run {o : Op} {k : AmoKind} {x : Source} {loc : Nat} {s s1 : State} (h : Lands x true false false loc s1 s)
    (ha : (operand64 s x).toNat % 8 = 0) (hheld : storeHeld s.thr true = false) (hmx : (isOwn (operand64 s x) && mxReading s1) = false) :
    (amoPlan o k).run (popped s x) (operand s x) =
      .done (sendWrite (l1Drop s1 loc) o (isOwn (operand64 s x)) loc (operand64 s x) (.amo k (s.thr.opw .amoB)) true 8) := by
  have hthr := (lands_same h).1
  obtain ⟨hwalk, ⟨attr, htr⟩, hwatch⟩ := h
  rw [← popped_thr s x] at hwalk htr
  refine (access_lands (more := fun _ _ => none) (decide_eq_false (fun h => h ha)) hwalk htr rfl hwatch).trans ?_
  rw [hthr, hheld, Bool.false_or, hmx, if_neg Bool.false_ne_true]

/-- The parts that a write changes, from its translation on. -/
theorem write_keeps {x : Source} {write sync lrw : Bool} {loc : Nat} {s s1 s2 : State} (h : Lands x write sync lrw loc s1 s)
    (hk : Keeps [.psq, .requests, .floor, .counted, .ring, .cr crSeq, .l1, .ids] s1 s2) : Keeps writeParts (popped s x) s2 :=
  (lands_step h).keeps.trans hk (fun _ hp => List.mem_append_left _ hp) (fun _ hp => List.mem_append_right _ hp)

theorem drop_sendWrite_keeps (s : State) (o : Op) (own : Bool) (loc : Nat) (va : Word) (kind : ReqKind) (counted : Bool) (n : Nat) :
    Keeps [.psq, .requests, .floor, .counted, .ring, .cr crSeq, .l1, .ids] s (sendWrite (l1Drop s loc) o own loc va kind counted n) :=
  (l1Drop_keeps s loc).trans (sendWrite_keeps ..) (by simp) (by simp +contextual [or_imp])

theorem postedAtomics_planned : ∀ op ∈ ([(.amoAdd, .add), (.amoMin, .min), (.amoMax, .max), (.amoAnd, .and), (.amoOr, .or), (.amoXor, .xor)] :
    List ((Bool → Guard → Source → Instr) × AmoKind)), ∃ o o', LongWord op.1 ((amoPlan o op.2).covered o') := by
  simp only [List.forall_mem_cons, List.not_mem_nil, false_implies, implies_true, and_true]
  and_intros
  all_goals exact ⟨_, _, fun _ _ _ _ => rfl⟩

theorem amoOp_min_toInt (m b : Word) : (amoOp .min m b).toInt = min m.toInt b.toInt := by
  simp only [amoOp, BitVec.slt, decide_eq_true_eq]
  split <;> omega

theorem amoOp_max_toInt (m b : Word) : (amoOp .max m b).toInt = max m.toInt b.toInt := by
  simp only [amoOp, BitVec.slt, decide_eq_true_eq]
  split <;> omega

/-- Settles O22: the six operations are a plan of one shape, which at its place sends a counted write. -/
theorem postedAtomicsAreSent : Obligations.PostedAtomicsAreSent := by
  unfold Obligations.PostedAtomicsAreSent
  refine ⟨fun m b => ⟨rfl, rfl, rfl, rfl, amoOp_min_toInt m b, amoOp_max_toInt m b⟩, fun op hop sw g x loc s s1 hissue h ha hheld hmx => ?_⟩
  obtain ⟨o, o', hlong⟩ := postedAtomics_planned op hop
  obtain ⟨hthr, hid, hbankq, -⟩ := lands_same h
  have hcur : s1.cur = s.cur := (lands_step h).keeps.1.trans (popped_cur s x)
  rw [hlong]
  refine done_of_simple (p := (amoPlan o op.2).covered o') ⟨⟨rfl, rfl⟩, rfl, rfl, rfl⟩ hissue (amoPlan_run h ha hheld hmx)
    (write_keeps h (drop_sendWrite_keeps ..)) (by decide) fun t ht => ?_
  refine sendsWrite_issued (sendsWrite_from (sendWrite_sends ..) ?_ ?_ ?_ ?_ ?_ ?_) ht
  all_goals simp [hthr, hid, hbankq, hcur]

-- ## Reservation words (R95 to R98)

/-- What the group of an amo.lrw rests on is the same at its place. -/
theorem lands_group {x : Source} {write sync lrw : Bool} {loc : Nat} {s s1 : State} (h : Lands x write sync lrw loc s1 s) :
    s1.net = s.net ∧ s1.core.bar = s.core.bar ∧ (popped s x).fw = s.fw := by
  have hpop := popped_keeps false s x
  have hstep := (lands_step h).keeps
  have hkept (p : Part) (hp : p ∉ [.pc, .cr crQleft, .cr crWp, .expiry, .relMark, .book, .turns, .mode, .fence]) (hs : ∀ i, p ≠ .stream i) :
      same s (popped s x) p := hpop.2 p (not_mem_issued hp hs false x)
  have hnet : (popped s x).net = s.net := hkept .net (by decide) nofun
  have hnet1 : s1.net = (popped s x).net := hstep.2 .net (by decide)
  obtain ⟨-, -, hbar, -⟩ := hkept .coreRegs (by decide) nofun
  obtain ⟨-, -, hbar1, -⟩ := hstep.2 .coreRegs (by decide)
  exact ⟨hnet1.trans hnet, hbar1.trans hbar, hkept .fw (by decide) nofun⟩

theorem openGen_congr {s t : State} (hnet : t.net = s.net) (harr : t.thr.arrivals = s.thr.arrivals) : openGen t = openGen s := by
  funext k
  simp only [openGen, groupOf, hnet, harr]

theorem selectorBad_congr {s t : State} (hbar : t.core.bar = s.core.bar) : selectorBad t = selectorBad s := by
  funext wide grp
  simp only [selectorBad, hbar]

theorem groupKey_congr {s t : State} (hfw : t.fw = s.fw) : groupKey t = groupKey s := by
  funext wide grp
  simp only [groupKey, hfw]

/-- The group that amo.t names (R95). -/
def lrwKey (s : State) : GroupKey := groupKey s ((s.thr.opw .amoT).getLsbD 24) (field (s.thr.opw .amoT) 23 16)

/-- The request of an amo.lrw: its group, the generation not yet arrived at, and its ticket (R95). -/
def lrwKind (s : State) : ReqKind := .lrw (lrwKey s) (openGen s (lrwKey s)) (field (s.thr.opw .amoT) 15 0)

/-- The thread of an amo.lrw that has been sent: amo.o owed, a place in the ring, and its word in the record, waiting. -/
def lrwThread (s : State) (loc : Nat) (va : Word) : Thread :=
  { (s.thr.ringTake s.nextId (some .amoLrw) va).owe s.nextId [.amoO] false none with resv := s.thr.resv ++ [{ va, loc, granted := false }] }

theorem lrwThread_keeps (s : State) (loc : Nat) (va : Word) :
    Keeps [.owed, .fence, .resv, .ring, .cr crSeq] s (s.setThr (lrwThread s loc va)) := by
  have h := (ringTake_owe_keeps s s.nextId s.nextId (some .amoLrw) va [.amoO] false none).trans
    (set_resv_keeps (s.setThr ((s.thr.ringTake s.nextId (some .amoLrw) va).owe s.nextId [.amoO] false none))
      (s.thr.resv ++ [{ va, loc, granted := false }])) (c := [.owed, .fence, .resv, .ring, .cr crSeq]) (by simp +contextual [or_imp]) (by simp)
  rwa [setThr_setThr, State.setThr_thr] at h

/-- An amo.lrw at its place, with a legal amo.t and room in the record and the ring. -/
theorem amoLrwPlan_run {x : Source} {loc : Nat} {s s1 : State} (h : Lands x true false true loc s1 s) (ha : (operand64 s x).toNat % 8 = 0)
    (hbits : field (s.thr.opw .amoT) 63 25 = 0)
    (hsel : selectorBad s (lrwKey s).wide (lrwKey s).grp = false)
    (hroom : s.thr.resv.length < 4) (hnew : s.thr.resv.any (fun e => e.va == operand64 s x) = false)
    (hring : s.thr.ringFull = false) (hp : amoPending s1 s1.cur loc 8 = false) :
    amoLrwPlan.run (popped s x) (operand s x) =
      .done (sendRead ((l1Drop s1 loc).setThr (lrwThread s1 loc (operand64 s x))) (isOwn (operand64 s x)) loc (operand64 s x)
        (lrwKind s)) := by
  have hthr := (lands_same h).1
  obtain ⟨hnet, hbar, hfw⟩ := lands_group h
  have hgen : openGen s1 = openGen s := openGen_congr hnet (by rw [hthr])
  obtain ⟨hwalk, ⟨attr, htr⟩, hwatch⟩ := h
  rw [← popped_thr s x] at hwalk htr
  refine (access_lands (decide_eq_false (fun h => h ha)) hwalk htr ?_ hwatch).trans ?_
  · dsimp only
    have hlegal : ¬(field (s.thr.opw .amoT) 63 25 ≠ 0 ∨ selectorBad s (lrwKey s).wide (lrwKey s).grp = true) := by
      rintro (hb | hs)
      exacts [hb hbits, absurd (hsel.symm.trans hs) Bool.false_ne_true]
    have hfits : ¬(4 ≤ s.thr.resv.length ∨ s.thr.resv.any (fun e => e.va == operand64 s x) = true) := by
      rintro (hfull | hold)
      exacts [absurd hfull (by omega), absurd (hnew.symm.trans hold) Bool.false_ne_true]
    rw [popped_thr, groupKey_congr hfw, selectorBad_congr hbar, hthr]
    exact (if_neg hlegal).trans (if_neg hfits)
  · dsimp only
    rw [popped_thr, groupKey_congr hfw, hgen, hthr, hring, hp, if_neg (by simp), lrwThread, hthr]
    rfl

/-- The parts that an amo.lrw changes at its place. -/
theorem lrw_keeps (s : State) (own : Bool) (loc : Nat) (va : Word) (kind : ReqKind) :
    Keeps [.owed, .fence, .resv, .ring, .cr crSeq, .requests, .l1, .ids] s
      (sendRead ((l1Drop s loc).setThr (lrwThread s loc va)) own loc va kind) := by
  have ht : lrwThread s loc va = lrwThread (l1Drop s loc) loc va := by simp [lrwThread]
  have h := (l1Drop_keeps s loc).trans (lrwThread_keeps (l1Drop s loc) loc va) (c := [.owed, .fence, .resv, .ring, .cr crSeq, .l1])
    (by simp) (by simp +contextual [or_imp])
  rw [ht]
  exact h.trans (sendRead_keeps ..) (by simp +contextual [or_imp]) (by simp)

/-- An amo.lrw's request is at its bank, or on its path. -/
theorem lrw_sent (s : State) (t : Thread) (own : Bool) (loc : Nat) (va : Word) (key : GroupKey) (gen ticket : Nat) :
    let u := sendRead (s.setThr t) own loc va (.lrw key gen ticket)
    u.thr = t ∧ ∃ r : Req, r.kind = .lrw key gen ticket ∧ r.loc = loc ∧ r.tag = s.nextId ∧
      ((∃ b : BankReq, b.req = r ∧ u.st.bankq = s.st.bankq ++ [b] ∧ u.st.paths = s.st.paths) ∨
       (u.st.paths = s.st.paths ++ [r] ∧ u.st.bankq = s.st.bankq)) := by
  cases own with
  | true =>
    obtain ⟨ht, hpaths, b, hbankq, hkind, hloc, htag⟩ := sendRead_bank_effect s t (kind := .lrw key gen ticket) (loc := loc) rfl va
    exact ⟨ht, b.req, hkind, hloc, htag, .inl ⟨b, rfl, hbankq, hpaths⟩⟩
  | false =>
    obtain ⟨ht, hbankq, r, hpaths, hkind, hloc, htag⟩ := sendRead_path_effect s t (own := false) (kind := .lrw key gen ticket) (loc := loc) rfl va
    exact ⟨ht, r, hkind, hloc, htag, .inr ⟨hpaths, hbankq⟩⟩

/-- An amo.scr's address is its word, with bit 0 for the mark that says last (log 28). -/
theorem scr_address {last : Bool} {word a : Word} (ha : a = word ||| (if last then 1 else 0)) (hw : word.toNat % 8 = 0) :
    a &&& ~~~(1#64) = word ∧ field a 2 1 = 0 ∧ a.getLsbD 0 = last := by
  have h0 : word[0] = false := by
    rw [← BitVec.getLsbD_eq_getElem, BitVec.getLsbD, Nat.testBit_zero]
    exact decide_eq_false (by omega)
  subst ha
  refine ⟨BitVec.eq_of_getLsbD_eq fun i hi => ?_, ?_, ?_⟩
  · cases i with
    | zero => cases last <;> simp [h0]
    | succ i => cases last <;> simp [hi, -BitVec.reduceNot]
  · rw [field, BitVec.toNat_or, Nat.shiftRight_eq_div_pow, pow_one, Nat.or_div_two]
    cases last <;> simp <;> omega
  · cases last <;> simp [h0]

/-- An amo.scr of a held word at its place. -/
theorem amoScrPlan_run {x : Source} {last : Bool} {word : Word} {loc : Nat} {s s1 : State}
    (ha : operand64 s x = word ||| (if last then 1 else 0)) (hw : word.toNat % 8 = 0)
    (hwalk : dataWalk (popped s x) s.thr.walker word = none)
    (htr : ∃ attr, translate (popped s x) s.thr.walker { user := !s.thr.sup, fetch := false, write := true, sync := false } word = .ok loc attr s1)
    (hwatch : watched s1 false true word = none) (hfence : s1.thr.fenced .amoO = false)
    (hrec : s1.thr.resv.any (fun e => e.va == word) = true) (hheld : storeHeld s1.thr true = false) (hmx : (isOwn word && mxReading s1) = false) :
    amoScrPlan.run (popped s x) (operand s x) =
      .done (sendWrite ((l1Drop s1 loc).setThr { s1.thr with resv := s1.thr.resv.filter (fun e => e.va != word) }) .amoScr (isOwn word) loc word
        (.scr (s1.thr.opw .amoB) last) true 8) := by
  obtain ⟨hword, hlow, hlast⟩ := scr_address ha hw
  obtain ⟨attr, htr⟩ := htr
  rw [← popped_thr s x] at hwalk htr
  rw [amoScrPlan]
  dsimp only
  rw [hlow, if_neg (by simp), hword]
  refine (access_lands rfl hwalk htr (by simp [hfence, hrec]) hwatch).trans ?_
  rw [hheld, hmx, hlast]
  rfl

/-- The parts that an amo.scr changes at its place. -/
theorem scr_keeps (s : State) (o : Op) (own : Bool) (loc : Nat) (va : Word) (kind : ReqKind) (l : List ResRec) :
    Keeps [.resv, .psq, .requests, .floor, .counted, .ring, .cr crSeq, .l1, .ids] s
      (sendWrite ((l1Drop s loc).setThr { s.thr with resv := l }) o own loc va kind true 8) := by
  have h := (l1Drop_keeps s loc).trans (set_resv_keeps (l1Drop s loc) l) (c := [.resv, .l1]) (by simp) (by simp)
  rw [l1Drop_thr] at h
  exact h.trans (sendWrite_keeps ..) (by simp +contextual [or_imp]) (by simp +contextual [or_imp])

/-- Settles O23: each word's plan, at its place, with the request that it sends and the record that it leaves. -/
theorem reservationWordsAreSent : Obligations.ReservationWordsAreSent := by
  unfold Obligations.ReservationWordsAreSent
  intro sw g x loc s s1 hissue
  dsimp only
  refine ⟨fun h ha hbits hsel hroom hnew hring hp => ?lrw, fun last word ha hw hwalk htr hwatch hfence hrec hheld hmx => ?scr⟩
  case lrw =>
    obtain ⟨hthr, hid, hbankq, hpaths⟩ := lands_same h
    refine done_of_simple (p := amoLrwPlan.covered .amoLrw) ⟨⟨rfl, rfl⟩, rfl, rfl, rfl⟩ hissue (amoLrwPlan_run h ha hbits hsel hroom hnew hring hp)
      ((lands_step h).keeps.trans (lrw_keeps ..) (fun _ hp => List.mem_append_left _ hp) (fun _ hp => List.mem_append_right _ hp))
      (by decide) fun t hk => ?_
    have hkept (p : Part) (hp : p ∉ [.pc, .cr crQleft, .cr crWp, .expiry, .relMark, .book, .turns, .mode, .fence]) (hs : ∀ i, p ≠ .stream i) :=
      hk.2 p (not_mem_issued hp hs sw x)
    obtain ⟨ht, r, hkind, hloc, htag, hsent⟩ := lrw_sent (l1Drop s1 loc) (lrwThread s1 loc (operand64 s x)) (isOwn (operand64 s x)) loc
      (operand64 s x) (lrwKey s) (openGen s (lrwKey s)) (field (s.thr.opw .amoT) 15 0)
    have howed := (hkept .owed (by decide) nofun).trans (congrArg Thread.owed ht)
    have hresv := (hkept .resv (by decide) nofun).trans (congrArg Thread.resv ht)
    obtain ⟨hkpaths, -, hkbankq, -⟩ := hkept .requests (by decide) nofun
    refine ⟨⟨_, howed.trans (by rw [lrwThread, hthr]; rfl), hid, rfl, by rw [← hthr]; rfl⟩, hresv.trans (by rw [lrwThread, hthr]), r, hkind, hloc,
      htag.trans ((l1Drop_nextId s1 loc).trans hid), ?_⟩
    rw [hkpaths, hkbankq, ← hpaths, ← hbankq, ← l1Drop_st s1 loc]
    exact hsent
  case scr =>
    have hstep := translate_step rfl hwalk htr.choose_spec
    have hthr : s1.thr = s.thr := hstep.thr.trans (popped_thr s x)
    have hcur : s1.cur = s.cur := hstep.keeps.1.trans (popped_cur s x)
    have hid : s1.nextId = s.nextId := hstep.nextId.trans (popped_nextId s x)
    have hbankq : s1.st.bankq = s.st.bankq := hstep.bankq.trans (by rw [popped_st])
    rw [← hthr] at hfence hrec hheld
    refine done_of_simple (p := amoScrPlan.covered .amoScr) ⟨⟨rfl, rfl⟩, rfl, rfl, rfl⟩ hissue
      (amoScrPlan_run ha hw hwalk htr hwatch hfence hrec hheld hmx)
      (hstep.keeps.trans (scr_keeps ..) (by simp +contextual [writeParts, walks, or_imp]) (by simp +contextual [writeParts, or_imp]))
      (by decide) fun t hk => ⟨?_, ?_⟩
    · rw [← hthr]
      refine sendsWrite_issued (sendsWrite_from (sendWrite_sends ..) ?_ ?_ ?_ ?_ ?_ ?_) hk
      all_goals simp [hthr, hid, hbankq, hcur]
    · have hsent := (sendWrite_keeps ((l1Drop s1 loc).setThr { s1.thr with resv := s1.thr.resv.filter (fun e => e.va != word) }) .amoScr (isOwn word)
        loc word (.scr (s1.thr.opw .amoB) last) true 8).2 .resv (by decide)
      exact (hk.2 .resv (not_mem_issued (p := .resv) (by decide) nofun sw x)).trans (hsent.trans (by simp [hthr]))

end Sys2Proof.Proofs.Sending
end

section
/-! PROOF. A shootdown leaves the TLB entries of clusters outside its scope (R77), so that not every entry that it matches is gone. -/

namespace Sys2Proof.Proofs.Points

open Sys2Proof Sys2Proof.Machine Sys2Proof.Safety Sys2Proof.Slice0

/-- An entry of another cluster's TLB, outside a shootdown's scope, stays (R77). -/
theorem mem_shoot_tlb2 {s : State} {self : Nat} {e : Tlbi} {y : TlbEntry} (hy : y ∈ s.st.tlb2)
    (hfar : meets e.scope self (.cluster y.cluster) = false) : y ∈ (shoot s self e).st.tlb2 := by
  unfold shoot
  dsimp only
  split <;> exact List.mem_filter.mpr ⟨hy, by simp [hfar]⟩

/-- A slot's shootdown of every entry (R76), whose scope is the thread's own core (R300). -/
def ownShootdown : Tlbi := { slot := 0, tag := 0, kind := 2, cid := 0, va := 0, scope := BitVec.ofNat 42 (2 ^ 41), sent := false, waits := [] }

/-- An entry of the TLB of cluster 1; core (0, 0) stands in cluster 0. -/
def farEntry : TlbEntry := { cluster := 1, cid := 0, va := 0x10000, size := 0x10000, pa := 0x20000, attr := 0b01111 }

/-- The reset machine with that shootdown, not sent, and that entry. -/
def shootingState : State := State.reset.onSt (fun st => { st with tlb2 := [farEntry], tlbis := [ownShootdown] })

/-- Refutes O47, at its last part: `shootingState` sends its shootdown, whose scope has the cluster of its core, and the entry of cluster 1,
outside that scope, stays in the list of the clusters' TLBs though the shootdown's kind matches it. -/
theorem not_orderingPointsPerform : ¬ Obligations.OrderingPointsPerform := by
  unfold Obligations.OrderingPointsPerform
  intro h
  obtain ⟨-, -, -, -, -, -, -, -, -, -, hsend⟩ := h shootingState
  obtain ⟨t, ht, -, -, hgone, -⟩ := hsend 0 ownShootdown (by decide) rfl (by decide)
  have hout : exec (.tlbiAcknowledge (.own 0)) shootingState = .next ((shoot shootingState shootingState.coreId ownShootdown).onSt (fun st => { st with
      tlbis := st.tlbis.map (fun x => if x.tag = ownShootdown.tag then { x with sent := true, waits := unordered shootingState } else x) })) := by
    rfl
  have hstays : farEntry ∈ (shoot shootingState shootingState.coreId ownShootdown).st.tlb2 :=
    mem_shoot_tlb2 (List.mem_singleton.mpr rfl) (by decide)
  rw [hout] at ht
  cases ht
  exact absurd (hgone (by decide) farEntry hstays) (by decide)

end Sys2Proof.Proofs.Points
end

section
/-! PROOF. cpy.go (R101 to R105, R109, R114, R128): a copy without a fault enters its core's queue, takes its track sides, and owes its status. -/

namespace Sys2Proof.Proofs.Copies

open Sys2Proof Sys2Proof.Machine Sys2Proof.Safety Sys2Proof.Slice0 Sys2Proof.Proofs.Words Sys2Proof.Proofs.Loads Sys2Proof.Proofs.SystemWords
  Sys2Proof.Proofs.Sending

-- ## The sides of a copy (R102, R104)

/-- The selectors of a copy's track sides. -/
def trackSides (c : Word) (v : Vector Word 4) : List Word :=
  (if ctlStrk c then [v[(0 : Fin 4)]] else []) ++ (if ctlDtrk c then [v[(1 : Fin 4)]] else [])

/-- The addresses of a copy's other sides. -/
def addrSides (c : Word) (v : Vector Word 4) : List Word :=
  (if ctlStrk c then [] else [v[(0 : Fin 4)]]) ++ (if ctlDtrk c then [] else [v[(1 : Fin 4)]])

/-- Half of a track side's positions, as 16-byte pairs. -/
def sideHalf (v : Vector Word 4) : Nat := x2Rows v[(2 : Fin 4)] * x2Len v[(2 : Fin 4)] / 16

/-- Two track sides name two tracks, or the combination is refused. -/
theorem trackSides_nodup {c : Word} {v : Vector Word 4} (h : cpyClash c v = false) : ((trackSides c v).map selTrack).Nodup := by
  unfold trackSides
  cases hs : ctlStrk c <;> cases hd : ctlDtrk c
  case true.true =>
    have hne : selTrack v[(0 : Fin 4)] ≠ selTrack v[(1 : Fin 4)] := by
      obtain ⟨-, hne⟩ := by simpa [cpyClash, hs, hd] using h
      exact hne
    simpa using hne
  all_goals simp

theorem cpyFault_eq (s : State) (c : Word) : cpyFault s c =
    if ctlSwp c && !s.thr.sup then some (causeOf 3)
    else if cpyBad c s.thr.x || cpyClash c s.thr.x then some reservedPort
    else if !ctlSwp c && (trackSides c s.thr.x).any (fun v => decide (512 < selStart v + sideHalf s.thr.x)) then some reservedPort
    else ((if ctlSwp c then none else (trackSides c s.thr.x).findSome? (cpyOwner s)).or ((addrSides c s.thr.x).findSome? cpyAlign)).or
      ((addrSides c s.thr.x).findSome? cpyRange) := rfl

/-- No row of R104 refuses the copy. -/
theorem cpyFault_none {s : State} {c : Word} (hbad : cpyBad c s.thr.x = false) (hclash : cpyClash c s.thr.x = false)
    (hsup : ctlSwp c = true → s.thr.sup = true)
    (hsides : ctlSwp c = false → ∀ y ∈ trackSides c s.thr.x, selStart y + sideHalf s.thr.x ≤ 512 ∧
      (s.track (selTrack y)).owner = some (ownerOf s s.cur))
    (haddrs : ∀ y ∈ addrSides c s.thr.x, field y 2 0 = 0 ∧ classify y ≠ .nonCanon ∧ classify y ≠ .hole) : cpyFault s c = none := by
  have hlevel : (ctlSwp c && !s.thr.sup) = false := by
    cases hc : ctlSwp c
    · rfl
    · simp [hsup hc]
  have hrange : (!ctlSwp c && (trackSides c s.thr.x).any (fun v => decide (512 < selStart v + sideHalf s.thr.x))) = false := by
    cases hc : ctlSwp c
    · simpa using fun y hy => (hsides hc y hy).1
    · rfl
  have howner : (if ctlSwp c then none else (trackSides c s.thr.x).findSome? (cpyOwner s)) = none := by
    cases hc : ctlSwp c
    · simpa using fun y hy => by simp [cpyOwner, (hsides hc y hy).2]
    · rfl
  have halign : (addrSides c s.thr.x).findSome? cpyAlign = none := by
    simpa using fun y hy => by simp [cpyAlign, (haddrs y hy).1]
  have hclass : (addrSides c s.thr.x).findSome? cpyRange = none := by
    refine List.findSome?_eq_none_iff.mpr fun y hy => ?_
    obtain ⟨-, hcanon, hhole⟩ := haddrs y hy
    unfold cpyRange
    split <;> first | contradiction | rfl
  rw [cpyFault_eq, hlevel, hbad, hclash, hrange, howner, halign, hclass]
  rfl

-- ## A side takes its place in its track's queue (R114, R128, R134)

/-- The distance that a side charges its thread with (R128). -/
def sideShift (half : Nat) (v : Word) (k : Track) : Nat := Int.natAbs ((selStart v : Int) - k.h) + half - 1

/-- A track behind a side that takes it. -/
def sideTrack (c : Word) (tag half : Nat) (v : Word) (k : Track) : Track :=
  { k with h := if ctlSwp c then k.h else selStart v + half - 1, queue := k.queue ++ [.copy tag] }

theorem charge_keeps (s : State) (d : Nat) : Keeps [.cr crShift] s (s.setThr (s.thr.charge d)) := by
  refine ⟨rfl, fun p hp => ?_⟩
  cases p with
  | others => exact fun i hi => setThr_other s _ i hi
  | cr i =>
    have hi : i ≠ crShift := by rintro rfl; simp at hp
    simp only [same, State.setThr_thr, Thread.charge, Thread.setCr, vector_set_other _ _ hi]
  | _ => simp [same, Thread.charge, Thread.setCr, Thread.pred, Thread.opq, Thread.rpq]

theorem setTrack_keeps (s : State) (n : Fin 32) (k : Track) : Keeps [.track n] s (s.setTrack n k) := by
  refine ⟨rfl, fun p hp => ?_⟩
  cases p with
  | track m =>
    have hm : m ≠ n := by rintro rfl; simp at hp
    exact vector_set_other _ _ hm
  | _ => exact (keeps_refl [.track n] s).2 _ hp

@[simp] theorem setTrack_track_same (s : State) (n : Fin 32) (k : Track) : (s.setTrack n k).track n = k := by
  simp [State.setTrack, State.track]

/-- A side sets its track, and without SWP charges its thread. -/
theorem takeSide_eq (s : State) (c : Word) (tag half : Nat) (v : Word) :
    takeSide s c tag half v = (if ctlSwp c then s else s.setThr (s.thr.charge (sideShift half v (s.track (selTrack v))))).setTrack (selTrack v)
      (sideTrack c tag half v (s.track (selTrack v))) := by
  unfold takeSide sideTrack
  cases ctlSwp c <;> rfl

theorem takeSide_keeps (s : State) (c : Word) (tag half : Nat) (v : Word) :
    Keeps [.cr crShift, .track (selTrack v)] s (takeSide s c tag half v) := by
  rw [takeSide_eq]
  refine Keeps.trans (a := [.cr crShift]) ?_ (setTrack_keeps _ _ _) (by simp) (by simp)
  split
  · exact keeps_refl _ s
  · exact charge_keeps s _

theorem takeSide_track (s : State) (c : Word) (tag half : Nat) (v : Word) :
    (takeSide s c tag half v).track (selTrack v) = sideTrack c tag half v (s.track (selTrack v)) := by
  rw [takeSide_eq, setTrack_track_same]

/-- A side leaves every other track alone. -/
theorem takeSide_track_other (s : State) (c : Word) (tag half : Nat) {v : Word} {n : Fin 32} (h : n ≠ selTrack v) :
    (takeSide s c tag half v).track n = s.track n :=
  (takeSide_keeps s c tag half v).2 (.track n) (by simpa using h)

theorem takeSide_shift (s : State) (c : Word) (tag half : Nat) (v : Word) :
    (takeSide s c tag half v).thr.cr[crShift] = if ctlSwp c then s.thr.cr[crShift] else
      BitVec.ofNat 64 ((field s.thr.cr[crShift] 47 0 + sideShift half v (s.track (selTrack v))) % 2 ^ 48) := by
  rw [takeSide_eq]
  split
  · rfl
  · exact (congrArg (fun t : Thread => t.cr[crShift]) (State.setThr_thr s _)).trans (by simp [Thread.charge, Thread.setCr])

/-- All sides in turn. -/
abbrev takeSides (s : State) (c : Word) (tag half : Nat) (l : List Word) : State := l.foldl (fun s v => takeSide s c tag half v) s

theorem takeSides_keeps (c : Word) (tag half : Nat) (l : List Word) (s : State) :
    Keeps (.cr crShift :: l.map (fun v => .track (selTrack v))) s (takeSides s c tag half l) := by
  induction l generalizing s with
  | nil => exact keeps_refl _ s
  | cons v l ih => exact (takeSide_keeps s c tag half v).trans (ih _) (by simp) (by simp +contextual)

/-- Each of several sides on different tracks takes its track as it stood. -/
theorem takeSides_track (c : Word) (tag half : Nat) {l : List Word} (hl : (l.map selTrack).Nodup) (s : State) :
    ∀ y ∈ l, (takeSides s c tag half l).track (selTrack y) = sideTrack c tag half y (s.track (selTrack y)) := by
  induction l generalizing s with
  | nil => simp
  | cons v l ih =>
    rw [List.map_cons, List.nodup_cons] at hl
    obtain ⟨hv, hl⟩ := hl
    intro y hy
    obtain rfl | hy := List.mem_cons.mp hy
    · have hkept : (takeSides (takeSide s c tag half y) c tag half l).track (selTrack y) = (takeSide s c tag half y).track (selTrack y) :=
        (takeSides_keeps c tag half l _).2 (.track (selTrack y)) (by simpa [eq_comm] using hv)
      exact hkept.trans (takeSide_track s c tag half y)
    · have hne : selTrack y ≠ selTrack v := fun he => hv (he ▸ List.mem_map_of_mem hy)
      exact (ih hl _ y hy).trans (by rw [takeSide_track_other s c tag half hne])

/-- With SWP, or without a track side, nothing is charged. -/
theorem takeSides_shift_kept {c : Word} (tag half : Nat) {l : List Word} (h : ctlSwp c = true ∨ l = []) (s : State) :
    (takeSides s c tag half l).thr.cr[crShift] = s.thr.cr[crShift] := by
  induction l generalizing s with
  | nil => rfl
  | cons v l ih =>
    have hc := h.resolve_right (List.cons_ne_nil v l)
    exact (ih (.inl hc) _).trans ((takeSide_shift s c tag half v).trans (if_pos hc))

/-- Without SWP the thread is charged with the distances of all sides. -/
theorem takeSides_shift {c : Word} (hc : ctlSwp c = false) (tag half : Nat) (v : Word) {l : List Word}
    (hl : ((v :: l).map selTrack).Nodup) (s : State) :
    (takeSides s c tag half (v :: l)).thr.cr[crShift] = BitVec.ofNat 64 ((field s.thr.cr[crShift] 47 0 +
      ((v :: l).map (fun y => sideShift half y (s.track (selTrack y)))).sum) % 2 ^ 48) := by
  have hfirst := (takeSide_shift s c tag half v).trans (if_neg (by simp [hc]))
  induction l generalizing s v with
  | nil => simpa using hfirst
  | cons w l ih =>
    rw [List.map_cons, List.nodup_cons] at hl
    obtain ⟨hv, hl⟩ := hl
    have hsame : (w :: l).map (fun y => sideShift half y ((takeSide s c tag half v).track (selTrack y))) =
        (w :: l).map (fun y => sideShift half y (s.track (selTrack y))) := by
      refine List.map_congr_left fun y hy => ?_
      rw [takeSide_track_other s c tag half (fun he => hv (he ▸ List.mem_map_of_mem hy))]
    have hrest := ih w hl (takeSide s c tag half v) ((takeSide_shift _ c tag half w).trans (if_neg (by simp [hc])))
    have hfield (a : Nat) : field (BitVec.ofNat 64 (a % 2 ^ 48)) 47 0 = a % 2 ^ 48 := by
      simp only [field, BitVec.toNat_ofNat]; omega
    rw [hsame, hfirst, hfield] at hrest
    refine hrest.trans ?_
    rw [List.map_cons (a := v), List.sum_cons, Nat.mod_add_mod, Nat.add_assoc]

-- ## The copy enters its queue (R105, R109)

/-- The thread behind its copy's trigger: a place in the ring, a count, and an owed status, which is there at once where a notice is asked
for (R109). -/
def copyThread (s : State) (c : Word) : Thread :=
  let t := ((s.thr.ringTake s.nextId (some .cpyGo) s.thr.x[(1 : Fin 4)]).count s.nextId (copyReach s c s.thr.x)).owe s.nextId [.cpyO] false none
  if ctlNote c = 0 then t else t.fill s.nextId [{ port := .cpyO, val := quad (copyStatus 0 (ctlTag c) 0 1), mark := none }] none

/-- The copy with the operands sampled at its trigger. -/
def copyEntry (s : State) (c : Word) : Copy :=
  { slot := s.cur, tag := s.nextId
    seq := (((s.thr.ringTake s.nextId (some .cpyGo) s.thr.x[(1 : Fin 4)]).count s.nextId (copyReach s c s.thr.x)).owe s.nextId [.cpyO] false none).seqOf s.nextId
    area := s.thr.tie, ctl := c, xs := s.thr.x, sup := s.thr.sup, ctx := s.thr.cr[crCtx]
    heads := (trackSides c s.thr.x).map (fun v => (selTrack v, (s.track (selTrack v)).h))
    done := 0, started := false, ended := none, sum := 0, summed := false, floor := [], rel := [] }

/-- The machine with the copy in its queue, before its track sides. -/
def copyQueued (s : State) (c : Word) : State :=
  (s.bump.setThr (copyThread s c)).onCore (fun o => { o with copies := o.copies ++ [copyEntry s c] })

theorem cpyGoPlan_run {s : State} {q : Quad} (hfault : cpyFault s (low64 q) = none) (hcopies : s.core.copies.length < 4)
    (hring : s.thr.ringFull = false) (hroom : trackSides (low64 q) s.thr.x = [] ∨ trackQueued s + (trackSides (low64 q) s.thr.x).length ≤ 16) :
    cpyGoPlan.run s q =
      .done (takeSides (copyQueued s (low64 q)) (low64 q) s.nextId (sideHalf s.thr.x) (trackSides (low64 q) s.thr.x)) := by
  have hfree : ¬(4 ≤ s.core.copies.length ∨ s.thr.ringFull = true ∨
      (trackSides (low64 q) s.thr.x ≠ [] ∧ 16 < trackQueued s + (trackSides (low64 q) s.thr.x).length)) := by
    rintro (h | h | ⟨hne, h⟩)
    · omega
    · simp [hring] at h
    · have := hroom.resolve_left hne; omega
  unfold cpyGoPlan
  dsimp only
  rw [hfault]
  exact if_neg hfree

theorem fill_keeps (s : State) (tag : Nat) (vs : List PortVal) (flags : Option (BitVec 6)) (work : List Nat) (rels : List Release) :
    Keeps [.owed] s (s.setThr (s.thr.fill tag vs flags work rels)) := by
  refine ⟨rfl, fun p hp => ?_⟩
  cases p with
  | owed => simp at hp
  | others => exact fun i hi => setThr_other s _ i hi
  | _ => simp [same, Thread.fill, Thread.pred, Thread.opq, Thread.rpq]

theorem copyThread_keeps (s : State) (c : Word) :
    Keeps [.ring, .cr crSeq, .counted, .owed, .fence] s (s.setThr (copyThread s c)) := by
  have hring := ringTake_keeps s s.nextId (some .cpyGo) s.thr.x[(1 : Fin 4)]
  have hcount := hring.trans (count_keeps _ s.nextId (copyReach s c s.thr.x)) (c := [.ring, .cr crSeq, .counted]) (by simp) (by simp)
  have howe := hcount.trans (owe_keeps _ s.nextId [.cpyO] false none) (c := [.ring, .cr crSeq, .counted, .owed, .fence])
    (by simp +contextual [or_imp]) (by simp)
  simp only [setThr_setThr, State.setThr_thr] at howe
  unfold copyThread
  dsimp only
  split
  · exact howe
  · have hfill := howe.trans (fill_keeps _ s.nextId [{ port := .cpyO, val := quad (copyStatus 0 (ctlTag c) 0 1), mark := none }] none [] [])
      (c := [.ring, .cr crSeq, .counted, .owed, .fence]) (fun _ hp => hp) (by simp)
    rwa [setThr_setThr, State.setThr_thr] at hfill

theorem set_copies_keeps (s : State) (l : List Copy) : Keeps [.copies] s (s.onCore (fun o => { o with copies := l })) := by
  refine ⟨rfl, fun p hp => ?_⟩
  cases p with
  | copies => simp at hp
  | _ => exact (keeps_refl [.copies] s).2 _ hp

theorem copyQueued_keeps (s : State) (c : Word) :
    Keeps [.copies, .ring, .cr crSeq, .counted, .owed, .fence, .ids] s (copyQueued s c) :=
  (((copyThread_keeps s c).trans (bump_keeps _) (c := [.ring, .cr crSeq, .counted, .owed, .fence, .ids]) (by simp +contextual [or_imp])
    (by simp)).trans (set_copies_keeps _ _) (by simp +contextual) (by simp))

@[simp] theorem copyQueued_thr (s : State) (c : Word) : (copyQueued s c).thr = copyThread s c := State.setThr_thr s.bump _

@[simp] theorem copyThread_counted (s : State) (c : Word) :
    (copyThread s c).counted = s.thr.counted ++ [{ tag := s.nextId, reach := copyReach s c s.thr.x, refused := false }] := by
  unfold copyThread
  dsimp only
  split <;> rfl

/-- The status is owed, and there at once with ST 1 where the copy asks for a notice (R109). -/
theorem copyThread_owes (s : State) (c : Word) : ∃ o : Owed, (copyThread s c).owed.getLast? = some o ∧ o.tag = s.nextId ∧ o.ports = [.cpyO] ∧
    (ctlNote c ≠ 0 → o.vals = some [{ port := .cpyO, val := quad (copyStatus 0 (ctlTag c) 0 1), mark := none }]) := by
  unfold copyThread
  dsimp only
  split
  · rename_i hnote
    exact ⟨_, List.getLast?_concat, rfl, rfl, fun h => absurd hnote h⟩
  · refine ⟨_, (List.getLast?_map ..).trans (congrArg _ List.getLast?_concat), ?_⟩
    simp

/-- A popped source leaves the slots and the tracks alone. -/
theorem popped_tracks (s : State) (x : Source) : (popped s x).slots = s.slots ∧ (popped s x).core.tracks = s.core.tracks := by
  unfold popped readSource
  cases x with
  | str i => simp only [popStream]; split <;> exact ⟨rfl, rfl⟩
  | _ => exact ⟨rfl, rfl⟩

/-- Settles O38: the plan's run, from no fault and with room, and what each side takes of its track. -/
theorem copyEntersQueue : Obligations.CopyEntersQueue := by
  unfold Obligations.CopyEntersQueue
  intro sw g x s hissue
  dsimp only
  intro hbad hclash hsup hsides haddrs hcopies hring hroom
  obtain ⟨hslots, htracks⟩ := popped_tracks s x
  have hthr := popped_thr s x
  have hcur := popped_cur s x
  have hid := popped_nextId s x
  have hold : (popped s x).core.copies = s.core.copies := (popped_keeps false s x).2 .copies (not_mem_issued (p := .copies) (by decide) nofun false x)
  have htrack (n : Fin 32) : (popped s x).track n = s.track n := by simp only [State.track, htracks]
  have hnodup := trackSides_nodup hclash
  have hrun := cpyGoPlan_run (s := popped s x) (q := operand s x)
    (cpyFault_none (by rwa [hthr]) (by rwa [hthr]) (by rwa [hthr])
      (by simp only [hthr, htrack, ownerOf, hcur, hslots]; exact hsides) (by rwa [hthr]))
    (by rwa [hold]) (by rwa [hthr]) (by rw [hthr, trackQueued, htracks]; exact hroom)
  rw [hthr, hid] at hrun
  have hqueued := copyQueued_keeps (popped s x) (operand64 s x)
  have htaken := takeSides_keeps (operand64 s x) s.nextId (sideHalf s.thr.x) (trackSides (operand64 s x) s.thr.x) (copyQueued (popped s x) (operand64 s x))
  refine done_of_simple (p := cpyGoPlan.covered .cpyGo) ⟨⟨rfl, rfl⟩, rfl, rfl, rfl⟩ hissue hrun
    (hqueued.trans htaken ?_ ?_) ?_ fun t hk => ?_
  · simp +contextual [or_imp]
  · rw [List.forall_mem_cons]
    exact ⟨by simp, fun p hp => List.mem_append_right _ hp⟩
  · simp
  have hkept (p : Part) (hp : p ∉ [.pc, .cr crQleft, .cr crWp, .expiry, .relMark, .book, .turns, .mode, .fence]) (hs : ∀ i, p ≠ .stream i) :=
    hk.2 p (not_mem_issued hp hs sw x)
  have hcopies' := (hkept .copies (by decide) nofun).trans (htaken.2 .copies (by simp))
  have hcounted := (hkept .counted (by decide) nofun).trans (htaken.2 .counted (by simp))
  have howed := (hkept .owed (by decide) nofun).trans (htaken.2 .owed (by simp))
  have hshift := hkept (.cr crShift) (by decide) nofun
  have htracks' (n : Fin 32) : (copyQueued (popped s x) (operand64 s x)).track n = s.track n := htrack n
  have hshift' : (copyQueued (popped s x) (operand64 s x)).thr.cr[crShift] = s.thr.cr[crShift] :=
    (hqueued.2 (.cr crShift) (by decide)).trans (by rw [hthr])
  refine ⟨⟨copyEntry (popped s x) (operand64 s x), ?_, hcur, hid, rfl, congrArg Thread.x hthr, congrArg Thread.sup hthr,
    congrArg (fun t : Thread => t.cr[crCtx]) hthr, congrArg Thread.areaUse hthr, rfl, rfl, rfl⟩, ?_, ?_, fun y hy => ?_, fun h => ?_, fun hc hne => ?_⟩
  · rw [hcopies']
    exact congrArg (· ++ _) hold
  · rw [hcounted, copyQueued_thr, copyThread_counted, hthr, hid, List.map_append]
    rfl
  · obtain ⟨o, hlast, htag, hports, hnote⟩ := copyThread_owes (popped s x) (operand64 s x)
    exact ⟨o, by rw [howed, copyQueued_thr]; exact hlast, htag.trans hid, hports, hnote⟩
  · refine (hkept (.track (selTrack y)) (by simp) nofun).trans ((takeSides_track _ _ _ hnodup _ y hy).trans ?_)
    rw [htracks']
    rfl
  · exact hshift.trans ((takeSides_shift_kept _ _ h _).trans hshift')
  · obtain ⟨v, l, hl⟩ := List.exists_cons_of_ne_nil hne
    change trackSides (operand64 s x) s.thr.x = v :: l at hl
    have hsum := takeSides_shift hc s.nextId (sideHalf s.thr.x) v (l := l) (hl ▸ hnodup) (copyQueued (popped s x) (operand64 s x))
    rw [hshift', ← hl] at hsum
    refine hshift.trans (hsum.trans ?_)
    simp only [htracks', List.sum_eq_foldl]
    rfl

end Sys2Proof.Proofs.Copies
end

section
/-! PROOF. The copy engine and the matrix unit (R105 to R109, R113, R279 to R287): what reading for a command leaves alone, an engine's write at its
ordering point, the merge of two banks, and the end of a command. -/

namespace Sys2Proof.Proofs.Engines

open Sys2Proof Sys2Proof.Machine Sys2Proof.Safety Sys2Proof.Slice0 Sys2Proof.Proofs.Results Sys2Proof.Proofs.Canonical Sys2Proof.Proofs.Words

-- ## The slices change their lines and what they report, and nothing else (R80 to R84)

/-- Two states differ in the slices' lines, the words' codes and marks, and where those are reported. -/
def SliceChange (s t : State) : Prop :=
  ∃ lines marks ecc sound mc host dbg, t = { s with st := { s.st with lines, marks, ecc, sound }, mc, host, dbg }

theorem SliceChange.refl (s : State) : SliceChange s s := ⟨_, _, _, _, _, _, _, rfl⟩

theorem SliceChange.trans {s t u : State} (h1 : SliceChange s t) (h2 : SliceChange t u) : SliceChange s u := by
  obtain ⟨_, _, _, _, _, _, _, rfl⟩ := h1
  obtain ⟨_, _, _, _, _, _, _, rfl⟩ := h2
  exact ⟨_, _, _, _, _, _, _, rfl⟩

theorem SliceChange.ite {s t : State} {p : Prop} [Decidable p] (h : SliceChange s t) : SliceChange s (if p then t else s) := by
  split
  · exact h
  · exact .refl s

theorem SliceChange.foldl {α : Type} {f : State → α → State} (h : ∀ s a, SliceChange s (f s a)) (l : List α) (s : State) :
    SliceChange s (l.foldl f s) := by
  induction l generalizing s with
  | nil => exact .refl s
  | cons a l ih => exact (h s a).trans (ih _)

theorem SliceChange.rest {s t : State} (h : SliceChange s t) :
    t.core = s.core ∧ t.fw = s.fw ∧ t.slots = s.slots ∧ t.st.mem = s.st.mem ∧ t.st.waiting = s.st.waiting := by
  obtain ⟨_, _, _, _, _, _, _, rfl⟩ := h
  exact ⟨rfl, rfl, rfl, rfl, rfl⟩

theorem mcLog_change (s : State) (e : McEvent) : SliceChange s (s.mcLog e) := ⟨_, _, _, _, _, _, _, rfl⟩

theorem poisonWord_change (s : State) (w : Nat) : SliceChange s (poisonWord s w) := ⟨_, _, _, _, _, _, _, rfl⟩

theorem scrubWord_change (s : State) (w : Nat) : SliceChange s (scrubWord s w) := by
  unfold scrubWord
  dsimp only
  repeat' split
  all_goals exact ⟨_, _, _, _, _, _, _, rfl⟩

theorem scrub_change (s : State) (loc n : Nat) : SliceChange s (scrub s loc n) := .foldl scrubWord_change _ s

theorem hostAsk_change (s : State) (op : CacheOp) (pa : Nat) : SliceChange s (hostAsk s op pa) := .ite ⟨_, _, _, _, _, _, _, rfl⟩

theorem lineEvict_change (s : State) (d pa : Nat) : SliceChange s (lineEvict s d pa) :=
  ((SliceChange.ite (scrub_change _ _ _)).trans (.ite (hostAsk_change _ _ _))).trans ⟨_, _, _, _, _, _, _, rfl⟩

theorem lineRoom_change (s : State) (d pa : Nat) : SliceChange s (lineRoom s d pa) := by
  unfold lineRoom
  dsimp only
  split
  · exact .ite (lineEvict_change _ _ _)
  · exact .refl s

theorem lineCarried_change (s : State) (pa : Nat) : SliceChange s (lineCarried s pa) :=
  SliceChange.trans ⟨_, _, _, _, _, _, _, rfl⟩ (.foldl (fun _ _ => (mcLog_change _ _).trans (poisonWord_change _ _)) _ _)

theorem lineEnter_change (s : State) (pa : Nat) : SliceChange s (lineEnter s pa) := by
  unfold lineEnter
  dsimp only
  split
  · exact .refl s
  · have hasked := (lineRoom_change s (homeDie pa) pa).trans (hostAsk_change _ .rdShared pa)
    exact ((hasked.trans ⟨_, _, _, _, _, _, _, rfl⟩).trans (lineCarried_change _ pa)).trans (.ite ⟨_, _, _, _, _, _, _, rfl⟩)

theorem lineHome_change (s : State) (pa : Nat) : SliceChange s (lineHome s pa) := by
  unfold lineHome
  dsimp only
  split
  · exact .ite ⟨_, _, _, _, _, _, _, rfl⟩
  · exact lineEnter_change s pa

theorem hostOwn_change (s : State) (pa : Nat) : SliceChange s (hostOwn s pa) := by
  unfold hostOwn
  dsimp only
  split
  · exact (hostAsk_change s .rdOwn pa).trans ⟨_, _, _, _, _, _, _, rfl⟩
  · exact .refl s

/-- The line of a write comes to its home, to be written (R82, R396). -/
theorem ownedHome_change (s : State) (pa : Nat) : SliceChange s (hostOwn (lineHome s pa) pa) :=
  (lineHome_change s pa).trans (hostOwn_change _ pa)

-- ## An engine writes one word (R106, R107, R141, R307)

theorem wakeSlot_st (s : State) (slot : Fin 8) (reason : Nat) : (wakeSlot s slot reason).st = s.st := by
  unfold wakeSlot
  dsimp only
  split <;> rfl

theorem wakeLine_waiting (s : State) (line : Nat) : (wakeLine s line).st.waiting = s.st.waiting :=
  (foldl_keeps (fun (s : State) m => wakeEntry s m 1) (fun s => s.st.waiting) (fun s m => by
    unfold wakeEntry
    split
    · rw [wakeSlot_st]
    · rfl) _ _).trans rfl

theorem touchLine_waiting (s : State) (loc : Nat) : (touchLine s loc).1.st.waiting = s.st.waiting := by
  obtain ⟨-, -, -, -, hwait⟩ := (ownedHome_change s (lineOf loc)).rest
  exact (wakeLine_waiting _ _).trans hwait

theorem perform_waiting (s : State) (p : PWrite) : (perform s p).1.st.waiting = s.st.waiting := by
  unfold perform
  split
  · rfl
  · obtain ⟨-, -, -, -, hwait⟩ := (ownedHome_change s (lineOf p.loc)).rest
    exact (touchLine_waiting _ _).trans hwait

theorem perform_mem (s : State) (p : PWrite) : (perform s p).1.st.mem = Mem.write s.st.mem p.loc p.data := by
  unfold perform
  split
  · rfl
  · obtain ⟨-, -, -, hmem, -⟩ := (ownedHome_change s (lineOf p.loc)).rest
    rw [touchLine_mem, ← hmem]
    rfl

/-- A write whose copies are invalidated changes memory and the waiting requests as its performing does. -/
theorem performFree_st (s : State) (p : PWrite) (tag : Nat) :
    (performFree s p tag).st.mem = (perform s p).1.st.mem ∧ (performFree s p tag).st.waiting = (perform s p).1.st.waiting := by
  unfold performFree
  dsimp only
  split <;> exact ⟨rfl, rfl⟩

/-- Where nothing waits, there is nothing to serve (R142). -/
theorem service_idle {s : State} (h : s.st.waiting = []) (loc : Nat) : service s loc = s := by
  obtain ⟨hw, hq⟩ := List.append_eq_nil_iff.mp h
  have hw : s.st.waiters = [] := List.map_eq_nil_iff.mp hw
  have hloop : serviceLoop s loc (s.st.waiters.length + 1) = s := by
    rw [serviceLoop]
    by_cases hf : isFull s loc = true <;> simp [hw, hf, serveLoads]
  rw [service, hloop, refillWaiters, hq]
  rfl

/-- The write that an engine performs. -/
def engineStore (s : State) (src loc word : Nat) (full : Bool) (known : List (Nat × Nat)) (rel : Option Release) : PWrite :=
  { id := s.nextId, src, loc, data := bytesLE 8 word, fe := if full then some true else none, rmw := false, known
    rel := if full then rel else none, work := rel.map (·.src) }

/-- With no request waiting, an engine's write is performed and serves none. -/
theorem engineWrite_idle {s : State} (h : s.st.waiting = []) (src loc word : Nat) (full : Bool) (known : List (Nat × Nat)) (rel : Option Release) :
    engineWrite s src loc word full known rel =
      performFree { s.bump with wrote := true } (engineStore s src loc word full known rel) (src - srcCmd 0) := by
  have hwait : (performFree { s.bump with wrote := true } (engineStore s src loc word full known rel) (src - srcCmd 0)).st.waiting = [] :=
    (performFree_st _ _ _).2.trans ((perform_waiting _ _).trans h)
  cases full with
  | false => rfl
  | true => exact service_idle hwait loc

theorem engineWrite_mem {s : State} (h : s.st.waiting = []) (src loc word : Nat) (full : Bool) (known : List (Nat × Nat)) (rel : Option Release) :
    (engineWrite s src loc word full known rel).st.mem = Mem.write s.st.mem loc (bytesLE 8 word) := by
  rw [engineWrite_idle h, (performFree_st _ _ _).1, perform_mem]
  rfl

/-- A write to a bank is the store's, and nothing else. -/
theorem engineWrite_bank {s : State} {loc : Nat} (h : s.st.waiting = []) (hb : isBank loc = true) (src word : Nat) (full : Bool) (known : List (Nat × Nat))
    (rel : Option Release) : engineWrite s src loc word full known rel =
      { s.bump with wrote := true, st := s.st.put (engineStore s src loc word full known rel) } := by
  rw [engineWrite_idle h]
  simp only [performFree, perform, engineStore, hb, if_true]
  rfl

theorem natLE_bytesLE_mod (k v : Nat) : natLE (bytesLE k v) = v % 256 ^ k := by
  induction k generalizing v with
  | zero => simp [bytesLE, natLE, Nat.mod_one]
  | succ k ih =>
    rw [bytesLE, natLE, ih, BitVec.toNat_ofNat, pow_succ' 256 k, Nat.mod_mul]

/-- A word of memory after it was written. -/
theorem read64_write {st : Store} {m : List Host.Cell} (hm : Mem.wf m = true) {loc word : Nat} (h : st.mem = Mem.write m loc (bytesLE 8 word)) :
    read64 st loc = word % 2 ^ 64 := by
  have hread := Mem.read_write (bytesLE 8 word) loc hm
  rw [bytesLE_length] at hread
  rw [read64, h, hread, natLE_bytesLE_mod, show (256 : Nat) ^ 8 = 2 ^ 64 by norm_num]

/-- Every other byte stays. -/
theorem get_write_word {m : List Host.Cell} (hm : Mem.wf m = true) (loc word : Nat) {b : Nat} (hb : b < loc ∨ loc + 8 ≤ b) :
    Mem.get (Mem.write m loc (bytesLE 8 word)) b = Mem.get m b :=
  Mem.get_write_other _ _ _ hm (by rwa [bytesLE_length])

theorem mem_setIns (l : List Nat) (w : Nat) : w ∈ setIns l w := by
  induction l with
  | nil => simp [setIns]
  | cons x l ih =>
    unfold setIns
    split
    · exact List.mem_cons_of_mem x ih
    · split
      · simp [*]
      · simp

/-- A whole word written full is full (R141). -/
theorem isFull_put {s : State} {p : PWrite} (hfe : p.fe = some true) (hn : p.data.length = 8) (ha : p.loc % 8 = 0) :
    (s.st.put p).full.contains (p.loc / 8) = true := by
  have hword : touchedWords p.loc 8 = [p.loc / 8] := by
    have hsame : (p.loc + 7) / 8 - p.loc / 8 = 0 := by omega
    simp [touchedWords, hsame]
  simp only [Store.put, hfe, hn, hword]
  simpa using mem_setIns s.st.full (p.loc / 8)

-- ## A copy starts, goes on and completes (R105 to R107, R109)

theorem exec_copyStart {s : State} {i : Nat} {c : Copy} (hc : s.core.copies[i]? = some c) (hfreeze : s.core.freezing = false)
    (hstarted : c.started = false) (hended : c.ended = none) (hturn : (s.core.copies.take i).any (fun x => x.slot == c.slot) = false)
    (hwrites : writesBefore s c.slot c.tag = false) (hheads : c.tracks.all (copyHeads s c) = true) :
    exec (.copyStart i) s = .next (putCopy s { c with started := true, floor := s.slots[c.slot].floor, rel := relOf s c.slot }) := by
  change execCopyStart i s = _
  simp only [execCopyStart, hc]
  rw [if_neg (by simp [hfreeze, hstarted, hended, hturn, hwrites, hheads])]

theorem engineCheck_sound {s : State} (h : s.core.engFlaw = 0) : engineCheck s = s := if_pos h

theorem exec_copyChunk {s s1 : State} {i : Nat} {c c1 : Copy} (hc : s.core.copies[i]? = some c) (hstarted : c.started = true)
    (hfreeze : s.core.freezing = false) (hsound : s.core.engFlaw = 0)
    (hrun : copyRun s c (if ctlDtrk c.ctl then 32 else 64) = .inl (s1, c1)) : exec (.copyChunk i) s = .next (putCopy s1 c1) := by
  change execCopyChunk i s = _
  simp only [execCopyChunk, hc, hstarted, hfreeze, engineCheck_sound hsound, hrun]
  rfl

/-- A frozen engine does nothing (R113). -/
theorem exec_copy_frozen {s : State} {i : Nat} {c : Copy} (hc : s.core.copies[i]? = some c) (hfreeze : s.core.freezing = true) :
    exec (.copyStart i) s = .next s ∧ exec (.copyChunk i) s = .next s ∧ exec (.copyComplete i) s = .next s := by
  refine ⟨?_, ?_, ?_⟩
  · change execCopyStart i s = _
    simp [execCopyStart, hc, hfreeze]
  · change execCopyChunk i s = _
    simp [execCopyChunk, hc, hfreeze]
  · change execCopyComplete i s = _
    simp [execCopyComplete, hc, hfreeze]

/-- A copy that leaves its tracks changes nothing but tracks, and the queue of copies. -/
theorem dropCopy_rest (s : State) (c : Copy) : (dropCopy s c).slots = s.slots ∧ (dropCopy s c).st = s.st ∧
    (dropCopy s c).core.copies = s.core.copies.filter (fun x => x.tag != c.tag) := by
  have h := foldl_keeps
    (fun s n => s.setTrack n { s.track n with queue := (s.track n).queue.filter (fun q => match q with | .copy t => t != c.tag | _ => true) })
    (fun s => (s.slots, s.st, s.core.copies)) (fun _ _ => rfl) c.tracks s
  obtain ⟨hslots, hst, hcopies⟩ : _ ∧ _ ∧ _ := by simpa only [Prod.mk.injEq] using h
  exact ⟨hslots, hst, congrArg (List.filter _) hcopies⟩

/-- A given result has its value. -/
theorem fill_vals {t : Thread} {tag : Nat} {vs : List PortVal} {flags : Option (BitVec 6)} {work : List Nat} {rels : List Release} {o : Owed}
    (ho : o ∈ (t.fill tag vs flags work rels).owed) (htag : o.tag = tag) : o.vals = some vs := by
  obtain ⟨o', -, rfl⟩ := List.mem_map.mp ho
  split
  · rfl
  · rename_i hne
    rw [if_neg hne] at htag
    exact absurd htag hne

/-- A complete copy with NOTE 0 leaves its queue and its count, and its status comes (R109). -/
theorem exec_copyComplete {s : State} {i : Nat} {c : Copy} (hc : s.core.copies[i]? = some c) (hfreeze : s.core.freezing = false)
    (hstarted : c.started = true) (hended : c.ended = none) (hdone : c.n ≤ c.done) (hdg : ctlDg c.ctl = false) (hnote : ctlNote c.ctl = 0)
    (hturn : (s.core.copies.take i).any (fun x => x.slot == c.slot) = false)
    (hacks : s.st.acks.any (fun a => a.slot.isNone && a.tag == c.tag) = false) :
    exec (.copyComplete i) s = .next ((uncount (dropCopy s c) c.slot c.tag).onSlot c.slot (fun t => t.fill c.tag
      [{ port := .cpyO, val := quad (copyStatus c.done (ctlTag c.ctl) 0 0), mark := none }] none [c.tag])) := by
  change execCopyComplete i s = _
  simp only [execCopyComplete, hc]
  rw [if_neg (by simp [hfreeze, hstarted, hended, Nat.not_lt.mpr hdone, hturn]), if_neg (by simp [hdg]), if_neg (by simp [hacks])]
  simp [copyNotice, copyUncount, hnote, hended]

/-- The address of a word of a copy's destination (R103). -/
def destVa (c : Copy) (k : Nat) : Word := sideVa c.xs[(1 : Fin 4)] c.xs[(2 : Fin 4)] (stride c.xs[(3 : Fin 4)] true) k

/-- The machine behind a word that a copy has written at its place. -/
def copyWritten (s : State) (c : Copy) (loc : Nat) (attr : BitVec 5) (v : Nat) : State :=
  engineWrite s (srcCmd c.tag) loc v (attr.getLsbD 3) c.rel (some (engineRel s (s.src c.slot) c.rel))

/-- One word of a copy between two places in memory: written whole, and no other byte changes (R103, R107). -/
theorem copyUnit_word {c : Copy} {v : Nat} {s s1 s2 : State} {loc : Nat} {attr : BitVec 5} (hmem : MemoryOk s1) (hended : c.ended = none)
    (hleft : c.done < c.n) (hdg : ctlDg c.ctl = false) (hdtrk : ctlDtrk c.ctl = false) (hheld : copyHeld s c c.done = false)
    (hread : copyRead s c c.done = .inl (s1, .inl v)) (hv : v < 2 ^ 64) (hplace : copyPlace s1 c true (destVa c c.done) = .ok loc attr s2)
    (hwait : s2.st.waiting = []) :
    ∃ t, copyUnit s c = .inl (t, { c with done := c.done + 1 }) ∧ read64 t.st loc = v ∧
      ∀ b : Nat, b < loc ∨ loc + 8 ≤ b → Mem.get t.st.mem b = Mem.get s1.st.mem b := by
  have hput : copyPut s1 c (destVa c c.done) v = .inl (copyWritten s2 c loc attr v, none) := by simp only [copyPut, hplace, copyWritten]
  have hunit : copyUnit s c = .inl (copyWritten s2 c loc attr v, { c with done := c.done + 1 }) := by
    rw [destVa] at hput
    unfold copyUnit
    rw [if_neg (by simp [hended, hheld, hleft])]
    simp only [hread, hdg, hdtrk, hput, Bool.false_eq_true, if_false]
  have hkept : s2.st.mem = s1.st.mem := by
    have h := copyPlace_mem s1 c true (destVa c c.done)
    rwa [hplace] at h
  have hwritten : (copyWritten s2 c loc attr v).st.mem = Mem.write s1.st.mem loc (bytesLE 8 v) := hkept ▸ engineWrite_mem hwait ..
  refine ⟨_, hunit, (read64_write hmem hwritten).trans (Nat.mod_eq_of_lt hv), fun b hb => ?_⟩
  rw [hwritten]
  exact get_write_word hmem loc v hb

-- ## The counters of a bank (R280, R281)

theorem counterAt_cons (x : Nat × Int) (b : List (Nat × Int)) (j : Nat) :
    counterAt (x :: b) j = if x.1 = j then x.2 else counterAt b j := by
  by_cases h : x.1 = j <;> simp [counterAt, h]

/-- A counter that is not listed is 0. -/
theorem counterAt_unlisted {b : List (Nat × Int)} {j : Nat} (h : ∀ p ∈ b, p.1 ≠ j) : counterAt b j = 0 := by
  have hnone : b.find? (fun p => p.1 == j) = none := List.find?_eq_none.mpr fun p hp => by simpa using h p hp
  simp [counterAt, hnone]

/-- A listed counter reads its entry. -/
theorem counterAt_listed {b : List (Nat × Int)} (hb : BankOk b) {p : Nat × Int} (hp : p ∈ b) : counterAt b p.1 = p.2 := by
  induction b with
  | nil => cases hp
  | cons x b ih =>
    obtain ⟨hx, hb⟩ := List.pairwise_cons.mp hb
    rw [counterAt_cons]
    obtain rfl | hp := List.mem_cons.mp hp
    · exact if_pos rfl
    · rw [if_neg (Nat.ne_of_lt (hx p hp)), ih hb hp]

theorem mem_counterAdd {b : List (Nat × Int)} {k : Nat} {d : Int} {p : Nat × Int} (h : p ∈ counterAdd b k d) : p.1 = k ∨ p ∈ b := by
  induction b with
  | nil =>
    unfold counterAdd at h
    split at h <;> simp_all
  | cons x b ih =>
    unfold counterAdd at h
    repeat' split at h
    all_goals simp only [List.mem_cons] at h ⊢
    · obtain h | h := h
      · exact .inr (.inl h)
      · exact (ih h).imp_right .inr
    · exact .inr (.inr h)
    · obtain rfl | h := h
      · exact .inl rfl
      · exact .inr (.inr h)
    · exact .inr h
    · obtain rfl | h := h
      · exact .inl rfl
      · exact .inr h

theorem bankOk_counterAdd {b : List (Nat × Int)} (hb : BankOk b) (k : Nat) (d : Int) : BankOk (counterAdd b k d) := by
  induction b with
  | nil => unfold counterAdd; split <;> simp [BankOk]
  | cons x b ih =>
    have hall := hb
    obtain ⟨hx, hb⟩ := List.pairwise_cons.mp hb
    unfold counterAdd
    split
    · rename_i hlt
      exact List.pairwise_cons.mpr ⟨fun p hp => (mem_counterAdd hp).elim (fun he => he ▸ hlt) (hx p), ih hb⟩
    · split
      · rename_i heq
        split
        · exact hb
        · exact List.pairwise_cons.mpr ⟨fun p hp => heq ▸ hx p hp, hb⟩
      · rename_i hnlt hne
        have hlt : k < x.1 := by omega
        split
        · exact hall
        · refine List.pairwise_cons.mpr ⟨fun p hp => ?_, hall⟩
          obtain rfl | hp := List.mem_cons.mp hp
          · exact hlt
          · exact Nat.lt_trans hlt (hx p hp)

/-- What an addition leaves in each counter. -/
theorem counterAt_counterAdd {b : List (Nat × Int)} (hb : BankOk b) (k : Nat) (d : Int) (j : Nat) :
    counterAt (counterAdd b k d) j = counterAt b j + if k = j then d else 0 := by
  induction b with
  | nil =>
    unfold counterAdd
    split
    · simp [*]
    · rw [counterAt_cons]; simp [counterAt]
  | cons x b ih =>
    obtain ⟨hx, hb⟩ := List.pairwise_cons.mp hb
    unfold counterAdd
    split
    · rename_i hlt
      rw [counterAt_cons, counterAt_cons, ih hb]
      by_cases hj : x.1 = j
      · rw [if_pos hj, if_pos hj, if_neg (by omega), Int.add_zero]
      · rw [if_neg hj, if_neg hj]
    · split
      · rename_i heq
        have hlater : counterAt b k = 0 := counterAt_unlisted fun p hp => by have := hx p hp; omega
        rw [counterAt_cons, heq]
        split <;> by_cases hj : k = j
        · subst hj; simp_all
        · simp [hj]
        · subst hj; simp [counterAt_cons]
        · simp [hj, counterAt_cons]
      · rename_i hnlt hne
        split
        · simp [*]
        · rw [counterAt_cons]
          by_cases hj : k = j
          · have hnone : counterAt (x :: b) j = 0 := counterAt_unlisted fun p hp => by
              obtain rfl | hp := List.mem_cons.mp hp
              · omega
              · have := hx p hp; omega
            simp [hj, hnone]
          · simp [hj]

/-- The merge of two banks adds counter by counter (R281). -/
theorem merged_counters {b0 b1 : List (Nat × Int)} (h0 : BankOk b0) (h1 : BankOk b1) :
    BankOk (b1.foldl (fun b p => counterAdd b p.1 p.2) b0) ∧
    ∀ j, counterAt (b1.foldl (fun b p => counterAdd b p.1 p.2) b0) j = counterAt b0 j + counterAt b1 j := by
  induction b1 generalizing b0 with
  | nil => exact ⟨h0, fun j => by simp [counterAt]⟩
  | cons x b1 ih =>
    obtain ⟨hx, h1⟩ := List.pairwise_cons.mp h1
    obtain ⟨hok, hsum⟩ := ih (bankOk_counterAdd h0 x.1 x.2) h1
    refine ⟨hok, fun j => ?_⟩
    rw [List.foldl_cons, hsum, counterAt_counterAdd h0, counterAt_cons]
    by_cases hj : x.1 = j
    · have hlater : counterAt b1 j = 0 := counterAt_unlisted fun p hp => by have := hx p hp; omega
      rw [if_pos hj, if_pos hj, hlater, Int.add_zero]
    · rw [if_neg hj, if_neg hj, Int.add_zero]

/-- A bank whose counters are in range does not overflow (R283). -/
theorem overflowAt_none {b : List (Nat × Int)} (hb : BankOk b) (h : ∀ k, -2048 ≤ counterAt b k ∧ counterAt b k ≤ 2047) : overflowAt b = none := by
  rw [overflowAt, Option.map_eq_none_iff, List.find?_eq_none]
  intro p hp
  obtain ⟨hlow, hhigh⟩ := h p.1
  rw [counterAt_listed hb hp] at hlow hhigh
  simp [hlow, hhigh]

-- ## Reading a command's operands (R139, R274, R297)

/-- Reading for a command leaves the core's units, firmware's state and memory alone. -/
structure CommandRead (s t : State) : Prop where
  core : t.core = s.core
  fw : t.fw = s.fw
  mem : t.st.mem = s.st.mem

theorem CommandRead.trans {s t u : State} (h1 : CommandRead s t) (h2 : CommandRead t u) : CommandRead s u :=
  ⟨h2.core.trans h1.core, h2.fw.trans h1.fw, h2.mem.trans h1.mem⟩

theorem CommandRead.foldl {α : Type} {f : State → α → State} (h : ∀ s a, CommandRead s (f s a)) (l : List α) (s : State) :
    CommandRead s (l.foldl f s) := by
  induction l generalizing s with
  | nil => exact ⟨rfl, rfl, rfl⟩
  | cons a l ih => exact (h s a).trans (ih _)

theorem winScrub_commandRead (s : State) (off n : Nat) : CommandRead s (winScrub s off n) :=
  .foldl (fun s w => by
    obtain ⟨hcore, hfw, -, hmem, -⟩ := (scrub_change s (winLoc s (8 * w)) 8).rest
    exact ⟨hcore, hfw, hmem⟩) _ s

theorem winGains_commandRead (s : State) (slot : Fin 8) (tag off n : Nat) : CommandRead s (winGains s slot tag off n) :=
  .foldl (f := fun s w => gains s slot tag (winLoc s (8 * w)) (pointMoment s.st (winLoc s (8 * w)) 8)) (fun _ _ => ⟨rfl, rfl, rfl⟩) _ s

theorem mxReads_commandRead (s : State) (c : MxCmd) (l : List (Nat × Nat)) : CommandRead s (mxReads s c l) :=
  (CommandRead.foldl (fun s p => winScrub_commandRead s p.1 p.2) l s).trans
    (.foldl (fun s p => winGains_commandRead s c.slot c.tag p.1 p.2) l _)

/-- The hand-off's target is known from the core's place and firmware's placement (R285, R344). -/
theorem CommandRead.inTeam {s t : State} (h : CommandRead s t) : inTeam t (nextUnit t) = inTeam s (nextUnit s) := by
  have hteam : t.team? = s.team? := by simp only [State.team?, h.fw]
  have hhome : t.home = s.home := by simp only [State.home, hteam, State.coreId, h.core]
  simp only [Machine.inTeam, nextUnit, hteam, hhome]

-- ## The end of a command (R277, R287, R289, R290)

/-- The matrix unit behind a command that has left its queue. -/
def leftMx (m : MxState) (c : MxCmd) : MxState := { m with queue := m.queue.filter (fun x => x.tag != c.tag), hand := none }

@[simp] theorem leftMx_c (m : MxState) (c : MxCmd) : (leftMx m c).c = m.c := rfl
@[simp] theorem leftMx_bank (m : MxState) (c : MxCmd) : (leftMx m c).bank = m.bank := rfl
@[simp] theorem leftMx_latch (m : MxState) (c : MxCmd) : (leftMx m c).latch = m.latch := rfl
@[simp] theorem leftMx_queue (m : MxState) (c : MxCmd) : (leftMx m c).queue = m.queue.filter (fun x => x.tag != c.tag) := rfl

/-- The core's matrix unit changes. -/
def onMx (s : State) (f : MxState → MxState) : State := s.onCore (fun k => { k with mx := f k.mx })

theorem onMx_self (s : State) : onMx s (fun m => m) = s := rfl

@[simp] theorem onMx_mx (s : State) (f : MxState → MxState) : (onMx s f).core.mx = f s.core.mx := rfl
@[simp] theorem onMx_st (s : State) (f : MxState → MxState) : (onMx s f).st = s.st := rfl

/-- A command that completes behind a change of the matrix unit changes its queue, and the command's slot. -/
theorem mxComplete_effect (s : State) (f : MxState → MxState) (c : MxCmd) :
    (mxComplete (onMx s f) c).core.mx = leftMx (f s.core.mx) c ∧ (mxComplete (onMx s f) c).st = s.st := ⟨rfl, rfl⟩

/-- Commands that leave the queue one after another leave C, the banks and memory alone, and none of them stays. -/
theorem mxLeave_foldl (f : MxBatch → MxBatch) (l : List MxCmd) (s : State) :
    let t := l.foldl (fun s x => mxLeave s x f) s
    t.core.mx.bank = s.core.mx.bank ∧ t.core.mx.c = s.core.mx.c ∧ t.st = s.st ∧
    ∀ x ∈ t.core.mx.queue, x ∈ s.core.mx.queue ∧ x ∉ l := by
  induction l generalizing s with
  | nil => exact ⟨rfl, rfl, rfl, fun x hx => ⟨hx, List.not_mem_nil⟩⟩
  | cons y l ih =>
    obtain ⟨hbank, hc, hst, hqueue⟩ := ih (mxLeave s y f)
    refine ⟨hbank, hc, hst, fun x hx => ?_⟩
    obtain ⟨hleft, hnot⟩ := hqueue x hx
    obtain ⟨hold, htag⟩ := List.mem_filter.mp (show x ∈ s.core.mx.queue.filter (fun x => x.tag != y.tag) from hleft)
    refine ⟨hold, fun h => ?_⟩
    obtain rfl | h := List.mem_cons.mp h
    · simp at htag
    · exact hnot h

theorem mem_insFault (l : List (Nat × Word)) (f : Nat × Word) : f ∈ insFault l f := by
  induction l with
  | nil => simp [insFault]
  | cons g l ih =>
    unfold insFault
    split
    · exact List.mem_cons_of_mem g ih
    · simp

/-- The status of a wait changes no fault. -/
theorem mxSettle_faults (s : State) (slot : Fin 8) : (mxSettle s slot).slots[slot].faults = s.slots[slot].faults := by
  have hfold (l : List (Nat × MxBatch)) (t : Thread) := foldl_keeps (fun (t : Thread) (w : Nat × MxBatch) =>
    t.fill w.1 [{ port := .mxO, val := mxStatus w.2, mark := none }] (some (if w.2.clamp then flagCL else 0)) w.2.done) Thread.faults (fun _ _ => rfl) l t
  simp only [mxSettle, State.setSlot_slots, Fin.getElem_fin, Vector.getElem_set_self]
  exact hfold _ _

/-- The command that failed has left the queue, and its wait knows its cause (R289, R290). -/
def failedHead (s : State) (c : MxCmd) (cause : Word) : State :=
  mxLeave s c (fun b => { b with code := if b.code = 0#8 then cause.setWidth 8 else b.code, fail := true })

/-- The commands that the failed one takes along: those of its thread. -/
def laterOf (s : State) (c : MxCmd) : List MxCmd := s.core.mx.queue.filter (fun x => x.slot == c.slot)

/-- A command that ends by fault leaves C, the banks and memory alone; its thread's commands leave the queue, and its fault is pending (R290). -/
theorem mxFail_effect (s : State) (c : MxCmd) (cause : Word) :
    let t := mxFail s c cause
    t.core.mx.bank = s.core.mx.bank ∧ t.core.mx.c = s.core.mx.c ∧ t.st = s.st ∧ (∀ x ∈ t.core.mx.queue, x.slot ≠ c.slot) ∧
    (c.seq, cause) ∈ t.slots[c.slot].faults := by
  obtain ⟨hbank, hc, hst, hqueue⟩ :=
    mxLeave_foldl (fun b => { b with fail := true }) (laterOf (failedHead s c cause) c) (failedHead s c cause)
  refine ⟨hbank, hc, hst, fun x hx hslot => ?_, ?_⟩
  · obtain ⟨hold, hnot⟩ := hqueue x hx
    exact hnot (List.mem_filter.mpr ⟨hold, by simp [hslot]⟩)
  · refine (mxSettle_faults _ _).symm ▸ ?_
    rw [onSlot_same]
    exact mem_insFault _ _

-- ## Runs and counts (R279, R280, R285)

theorem exec_mxPerform {s : State} {c : MxCmd} {r : List MxCmd} (hqueue : s.core.mx.queue = c :: r) (hready : mxReady s c = true)
    (hsound : s.core.mx.flaw = 0) (heng : s.core.engFlaw = 0) : exec (.mxCommandPerform true) s = .next (mxPerform s c) := by
  have hchecked : mxChecked s c = mxPerform s c := by
    have hs : (if 0 < c.written then s else engineCheck s) = s := by rw [engineCheck_sound heng, ite_self]
    unfold mxChecked
    dsimp only
    rw [hs, if_pos (.inl hsound)]
  change execMxCommandPerform true s = _
  simp [execMxCommandPerform, hqueue, hready, hchecked]

/-- The bank that a count names (R273). -/
abbrev countBank (c : MxCmd) : Fin 2 := if c.xs[(1 : Fin 4)].getLsbD 20 then 1 else 0

/-- The latch behind a run or a count. -/
def readLatch (c : MxCmd) (l : Latch) : Latch := if mxBsrc c.xs[(1 : Fin 4)] = 2 then Latch.empty else l

/-- The tile that a run holds for the next unit. -/
def heldTile (c : MxCmd) (o : MxOperands) : Option Latch :=
  if mxHand c.xs[(1 : Fin 4)] then some { full := true, k := mxK c.xs[(1 : Fin 4)], bits := mxBits true c.xs[(1 : Fin 4)], tile := o.tile } else none

/-- The matrix unit behind a run's work, before the command leaves. -/
def ranMx (core : Core) (c : MxCmd) (o : MxOperands) (m : MxState) : MxState :=
  { m with c := mxRunC core c o core.mx.c, bank := core.mx.bank, latch := readLatch c core.mx.latch, hand := heldTile c o }

section Ran

variable (core : Core) (c : MxCmd) (o : MxOperands) (m : MxState)

@[simp] theorem ranMx_c : (ranMx core c o m).c = mxRunC core c o core.mx.c := by simp only [ranMx]
@[simp] theorem ranMx_bank : (ranMx core c o m).bank = core.mx.bank := by simp only [ranMx]
@[simp] theorem ranMx_latch : (ranMx core c o m).latch = readLatch c core.mx.latch := by simp only [ranMx]
@[simp] theorem ranMx_queue : (ranMx core c o m).queue = m.queue := by simp only [ranMx]
@[simp] theorem ranMx_hand : (ranMx core c o m).hand = heldTile c o := by simp only [ranMx]

end Ran

/-- The banks behind a count. -/
def countedBanks (c : MxCmd) (o : MxOperands) (bank : Vector (List (Nat × Int)) 2) : Vector (List (Nat × Int)) 2 :=
  bank.set (countBank c) (mxCount c o bank[countBank c])

/-- The matrix unit behind a count's work, before the command leaves. -/
def countedMx (core : Core) (c : MxCmd) (o : MxOperands) (m : MxState) : MxState :=
  { m with c := core.mx.c, bank := countedBanks c o core.mx.bank, latch := readLatch c core.mx.latch, hand := none }

section Counted

variable (core : Core) (c : MxCmd) (o : MxOperands) (m : MxState)

@[simp] theorem countedMx_c : (countedMx core c o m).c = core.mx.c := by simp only [countedMx]
@[simp] theorem countedMx_bank : (countedMx core c o m).bank = countedBanks c o core.mx.bank := by simp only [countedMx]
@[simp] theorem countedMx_queue : (countedMx core c o m).queue = m.queue := by simp only [countedMx]

end Counted

section Work

variable {s : State} {c : MxCmd} {o : MxOperands}

/-- A run without a fault does its work; without a hand-off it then completes. -/
theorem mxWork_run (hread : mxRead (mxReads s c (mxSpans c true)) c true = .inr o)
    (hteam : mxHand c.xs[(1 : Fin 4)] = true → inTeam s (nextUnit s) = true) :
    mxWork s c true = if mxHand c.xs[(1 : Fin 4)] then onMx (mxReads s c (mxSpans c true)) (ranMx s.core c o)
      else mxComplete (onMx (mxReads s c (mxSpans c true)) (ranMx s.core c o)) c := by
  have h := mxReads_commandRead s c (mxSpans c true)
  have hreach : (mxHand c.xs[(1 : Fin 4)] && !inTeam (mxReads s c (mxSpans c true)) (nextUnit (mxReads s c (mxSpans c true)))) = false := by
    rw [h.inTeam]
    cases hc : mxHand c.xs[(1 : Fin 4)]
    · rfl
    · simp [hteam hc]
  unfold mxWork
  dsimp only
  simp only [hread, hreach, h.core, Bool.false_eq_true, if_false, if_true]
  rfl

/-- A run leaves its sum in C, and memory alone. -/
theorem mxWork_run_effect (hread : mxRead (mxReads s c (mxSpans c true)) c true = .inr o)
    (hteam : mxHand c.xs[(1 : Fin 4)] = true → inTeam s (nextUnit s) = true) :
    (mxWork s c true).st.mem = s.st.mem ∧ (mxWork s c true).core.mx =
      if mxHand c.xs[(1 : Fin 4)] then ranMx s.core c o s.core.mx else leftMx (ranMx s.core c o s.core.mx) c := by
  have h := mxReads_commandRead s c (mxSpans c true)
  rw [mxWork_run hread hteam, ← h.mem]
  split
  · rw [onMx_st, onMx_mx, h.core]
    exact ⟨rfl, rfl⟩
  · obtain ⟨hmx, hst⟩ := mxComplete_effect (mxReads s c (mxSpans c true)) (ranMx s.core c o) c
    rw [hst, hmx, h.core]
    exact ⟨rfl, rfl⟩

/-- A count without a hand-off and without overflow leaves its counters in its bank, and memory alone. -/
theorem mxWork_count_effect (hread : mxRead (mxReads s c (mxSpans c false)) c false = .inr o) (hhand : mxHand c.xs[(1 : Fin 4)] = false)
    (hover : overflowAt (mxCount c o s.core.mx.bank[countBank c]) = none) :
    (mxWork s c false).st.mem = s.st.mem ∧ (mxWork s c false).core.mx = leftMx (countedMx s.core c o s.core.mx) c := by
  have h := mxReads_commandRead s c (mxSpans c false)
  have hwork : mxWork s c false = mxComplete (onMx (mxReads s c (mxSpans c false)) (countedMx s.core c o)) c := by
    unfold mxWork
    dsimp only
    simp only [hread, hhand, h.core, hover, Bool.false_and, Bool.false_eq_true, if_false]
    rfl
  obtain ⟨hmx, hst⟩ := mxComplete_effect (mxReads s c (mxSpans c false)) (countedMx s.core c o) c
  rw [hwork, hst, hmx, h.mem, h.core]
  exact ⟨rfl, rfl⟩

end Work

/-- A count changes its own bank. -/
theorem countedBanks_same (c : MxCmd) (o : MxOperands) (bank : Vector (List (Nat × Int)) 2) :
    (countedBanks c o bank)[countBank c] = mxCount c o bank[countBank c] := by
  simp [countedBanks]

/-- A count that overflows ends by fault (R283). -/
theorem mxWork_overflow {s : State} {c : MxCmd} {o : MxOperands} {k : Nat} (hread : mxRead (mxReads s c (mxSpans c false)) c false = .inr o)
    (hhand : mxHand c.xs[(1 : Fin 4)] = false) (hover : overflowAt (mxCount c o s.core.mx.bank[countBank c]) = some k) :
    mxWork s c false = mxFail (mxReads s c (mxSpans c false)) c (mxOverflow c k 1) := by
  rw [← (mxReads_commandRead s c (mxSpans c false)).core] at hover
  unfold mxWork
  dsimp only
  simp only [hread, hhand, hover, Bool.false_and, Bool.false_eq_true, if_false]

-- ## Merges and drains (R281, R282)

/-- The banks of the matrix unit behind a merge. -/
def mergedMx (old m : MxState) : MxState :=
  { m with bank := #v[old.bank[(1 : Fin 2)].foldl (fun b p => counterAdd b p.1 p.2) old.bank[(0 : Fin 2)], []] }

/-- C and the banks behind a drain without scales. -/
def drainedMx (core : Core) (c : MxCmd) (m : MxState) : MxState :=
  { m with c := mxDrainC core c none none m.bank[(0 : Fin 2)] m.c, bank := m.bank.set 0 [] }

section Drained

variable (core : Core) (c : MxCmd) (m : MxState)

@[simp] theorem drainedMx_c : (drainedMx core c m).c = mxDrainC core c none none m.bank[(0 : Fin 2)] m.c := by simp only [drainedMx]
@[simp] theorem drainedMx_bank : (drainedMx core c m).bank = m.bank.set 0 [] := by simp only [drainedMx]
@[simp] theorem drainedMx_queue : (drainedMx core c m).queue = m.queue := by simp only [drainedMx]

end Drained

/-- A merge without overflow. -/
theorem mxMerge_eq {s : State} {c : MxCmd} (h0 : BankOk s.core.mx.bank[(0 : Fin 2)]) (h1 : BankOk s.core.mx.bank[(1 : Fin 2)])
    (hrange : ∀ k, -2048 ≤ counterSum s.core.mx k ∧ counterSum s.core.mx k ≤ 2047) :
    mxMerge s c = mxComplete (onMx s (mergedMx s.core.mx)) c := by
  obtain ⟨hok, hsum⟩ := merged_counters h0 h1
  have hover := overflowAt_none hok fun k => by rw [hsum]; exact hrange k
  simp only [mxMerge, hover]
  rfl

/-- A drain without scales (R282, R284). -/
theorem mxDrain_eq {s : State} {c : MxCmd} (hrow : c.scale.getLsbD 32 = false) (hcol : c.scale.getLsbD 33 = false) :
    mxDrain s c = mxComplete (onMx s (drainedMx s.core c)) c := by
  have hspans : mxScaleSpans c = [] := by simp only [mxScaleSpans, hrow, hcol, Bool.false_eq_true, if_false, List.append_nil]
  simp only [mxDrain, hspans, mxReads, List.foldl_nil, hrow, hcol, mxScales, Bool.false_eq_true, if_false]
  rfl

-- ## Stores (R287)

/-- The words that an mx.st writes. -/
def storeTotal (c : MxCmd) : Nat := 8 * (if field c.xs[(0 : Fin 4)] 1 0 = 0 then 4 else if field c.xs[(0 : Fin 4)] 1 0 = 1 then 2 else 1)

/-- The word of an int32 store: two outputs of one row of C. -/
theorem mxStoreWord_int32 (core : Core) (c : MxCmd) (k : Nat) (hformat : field c.xs[(0 : Fin 4)] 1 0 = 0) :
    mxStoreWord core c k = (field c.a 16 0 + k / 4 * field c.xs[(0 : Fin 4)] 31 16 + 8 * (k % 4),
      (core.mx.c.toList.getD (2 * k) 0).toNat + (core.mx.c.toList.getD (2 * k + 1) 0).toNat * 2 ^ 32, false) := by
  have hout (v : BitVec 32) : mxOut core c v = (v.toNat, false) := by simp only [mxOut, hformat]
  have hplace (j : Nat) : 8 * (k / 4) + k % 4 * 2 + j = 2 * k + j := by omega
  have hlow (v : BitVec 32) : v.toNat % 2 ^ 32 = v.toNat := Nat.mod_eq_of_lt v.isLt
  simp only [mxStoreWord, hformat, hout, show 8 / 4 = 2 from rfl, hplace, List.range_succ, List.range_zero, List.nil_append, List.cons_append,
    List.map_cons, List.map_nil, List.any_cons, List.any_nil, Bool.or_false, show 64 / 2 = 32 from rfl, joinLanes, hlow, Nat.add_zero,
    Nat.mul_comm (2 ^ 32), Nat.zero_mul]

/-- The command behind its next word. -/
def storedCmd (s : State) (c : MxCmd) : MxCmd :=
  { c with written := c.written + 1, clamp := c.clamp || (mxStoreWord s.core c c.written).2.2 }

/-- The machine behind the write of a store's next word. -/
def storedWord (s : State) (c : MxCmd) : State :=
  engineWrite s (srcCmd c.tag) (winLoc s (mxStoreWord s.core c c.written).1) (mxStoreWord s.core c c.written).2.1 true c.known
    (some (engineRel s (s.src c.slot) c.rel))

/-- C behind a store that clears it. -/
def clearedMx (c : MxCmd) (m : MxState) : MxState := { m with c := if c.xs[(0 : Fin 4)].getLsbD 2 then Vector.replicate 64 0#32 else m.c }

/-- The queue behind a word that is not its store's last. -/
def steppedMx (c c1 : MxCmd) (m : MxState) : MxState := { m with queue := m.queue.map (fun x => if x.tag = c.tag then c1 else x) }

theorem mxStoreStep_eq (s : State) (c : MxCmd) : mxStoreStep s c = if storeTotal c ≤ c.written + 1
    then mxComplete (onMx (storedWord s c) (clearedMx c)) (storedCmd s c) else onMx (storedWord s c) (steppedMx c (storedCmd s c)) := by
  have htotal : 8 * (match field c.xs[(0 : Fin 4)] 1 0 with | 0 => 4 | 1 => 2 | _ => 1) = storeTotal c := by
    unfold storeTotal
    split <;> simp_all
  have hclear : (if c.xs[(0 : Fin 4)].getLsbD 2 then onMx (storedWord s c) (fun m => { m with c := Vector.replicate 64 0#32 }) else storedWord s c) =
      onMx (storedWord s c) (clearedMx c) := by
    unfold clearedMx
    cases c.xs[(0 : Fin 4)].getLsbD 2
    · simp only [Bool.false_eq_true, if_false]
      exact (onMx_self (storedWord s c)).symm
    · rfl
  rw [← htotal, ← hclear]
  rfl

/-- The word of a store is in memory, full, and no other byte has changed. -/
theorem storedWord_written {s : State} {c : MxCmd} (hmem : MemoryOk s) (hwait : s.st.waiting = [])
    (ha : winLoc s (mxStoreWord s.core c c.written).1 % 8 = 0) :
    let loc := winLoc s (mxStoreWord s.core c c.written).1
    let t := storedWord s c
    t.core = s.core ∧ read64 t.st loc = (mxStoreWord s.core c c.written).2.1 % 2 ^ 64 ∧ t.st.full.contains (loc / 8) = true ∧
      ∀ b : Nat, b < loc ∨ loc + 8 ≤ b → Mem.get t.st.mem b = Mem.get s.st.mem b := by
  have hbank := engineWrite_bank hwait (loc := winLoc s (mxStoreWord s.core c c.written).1) (isBank_winLoc_add s _ 0) (srcCmd c.tag)
    (mxStoreWord s.core c c.written).2.1 true c.known (some (engineRel s (s.src c.slot) c.rel))
  dsimp only
  rw [storedWord, hbank]
  exact ⟨rfl, read64_write hmem rfl, isFull_put rfl (bytesLE_length 8 _) ha, fun b hb => get_write_word hmem _ _ hb⟩

/-- A step of a store leaves its word, and C and its place in the queue as the word's number says. -/
theorem mxStoreStep_effect {s : State} {c : MxCmd} {r : List MxCmd} (hmem : MemoryOk s) (hwait : s.st.waiting = [])
    (ha : winLoc s (mxStoreWord s.core c c.written).1 % 8 = 0) (hqueue : s.core.mx.queue = c :: r) :
    let t := mxStoreStep s c
    t.st = (storedWord s c).st ∧ t.core.mx.bank = s.core.mx.bank ∧
    (¬storeTotal c ≤ c.written + 1 → t.core.mx.c = s.core.mx.c ∧ t.core.mx.queue.head? = some (storedCmd s c)) ∧
    (storeTotal c ≤ c.written + 1 → t.core.mx.queue = s.core.mx.queue.filter (fun x => x.tag != c.tag) ∧
      t.core.mx.c = if c.xs[(0 : Fin 4)].getLsbD 2 then Vector.replicate 64 0#32 else s.core.mx.c) := by
  obtain ⟨hcore, -⟩ := storedWord_written hmem hwait ha
  dsimp only
  rw [mxStoreStep_eq]
  split
  · rename_i hlast
    obtain ⟨hmx, hst⟩ := mxComplete_effect (storedWord s c) (clearedMx c) (storedCmd s c)
    rw [hmx, hst, hcore, leftMx_bank, leftMx_queue, leftMx_c]
    exact ⟨rfl, rfl, fun h => absurd hlast h, fun _ => ⟨rfl, rfl⟩⟩
  · rename_i hmore
    rw [onMx_mx, onMx_st, hcore]
    exact ⟨rfl, rfl, fun _ => ⟨rfl, by simp [steppedMx, hqueue]⟩, fun h => absurd h hmore⟩

-- ## The latches (R285)

/-- The next unit empties its latch. -/
theorem exec_mxPerform_next (s : State) : exec (.mxCommandPerform false) s = .next (onMx s (fun m => { m with next := Latch.empty })) := rfl

theorem exec_mxLatch_inn {s : State} (h : s.core.mx.latch.full = false) (k bits : Nat) (tile : List Nat) :
    exec (.mxLatchHandoff (.inn k bits tile)) s = .next (onMx s (fun m => { m with latch := { full := true, k, bits, tile } })) := by
  change execMxLatchHandoff (.inn k bits tile) s = _
  simp only [execMxLatchHandoff, h, Bool.false_eq_true, if_false]
  rfl

theorem exec_mxLatch_out {s : State} {c : MxCmd} {r : List MxCmd} {l : Latch} (hqueue : s.core.mx.queue = c :: r) (hhand : s.core.mx.hand = some l)
    (hnext : s.core.mx.next.full = false) : exec (.mxLatchHandoff .out) s = .next (mxComplete (onMx s (fun m => { m with next := l })) c) := by
  change execMxLatchHandoff .out s = _
  simp only [execMxLatchHandoff, hqueue, hhand, hnext, Bool.false_eq_true, if_false]
  rfl

/-- Settles O49: the copy engine's steps, the work of each matrix command, and the latches' hand-offs, each from the lemma on its step. -/
theorem enginesPerform : Obligations.EnginesPerform := by
  unfold Obligations.EnginesPerform
  intro s
  refine ⟨fun i c hc => ⟨?start, ?chunk, exec_copy_frozen hc, ?complete⟩, ?word, fun c r hqueue hready hsound heng => ?matrix, ?next, ?inn, ?out⟩
  case start => exact fun hfreeze hstarted hended hturn hwrites hheads => exec_copyStart hc hfreeze hstarted hended hturn hwrites hheads
  case chunk => exact fun s1 c1 hstarted hfreeze heng hrun => exec_copyChunk hc hstarted hfreeze heng hrun
  case complete =>
    intro hfreeze hstarted hended hdone hdg hnote hturn hacks
    obtain ⟨hslots, hst, hcopies⟩ := dropCopy_rest s c
    refine ⟨_, exec_copyComplete hc hfreeze hstarted hended hdone hdg hnote hturn hacks, hcopies, ?_, hst, fun o ho htag => ?_⟩
    · rw [onSlot_same, uncount, onSlot_same, hslots]
      rfl
    · rw [onSlot_same] at ho
      exact fill_vals ho htag
  case word =>
    intro c v s1 s2 loc attr hmem hended hleft hdg hdtrk hheld hread hv hplace hwait
    exact copyUnit_word hmem hended hleft hdg hdtrk hheld hread hv hplace hwait
  case matrix =>
    have hexec := exec_mxPerform hqueue hready hsound heng
    generalize hperform : mxPerform s c = t at hexec
    dsimp only
    refine ⟨fun o hop hread hteam => ⟨t, hexec, ?run⟩,
      fun o hop hhand hread => ⟨fun hover => ⟨t, hexec, ?count⟩, fun k hover => ⟨t, hexec, ?overflow⟩⟩,
      fun hop h0 h1 hrange => ⟨t, hexec, ?merge⟩, fun hop hrow hcol => ⟨t, hexec, ?drain⟩,
      fun hop hmem hwait ha => ⟨fun hformat _ => mxStoreWord_int32 _ _ _ hformat, t, hexec, ?store⟩⟩
    all_goals simp only [mxPerform, hop] at hperform
    case run =>
      obtain ⟨hst, hmx⟩ := mxWork_run_effect hread hteam
      rw [hperform] at hst hmx
      rw [hst, hmx]
      by_cases hh : mxHand c.xs[(1 : Fin 4)] = true
      · rw [if_pos hh]
        exact ⟨ranMx_c .., ranMx_bank .., rfl, ranMx_latch .., fun h => absurd hh (by rw [h]; nofun),
          fun _ => ⟨ranMx_queue .., (ranMx_hand ..).trans (if_pos hh)⟩⟩
      · rw [if_neg hh, leftMx_c, leftMx_bank, leftMx_latch, leftMx_queue, ranMx_queue]
        exact ⟨ranMx_c .., ranMx_bank .., rfl, ranMx_latch .., fun _ => rfl, fun h => absurd h hh⟩
    case count =>
      obtain ⟨hst, hmx⟩ := mxWork_count_effect hread hhand hover
      rw [hperform] at hst hmx
      rw [hst, hmx, leftMx_bank, leftMx_c, leftMx_queue, countedMx_bank, countedMx_c, countedMx_queue]
      exact ⟨countedBanks_same c o s.core.mx.bank, fun a ha => vector_set_other _ _ ha, rfl, rfl, rfl⟩
    case overflow =>
      have h := mxReads_commandRead s c (mxSpans c false)
      rw [mxWork_overflow hread hhand hover] at hperform
      obtain ⟨hbank, hc, hst, hleft, hfault⟩ := mxFail_effect (mxReads s c (mxSpans c false)) c (mxOverflow c k 1)
      rw [hperform] at hbank hc hst hleft hfault
      rw [h.core] at hbank hc
      exact ⟨hbank, hc, hleft, hfault, (congrArg Store.mem hst).trans h.mem⟩
    case merge =>
      rw [mxMerge_eq h0 h1 hrange] at hperform
      obtain ⟨hmx, hst⟩ := mxComplete_effect s (mergedMx s.core.mx) c
      rw [hperform] at hmx hst
      rw [hmx, hst]
      exact ⟨(merged_counters h0 h1).2, rfl, rfl, rfl, rfl⟩
    case drain =>
      rw [mxDrain_eq hrow hcol] at hperform
      obtain ⟨hmx, hst⟩ := mxComplete_effect s (drainedMx s.core c) c
      rw [hperform] at hmx hst
      rw [hmx, hst, leftMx_c, leftMx_bank, leftMx_queue, drainedMx_c, drainedMx_bank, drainedMx_queue]
      exact ⟨rfl, by simp, by simp, rfl, rfl⟩
    case store =>
      obtain ⟨-, hread, hfull, hother⟩ := storedWord_written hmem hwait ha
      obtain ⟨hst, hbank, hmore, hlast⟩ := mxStoreStep_effect hmem hwait ha hqueue
      rw [hperform] at hst hbank hmore hlast
      rw [isFull, hst]
      refine ⟨hread, hfull, hother, hbank, fun h => ?_, fun h => ?_⟩
      · obtain ⟨hkept, hhead⟩ := hmore (of_decide_eq_false h)
        exact ⟨hkept, _, hhead, rfl, rfl⟩
      · exact hlast (of_decide_eq_true h)
  case next => exact ⟨_, exec_mxPerform_next s, rfl, rfl, rfl⟩
  case inn => exact fun k bits tile hfull => ⟨_, exec_mxLatch_inn hfull k bits tile, rfl, rfl⟩
  case out =>
    intro c r l hqueue hhand hnext
    obtain ⟨hmx, -⟩ := mxComplete_effect s (fun m => { m with next := l }) c
    exact ⟨_, exec_mxLatch_out hqueue hhand hnext, congrArg MxState.next hmx, congrArg MxState.hand hmx, (congrArg MxState.latch hmx).trans (leftMx_latch ..)⟩

end Sys2Proof.Proofs.Engines
end

section
/-! PROOF. The trk words (R118 to R130): what each leaves of its track where its thread owns it, and the fault that it raises where not. -/

namespace Sys2Proof.Proofs.Tracks

open Sys2Proof Sys2Proof.Machine Sys2Proof.Safety Sys2Proof.Slice0 Sys2Proof.Proofs.Words Sys2Proof.Proofs.Loads Sys2Proof.Proofs.SystemWords
  Sys2Proof.Proofs.Copies Sys2Proof.Proofs.Sending

-- ## The words and their plans

/-- Both words of an operation have a plan, which checks nothing before its run. -/
structure Plans (i : Words) (p : Plan) : Prop where
  short : ShortWord i.1 p
  long : LongWord i.2 p
  simple : Simple p

theorem trkClaim_plans : Plans (.trkClaimShort, .trkClaimLong) (trkClaimPlan.covered .trkClaim) :=
  ⟨fun _ _ _ => rfl, fun _ _ _ _ => rfl, ⟨rfl, rfl⟩, rfl, rfl, rfl⟩
theorem trkFree_plans : Plans (.trkFreeShort, .trkFreeLong) (trkFreePlan.covered .trkFree) :=
  ⟨fun _ _ _ => rfl, fun _ _ _ _ => rfl, ⟨rfl, rfl⟩, rfl, rfl, rfl⟩
theorem trkSeek_plans : Plans (.trkSeekShort, .trkSeekLong) (trkSeekPlan.covered .trkSeek) :=
  ⟨fun _ _ _ => rfl, fun _ _ _ _ => rfl, ⟨rfl, rfl⟩, rfl, rfl, rfl⟩
theorem trkStep_plans : Plans (.trkStepShort, .trkStepLong) (trkStepPlan.covered .trkStep) :=
  ⟨fun _ _ _ => rfl, fun _ _ _ _ => rfl, ⟨rfl, rfl⟩, rfl, rfl, rfl⟩
theorem trkRds_plans : Plans (.trkRdsShort, .trkRdsLong) (trkRdsPlan.covered .trkRds) :=
  ⟨fun _ _ _ => rfl, fun _ _ _ _ => rfl, ⟨rfl, rfl⟩, rfl, rfl, rfl⟩
theorem trkWrs_plans : Plans (.trkWrsShort, .trkWrsLong) (trkWrsPlan.covered .trkWrs) :=
  ⟨fun _ _ _ => rfl, fun _ _ _ _ => rfl, ⟨rfl, rfl⟩, rfl, rfl, rfl⟩
theorem trkRwd_plans : Plans (.trkRwdShort, .trkRwdLong) (trkRwdPlan.covered .trkRwd) :=
  ⟨fun _ _ _ => rfl, fun _ _ _ _ => rfl, ⟨rfl, rfl⟩, rfl, rfl, rfl⟩
theorem trkHead_plans : Plans (.trkHeadShort, .trkHeadLong) (trkHeadPlan.covered .trkHead) :=
  ⟨fun _ _ _ => rfl, fun _ _ _ _ => rfl, ⟨rfl, rfl⟩, rfl, rfl, rfl⟩

/-- Both words of an operation have a plan with the checks that the trk words other than trk.claim share. -/
def TrackWords (i : Words) (step free : Bool) (valueOk : Word → Bool) (head : Thread → Word → Nat → Int) : Prop :=
  ∃ effect o, Plans i ((trackPlan step free valueOk head effect).covered o)

theorem trkFree_words : TrackWords (.trkFreeShort, .trkFreeLong) false true noValue (fun _ _ h => h) := ⟨_, _, trkFree_plans⟩
theorem trkSeek_words : TrackWords (.trkSeekShort, .trkSeekLong) false false (fun _ => true) (fun _ v _ => (v.toNat : Int)) :=
  ⟨_, _, trkSeek_plans⟩
theorem trkStep_words : TrackWords (.trkStepShort, .trkStepLong) false false (fun _ => true) (fun _ v h => (h : Int) + v.toInt) :=
  ⟨_, _, trkStep_plans⟩
theorem trkRwd_words : TrackWords (.trkRwdShort, .trkRwdLong) false false noValue (fun _ _ _ => 0) := ⟨_, _, trkRwd_plans⟩
theorem trkHead_words : TrackWords (.trkHeadShort, .trkHeadLong) false false noValue (fun _ _ h => h) := ⟨_, _, trkHead_plans⟩

/-- The words that read or write a cell. -/
def accessOps : List Words := [(.trkRdsShort, .trkRdsLong), (.trkWrsShort, .trkWrsLong)]

theorem accessOps_words : ∀ i ∈ accessOps, TrackWords i true false noValue (fun t _ h => (h : Int) + t.trackStep) := by
  simp only [accessOps, List.forall_mem_cons, List.not_mem_nil, false_implies, implies_true, and_true]
  exact ⟨⟨_, _, trkRds_plans⟩, ⟨_, _, trkWrs_plans⟩⟩

/-- Each word that moves or accesses a track takes the trigger value 0. -/
theorem trkOps_words : ∀ i ∈ trkOps, ∃ step valueOk head, TrackWords i step false valueOk head ∧ valueOk 0 = true := by
  have haccess := accessOps_words
  simp only [accessOps, List.forall_mem_cons, List.not_mem_nil, false_implies, implies_true, and_true] at haccess
  obtain ⟨hrds, hwrs⟩ := haccess
  simp only [trkOps, List.forall_mem_cons, List.not_mem_nil, false_implies, implies_true, and_true]
  exact ⟨⟨_, _, _, trkSeek_words, rfl⟩, ⟨_, _, _, trkStep_words, rfl⟩, ⟨_, _, _, hrds, rfl⟩, ⟨_, _, _, hwrs, rfl⟩,
    ⟨_, _, _, trkRwd_words, rfl⟩, ⟨_, _, _, trkHead_words, rfl⟩⟩

/-- The words beside trk.claim that take no trigger value but 0. -/
theorem noValue_words : ∀ i ∈ (.trkFreeShort, .trkFreeLong) :: (.trkRwdShort, .trkRwdLong) :: (.trkHeadShort, .trkHeadLong) :: accessOps,
    ∃ step free head, TrackWords i step free noValue head := by
  simp only [List.forall_mem_cons]
  exact ⟨⟨_, _, _, trkFree_words⟩, ⟨_, _, _, trkRwd_words⟩, ⟨_, _, _, trkHead_words⟩, fun i hi => ⟨_, _, _, accessOps_words i hi⟩⟩

-- ## The faults of a track (R124, R130)

section Fault

variable {s : State} {n : Fin 32} {free : Bool}

theorem trackFault_unowned (h : (s.track n).owner = none) : trackFault s n free = some (trackCause 0x0A 1 n (s.track n).h) := by
  simp only [trackFault, h]

theorem trackFault_foreign {o : Fin 8 × BitVec 6} (h : (s.track n).owner = some o) (ho : o ≠ ownerOf s s.cur) :
    trackFault s n free = some (trackCause 0x0A 2 n (s.track n).h) := by
  simp only [trackFault, h, if_pos ho]

theorem trackFault_poisoned (h : (s.track n).owner = some (ownerOf s s.cur)) (hp : (s.track n).poisoned = true) :
    trackFault s n false = some (trackCause 0x0B (if (s.track n).lost then 1 else 2) n (s.track n).h) := by
  simp [trackFault, h, hp]

theorem trackFault_own (h : (s.track n).owner = some (ownerOf s s.cur)) (hp : (s.track n).poisoned = false ∨ free = true) :
    trackFault s n free = none := by
  rcases hp with hp | rfl <;> simp [trackFault, *]

end Fault

-- ## The run of a trk word

/-- trk.n, x0 where its STEP is read, and the trigger value have no reserved bit. -/
structure Unreserved (step : Bool) (valueOk : Word → Bool) (s : State) (v : Word) : Prop where
  port : field (s.thr.opw .trkN) 63 5 = 0
  stepWord : step = true → field s.thr.x[(0 : Fin 4)] 63 4 = 0
  value : valueOk v = true

section Run

variable {step free : Bool} {valueOk : Word → Bool} {head : Thread → Word → Nat → Int}
  {effect : State → Fin 32 → Track → Word → Nat → State} {s : State} {q : Quad}

/-- A reserved bit comes first. -/
theorem trackPlan_reserved
    (h : field (s.thr.opw .trkN) 63 5 ≠ 0 ∨ (step = true ∧ field s.thr.x[(0 : Fin 4)] 63 4 ≠ 0) ∨ valueOk (low64 q) = false) :
    (trackPlan step free valueOk head effect).run s q = .trap s reservedPort := if_pos h

theorem Unreserved.passes (h : Unreserved step valueOk s (low64 q)) :
    ¬(field (s.thr.opw .trkN) 63 5 ≠ 0 ∨ (step = true ∧ field s.thr.x[(0 : Fin 4)] 63 4 ≠ 0) ∨ valueOk (low64 q) = false) := by
  rintro (hport | ⟨hstep, hword⟩ | hvalue)
  · exact hport h.port
  · exact hword (h.stepWord hstep)
  · simp [h.value] at hvalue

variable (hok : Unreserved step valueOk s (low64 q))

include hok

/-- Then the fault of the track. -/
theorem trackPlan_fault {c : Word} (hfault : trackFault s s.thr.trackNo free = some c) :
    (trackPlan step free valueOk head effect).run s q = .trap s c :=
  (if_neg hok.passes).trans (by rw [hfault])

/-- Then a head outside 0 to 511 (R124). -/
theorem trackPlan_range (hfault : trackFault s s.thr.trackNo free = none)
    (hhead : onTrack (head s.thr (low64 q) (s.track s.thr.trackNo).h) = false) :
    (trackPlan step free valueOk head effect).run s q = .trap s reservedPort :=
  (if_neg hok.passes).trans (by simp only [hfault, hhead, Bool.not_false, if_true])

/-- On an owned track, with room in the queue, the operation takes effect with the head that it leaves. -/
theorem trackPlan_done {h : Nat} (hfault : trackFault s s.thr.trackNo free = none)
    (hhead : head s.thr (low64 q) (s.track s.thr.trackNo).h = h) (hh : h < 512) (hroom : trackQueued s < 16) :
    (trackPlan step free valueOk head effect).run s q = .done (effect s s.thr.trackNo (s.track s.thr.trackNo) (low64 q) h) := by
  have hon : onTrack h = true := by simp [onTrack, hh]
  refine (if_neg hok.passes).trans ?_
  simp only [hfault, hhead, hon, Bool.not_true, Bool.false_eq_true, if_false, if_neg (Nat.not_le.mpr hroom), Int.toNat_natCast]

end Run

-- ## Both words of an operation

/-- Both words of an operation take the precise fault that its run takes. -/
theorem bothFault_of_run {i : Words} {p : Plan} (hi : Plans i p) {sw : Bool} {g : Guard} {c x : Source} {s : State} {v cause : Word}
    (hr : ∀ q, low64 q = v → p.run s q = .trap s cause) : BothFault i v sw g c x s cause := by
  have htrap {len : Nat} {g : Guard} {y : Source} (h : CanIssue g y s) (hv : operand64 s y = v) (hpop : popOf y = none) :
      TakesPrecise (issue len sw g y p s) s cause := by
    have hpopped : popped s y = s := by cases y <;> first | rfl | cases hpop
    exact issue_trap h (hi.simple.admits s).sup ((hi.simple.admits s).feat _) (by rw [hi.simple.miss]) (by rw [hi.simple.fault7])
      (by rw [hi.simple.held7]) (by rw [hpopped]; exact hr _ hv)
  exact ⟨fun h hv hpop => by rw [hi.short]; exact htrap h hv hpop, fun h hv hpop => by rw [hi.long]; exact htrap h hv hpop⟩

section Faults

variable {i : Words} {step free : Bool} {valueOk : Word → Bool} {head : Thread → Word → Nat → Int}
  (hi : TrackWords i step free valueOk head)
  (sw : Bool) (g : Guard) (c x : Source) {s : State} {v : Word}

include hi

theorem trackWords_reserved
    (h : field (s.thr.opw .trkN) 63 5 ≠ 0 ∨ (step = true ∧ field s.thr.x[(0 : Fin 4)] 63 4 ≠ 0) ∨ valueOk v = false) :
    BothFault i v sw g c x s reservedPort := by
  obtain ⟨effect, o, hplan⟩ := hi
  exact bothFault_of_run hplan fun q hq => trackPlan_reserved (by rwa [hq])

theorem trackWords_fault {cause : Word} (hok : Unreserved step valueOk s v) (hfault : trackFault s s.thr.trackNo free = some cause) :
    BothFault i v sw g c x s cause := by
  obtain ⟨effect, o, hplan⟩ := hi
  exact bothFault_of_run hplan fun q hq => trackPlan_fault (by rwa [hq]) hfault

theorem trackWords_range (hok : Unreserved step valueOk s v) (hfault : trackFault s s.thr.trackNo free = none)
    (hhead : onTrack (head s.thr v (s.track s.thr.trackNo).h) = false) : BothFault i v sw g c x s reservedPort := by
  obtain ⟨effect, o, hplan⟩ := hi
  exact bothFault_of_run hplan fun q hq => trackPlan_range (by rwa [hq]) hfault (by rwa [hq])

end Faults

-- ## trk.claim (R120, R124, R130)

section Claim

variable {s : State} {q : Quad}

theorem trkClaim_reserved (h : field (s.thr.opw .trkN) 63 5 ≠ 0 ∨ low64 q ≠ 0) : trkClaimPlan.run s q = .trap s reservedPort := if_pos h

variable (hn : field (s.thr.opw .trkN) 63 5 = 0) (hv : low64 q = 0)

include hn hv

theorem trkClaim_passes : ¬(field (s.thr.opw .trkN) 63 5 ≠ 0 ∨ low64 q ≠ 0) := by
  simp [hn, hv]

/-- An owned track cannot be claimed, with another kind for its owner. -/
theorem trkClaim_owned {o : Fin 8 × BitVec 6} (h : (s.track s.thr.trackNo).owner = some o) : trkClaimPlan.run s q =
    .trap s (trackCause 0x0A (if o = ownerOf s s.cur then 3 else 2) s.thr.trackNo (s.track s.thr.trackNo).h) :=
  (if_neg (trkClaim_passes hn hv)).trans (by rw [h])

theorem trkClaim_retired (h : (s.track s.thr.trackNo).owner = none) (hr : (s.track s.thr.trackNo).retired = true) :
    trkClaimPlan.run s q = .trap s (trackCause 0x0B 3 s.thr.trackNo (s.track s.thr.trackNo).h) :=
  (if_neg (trkClaim_passes hn hv)).trans (by rw [h]; exact if_pos hr)

theorem trkClaim_free (h : (s.track s.thr.trackNo).owner = none) (hr : (s.track s.thr.trackNo).retired = false)
    (hc : (s.track s.thr.trackNo).clearing = false) (hroom : trackQueued s < 16) :
    trkClaimPlan.run s q = .done (s.setTrack s.thr.trackNo { s.track s.thr.trackNo with owner := some (ownerOf s s.cur) }) := by
  refine (if_neg (trkClaim_passes hn hv)).trans ?_
  simp only [h, hr, hc, Bool.false_eq_true, if_false, if_neg (Nat.not_le.mpr hroom)]

end Claim

/-- Settles O27: of the checks of each word's plan, in their order, the first that fails. -/
theorem trackFaultsReported : Obligations.TrackFaultsReported := by
  unfold Obligations.TrackFaultsReported
  intro sw g c x s v
  dsimp only
  have hclaim {v cause : Word} (hr : ∀ q, low64 q = v → trkClaimPlan.run s q = .trap s cause) :
      BothFault (.trkClaimShort, .trkClaimLong) v sw g c x s cause := bothFault_of_run trkClaim_plans hr
  have hmoves {cause : Word} (hn : field (s.thr.opw .trkN) 63 5 = 0) (hx : field s.thr.x[(0 : Fin 4)] 63 4 = 0)
      (hfault : trackFault s s.thr.trackNo false = some cause) : (∀ i ∈ trkOps, BothFault i 0 sw g c x s cause) ∧
        BothFault (.trkSeekShort, .trkSeekLong) v sw g c x s cause ∧ BothFault (.trkStepShort, .trkStepLong) v sw g c x s cause := by
    refine ⟨fun i hi => ?_, trackWords_fault trkSeek_words sw g c x ⟨hn, nofun, rfl⟩ hfault,
      trackWords_fault trkStep_words sw g c x ⟨hn, nofun, rfl⟩ hfault⟩
    obtain ⟨step, valueOk, head, hwords, hv⟩ := trkOps_words i hi
    exact trackWords_fault hwords sw g c x ⟨hn, fun _ => hx, hv⟩ hfault
  have hfree {cause : Word} (hn : field (s.thr.opw .trkN) 63 5 = 0) (hfault : trackFault s s.thr.trackNo true = some cause) :
      BothFault (.trkFreeShort, .trkFreeLong) 0 sw g c x s cause := trackWords_fault trkFree_words sw g c x ⟨hn, nofun, rfl⟩ hfault
  refine ⟨fun hn => ?port, fun hn => ⟨fun hv => ?value, fun hx => ?stepWord, fun hx => ⟨fun ho => ?unowned, fun o ho hne => ?foreign,
    fun ho hp kind hkind => ?poisoned, fun ho hp i hi hon => ?beyond⟩, fun ho hp => ⟨fun hv => ?seek, fun hon => ?step⟩, fun ho => ?twice,
    fun ho hr => ?retired⟩⟩
  case port =>
    rw [List.forall_mem_cons, List.forall_mem_cons]
    refine ⟨hclaim fun q _ => trkClaim_reserved (.inl hn), trackWords_reserved trkFree_words sw g c x (.inl hn), fun i hi => ?_⟩
    obtain ⟨step, valueOk, head, hwords, -⟩ := trkOps_words i hi
    exact trackWords_reserved hwords sw g c x (.inl hn)
  case value =>
    rw [List.forall_mem_cons]
    refine ⟨hclaim fun q hq => trkClaim_reserved (.inr (hq ▸ hv)), fun i hi => ?_⟩
    obtain ⟨step, free, head, hwords⟩ := noValue_words i hi
    exact trackWords_reserved hwords sw g c x (.inr (.inr (by simpa [noValue] using hv)))
  case stepWord => exact fun i hi => trackWords_reserved (accessOps_words i hi) sw g c x (.inr (.inl ⟨rfl, hx⟩))
  case unowned =>
    obtain ⟨hops, hseek, hstep⟩ := hmoves hn hx (trackFault_unowned ho)
    exact ⟨hops, hseek, hstep, hfree hn (trackFault_unowned ho)⟩
  case foreign =>
    obtain ⟨hops, hseek, hstep⟩ := hmoves hn hx (trackFault_foreign ho hne)
    refine ⟨hops, hseek, hstep, hfree hn (trackFault_foreign ho hne), hclaim fun q hq => ?_⟩
    rw [trkClaim_owned hn hq ho, if_neg hne]
  case poisoned => exact hkind ▸ hmoves hn hx (trackFault_poisoned ho hp)
  case beyond => exact trackWords_range (accessOps_words i hi) sw g c x ⟨hn, fun _ => hx, rfl⟩ (trackFault_own ho (.inl hp)) hon
  case seek =>
    exact trackWords_range trkSeek_words sw g c x ⟨hn, nofun, rfl⟩ (trackFault_own ho (.inl hp)) (by simp [onTrack]; omega)
  case step => exact trackWords_range trkStep_words sw g c x ⟨hn, nofun, rfl⟩ (trackFault_own ho (.inl hp)) hon
  case twice =>
    refine hclaim fun q hq => ?_
    rw [trkClaim_owned hn hq ho, if_pos rfl]
  case retired => exact hclaim fun q hq => trkClaim_retired hn hq ho hr

-- ## What a trk word leaves (R118 to R129)

/-- A step changes the parts `ex` alone, and leaves this thread and this track. -/
structure Leaves (ex : List Part) (n : Fin 32) (k : Track) (t : Thread) (s s1 : State) : Prop where
  keeps : Keeps ex s s1
  thr : s1.thr = t
  track : s1.track n = k

theorem leaves_setTrack (s : State) (n : Fin 32) (k : Track) : Leaves [.track n] n k s.thr s (s.setTrack n k) :=
  ⟨setTrack_keeps s n k, rfl, setTrack_track_same s n k⟩

theorem leaves_setThr {s : State} {t : Thread} {ps : List Part} (hk : Keeps ps s (s.setThr t)) (n : Fin 32) (k : Track) :
    Leaves (.track n :: ps) n k t s ((s.setThr t).setTrack n k) :=
  ⟨hk.trans (setTrack_keeps _ n k) (by simp +contextual) (by simp), State.setThr_thr s t, setTrack_track_same _ n k⟩

/-- The same with an id taken. -/
theorem leaves_bump {s : State} {t : Thread} {ps : List Part} (hk : Keeps ps s (s.setThr t)) (n : Fin 32) (k : Track) :
    Leaves (.track n :: (ps ++ [.ids])) n k t s ((s.setThr t).bump.setTrack n k) :=
  ⟨(hk.trans (bump_keeps _) (c := ps ++ [.ids]) (by simp +contextual) (by simp)).trans (setTrack_keeps _ n k) (by simp +contextual) (by simp),
    State.setThr_thr s t, setTrack_track_same _ n k⟩

theorem charge_owe_keeps (s : State) (d tag : Nat) (ports : List RPort) :
    Keeps [.cr crShift, .owed, .fence] s (s.setThr ((s.thr.charge d).owe tag ports false none)) := by
  have h := (charge_keeps s d).trans (owe_keeps (s.setThr (s.thr.charge d)) tag ports false none) (c := [.cr crShift, .owed, .fence])
    (by simp) (by simp)
  rwa [setThr_setThr, State.setThr_thr] at h

theorem charge_shift (t : Thread) (d : Nat) :
    (t.charge d).cr[crShift] = BitVec.ofNat 64 ((field t.cr[crShift] 47 0 + d) % 2 ^ 48) := by
  simp [Thread.charge, Thread.setCr]

/-- A result owed by a word is owed once the word has issued. -/
theorem owes_of_owed {s u : State} {t : Thread} {ports : List RPort} (h : u.thr.owed = (t.owe s.nextId ports false none).owed)
    (howed : t.owed = s.thr.owed) (harea : t.areaUse = s.thr.areaUse) : Owes ports s u :=
  ⟨_, h.trans (congrArg (· ++ _) howed), rfl, rfl, harea⟩

-- A popped source leaves alone what a trk word reads of its state.
theorem popped_track (s : State) (y : Source) (n : Fin 32) : (popped s y).track n = s.track n := by
  obtain ⟨-, htracks⟩ := popped_tracks s y
  simp only [State.track, htracks]

theorem popped_ownerOf (s : State) (y : Source) (i : Fin 8) : ownerOf (popped s y) i = ownerOf s i := by
  obtain ⟨hslots, -⟩ := popped_tracks s y
  simp only [ownerOf, hslots]

theorem popped_trackQueued (s : State) (y : Source) : trackQueued (popped s y) = trackQueued s := by
  obtain ⟨-, htracks⟩ := popped_tracks s y
  simp only [trackQueued, htracks]

theorem popped_trackFault (s : State) (y : Source) (n : Fin 32) (free : Bool) : trackFault (popped s y) n free = trackFault s n free := by
  simp only [trackFault, popped_track, popped_ownerOf, popped_cur]

section Done

variable {i : Words} {sw : Bool} {g : Guard} {c x : Source} {s : State} {v : Word} {ex : List Part} {n : Fin 32} {k : Track} {t : Thread}
  {P : State → Prop}

/-- Both words of an operation are done where its run leaves a track and a thread that `P` follows from. -/
theorem bothDoneAt_of_run {p : Plan} (hi : Plans i p)
    (hr : ∀ y, operand64 s y = v → ∃ s1, p.run (popped s y) (operand s y) = .done s1 ∧ Leaves ex n k t (popped s y) s1) (hex : Part.mode ∉ ex)
    (hP : ∀ u, u.core.tracks[n] = k → u.thr.cr[crShift] = t.cr[crShift] → u.thr.owed = t.owed → P u) : BothDoneAt i v sw g c x s ex P := by
  have hdone {len : Nat} {g : Guard} {y : Source} (h : CanIssue g y s) (hv : operand64 s y = v) : Done len sw y ex s P (issue len sw g y p s) := by
    obtain ⟨s1, hrun, hkeeps, hthr, htrack⟩ := hr y hv
    have hmode : s1.thr.mode = .run := by rw [hkeeps.2 .mode hex, popped_thr, h.runs]
    refine done_of_run h (hi.simple.admits s).sup ((hi.simple.admits s).feat _) (by rw [hi.simple.miss]) (by rw [hi.simple.fault7])
      (by rw [hi.simple.held7]) hrun hkeeps hmode ?_
    have hkept (p : Part) (hp : p ∉ [.pc, .cr crQleft, .cr crWp, .expiry, .relMark, .book, .turns, .mode, .fence]) (hs : ∀ i, p ≠ .stream i) :=
      (finish_keeps s s1 (s.thr.pc + BitVec.ofNat 64 len) sw y hmode).2 p (not_mem_issued hp hs sw y)
    rw [← hthr] at hP
    exact hP _ ((hkept (.track n) (by simp) nofun).trans htrack) (hkept (.cr crShift) (by decide) nofun) (hkept .owed (by decide) nofun)
  exact ⟨fun h hv => by rw [hi.short]; exact hdone h hv, fun h hv => by rw [hi.long]; exact hdone h hv⟩

/-- On an owned track, with room in the queue, both words leave what the operation's effect does. -/
theorem trackWords_done {step free : Bool} {valueOk : Word → Bool} {head : Thread → Word → Nat → Int}
    {effect : State → Fin 32 → Track → Word → Nat → State} {o : Op} {h : Nat} (hi : Plans i ((trackPlan step free valueOk head effect).covered o))
    (hok : Unreserved step valueOk s v) (hfault : trackFault s s.thr.trackNo free = none)
    (hhead : head s.thr v (s.track s.thr.trackNo).h = h) (hh : h < 512) (hroom : trackQueued s < 16)
    (heff : ∀ s' : State, s'.thr = s.thr → s'.cur = s.cur → s'.nextId = s.nextId →
      Leaves ex n k t s' (effect s' s.thr.trackNo (s.track s.thr.trackNo) v h)) (hex : Part.mode ∉ ex)
    (hP : ∀ u, u.core.tracks[n] = k → u.thr.cr[crShift] = t.cr[crShift] → u.thr.owed = t.owed → P u) : BothDoneAt i v sw g c x s ex P := by
  refine bothDoneAt_of_run hi (fun y hv => ⟨_, ?_, heff (popped s y) (popped_thr s y) (popped_cur s y) (popped_nextId s y)⟩) hex hP
  subst hv
  have hthr := popped_thr s y
  obtain ⟨hport, hword, hvalue⟩ := hok
  have hrun := trackPlan_done (step := step) (free := free) (valueOk := valueOk) (head := head) (effect := effect) (s := popped s y)
    (q := operand s y) (h := h) ⟨by rwa [hthr], by rwa [hthr], hvalue⟩ (by rwa [popped_trackFault, hthr]) (by rwa [popped_track, hthr]) hh
    (by rwa [popped_trackQueued])
  rwa [popped_track, hthr] at hrun

/-- A word that sets its track and charges its thread with a distance, and nothing else. -/
theorem trackWords_charged {step free : Bool} {valueOk : Word → Bool} {head : Thread → Word → Nat → Int}
    {effect : State → Fin 32 → Track → Word → Nat → State} {o : Op} {h d : Nat}
    (hi : Plans i ((trackPlan step free valueOk head effect).covered o)) (hok : Unreserved step valueOk s v)
    (hfault : trackFault s s.thr.trackNo free = none) (hhead : head s.thr v (s.track s.thr.trackNo).h = h) (hh : h < 512)
    (hroom : trackQueued s < 16) (heff : ∀ s' : State, s'.thr = s.thr → s'.cur = s.cur →
      effect s' s.thr.trackNo (s.track s.thr.trackNo) v h = (s'.setThr (s'.thr.charge d)).setTrack n k) :
    BothDoneAt i v sw g c x s [.track n, .cr crShift] (fun u => u.core.tracks[n] = k ∧
      u.thr.cr[crShift] = BitVec.ofNat 64 ((field s.thr.cr[crShift] 47 0 + d) % 2 ^ 48)) := by
  refine trackWords_done (t := s.thr.charge d) hi hok hfault hhead hh hroom (fun s' hthr hcur _ => ?_) (by simp)
    fun u hu hshift _ => ⟨hu, hshift.trans (charge_shift _ _)⟩
  rw [heff s' hthr hcur, ← hthr]
  exact leaves_setThr (charge_keeps s' d) n k

end Done

theorem lt_of_onTrack {h : Nat} (hon : onTrack h = true) : h < 512 := by
  simpa [onTrack] using hon

/-- A head within the track comes back from its distance as a trigger value. -/
theorem step_toInt {h k : Nat} (hh : h < 512) (hk : k < 512) : (k : Int) + (BitVec.ofInt 64 ((h : Int) - k)).toInt = h := by
  rw [BitVec.toInt_ofInt, Int.bmod_eq_of_le (by omega) (by omega)]
  omega

theorem seek_toNat {h : Nat} (hh : h < 512) : (BitVec.ofNat 64 h).toNat = h := by
  rw [BitVec.toNat_ofNat, Nat.mod_eq_of_lt (by omega)]

/-- Settles O26: each word's effect, on a track that raises no fault. -/
theorem trackWordsQueue : Obligations.TrackWordsQueue := by
  unfold Obligations.TrackWordsQueue
  intro sw g c x s hn hroom
  dsimp only
  refine ⟨fun ho hr hc => ?claim, fun ho hon => ?free, fun ho hp => ?owned⟩
  case claim =>
    refine bothDoneAt_of_run (t := s.thr) trkClaim_plans (fun y hv => ?_) (by simp) fun u hu _ _ => hu
    have hrun := trkClaim_free (s := popped s y) (q := operand s y) (by rwa [popped_thr]) hv (by rwa [popped_thr, popped_track])
      (by rwa [popped_thr, popped_track]) (by rwa [popped_thr, popped_track]) (by rwa [popped_trackQueued])
    rw [popped_thr, popped_track, popped_cur, popped_ownerOf] at hrun
    exact ⟨_, hrun, popped_thr s y ▸ leaves_setTrack (popped s y) _ _⟩
  case free =>
    refine trackWords_done (t := s.thr) trkFree_plans ⟨hn, nofun, rfl⟩ (trackFault_own ho (.inr rfl)) rfl (lt_of_onTrack hon) hroom
      (fun s' hthr hcur _ => ?_) (by simp) fun u hu _ _ => hu
    rw [← hthr, ← hcur]
    exact leaves_setTrack _ _ _
  case owned =>
    have hfault := trackFault_own (free := false) ho (.inl hp)
    refine ⟨fun h hh => ?seek, fun h hh hk => ?step, fun h hh hhead hx => ⟨?rds, ?wrs⟩, ?rwd, fun hon => ?head⟩
    case seek =>
      exact trackWords_charged trkSeek_plans ⟨hn, nofun, rfl⟩ hfault (congrArg Nat.cast (seek_toNat hh)) hh hroom
        fun s' _ hcur => by rw [← hcur]; rfl
    case step =>
      exact trackWords_charged trkStep_plans ⟨hn, nofun, rfl⟩ hfault (step_toInt hh hk) hh hroom fun s' _ hcur => by rw [← hcur]; rfl
    case wrs =>
      exact trackWords_charged trkWrs_plans ⟨hn, fun _ => hx, rfl⟩ hfault hhead.symm hh hroom
        fun s' hthr hcur => by rw [← hthr, ← hcur]
    case rwd =>
      exact trackWords_charged trkRwd_plans ⟨hn, nofun, rfl⟩ hfault rfl (by decide : 0 < 512) hroom fun s' _ hcur => by rw [← hcur]; rfl
    case rds =>
      refine trackWords_done (t := (s.thr.charge s.thr.trackStep.natAbs).owe s.nextId [.trkO] false none) trkRds_plans
        ⟨hn, fun _ => hx, rfl⟩ hfault hhead.symm hh hroom (fun s' hthr hcur hid => ?_) (by simp)
        fun u hu hshift howed => ⟨hu, hshift.trans (charge_shift _ _), owes_of_owed howed rfl rfl⟩
      rw [← hthr, ← hcur, ← hid]
      exact leaves_bump (charge_owe_keeps ..) _ _
    case head =>
      refine trackWords_done (t := s.thr.owe s.nextId [.trkH] false none) trkHead_plans ⟨hn, nofun, rfl⟩ hfault rfl (lt_of_onTrack hon)
        hroom (fun s' hthr hcur hid => ?_) (by simp) fun u hu _ howed => ⟨hu, owes_of_owed howed rfl rfl⟩
      rw [← hthr, ← hcur, ← hid]
      exact leaves_bump (owe_keeps ..) _ _

end Sys2Proof.Proofs.Tracks
end

section
/-! PROOF. A freed poisoned track whose marker stands more than 512 positions from the port's place is retired, not cleaned (R129, R130). -/

namespace Sys2Proof.Proofs.TrackUnit

open Sys2Proof Sys2Proof.Machine Sys2Proof.Slice0 Sys2Proof.Proofs.Copies

/-- The home search gives up beyond 512 positions, though the marker stands (R129, log 105). -/
theorem home?_far (k : Track) {a : Int} (h : 512 < a.natAbs) : k.home? a = none := by
  simp [Track.home?, Nat.not_le.mpr h]

/-- A track under clearing whose search finds no home is retired (R130). -/
theorem trackClear_no_home {s : State} {n : Fin 32} (found : Bool) (h : (s.track n).home? (s.track n).slip = none) :
    (trackClear n found s).track n = { Track.clean with marker := (s.track n).marker, retired := true } := by
  unfold trackClear
  dsimp only
  rw [h, Option.isSome_none, Bool.and_false, if_neg Bool.false_ne_true, setTrack_track_same]

theorem exec_trackClear {s : State} {n : Fin 32} (found : Bool) (hc : (s.track n).clearing = true) (hq : (s.track n).queue = []) :
    exec (.trackClear n found) s = .next (trackClear n found s) := by
  change execTrackClear n found s = _
  simp [execTrackClear, hc, hq]

/-- A track under clearing, with its marker, 513 positions off its port. -/
def slippedTrack : Track := { Track.clean with slip := 513, clearing := true }

/-- The reset machine with track 0 such. -/
def slippedState : State := State.reset.setTrack 0 slippedTrack

/-- Refutes O48, where it cleans a freed track: in `slippedState` nothing is queued on track 0, it is being cleared, and its marker stands; the search for
it ends 512 positions from the port's place, so that the track is retired though it was not before. -/
theorem not_coreUnitsPerform : ¬ Obligations.CoreUnitsPerform := by
  unfold Obligations.CoreUnitsPerform
  intro h
  obtain ⟨htracks, -⟩ := h slippedState
  obtain ⟨-, -, hclean, -⟩ := htracks 0 []
  have htrack : slippedState.track 0 = slippedTrack := setTrack_track_same _ _ _
  obtain ⟨t, ht, hcleaned⟩ := hclean (by rw [htrack]; rfl) (by rw [htrack]; rfl) (by rw [htrack]; rfl)
  rw [exec_trackClear true (by rw [htrack]; rfl) (by rw [htrack]; rfl)] at ht
  cases ht
  have hretired := trackClear_no_home (s := slippedState) (n := 0) true (home?_far _ (by rw [htrack]; decide))
  rw [hcleaned, htrack] at hretired
  exact absurd (congrArg Track.retired hretired) (by decide)

end Sys2Proof.Proofs.TrackUnit
end

section
/-! PROOF. Stores and mem.ste on their way (R152 to R154, R298): a write at its place, with room in its queues, is sent. -/

namespace Sys2Proof.Proofs.Stores

open Sys2Proof Sys2Proof.Machine Sys2Proof.Safety Sys2Proof.Slice0 Sys2Proof.Proofs.Words Sys2Proof.Proofs.Loads Sys2Proof.Proofs.Sending
  Sys2Proof.Proofs.Tracks

section Write

variable {i : Words} {o o' : Op} {n : Nat} {sync ste : Bool} {kind : Thread → ReqKind} {x : Source} {loc : Nat} {s s1 : State}
  (h : Lands x true sync false loc s1 s)

include h

/-- A write sent from its place is on its way from the word's state: reaching the place left its ids, its slot and its queues alone. -/
theorem lands_sendsWrite (o : Op) (own : Bool) (va : Word) (k : ReqKind) (counted : Bool) (n : Nat) :
    SendsWrite counted k loc s (sendWrite (l1Drop s1 loc) o own loc va k counted n) := by
  obtain ⟨hthr, hid, hbankq, -⟩ := lands_same h
  have hcur : s1.cur = s.cur := (lands_step h).keeps.1.trans (popped_cur s x)
  refine sendsWrite_from (sendWrite_sends ..) ?_ ?_ ?_ ?_ ?_ ?_
  all_goals simp [hthr, hid, hbankq, hcur]

variable (ha : (operand64 s x).toNat % n = 0) (hheld : storeHeld s.thr (ste || !isOwn (operand64 s x)) = false)
  (hmx : (isOwn (operand64 s x) && mxReading s1) = false)

include ha hheld hmx

/-- An aligned write at its place, with room in its queues, is sent with the data of its thread (R152, R154). -/
theorem writePlan_run : (writePlan o n sync ste kind).run (popped s x) (operand s x) =
    .done (sendWrite (l1Drop s1 loc) o (isOwn (operand64 s x)) loc (operand64 s x) (kind s.thr) (ste || !isOwn (operand64 s x)) n) := by
  obtain ⟨hthr, -⟩ := lands_same h
  obtain ⟨hwalk, ⟨attr, htr⟩, hwatch⟩ := h
  rw [← popped_thr s x] at hwalk htr
  refine (access_lands (more := fun _ _ => none) (decide_eq_false (fun h => h ha)) hwalk htr rfl hwatch).trans ?_
  dsimp only
  rw [hthr, hheld, Bool.false_or, hmx, if_neg Bool.false_ne_true]

/-- Both words of a write are done, and leave it on its way. -/
theorem writeWords_sent (hi : Plans i ((writePlan o n sync ste kind).covered o')) (sw : Bool) (g : Guard) :
    BothDone i sw g x x s writeParts (fun _ => SendsWrite (ste || !isOwn (operand64 s x)) (kind s.thr) loc s) :=
  bothDone_of_run hi.short hi.long hi.simple (writePlan_run h ha hheld hmx) (write_keeps h (drop_sendWrite_keeps ..)) (by decide)
    fun next hm => sendsWrite_issued (lands_sendsWrite h ..) (finish_keeps s _ next sw x hm)

end Write

/-- Each store's plan, with its width and whether it sets the word full (R152, R153). -/
theorem storeOps_planned : ∀ op ∈ storeOps, ∃ o, Plans op.1 ((storePlan o op.2.1 op.2.2).covered o) := by
  simp only [storeOps, List.forall_mem_cons, List.not_mem_nil, false_implies, implies_true, and_true]
  and_intros
  all_goals exact ⟨_, fun _ _ _ => rfl, fun _ _ _ _ => rfl, ⟨rfl, rfl⟩, rfl, rfl, rfl⟩

theorem memSte_plans : Plans (.memSteShort, .memSteLong) (memStePlan.covered .memSte) :=
  ⟨fun _ _ _ => rfl, fun _ _ _ _ => rfl, ⟨rfl, rfl⟩, rfl, rfl, rfl⟩

/-- Settles O19: each store is a write that counts outside the own-cluster window, with the bytes of its data port. -/
theorem storesAreSent : Obligations.StoresAreSent := by
  unfold Obligations.StoresAreSent
  intro op hop sw g x loc s s1
  obtain ⟨o, hplans⟩ := storeOps_planned op hop
  dsimp only
  intro h ha hheld hmx
  exact writeWords_sent (ste := false) h ha hheld hmx hplans sw g

/-- Settles O20: mem.ste is a write that counts at every address, with the word of mem.d. -/
theorem steIsSent : Obligations.SteIsSent := by
  unfold Obligations.SteIsSent
  intro sw g x loc s s1 h ha hheld hmx
  exact writeWords_sent (ste := true) h ha hheld hmx memSte_plans sw g

end Sys2Proof.Proofs.Stores
end

section
/-! PROOF. The alignment fault (R151): a memory word whose address is no multiple of its width traps before its translation. -/

namespace Sys2Proof.Proofs.Alignment

open Sys2Proof Sys2Proof.Machine Sys2Proof.Safety Sys2Proof.Slice0 Sys2Proof.Proofs.Words Sys2Proof.Proofs.Loads Sys2Proof.Proofs.Tracks
  Sys2Proof.Proofs.Stores

-- ## A precise fault before any effect (R52)

/-- With its streams put back, a state whose source was popped is the state of before. -/
theorem popped_restored (s : State) (x : Source) : (popped s x).onCore (fun k => { k with streams := s.core.streams }) = s := by
  unfold popped readSource
  cases x with
  | str i => simp only [popStream]; split <;> rfl
  | _ => rfl

/-- A word whose run traps where it starts takes the fault, and has popped nothing. -/
theorem takesPrecise_of_run {len : Nat} {sw : Bool} {g : Guard} {x : Source} {p : Plan} {s : State} {c : Word} (hp : Simple p)
    (h : CanIssue g x s) (hr : p.run (popped s x) (operand s x) = .trap (popped s x) c) : TakesPrecise (issue len sw g x p s) s c := by
  have htrap := issue_trap (len := len) (sw := sw) h (hp.admits s).sup ((hp.admits s).feat _) (by rw [hp.miss]) (by rw [hp.fault7])
    (by rw [hp.held7]) hr
  rwa [popped_restored] at htrap

-- ## Plans that check their alignment first (R90, R150)

/-- A plan that checks nothing before its run, and whose run takes the alignment fault at an address that is no multiple of `n`. -/
structure ChecksAlignment (n : Nat) (p : Plan) : Prop where
  simple : Simple p
  faults : ∀ s v, (low64 v).toNat % n ≠ 0 → p.run s v = .trap s (alignFault n (low64 v))

theorem access_misaligned {s : State} {n : Nat} {mis write sync lrw : Bool} {va : Word} {more : State → Nat → Option Word}
    {k : State → Nat → Verdict} (h : mis = true) : access s n mis write sync va more k lrw = .trap s (alignFault n va) := if_pos h

theorem ChecksAlignment.covered {n : Nat} {p : Plan} (h : ChecksAlignment n p) (o : Op) : ChecksAlignment n (p.covered o) :=
  ⟨⟨⟨h.simple.sup, h.simple.feat⟩, h.simple.miss, h.simple.fault7, h.simple.held7⟩, h.faults⟩

theorem loadPlan_checksAlignment (o : Op) (n : Nat) (ext : Bool) : ChecksAlignment n (loadPlan o n ext) :=
  ⟨⟨⟨rfl, rfl⟩, rfl, rfl, rfl⟩, fun _ _ h => access_misaligned (more := fun _ _ => none) (decide_eq_true h)⟩

theorem waitLoadPlan_checksAlignment (o : Op) (kind : ReqKind) : ChecksAlignment 8 (waitLoadPlan o kind) :=
  ⟨⟨⟨rfl, rfl⟩, rfl, rfl, rfl⟩, fun _ _ h => access_misaligned (more := fun _ _ => none) (decide_eq_true h)⟩

theorem writePlan_checksAlignment (o : Op) (n : Nat) (sync ste : Bool) (kind : Thread → ReqKind) :
    ChecksAlignment n (writePlan o n sync ste kind) :=
  ⟨⟨⟨rfl, rfl⟩, rfl, rfl, rfl⟩, fun _ _ h => access_misaligned (more := fun _ _ => none) (decide_eq_true h)⟩

theorem amoPlan_checksAlignment (o : Op) (k : AmoKind) : ChecksAlignment 8 (amoPlan o k) :=
  ⟨⟨⟨rfl, rfl⟩, rfl, rfl, rfl⟩, fun _ _ h => access_misaligned (more := fun _ _ => none) (decide_eq_true h)⟩

theorem amoLrwPlan_checksAlignment : ChecksAlignment 8 amoLrwPlan :=
  ⟨⟨⟨rfl, rfl⟩, rfl, rfl, rfl⟩, fun _ _ h => access_misaligned (decide_eq_true h)⟩

/-- A word of such a plan takes the fault, with its width and its address. -/
theorem ChecksAlignment.takesPrecise {n len : Nat} {sw : Bool} {g : Guard} {x : Source} {p : Plan} {s : State} (hp : ChecksAlignment n p)
    (h : CanIssue g x s) (ha : (operand64 s x).toNat % n ≠ 0) :
    TakesPrecise (issue len sw g x p s) s (causeVa 6 1 (log2w n) (operand64 s x)) :=
  takesPrecise_of_run hp.simple h (hp.faults _ _ ha)

-- ## The words

/-- Both words of an operation have a plan that checks the alignment to `n` first. -/
def AlignedWords (i : Words) (n : Nat) : Prop := ∃ p, ShortWord i.1 p ∧ LongWord i.2 p ∧ ChecksAlignment n p

theorem loadOps_aligned : ∀ op ∈ loadOps, AlignedWords op.1 op.2.1 := by
  intro op hop
  obtain ⟨o, o', hshort, hlong⟩ := loadOps_planned op hop
  exact ⟨_, hshort, hlong, (loadPlan_checksAlignment ..).covered o'⟩

theorem storeOps_aligned : ∀ op ∈ storeOps, AlignedWords op.1 op.2.1 := by
  intro op hop
  obtain ⟨o, hplans⟩ := storeOps_planned op hop
  exact ⟨_, hplans.short, hplans.long, (writePlan_checksAlignment ..).covered o⟩

theorem memLdf_aligned : AlignedWords (.memLdfShort, .memLdfLong) 8 :=
  ⟨_, fun _ _ _ => rfl, fun _ _ _ _ => rfl, (waitLoadPlan_checksAlignment ..).covered .memLdf⟩

theorem memLdt_aligned : AlignedWords (.memLdtShort, .memLdtLong) 8 :=
  ⟨_, fun _ _ _ => rfl, fun _ _ _ _ => rfl, (waitLoadPlan_checksAlignment ..).covered .memLdt⟩

theorem memSte_aligned : AlignedWords (.memSteShort, .memSteLong) 8 :=
  ⟨_, memSte_plans.short, memSte_plans.long, (writePlan_checksAlignment ..).covered .memSte⟩

/-- The posted operations and amo.lrw. -/
theorem amoWords_aligned : ∀ w ∈ ([.amoAdd, .amoMin, .amoMax, .amoAnd, .amoOr, .amoXor, .amoLrw] : List (Bool → Guard → Source → Instr)),
    ∃ p, LongWord w p ∧ ChecksAlignment 8 p := by
  have hamo (o : Op) (k : AmoKind) := (amoPlan_checksAlignment o k).covered o
  simp only [List.forall_mem_cons, List.not_mem_nil, false_implies, implies_true, and_true]
  refine ⟨⟨_, ?_, hamo .amoAdd .add⟩, ⟨_, ?_, hamo .amoMin .min⟩, ⟨_, ?_, hamo .amoMax .max⟩, ⟨_, ?_, hamo .amoAnd .and⟩,
    ⟨_, ?_, hamo .amoOr .or⟩, ⟨_, ?_, hamo .amoXor .xor⟩, _, ?_, amoLrwPlan_checksAlignment.covered .amoLrw⟩
  all_goals exact fun _ _ _ _ => rfl

/-- An amo.scr's address leaves out bit 0 alone: with a set bit among the two above it, it is misaligned (log 28). -/
theorem scr_misaligned {a : Word} (h0 : a.toNat % 8 ≠ 0) (h1 : a.toNat % 8 ≠ 1) : field a 2 1 ≠ 0 := by
  simp only [field, Nat.shiftRight_eq_div_pow]
  omega

theorem amoScrPlan_misaligned {s : State} {v : Quad} (h : field (low64 v) 2 1 ≠ 0) :
    amoScrPlan.run s v = .trap s (alignFault 8 (low64 v)) := if_pos h

/-- Settles O21: the plan of every memory word but amo.scr checks the alignment first, and amo.scr's that of its two address bits. -/
theorem misalignedAccessFaults : Obligations.MisalignedAccessFaults := by
  unfold Obligations.MisalignedAccessFaults
  refine ⟨fun op hop sw g c x s => ?mem, fun w hw sw g x s h ha => ?amo, fun sw g x s h h0 h1 => ?scr⟩
  case mem =>
    have haligned : AlignedWords op.1 op.2 := by
      revert op
      simp only [List.forall_mem_append, List.forall_mem_map, List.forall_mem_cons, List.not_mem_nil, false_implies, implies_true, and_true]
      exact ⟨⟨loadOps_aligned, storeOps_aligned⟩, memLdf_aligned, memLdt_aligned, memSte_aligned⟩
    obtain ⟨p, hshort, hlong, hchecks⟩ := haligned
    rw [hshort, hlong]
    exact ⟨hchecks.takesPrecise, hchecks.takesPrecise⟩
  case amo =>
    obtain ⟨p, hlong, hchecks⟩ := amoWords_aligned w hw
    rw [hlong]
    exact hchecks.takesPrecise h ha
  case scr =>
    exact takesPrecise_of_run (p := amoScrPlan.covered .amoScr) ⟨⟨rfl, rfl⟩, rfl, rfl, rfl⟩ h (amoScrPlan_misaligned (scr_misaligned h0 h1))

end Sys2Proof.Proofs.Alignment
end

section
/-! PROOF. nd.want, nd.give and nd.drop (R171 to R175): what each leaves of the router, the record and the queues, once its checks are behind it. -/

namespace Sys2Proof.Proofs.Tiles

open Sys2Proof Sys2Proof.Machine Sys2Proof.Safety Sys2Proof.Slice0 Sys2Proof.Proofs.Words Sys2Proof.Proofs.Loads Sys2Proof.Proofs.Translation
  Sys2Proof.Proofs.SystemWords Sys2Proof.Proofs.Sending Sys2Proof.Proofs.Engines

-- ## A popped source changes its stream alone

theorem popped_streams (s : State) (x : Source) : ∃ l, popped s x = s.onCore (fun k => { k with streams := l }) := by
  unfold popped readSource
  cases x with
  | str i =>
    simp only [popStream]
    split
    · exact ⟨s.core.streams, rfl⟩
    · exact ⟨_, rfl⟩
  | _ => exact ⟨s.core.streams, rfl⟩

theorem popped_nameRecord (s : State) (x : Source) : nameRecord (popped s x) = nameRecord s := by
  obtain ⟨l, h⟩ := popped_streams s x
  rw [h]
  rfl

theorem popped_winLoc (s : State) (x : Source) : winLoc (popped s x) = winLoc s := by
  obtain ⟨l, h⟩ := popped_streams s x
  rw [h]
  rfl

/-- A popped source leaves alone the places of the core, what its tile words have taken, and the network. -/
theorem popped_tiles (s : State) (x : Source) :
    (popped s x).coreId = s.coreId ∧ (popped s x).home = s.home ∧ (popped s x).net = s.net ∧ (popped s x).core.interests = s.core.interests ∧
    (popped s x).core.nrec = s.core.nrec ∧ (popped s x).core.gives = s.core.gives ∧ (popped s x).core.retires = s.core.retires := by
  obtain ⟨l, h⟩ := popped_streams s x
  rw [h]
  exact ⟨rfl, rfl, rfl, rfl, rfl, rfl, rfl⟩

theorem popped_cards (s : State) (x : Source) : (popped s x).core.cards = s.core.cards ∧ (popped s x).core.ncard = s.core.ncard := by
  obtain ⟨l, h⟩ := popped_streams s x
  rw [h]
  exact ⟨rfl, rfl⟩

-- ## Frames

theorem set_net_keeps (s : State) (n : Net) : Keeps [.net] s { s with net := n } := by
  refine ⟨rfl, fun p hp => ?_⟩
  cases p with
  | net => simp at hp
  | _ => exact (keeps_refl [.net] s).2 _ hp

/-- What the core's tile words write in the core. -/
theorem set_tiles_keeps (s : State) (cards : List Card) (ncard : Nat) (interests : List Interest) (nrec : Nat) (gives : List (Fin 8 × Nat))
    (retires : List Retire) : Keeps [.tiles] s (s.onCore (fun c => { c with cards, ncard, interests, nrec, gives, retires })) := by
  refine ⟨rfl, fun p hp => ?_⟩
  cases p with
  | tiles => simp at hp
  | _ => exact (keeps_refl [.tiles] s).2 _ hp

theorem ringFree_keeps (s : State) (tag : Nat) : Keeps [.ring] s (s.setThr (s.thr.ringFree tag)) := by
  refine ⟨rfl, fun p hp => ?_⟩
  cases p with
  | ring => simp at hp
  | others => exact fun i hi => setThr_other s _ i hi
  | _ => simp [same, Thread.ringFree, Thread.pred, Thread.opq, Thread.rpq]

/-- A fold over steps that belong to the current slot keeps what each of them keeps. -/
theorem keeps_foldl_cur {α : Type} {c : List Part} {i : Fin 8} {f : State → α → State} (h : ∀ s a, s.cur = i → Keeps c s (f s a)) (l : List α)
    {s : State} (hs : s.cur = i) : Keeps c s (l.foldl f s) := by
  induction l generalizing s with
  | nil => exact keeps_refl c s
  | cons a l ih => exact keeps_trans (h s a hs) (ih ((h s a hs).1.trans hs))

-- ## Words of the window are checked and read (R139, R297)

/-- What checking the codes of a bank's words may change: what they report, and the bank log. -/
def codeParts : List Part := [.errors, .mc, .host]

theorem scrubWord_codes (s : State) (w : Nat) : Keeps codeParts s (scrubWord s w) := by
  have hcodes (marks : List (Nat × BitVec 2)) (ecc : List (Nat × Bool)) (sound : List (Option Nat × Nat)) (mc : List McBank) (host : HostRegs) :
      Keeps codeParts s { s with st := { s.st with marks, ecc, sound }, mc, host } := by
    refine ⟨rfl, fun p hp => ?_⟩
    cases p with
    | errors | mc | host => simp [codeParts] at hp
    | _ => exact (keeps_refl codeParts s).2 _ hp
  unfold scrubWord
  dsimp only
  repeat' split
  all_goals exact hcodes _ _ _ _ _

theorem winScrub_keeps (s : State) (off n : Nat) : Keeps codeParts s (winScrub s off n) :=
  keeps_foldl (fun s _ => keeps_foldl scrubWord_codes _ s) _ s

theorem winScrub_change (s : State) (off n : Nat) : SliceChange s (winScrub s off n) := .foldl (fun s _ => scrub_change s _ _) _ s

theorem winScrub_winLoc (s : State) (off n : Nat) : winLoc (winScrub s off n) = winLoc s := by
  obtain ⟨_, _, _, _, _, _, _, h⟩ := winScrub_change s off n
  rw [h]
  rfl

theorem winScrub_thr (s : State) (off n : Nat) : (winScrub s off n).thr = s.thr := by
  obtain ⟨_, _, _, _, _, _, _, h⟩ := winScrub_change s off n
  rw [h]
  rfl

theorem set_floor_relReads_keeps (s : State) (floor : List (Nat × Nat)) (relReads : List Release) :
    Keeps [.floor, .releases] s (s.setThr { s.thr with floor, relReads }) := by
  refine ⟨rfl, fun p hp => ?_⟩
  cases p with
  | floor | releases => simp at hp
  | others => exact fun i hi => setThr_other s _ i hi
  | _ => simp [same, Thread.pred, Thread.opq, Thread.rpq]

/-- What the current slot reads of the window adds to what its thread knows, and to nothing else. -/
theorem winGains_keeps (s : State) (tag off n : Nat) : Keeps [.floor, .releases] s (winGains s s.cur tag off n) := by
  refine keeps_foldl_cur (fun t w ht => ?_) _ rfl
  rw [← ht]
  exact set_floor_relReads_keeps t _ _

-- ## An interest is taken, and withdrawn (R173, R175)

/-- The record that an interest takes. -/
def interestOf (s : State) (nm : TileName) (dest : Nat) (card : Option (Fin 32)) (tag : Nat) : Interest :=
  { num := s.core.nrec, slot := s.cur, nm, dest, card, tag, area := some s.thr.psave }

section Take

variable (s : State) (nm : TileName) (dest : Nat) (card : Option (Fin 32)) (tag : Nat)

@[simp] theorem takeInterest_interests :
    (takeInterest s nm dest card tag).core.interests = s.core.interests ++ [interestOf s nm dest card tag] := rfl

@[simp] theorem takeInterest_nrec : (takeInterest s nm dest card tag).core.nrec = s.core.nrec + 1 := rfl

@[simp] theorem takeInterest_packets : (takeInterest s nm dest card tag).net.packets =
    s.net.packets ++ [(clusterOf s.coreId, .interest nm (.waiter s.coreId dest s.core.nrec))] := rfl

theorem takeInterest_keeps : Keeps [.tiles, .net] s (takeInterest s nm dest card tag) :=
  (set_tiles_keeps s _ _ _ _ _ _).trans (set_net_keeps _ _) (by simp) (by simp)

end Take

/-- A face is dropped in the network alone. -/
theorem dropFace_net (s : State) (k : Nat) (nm : TileName) (f : Face) : ∃ n, dropFace s k nm f = { s with net := n } := by
  have hup (s : State) (up : Option (Nat × Face)) (pk : Face → Packet) : ∃ n, sendUp s up pk = { s with net := n } := by
    unfold sendUp
    split
    · exact ⟨_, rfl⟩
    · exact ⟨_, rfl⟩
    · exact ⟨s.net, rfl⟩
  unfold dropFace
  dsimp only
  split
  · exact ⟨s.net, rfl⟩
  · split
    · exact ⟨s.net, rfl⟩
    · split
      · obtain ⟨n, hn⟩ := hup (putRouter s (pitDel (routerAt s k) nm)) _ (fun g => .withdraw nm g)
        exact ⟨n, hn⟩
      · exact ⟨_, rfl⟩

/-- A withdrawn interest leaves the network and its record. -/
theorem dropInterest_eq (s : State) (i : Interest) : ∃ n, dropInterest s i =
    { s with net := n }.onCore (fun c => { c with interests := c.interests.filter (fun x => x.num != i.num) }) := by
  unfold dropInterest
  dsimp only
  split
  · exact ⟨_, rfl⟩
  · obtain ⟨n, hn⟩ := dropFace_net s (clusterOf s.coreId) i.nm (.waiter s.coreId i.dest i.num)
    exact ⟨n, by rw [hn]⟩

theorem dropInterest_keeps (s : State) (i : Interest) : Keeps [.tiles, .net] s (dropInterest s i) := by
  obtain ⟨n, hn⟩ := dropInterest_eq s i
  rw [hn]
  exact (set_net_keeps s n).trans (set_tiles_keeps _ _ _ _ _ _ _) (by simp) (by simp)

-- ## The checks (R172)

/-- The fields of x0 and x1 are legal, and name a tile of a record; TILE may be left unchecked. -/
structure Named (s : State) (tile : Bool) (r : Tensor) : Prop where
  tensorBits : field s.thr.x[(0 : Fin 4)] 63 40 = 0
  tileBits : field s.thr.x[(1 : Fin 4)] 63 32 = 0
  record : nameRecord s s.thr.tileName tile = some r

theorem Named.popped {s : State} {tile : Bool} {r : Tensor} (h : Named s tile r) (x : Source) : Named (popped s x) tile r := by
  constructor
  · rw [popped_thr]; exact h.tensorBits
  · rw [popped_thr]; exact h.tileBits
  · rw [popped_nameRecord, popped_thr]; exact h.record

section Check

variable {mask : Word} {s : State} {v : Word} {k : Tensor → TileName → Verdict} {r : Tensor} (hbits : s.thr.opw .ndD &&& ~~~mask = 0)

include hbits

/-- A word that passes the checks of its name and address, and that of its producer's place where it gives, comes to its effect. -/
theorem ndCheck_tile {produce : Bool} (hname : Named s true r) (hwin : windowFault v 128 r.size = none)
    (hplace : produce = true → r.hasCore s.home = true ∧ r.mod = 0) : ndCheck mask false produce s v k = k r s.thr.tileName := by
  have hproducer : (produce && (!r.hasCore s.home || decide (r.mod ≠ 0))) = false := by
    cases produce
    · rfl
    · obtain ⟨hcore, hmod⟩ := hplace rfl
      simp [hcore, hmod]
  have hlegal : ¬(s.thr.opw .ndD &&& ~~~mask ≠ 0#64 ∨ field s.thr.x[(0 : Fin 4)] 63 40 ≠ 0 ∨ field s.thr.x[(1 : Fin 4)] 63 32 ≠ 0 ∨
      (false = true ∧ v ≠ 0#64)) := by
    rintro (h | h | h | ⟨h, -⟩)
    exacts [h hbits, h hname.tensorBits, h hname.tileBits, Bool.false_ne_true h]
  exact (if_neg hlegal).trans (by simp only [Bool.not_false, hname.record, hwin, hproducer, Bool.false_eq_true, if_false])

/-- One that retires has no address. -/
theorem ndCheck_retire (hname : Named s false r) (hv : v = 0) (hcore : r.hasCore s.home = true) (hmod : r.mod = 0) :
    ndCheck mask true true s v k = k r s.thr.tileName := by
  have hlegal : ¬(s.thr.opw .ndD &&& ~~~mask ≠ 0#64 ∨ field s.thr.x[(0 : Fin 4)] 63 40 ≠ 0 ∨ field s.thr.x[(1 : Fin 4)] 63 32 ≠ 0 ∨
      (true = true ∧ v ≠ 0#64)) := by
    rintro (h | h | h | ⟨-, h⟩)
    exacts [h hbits, h hname.tensorBits, h hname.tileBits, h hv]
  have hproducer : (true && (!r.hasCore s.home || decide (r.mod ≠ 0))) = false := by simp [hcore, hmod]
  exact (if_neg hlegal).trans (by simp only [Bool.not_true, hname.record, hproducer, if_true, Bool.false_eq_true, if_false])

end Check

-- ## nd.want (R173)

/-- The machine behind an nd.want: a place in the ring, and its interest. -/
def wanted (s : State) (v : Word) : State :=
  takeInterest (s.bump.setThr (s.thr.ringTake s.nextId (some .ndWant) v)) s.thr.tileName (field v 16 0) none s.nextId

theorem wanted_keeps (s : State) (v : Word) : Keeps [.tiles, .net, .ring, .cr crSeq, .ids] s (wanted s v) :=
  ((bump_keeps s).trans (ringTake_keeps s.bump s.nextId (some .ndWant) v) (c := [.ring, .cr crSeq, .ids]) (by simp) (by simp)).trans
    (takeInterest_keeps _ _ _ _ _) (by simp +contextual) (by simp +contextual)

/-- An nd.want that passes its checks, with room for its record and in the ring. -/
theorem ndWantPlan_run {s : State} {q : Quad} {r : Tensor} (hops : s.thr.opw .ndD = 0) (hname : Named s true r)
    (hwin : windowFault (low64 q) 128 r.size = none) (hroom : s.core.interests.length < 32) (hring : s.thr.ringFull = false) :
    ndWantPlan.run s q = .done (wanted s (low64 q)) := by
  have hfits : ¬(32 ≤ s.core.interests.length ∨ s.thr.ringFull = true) := by simp [hroom, hring]
  simp only [ndWantPlan]
  rw [ndCheck_tile (by rw [hops]; rfl) hname hwin (fun hproduce => absurd hproduce Bool.false_ne_true)]
  exact if_neg hfits

/-- A place in the ring leaves the save area alone. -/
theorem ringTake_psave (t : Thread) (tag : Nat) (op : Option Op) (target : Word) : (t.ringTake tag op target).psave = t.psave := by
  unfold Thread.psave
  rw [Thread.ringTake_cr, vector_set_other _ _ (by decide : crPsave ≠ crSeq)]

-- ## nd.give (R166, R174)

/-- The machine with the give sent, once the codes of the tile's words are checked. -/
def sentGive (s : State) (v : Word) (r : Tensor) : State :=
  let y := winScrub s (field v 16 0) r.size
  let b : Giver := { core := s.coreId, slot := s.cur, seq := (field s.thr.cr[crSeq] 47 0 + 1) % 2 ^ 48, tag := s.nextId, va := v }
  sendOther y .ndGive v (.give s.thr.tileName (readTile y (field v 16 0) r.size) b) true .everywhere y.release? (if y.release?.isSome then y.waitAll else [])

/-- A retirement of the current slot's thread, behind the gives listed (R166). -/
def retireOf (s : State) (gives : List (Fin 8 × Nat)) : Retire :=
  let nm := s.thr.tileName
  { slot := s.cur, cid := nm.cid, tensor := nm.tensor, iter := nm.iter, waits := (gives.filter (fun g => g.1 == s.cur)).map (·.2) }

/-- The request of the current slot's word that has no place in memory. -/
def otherReq (s : State) (kind : ReqKind) (rel : Option Release) (waits : List Nat) : Req :=
  { slot := some s.cur, src := s.src s.cur, tag := s.nextId, counted := true, kind, loc := 0, va := 0, known := s.thr.floor, rel, waits }

section Send

variable (s : State) (o : Op) (target : Word) (kind : ReqKind) (reach : Reach) (rel : Option Release) (waits : List Nat)

/-- A counted request that has no place in memory takes a place in the ring, counts, and joins the posted-store queue (R174, R298). -/
theorem sendOther_eq : sendOther s o target kind true reach rel waits = s.bump.setThr
    { (s.thr.ringTake s.nextId (some o) target).count s.nextId reach with psq := s.thr.psq ++ [otherReq s kind rel waits] } := rfl

theorem sendOther_keeps : Keeps [.psq, .counted, .ring, .cr crSeq, .ids] s (sendOther s o target kind true reach rel waits) := by
  have hcounted := (ringTake_keeps s s.nextId (some o) target).trans (count_keeps (s.setThr (s.thr.ringTake s.nextId (some o) target)) s.nextId reach)
    (c := [.counted, .ring, .cr crSeq]) (by simp) (by simp)
  simp only [setThr_setThr, State.setThr_thr] at hcounted
  have hqueued := hcounted.trans (set_psq_keeps (s.setThr ((s.thr.ringTake s.nextId (some o) target).count s.nextId reach))
    (s.thr.psq ++ [otherReq s kind rel waits])) (c := [.psq, .counted, .ring, .cr crSeq]) (by simp +contextual) (by simp)
  rw [setThr_setThr, State.setThr_thr] at hqueued
  rw [sendOther_eq]
  exact hqueued.trans (bump_keeps _) (by simp +contextual) (by simp)

theorem sendOther_psq : (sendOther s o target kind true reach rel waits).thr.psq = s.thr.psq ++ [otherReq s kind rel waits] := by
  rw [sendOther_eq, State.setThr_thr]

end Send

theorem sentGive_keeps (s : State) (v : Word) (r : Tensor) :
    Keeps [.psq, .counted, .ring, .cr crSeq, .errors, .mc, .host, .ids] s (sentGive s v r) :=
  (winScrub_keeps s _ _).trans (sendOther_keeps ..) (by simp [codeParts]) (by simp +contextual [or_imp])

/-- What the read of the tile adds to its thread (R297). -/
theorem readGive_keeps (s : State) (v : Word) (r : Tensor) :
    Keeps [.psq, .counted, .ring, .cr crSeq, .floor, .releases, .errors, .mc, .host, .ids] s
      (winGains (sentGive s v r) s.cur s.nextId (field v 16 0) r.size) := by
  have hsent := sentGive_keeps s v r
  have hread := winGains_keeps (sentGive s v r) s.nextId (field v 16 0) r.size
  rw [hsent.1] at hread
  exact hsent.trans hread (by simp +contextual [or_imp]) (by simp)

/-- The machine behind an nd.give: its give is among those not yet acknowledged and, with LAST, its retirement waits behind them (R166). -/
def gave (s : State) (v : Word) (r : Tensor) : State :=
  (winGains (sentGive s v r) s.cur s.nextId (field v 16 0) r.size).onCore (fun c =>
    { c with
      gives := c.gives ++ [(s.cur, s.nextId)]
      retires := c.retires ++ (if (s.thr.opw .ndD).getLsbD 0 then [retireOf s (c.gives ++ [(s.cur, s.nextId)])] else []) })

theorem gave_keeps (s : State) (v : Word) (r : Tensor) :
    Keeps [.psq, .counted, .ring, .cr crSeq, .tiles, .floor, .releases, .errors, .mc, .host, .ids] s (gave s v r) :=
  (readGive_keeps s v r).trans (set_tiles_keeps _ _ _ _ _ _ _) (by simp +contextual [or_imp]) (by simp)

theorem gave_psq (s : State) (v : Word) (r : Tensor) : ∃ q : Req, (gave s v r).thr.psq = s.thr.psq ++ [q] ∧ q.tag = s.nextId ∧ q.counted = true ∧
    q.kind = .give s.thr.tileName (readTile (winScrub s (field v 16 0) r.size) (field v 16 0) r.size)
      { core := s.coreId, slot := s.cur, seq := (field s.thr.cr[crSeq] 47 0 + 1) % 2 ^ 48, tag := s.nextId, va := v } := by
  have hread := winGains_keeps (sentGive s v r) s.nextId (field v 16 0) r.size
  rw [(sentGive_keeps s v r).1] at hread
  have hcode := winScrub_keeps s (field v 16 0) r.size
  have hpsq : (gave s v r).thr.psq = _ := (hread.2 .psq (by decide)).trans (sendOther_psq ..)
  rw [winScrub_thr] at hpsq
  exact ⟨_, hpsq, (hcode.2 .ids (by decide)).1, rfl, rfl⟩

/-- What the core has of a give beside its request. -/
theorem gave_tiles (s : State) (v : Word) (r : Tensor) : (gave s v r).core.gives = s.core.gives ++ [(s.cur, s.nextId)] ∧
    (gave s v r).core.retires = s.core.retires ++
      (if (s.thr.opw .ndD).getLsbD 0 then [retireOf s (s.core.gives ++ [(s.cur, s.nextId)])] else []) := by
  obtain ⟨-, -, -, -, hgives, hretires⟩ := (readGive_keeps s v r).2 .tiles (by decide)
  simp only [gave, State.onCore_core, hgives, hretires, and_self]

/-- An nd.give that passes its checks, with room in the ring and behind no posted atomic on the tile's words. -/
theorem ndGivePlan_run {s : State} {q : Quad} {r : Tensor} (hbits : s.thr.opw .ndD &&& ~~~(1#64) = 0) (hname : Named s true r)
    (hwin : windowFault (low64 q) 128 r.size = none) (hcore : r.hasCore s.home = true) (hmod : r.mod = 0) (hring : s.thr.ringFull = false)
    (hamo : ∀ k < r.size / 8, amoPending s s.cur (winLoc s (field (low64 q) 16 0 + 8 * k)) 8 = false) :
    ndGivePlan.run s q = .done (gave s (low64 q) r) := by
  have hfree : ¬((s.thr.ringFull || (List.range (r.size / 8)).any (fun k => amoPending s s.cur (winLoc s (field (low64 q) 16 0 + 8 * k)) 8)) = true) := by
    simpa [hring] using hamo
  simp only [ndGivePlan]
  rw [ndCheck_tile hbits hname hwin fun _ => ⟨hcore, hmod⟩]
  exact if_neg hfree

-- ## nd.drop (R175)

/-- The interests of the current slot's thread that an nd.drop of kind 0 may withdraw: of the name, to the place, and of no card. -/
def dropMatch (s : State) (dest : Nat) (i : Interest) : Bool :=
  i.slot == s.cur && i.nm == s.thr.tileName && i.dest == dest && i.card.isNone

/-- The machine behind an nd.drop of kind 0 that finds an interest. -/
def withdrawn (s : State) (i : Interest) : State := (dropInterest s i).onThr (fun t => t.ringFree i.tag)

theorem withdrawn_keeps (s : State) (i : Interest) : Keeps [.tiles, .net, .ring] s (withdrawn s i) :=
  (dropInterest_keeps s i).trans (ringFree_keeps (dropInterest s i) i.tag) (by simp +contextual [or_imp]) (by simp)

theorem withdrawn_effect (s : State) (i : Interest) : (withdrawn s i).core.interests = s.core.interests.filter (fun y => y.num != i.num) ∧
    (withdrawn s i).thr.ring = s.thr.ring.filter (fun e => e.tag != i.tag || e.refused) := by
  obtain ⟨n, hn⟩ := dropInterest_eq s i
  rw [withdrawn, hn]
  exact ⟨rfl, congrArg Thread.ring (State.onThr_thr _ _)⟩

/-- An nd.drop of kind 0 withdraws the interest that it finds, and does nothing where it finds none. -/
theorem ndDropPlan_run {s : State} {q : Quad} {r : Tensor} (hops : s.thr.opw .ndD = 0) (hname : Named s true r)
    (hwin : windowFault (low64 q) 128 r.size = none) : ndDropPlan.run s q =
      match s.core.interests.find? (dropMatch s (field (low64 q) 16 0)) with
      | none => .done s
      | some i => .done (withdrawn s i) :=
  (if_neg (by rw [hops]; decide)).trans (ndCheck_tile (mask := 1#64) (by rw [hops]; rfl) hname hwin (produce := false) nofun)

theorem ndDropPlan_retires {s : State} {q : Quad} {r : Tensor} (hops : s.thr.opw .ndD = 1) (hname : Named s false r) (hv : low64 q = 0)
    (hcore : r.hasCore s.home = true) (hmod : r.mod = 0) : ndDropPlan.run s q =
      .done (s.onCore (fun c => { c with retires := c.retires ++ [retireOf s s.core.gives] })) :=
  (if_pos (by rw [hops]; rfl)).trans (ndCheck_retire (mask := 1#64) (by rw [hops]; rfl) hname hv hcore hmod)

-- ## The words (R171 to R175)

section Words

variable {sw : Bool} {g : Guard} {x : Source} {s : State} {r : Tensor} (h : CanIssue g x s)

include h

theorem ndDrop_retires (hname : Named s false r) (hops : s.thr.opw .ndD = 1) (hv : operand64 s x = 0)
    (hcore : r.hasCore s.home = true) (hmod : r.mod = 0) :
    Done 4 sw x [.tiles] s (fun t => t.core.retires = s.core.retires ++ [retireOf s s.core.gives]) (exec (.ndDrop sw g x) s) := by
  obtain ⟨-, hhome, -, -, -, hgives, hretires⟩ := popped_tiles s x
  have hthr := popped_thr s x
  have hrun := ndDropPlan_retires (q := operand s x) (by rwa [hthr]) (hname.popped x) hv (by rwa [hhome]) hmod
  refine done_of_simple (p := ndDropPlan.covered .ndDrop) ⟨⟨rfl, rfl⟩, rfl, rfl, rfl⟩ h hrun (set_tiles_keeps _ _ _ _ _ _ _) (by decide) fun t hk => ?_
  obtain ⟨-, -, -, -, -, htretires⟩ := hk.2 .tiles (not_mem_issued (p := .tiles) (by decide) nofun sw x)
  simp [htretires, retireOf, hgives, hretires, hthr, popped_cur]

variable (hname : Named s true r) (hwin : windowFault (operand64 s x) 128 r.size = none)

include hname hwin

theorem ndWant_done (hops : s.thr.opw .ndD = 0) (hroom : s.core.interests.length < 32) (hring : s.thr.ringFull = false) :
    Done 4 sw x [.tiles, .net, .ring, .cr crSeq, .ids] s (fun t =>
      t.core.interests = s.core.interests ++ [interestOf s s.thr.tileName (field (operand64 s x) 16 0) none s.nextId] ∧
      t.core.nrec = s.core.nrec + 1 ∧ t.net.packets = s.net.packets ++
        [(clusterOf s.coreId, .interest s.thr.tileName (.waiter s.coreId (field (operand64 s x) 16 0) s.core.nrec))]) (exec (.ndWant sw g x) s) := by
  obtain ⟨hcoreId, -, hnet, hinterests, hnrec, -⟩ := popped_tiles s x
  have hthr := popped_thr s x
  have hrun := ndWantPlan_run (q := operand s x) (by rwa [hthr]) (hname.popped x) hwin (by rwa [hinterests]) (by rwa [hthr])
  refine done_of_simple (p := ndWantPlan.covered .ndWant) ⟨⟨rfl, rfl⟩, rfl, rfl, rfl⟩ h hrun (wanted_keeps _ _) (by decide) fun t hk => ?_
  obtain ⟨-, -, htiles, htnrec, -⟩ := hk.2 .tiles (not_mem_issued (p := .tiles) (by decide) nofun sw x)
  have htnet := hk.2 .net (not_mem_issued (p := .net) (by decide) nofun sw x)
  refine ⟨htiles.trans ?_, htnrec.trans ?_, (congrArg Net.packets htnet).trans ?_⟩
  · simp [wanted, interestOf, hinterests, hnrec, hthr, popped_cur, popped_nextId, ringTake_psave]
  · simp [wanted, hnrec]
  · simp [wanted, hnet, hcoreId, hnrec, hthr]

theorem ndGive_done (hbits : s.thr.opw .ndD &&& ~~~(1#64) = 0) (hcore : r.hasCore s.home = true) (hmod : r.mod = 0) (hring : s.thr.ringFull = false)
    (hamo : ∀ k < r.size / 8, amoPending (popped s x) s.cur (winLoc s (field (operand64 s x) 16 0 + 8 * k)) 8 = false) :
    Done 4 sw x [.psq, .counted, .ring, .cr crSeq, .tiles, .floor, .releases, .errors, .mc, .host, .ids] s (fun t =>
      (∃ q : Req, t.thr.psq = s.thr.psq ++ [q] ∧ q.tag = s.nextId ∧ q.counted = true ∧
        q.kind = .give s.thr.tileName (readTile (winScrub (popped s x) (field (operand64 s x) 16 0) r.size) (field (operand64 s x) 16 0) r.size)
          { core := s.coreId, slot := s.cur, seq := (field s.thr.cr[crSeq] 47 0 + 1) % 2 ^ 48, tag := s.nextId, va := operand64 s x }) ∧
      t.core.gives = s.core.gives ++ [(s.cur, s.nextId)] ∧
      t.core.retires = s.core.retires ++ (if (s.thr.opw .ndD).getLsbD 0 then [retireOf s t.core.gives] else [])) (exec (.ndGive sw g x) s) := by
  obtain ⟨hcoreId, hhome, -, -, -, hgives, hretires⟩ := popped_tiles s x
  have hthr := popped_thr s x
  have hcur := popped_cur s x
  have hid := popped_nextId s x
  have hrun := ndGivePlan_run (q := operand s x) (by rwa [hthr]) (hname.popped x) hwin (by rwa [hhome]) hmod (by rwa [hthr])
    (by rw [popped_winLoc, hcur]; exact hamo)
  refine done_of_simple (p := ndGivePlan.covered .ndGive) ⟨⟨rfl, rfl⟩, rfl, rfl, rfl⟩ h hrun (gave_keeps _ _ _) (by decide) fun t hk => ?_
  have hpsq := hk.2 .psq (not_mem_issued (p := .psq) (by decide) nofun sw x)
  obtain ⟨-, -, -, -, htgives, htretires⟩ := hk.2 .tiles (not_mem_issued (p := .tiles) (by decide) nofun sw x)
  obtain ⟨q, hq, htag, hcounted, hkind⟩ := gave_psq (popped s x) (operand64 s x) r
  obtain ⟨hggives, hgretires⟩ := gave_tiles (popped s x) (operand64 s x) r
  have hretire : retireOf (popped s x) = retireOf s := by
    funext gives
    simp only [retireOf, hthr, hcur]
  rw [hthr, hcoreId, hcur, hid] at hkind
  rw [hgives, hcur, hid] at hggives
  rw [hgives, hretires, hretire, hthr, hcur, hid] at hgretires
  refine ⟨⟨q, hpsq.trans (by rw [hq, hthr]), htag.trans hid, hcounted, hkind⟩, htgives.trans hggives, ?_⟩
  rw [htgives, hggives]
  exact htretires.trans hgretires

theorem ndDrop_finds_none (hops : s.thr.opw .ndD = 0) (hfind : s.core.interests.find? (dropMatch s (field (operand64 s x) 16 0)) = none) :
    Done 4 sw x [] s (fun _ => True) (exec (.ndDrop sw g x) s) := by
  obtain ⟨-, -, -, hinterests, -⟩ := popped_tiles s x
  have hthr := popped_thr s x
  have hrun := ndDropPlan_run (q := operand s x) (by rwa [hthr]) (hname.popped x) hwin
  have hmatch : dropMatch (popped s x) = dropMatch s := by
    funext dest i
    simp only [dropMatch, hthr, popped_cur]
  rw [hinterests, hmatch, hfind] at hrun
  exact done_of_simple (p := ndDropPlan.covered .ndDrop) ⟨⟨rfl, rfl⟩, rfl, rfl, rfl⟩ h hrun (keeps_refl _ _) (by decide) fun _ _ => trivial

theorem ndDrop_withdraws {i : Interest} (hops : s.thr.opw .ndD = 0)
    (hfind : s.core.interests.find? (dropMatch s (field (operand64 s x) 16 0)) = some i) :
    Done 4 sw x [.tiles, .net, .ring] s (fun t => t.core.interests = s.core.interests.filter (fun y => y.num != i.num) ∧
      t.thr.ring = s.thr.ring.filter (fun e => e.tag != i.tag || e.refused)) (exec (.ndDrop sw g x) s) := by
  obtain ⟨-, -, -, hinterests, -⟩ := popped_tiles s x
  have hthr := popped_thr s x
  have hrun := ndDropPlan_run (q := operand s x) (by rwa [hthr]) (hname.popped x) hwin
  have hmatch : dropMatch (popped s x) = dropMatch s := by
    funext dest i
    simp only [dropMatch, hthr, popped_cur]
  rw [hinterests, hmatch, hfind] at hrun
  refine done_of_simple (p := ndDropPlan.covered .ndDrop) ⟨⟨rfl, rfl⟩, rfl, rfl, rfl⟩ h hrun (withdrawn_keeps _ _) (by decide) fun t hk => ?_
  obtain ⟨-, -, htinterests, -⟩ := hk.2 .tiles (not_mem_issued (p := .tiles) (by decide) nofun sw x)
  have htring := hk.2 .ring (not_mem_issued (p := .ring) (by decide) nofun sw x)
  obtain ⟨hwinterests, hwring⟩ := withdrawn_effect (popped s x) i
  exact ⟨htinterests.trans (by rw [hwinterests, hinterests]), htring.trans (by rw [hwring, hthr])⟩

end Words

/-- Settles O36: each word's plan comes through the checks of R172 to its effect. -/
theorem tileWordsAct : Obligations.TileWordsAct := by
  unfold Obligations.TileWordsAct
  intro sw g x s r h
  dsimp only
  intro hx0 hx1
  refine ⟨fun hrec hwin => ?_, fun hrec hops hv hcore hmod => ndDrop_retires h ⟨hx0, hx1, hrec⟩ hops hv hcore hmod⟩
  have hname : Named s true r := ⟨hx0, hx1, hrec⟩
  exact ⟨ndWant_done h hname hwin, ndGive_done h hname hwin, ndDrop_finds_none h hname hwin, fun _ => ndDrop_withdraws h hname hwin⟩

end Sys2Proof.Proofs.Tiles
end

section
/-! PROOF. nd.card (R172, R176, R177): the card that it reads from the window, the interests that it takes, and its answer. -/

namespace Sys2Proof.Proofs.Cards

open Sys2Proof Sys2Proof.Machine Sys2Proof.Safety Sys2Proof.Slice0 Sys2Proof.Proofs.Loads
  Sys2Proof.Proofs.Translation Sys2Proof.Proofs.SystemWords Sys2Proof.Proofs.Sending Sys2Proof.Proofs.Copies Sys2Proof.Proofs.Tiles

-- ## The words of a card (R176)

/-- Word k of the card at `off` of the window, as the current slot reads it, with its mark. -/
def storedWord (s : State) (off k : Nat) : List Byte × BitVec 2 := bankWord s s.cur s.nextId (winLoc s (off + 8 * k))

/-- The bytes of the card. -/
def cardBytes (s : State) (off : Nat) : List Byte := ((List.range 16).map (storedWord s off)).flatMap (·.1)

/-- COUNT of the card. -/
def cardCount (s : State) (off : Nat) : Nat := field (cardWord (cardBytes s off) 1) 4 2

theorem cardBytes_eq (s : State) (off : Nat) : cardBytes s off = (List.range 16).flatMap (fun k => (storedWord s off k).1) := List.flatMap_map ..

theorem overlay_length (loc : Nat) (cur : List Byte) (at' : Nat) (old : List Byte) : (overlay loc cur at' old).length = cur.length := by
  simp [overlay]

/-- Forwarding replaces bytes and adds none. -/
theorem forwardOwn_length (s : State) (slot : Fin 8) (tag loc : Nat) (bytes : List Byte) : (forwardOwn s slot tag loc bytes).length = bytes.length := by
  refine foldl_keeps _ List.length (fun acc r => ?_) _ _
  split
  · split
    · exact overlay_length ..
    · rfl
  · rfl

theorem storedWord_length (s : State) (off k : Nat) : (storedWord s off k).1.length = 8 :=
  (forwardOwn_length ..).trans (Mem.read_length ..)

/-- COUNT stands in the second word, which is read before the others. -/
theorem cardWord_one (s : State) (off : Nat) : cardWord (cardBytes s off) 1 = BitVec.ofNat 64 (natLE (storedWord s off 1).1) := by
  have hbytes : cardBytes s off = (storedWord s off 0).1 ++ ((storedWord s off 1).1 ++
      (((List.range 16).drop 2).map (storedWord s off)).flatMap (·.1)) := rfl
  rw [cardWord, hbytes, List.drop_left' (storedWord_length s off 0), List.take_left' (storedWord_length s off 1)]

/-- A card's words are sixteen. -/
theorem lt_of_mem_cardReads {n k : Nat} (hn : n ≤ 4) (hk : k ∈ cardReads n) : k < 16 := by
  simp only [cardReads, List.mem_append, List.mem_range, List.mem_cons, List.not_mem_nil, or_false] at hk
  omega

theorem one_mem_cardReads (n : Nat) : 1 ∈ cardReads n := List.mem_append_left _ (List.mem_range.mpr (by omega))

-- ## The interests of a card (R173, R176)

/-- Interests taken one after another, for a card. -/
def taken (s : State) (names : List (TileName × Nat)) (card : Option (Fin 32)) (tag : Nat) : State :=
  names.foldl (fun s x => takeInterest s x.1 x.2 card tag) s

section Taken

variable (s : State) (names : List (TileName × Nat)) (card : Option (Fin 32)) (tag : Nat)

theorem taken_keeps : Keeps [.tiles, .net] s (taken s names card tag) := 
  keeps_foldl (f := fun s x => takeInterest s x.1 x.2 card tag) (fun s x => takeInterest_keeps s x.1 x.2 card tag) names s

/-- An interest takes no card. -/
theorem taken_cards : (taken s names card tag).core.cards = s.core.cards ∧ (taken s names card tag).core.ncard = s.core.ncard :=
  Prod.mk.inj (foldl_keeps (fun s (x : TileName × Nat) => takeInterest s x.1 x.2 card tag) (fun s : State => (s.core.cards, s.core.ncard)) (fun _ _ => rfl) names s)

theorem taken_thr : (taken s names card tag).thr = s.thr := 
  foldl_keeps (fun s (x : TileName × Nat) => takeInterest s x.1 x.2 card tag) State.thr (fun _ _ => rfl) names s

theorem taken_interests_length : (taken s names card tag).core.interests.length = s.core.interests.length + names.length := by
  unfold taken
  induction names generalizing s with
  | nil => rfl
  | cons x names ih =>
    rw [List.foldl_cons, ih, takeInterest_interests, List.length_append, List.length_singleton, List.length_cons]
    omega

end Taken

-- ## What nd.card leaves

/-- The id that the next card takes. -/
def nextCard (s : State) : Fin 32 := Fin.ofNat 32 s.core.ncard

/-- The names of the card, in its order. -/
def cardNames (s : State) (off : Nat) : List (Option (TileName × Nat)) := (List.range (cardCount s off)).map (cardName s (cardBytes s off))

/-- The card record. -/
def cardOf (s : State) (off : Nat) : Card :=
  let b := cardBytes s off
  { id := nextCard s, slot := s.cur, pending := cardCount s off, tag := s.nextId
    task :=
      { entry := cardWord b 0, hint := cardWord b 2, tagw := BitVec.ofNat 64 (nextCard s).val, prio := (cardWord b 1).setWidth 2, card := some (nextCard s)
        byp := 0, args := #v[cardWord b 12, cardWord b 13, cardWord b 14, cardWord b 15] } }

/-- The machine once the words of the card are read. -/
def cardRead (s : State) (off : Nat) : State :=
  (cardReads (cardCount s off)).foldl (fun t k => winGains t t.cur s.nextId (off + 8 * k) 8) s

/-- The machine with the answer owed, before the card's record is made. -/
def cardOwed (s : State) (v : Word) : State :=
  (cardRead s (field v 16 0)).bump.onThr (fun t => (t.ringTake s.nextId (some .ndCard) v).owe s.nextId [.ndO] false none)

/-- The machine with the card's record and its interests. -/
def cardTaken (s : State) (v : Word) : State :=
  taken ((cardOwed s v).onCore (fun c => { c with ncard := c.ncard + 1, cards := c.cards ++ [cardOf s (field v 16 0)] }))
    ((cardNames s (field v 16 0)).filterMap (fun x => x)) (some (nextCard s)) s.nextId

/-- The answer of nd.card. -/
def cardAnswer (s : State) : PortVal := { port := .ndO, val := BitVec.ofNat 128 (nextCard s).val, mark := none }

/-- The machine behind an nd.card. -/
def carded (s : State) (v : Word) : State := (cardTaken s v).onThr (fun t => t.fill s.nextId [cardAnswer s] none)

theorem cardRead_keeps (s : State) (off : Nat) : Keeps [.floor, .releases] s (cardRead s off) :=
  keeps_foldl (fun t k => winGains_keeps t s.nextId (off + 8 * k) 8) _ s

theorem cardOwed_keeps (s : State) (v : Word) : Keeps [.ring, .cr crSeq, .owed, .fence, .floor, .releases, .ids] s (cardOwed s v) := by
  have howed := (ringTake_keeps (cardRead s (field v 16 0)).bump s.nextId (some .ndCard) v).trans (owe_keeps _ s.nextId [.ndO] false none)
    (c := [.ring, .cr crSeq, .owed, .fence]) (by simp +contextual [or_imp]) (by simp)
  rw [setThr_setThr, State.setThr_thr] at howed
  have hread := (cardRead_keeps s (field v 16 0)).trans (bump_keeps _) (c := [.floor, .releases, .ids]) (by simp +contextual) (by simp)
  exact hread.trans howed (by simp +contextual) (by simp +contextual [or_imp])

theorem cardTaken_keeps (s : State) (v : Word) :
    Keeps [.tiles, .net, .owed, .fence, .ring, .cr crSeq, .floor, .releases, .ids] s (cardTaken s v) :=
  ((cardOwed_keeps s v).trans (set_tiles_keeps _ _ _ _ _ _ _) (c := [.tiles, .owed, .fence, .ring, .cr crSeq, .floor, .releases, .ids])
    (by simp +contextual [or_imp]) (by simp)).trans (taken_keeps ..) (by simp +contextual [or_imp]) (by simp +contextual [or_imp])

theorem carded_keeps (s : State) (v : Word) : Keeps [.tiles, .net, .owed, .fence, .ring, .cr crSeq, .floor, .releases, .ids] s (carded s v) :=
  (cardTaken_keeps s v).trans (fill_keeps _ s.nextId [cardAnswer s] none [] []) (fun _ hp => hp) (by simp)

/-- The card has the next id, and an interest for each name. -/
theorem carded_tiles (s : State) (v : Word) : (carded s v).core.cards = s.core.cards ++ [cardOf s (field v 16 0)] ∧
    (carded s v).core.ncard = s.core.ncard + 1 ∧
    (carded s v).core.interests.length = s.core.interests.length + ((cardNames s (field v 16 0)).filterMap (fun x => x)).length := by
  obtain ⟨hcards, hncard, hinterests, -⟩ := (cardOwed_keeps s v).2 .tiles (by decide)
  simp only [carded, cardTaken, State.onThr_core, taken_cards, taken_interests_length, State.onCore_core, hcards, hncard, hinterests, and_self]

/-- The id is owed, and there at once. -/
theorem carded_owes (s : State) (v : Word) : ∃ o : Owed, (carded s v).thr.owed.getLast? = some o ∧ o.tag = s.nextId ∧ o.ports = [.ndO] ∧
    o.vals = some [cardAnswer s] := by
  simp only [carded, cardTaken, State.onThr_thr, taken_thr, State.onCore_thr, cardOwed]
  refine ⟨_, (List.getLast?_map ..).trans (congrArg _ List.getLast?_concat), ?_⟩
  simp

-- ## The plan

/-- A posted atomic stands on a word of the card that is read (R92). -/
def cardHeld (s : State) (off : Nat) : Bool :=
  [1].any (fun k => amoPending s s.cur (winLoc s (off + 8 * k)) 8) ||
  (cardReads (cardCount s off)).any (fun k => amoPending s s.cur (winLoc s (off + 8 * k)) 8)

/-- A field or a name of the card is illegal (R176). -/
def cardIllegal (s : State) (off : Nat) : Bool :=
  !entryOk (cardWord (cardBytes s off) 0) || decide (field (cardWord (cardBytes s off) 1) 63 5 ≠ 0) || decide (4 < cardCount s off) ||
  cardWord (cardBytes s off) 3 != 0#64 || (cardNames s off).any (·.isNone)

/-- The first poisoned word of the card that is read. -/
def cardPoison (s : State) (off : Nat) : Option Nat :=
  (cardReads (cardCount s off)).find? (fun k => (((List.range 16).map (storedWord s off)).getD k ([], 0#2)).2 == 1#2)

/-- No room in the ring or for the interests, or the id is in use. -/
def cardCrowded (s : State) (off : Nat) : Bool :=
  s.thr.ringFull || decide (32 < s.core.interests.length + cardCount s off) || s.core.cards.any (fun c => c.id == nextCard s)

/-- With COUNT in its range, nd.card comes to its effect past these four checks. -/
theorem ndCardPlan_done {s y : State} {q : Quad} (hwin : windowFault (low64 q) 128 128 = none) (hy : winScrub s (field (low64 q) 16 0) 128 = y)
    (hcount : cardCount y (field (low64 q) 16 0) ≤ 4) (hheld : cardHeld y (field (low64 q) 16 0) = false)
    (hlegal : cardIllegal y (field (low64 q) 16 0) = false) (hsound : cardPoison y (field (low64 q) 16 0) = none)
    (hroom : cardCrowded y (field (low64 q) 16 0) = false) : ndCardPlan.run s q = .done (carded y (low64 q)) := by
  have hone : field (BitVec.ofNat 64 (natLE (bankWord y y.cur y.nextId (winLoc y (field (low64 q) 16 0 + 8))).1)) 4 2 =
      cardCount y (field (low64 q) 16 0) := by
    rw [cardCount, cardWord_one]
    rfl
  subst hy
  simp only [ndCardPlan, hwin]
  rw [hone, Nat.min_eq_right hcount]
  refine (if_neg (Bool.eq_false_iff.mp hheld)).trans ((if_neg (Bool.eq_false_iff.mp hlegal)).trans ?_)
  split
  · next k hk => exact absurd (hk.symm.trans hsound) nofun
  · exact if_neg (Bool.eq_false_iff.mp hroom)

/-- What nd.card asks of the card and of the room for it (R172, R176). -/
structure CardFits (s : State) (off : Nat) : Prop where
  words : ∀ k ∈ cardReads (cardCount s off), amoPending s s.cur (winLoc s (off + 8 * k)) 8 = false ∧ (storedWord s off k).2 ≠ 1
  entry : entryOk (cardWord (cardBytes s off) 0) = true
  control : field (cardWord (cardBytes s off) 1) 63 5 = 0
  count : cardCount s off ≤ 4
  reserved : cardWord (cardBytes s off) 3 = 0
  names : ∀ j < cardCount s off, (cardName s (cardBytes s off) j).isSome = true
  ring : s.thr.ringFull = false
  room : s.core.interests.length + cardCount s off ≤ 32
  free : s.core.cards.any (fun c => c.id == nextCard s) = false

namespace CardFits

variable {s : State} {off : Nat} (h : CardFits s off)

include h

theorem not_held : cardHeld s off = false := by
  have hfree (l : List Nat) (hl : ∀ k ∈ l, k ∈ cardReads (cardCount s off)) : l.any (fun k => amoPending s s.cur (winLoc s (off + 8 * k)) 8) = false :=
    List.any_eq_false.mpr fun k hk => by simp [(h.words k (hl k hk)).1]
  rw [cardHeld, hfree _ fun _ hk => hk, hfree [1] (by simpa using one_mem_cardReads _), Bool.or_false]

/-- Each name of the card is legal. -/
theorem named : ∀ name ∈ cardNames s off, name.isSome = true := by
  simp only [cardNames, List.mem_map, List.mem_range]
  rintro _ ⟨j, hj, rfl⟩
  exact h.names j hj

theorem not_illegal : cardIllegal s off = false := by
  have hnames : (cardNames s off).any (·.isNone) = false := List.any_eq_false.mpr fun name hname => by
    simp [Option.isSome_iff_ne_none.mp (h.named name hname)]
  simp [cardIllegal, h.entry, h.control, h.count, h.reserved, hnames]

theorem not_poisoned : cardPoison s off = none := by
  rw [cardPoison, List.find?_eq_none]
  intro k hk
  have hlt : k < 16 := lt_of_mem_cardReads h.count hk
  simpa [List.getD_eq_getElem?_getD, hlt] using (h.words k hk).2

theorem not_crowded : cardCrowded s off = false := by
  simp [cardCrowded, h.ring, h.room, h.free]

/-- The card has as many names as its COUNT. -/
theorem names_length : ((cardNames s off).filterMap (fun x => x)).length = cardCount s off := by
  have hsome : (cardNames s off).countP (·.isSome) = (cardNames s off).length := List.countP_eq_length.mpr h.named
  rw [List.length_filterMap_eq_countP, hsome, cardNames, List.length_map, List.length_range]

end CardFits

section Word

variable {sw : Bool} {g : Guard} {x : Source} {s y : State} (h : CanIssue g x s) (hwin : windowFault (operand64 s x) 128 128 = none)
  (hy : winScrub (popped s x) (field (operand64 s x) 16 0) 128 = y)

include hy in
/-- The codes of the card's words are checked, and the machine is otherwise as it was. -/
theorem scrubbed_card : y.cur = s.cur ∧ y.nextId = s.nextId ∧ y.thr = s.thr ∧ winLoc y = winLoc s ∧ y.core.cards = s.core.cards ∧
    y.core.ncard = s.core.ncard ∧ y.core.interests = s.core.interests := by
  subst hy
  have hscrub := winScrub_keeps (popped s x) (field (operand64 s x) 16 0) 128
  obtain ⟨hcards, hncard, hinterests, -⟩ := hscrub.2 .tiles (by decide)
  obtain ⟨-, -, -, hpinterests, -⟩ := popped_tiles s x
  obtain ⟨hpcards, hpncard⟩ := popped_cards s x
  exact ⟨hscrub.1.trans (popped_cur s x), (hscrub.2 .ids (by decide)).1.trans (popped_nextId s x), (winScrub_thr ..).trans (popped_thr s x),
    (winScrub_winLoc ..).trans (popped_winLoc s x), hcards.trans hpcards, hncard.trans hpncard, hinterests.trans hpinterests⟩

include h hwin hy

theorem ndCard_done (hfits : CardFits y (field (operand64 s x) 16 0)) :
    Done 4 sw x [.tiles, .net, .owed, .fence, .ring, .cr crSeq, .floor, .releases, .errors, .mc, .host, .ids] s (fun t =>
      t.core.cards = s.core.cards ++ [cardOf y (field (operand64 s x) 16 0)] ∧ t.core.ncard = s.core.ncard + 1 ∧
      t.core.interests.length = s.core.interests.length + cardCount y (field (operand64 s x) 16 0) ∧
      ∃ o : Owed, t.thr.owed.getLast? = some o ∧ o.tag = s.nextId ∧ o.ports = [.ndO] ∧ o.vals = some [cardAnswer y]) (exec (.ndCard sw g x) s) := by
  obtain ⟨-, hid, -, -, hcards, hncard, hinterests⟩ := scrubbed_card hy
  have hrun := ndCardPlan_done (q := operand s x) hwin hy hfits.count hfits.not_held hfits.not_illegal hfits.not_poisoned hfits.not_crowded
  have hkeeps : Keeps [.tiles, .net, .owed, .fence, .ring, .cr crSeq, .floor, .releases, .errors, .mc, .host, .ids] (popped s x)
      (carded y (operand64 s x)) :=
    (hy ▸ winScrub_keeps ..).trans (carded_keeps y _) (by simp [codeParts]) (by simp +contextual [or_imp])
  refine done_of_simple (p := ndCardPlan.covered .ndCard) ⟨⟨rfl, rfl⟩, rfl, rfl, rfl⟩ h hrun hkeeps (by decide) fun t hk => ?_
  obtain ⟨htcards, htncard, htinterests, -⟩ := hk.2 .tiles (not_mem_issued (p := .tiles) (by decide) nofun sw x)
  have htowed := hk.2 .owed (not_mem_issued (p := .owed) (by decide) nofun sw x)
  obtain ⟨hccards, hcncard, hcinterests⟩ := carded_tiles y (operand64 s x)
  obtain ⟨o, hlast, htag, hports, hvals⟩ := carded_owes y (operand64 s x)
  refine ⟨htcards.trans (by rw [hccards, hcards]), htncard.trans (by rw [hcncard, hncard]), (congrArg List.length htinterests).trans ?_,
    o, (congrArg List.getLast? htowed).trans hlast, htag.trans hid, hports, hvals⟩
  rw [hcinterests, hfits.names_length, hinterests]

end Word

/-- Settles O37: the card's plan comes through the checks of R172 and R176 to its effect. -/
theorem cardTakesInterests : Obligations.CardTakesInterests := by
  unfold Obligations.CardTakesInterests
  intro sw g x s h
  dsimp only
  intro hwin hreads hentry hcontrol hcount hreserved hnames hring hroom hfree
  obtain ⟨hcur, hid, hthr, hloc, hcards, hncard, hinterests⟩ := scrubbed_card (s := s) (x := x) rfl
  have hword (k : Nat) : bankWord (winScrub (popped s x) (field (operand64 s x) 16 0) 128) s.cur s.nextId (winLoc s (field (operand64 s x) 16 0 + 8 * k)) =
      storedWord (winScrub (popped s x) (field (operand64 s x) 16 0) 128) (field (operand64 s x) 16 0) k := by
    rw [storedWord, hcur, hid, hloc]
  simp only [hword, ← cardBytes_eq] at hreads hentry hcontrol hcount hreserved hnames hroom ⊢
  have hfits : CardFits (winScrub (popped s x) (field (operand64 s x) 16 0) 128) (field (operand64 s x) 16 0) :=
    { words := by rwa [hcur, hloc], entry := hentry, control := hcontrol, count := hcount, reserved := hreserved, names := hnames
      ring := by rwa [hthr], room := by rwa [hinterests], free := by rwa [nextCard, hcards, hncard] }
  obtain ⟨t, hnext, hpassed, hkeeps, htcards, htncard, htinterests, howed⟩ := ndCard_done h hwin rfl hfits
  rw [cardAnswer, nextCard, hncard] at howed
  refine ⟨t, hnext, hpassed, hkeeps, ⟨_, htcards, ?_, hcur, rfl, rfl, rfl, rfl⟩, htncard, htinterests, howed⟩
  exact congrArg (Fin.ofNat 32) hncard

end Sys2Proof.Proofs.Cards
end

section
/-! PROOF. The tile network (R158 to R168): an accepted give's words need not stand in the backing region at the step's end, because the delivery
to a local waiter serves the synchronising requests that wait there. -/

namespace Sys2Proof.Proofs.TileNetwork

open Sys2Proof Sys2Proof.Machine Sys2Proof.Safety Sys2Proof.Slice0 Sys2Proof.Proofs.Scope

/-- A record of one tile, of sixteen words, with its backing region at 0x10000. -/
def oneTile : Tensor := { cid := 0, index := 0, w0 := 0, w1 := 1, w2 := 0, w3 := 0, w4 := 0x10000, w5 := 0 }

/-- A launch of the record's context. -/
def waitingLaunch : Launch :=
  { cid := 0, q := 0, words := Vector.replicate 16 0#64, kvec := 0, ctx := 0, shape := 0, tables := [], items := [], cells := [], regions := []
    placed := [], flt := false, st := 0 }

/-- The name of the record's tile. -/
def onlyTile : TileName := { cid := 0, tensor := 0, iter := 0, tile := 0 }

/-- The tile that is given: sixteen words of zeros. -/
def zeroTile : Tile := { data := List.replicate 128 0, bad := [], core := 0, src := 0, rel := [] }

def giver : Giver := { core := 0, slot := 0, seq := 1, tag := 0, va := 0xFE0000000000 }

/-- The home router: a core of its cluster waits for the tile. -/
def homeRouter : Router := { cluster := 0, pit := [{ nm := onlyTile, faces := [.waiter 1 0 0], up := none, flaw := false }], crib := [], flaws := [] }

/-- The page of the backing region. -/
def backingPage : TlbEntry := { cluster := 0, cid := 0, va := 0x10000, size := 0x10000, pa := 0x20000, attr := 0b01111 }

/-- A store-when-empty of 7 that waits for an entry at the ordering point of the tile's first word. -/
def lateSte : Req :=
  { slot := none, src := 1, tag := 0, counted := false, kind := .ste 7, loc := 0x20000, va := 0x10000, known := [], rel := none, waits := [] }

/-- A give of the tile is next at its home router, while the store waits. -/
def contested : State :=
  { State.reset with
    net := { State.reset.net with tensors := [oneTile], routers := [homeRouter], packets := [(0, .give onlyTile zeroTile giver)] }
    fw := { State.reset.fw with launches := [waitingLaunch] }
    st := { State.reset.st with tlb2 := [backingPage], waitq := [lateSte] } }

/-- A paged address that the one entry of the TLBs hits, writable, is backed where the entry puts it. -/
theorem backed_of_entry {s : State} {k : Nat} {cid : Fin 64} {va loc : Nat} {e : TlbEntry} (htlb : s.st.tlb2 = [e]) (hflaw : e.flaw = false)
    (hwrite : e.attr.getLsbD 0 = true) (hpaged : classify (BitVec.ofNat 64 va) = .paged) (hhit : e.hits k cid.val (field (BitVec.ofNat 64 va) 47 0) = true)
    (hloc : loc = e.pa + field (BitVec.ofNat 64 va) 47 0 % e.size) : Backed s k cid va loc := by
  refine ⟨hpaged, fun d hd _ => ?_, e, ?_, hwrite, hloc⟩
  · rw [htlb, List.mem_singleton] at hd
    exact hd ▸ hflaw
  · rw [htlb]
    exact List.find?_cons_of_pos hhit

/-- The words of the tile stand at 0x20000. -/
theorem contested_backs_words : ∀ j < oneTile.size / 8,
    Backed contested 0 onlyTile.cid (oneTile.dataVa onlyTile.iter.toNat onlyTile.tile.toNat + 8 * j) (0x20000 + 8 * j) := by
  have hplaces : ∀ j < oneTile.size / 8, let va := oneTile.dataVa onlyTile.iter.toNat onlyTile.tile.toNat + 8 * j
      classify (BitVec.ofNat 64 va) = .paged ∧ backingPage.hits 0 0 (field (BitVec.ofNat 64 va) 47 0) = true ∧
      0x20000 + 8 * j = backingPage.pa + field (BitVec.ofNat 64 va) 47 0 % backingPage.size := by decide +kernel
  intro j hj
  obtain ⟨hpaged, hhit, hloc⟩ := hplaces j hj
  exact backed_of_entry rfl rfl rfl hpaged hhit hloc

/-- The header stands behind them. -/
theorem contested_backs_header : Backed contested 0 onlyTile.cid (oneTile.headVa onlyTile.iter.toNat onlyTile.tile.toNat) 0x20080 :=
  backed_of_entry rfl rfl rfl (by decide +kernel) (by decide +kernel) (by decide +kernel)

/-- What a step leaves in the tile's first word. -/
def firstWord : Host.Outcome State Fault Refusal → Nat
  | .next u => read64 u.st 0x20000
  | _ => 0

/-- The store that waited is performed after the tile's words are written: the delivery to the waiter fills a word of its window, and the service of
that word brings every request that waits for an entry to a free one. -/
theorem firstWord_contested : firstWord (exec (.giveArrive 0 onlyTile zeroTile giver) contested) = 7 := by decide +kernel

/-- Refutes O51: the clause of an accepted give. The state `contested` meets its hypotheses, and the tile's first word of zeros reads 7 after the
step. -/
theorem not_tileNetworkProceeds : ¬ Obligations.TileNetworkProceeds := by
  unfold Obligations.TileNetworkProceeds
  intro h
  obtain ⟨-, -, -, -, -, -, hgive, -⟩ := h contested 0 onlyTile oneTile (by decide)
  obtain ⟨u, hu, hwords, -⟩ := hgive zeroTile giver 0x20000 0x20080 (memoryOk_of_mem_nil rfl) (by decide +kernel) (by decide +kernel)
    contested_backs_words contested_backs_header (by decide +kernel) (by decide +kernel) (by decide +kernel) (by decide +kernel)
  have hzero : read64 u.st 0x20000 = 0 := hwords 0 (by decide +kernel)
  have hseven := firstWord_contested
  rw [hu, firstWord, hzero] at hseven
  exact absurd hseven (by decide)

end Sys2Proof.Proofs.TileNetwork
end

section
/-! PROOF. Control registers (R184 to R189, R204, R388): what an index names at a level, what a read sends, and what a write of each register changes. -/

namespace Sys2Proof.Proofs.Registers

open Sys2Proof Sys2Proof.Machine Sys2Proof.Safety Sys2Proof.Slice0 Sys2Proof.Proofs.Words Sys2Proof.Proofs.SystemWords Sys2Proof.Proofs.Sending
  Sys2Proof.Proofs.Alignment Sys2Proof.Proofs.Tiles

-- ## The register that an index names (R184, R188)

theorem toNat_index (i : Fin 25) : (BitVec.ofNat 64 i.val).toNat = i.val := by
  rw [BitVec.toNat_ofNat, Nat.mod_eq_of_lt (by omega)]

theorem crIndex_allowed {s : State} {i : Fin 25} (h : s.thr.sup = true ∨ (crUser i).1 = true) : crIndex s (BitVec.ofNat 64 i.val) = .inl i := by
  have hlevel : (!s.thr.sup && !(crUser i).1) = false := by
    cases hs : s.thr.sup
    · simpa [hs] using h
    · rfl
  simp only [crIndex, toNat_index, dif_pos i.isLt, Fin.eta, hlevel, Bool.false_eq_true, if_false]

theorem crIndex_privileged {s : State} {i : Fin 25} (hs : s.thr.sup = false) (hu : (crUser i).1 = false) :
    crIndex s (BitVec.ofNat 64 i.val) = .inr (causeOf 3) := by
  simp only [crIndex, toNat_index, dif_pos i.isLt, Fin.eta, hs, hu, Bool.not_false, Bool.and_self, if_true]

theorem crIndex_reserved {s : State} {v : Word} (h : 25 ≤ v.toNat) : crIndex s v = .inr reservedPort := dif_neg (Nat.not_lt.mpr h)

theorem sysCrr_simple : Simple sysCrrPlan := ⟨⟨rfl, rfl⟩, rfl, rfl, rfl⟩
theorem sysCrw_simple : Simple sysCrwPlan := ⟨⟨rfl, rfl⟩, rfl, rfl, rfl⟩

/-- Where an index names no register that the level may access, both words take its fault. -/
theorem crIndex_faults {sw : Bool} {g : Guard} {x : Source} {s : State} {c : Word} (h : CanIssue g x s)
    (hi : crIndex (popped s x) (operand64 s x) = .inr c) :
    TakesPrecise (exec (.sysCrr sw g x) s) s c ∧ TakesPrecise (exec (.sysCrw sw g x) s) s c :=
  ⟨takesPrecise_of_run sysCrr_simple h (by simp only [sysCrrPlan, hi]), takesPrecise_of_run sysCrw_simple h (by simp only [sysCrwPlan, hi])⟩

/-- Settles O41: the index names a register, is privileged or reserved; a named one's value is a fixed-latency result. -/
theorem controlRegistersRead : Obligations.ControlRegistersRead := by
  unfold Obligations.ControlRegistersRead
  intro sw g x s h
  refine ⟨fun i hv hl ho => ?read, fun i hv hs hu => ?privileged, fun hv => ?reserved⟩
  case read =>
    have hthr := popped_thr s x
    obtain ⟨s1, hsend, hsent, hkeeps, -⟩ := sendFixed_done (popped s x) 1 [(.sysO, quad (crRead (popped s x) i))] (by rw [hthr]; exact ho)
    have hrun : sysCrrPlan.run (popped s x) (operand s x) = .done s1 := by
      rw [← hthr] at hl
      simp only [sysCrrPlan, show low64 (operand s x) = _ from hv, crIndex_allowed hl, hsend]
    refine done_of_simple sysCrr_simple h hrun hkeeps (by decide) fun t ht => ?_
    rw [Sends, hthr, popped_nextId] at hsent
    exact (ht.2 .flight (not_mem_issued (p := .flight) (by decide) nofun sw x)).trans hsent
  case privileged => exact crIndex_faults h (by rw [hv]; exact crIndex_privileged (by rw [popped_thr]; exact hs) hu)
  case reserved => exact crIndex_faults h (crIndex_reserved hv)

-- ## What a write changes (R185 to R189)

/-- A register's value once the fields that the level may write are replaced (R189). -/
def written (t : Thread) (i : Fin 25) (v : Word) : Word := (t.cr[i] &&& ~~~(crMask i t.sup)) ||| (v &&& crMask i t.sup)

/-- Registers that are more than a field of the thread, or whose write does more than replace its fields. -/
def specialRegs : List (Fin 25) := [crShape, crBar, crMbox, crWp, crPsave]

/-- A write of a plain register replaces its fields; at most an expiry becomes pending with it (R343). -/
theorem crWrite_plain {i : Fin 25} (hi : i ∉ specialRegs) (s : State) (v : Word) :
    ∃ expiry, crWrite s i v = s.setThr { s.thr.setCr i (written s.thr i v) with expiry } := by
  have hne {j : Fin 25} (hj : j ∈ specialRegs) : i.val ≠ j.val := fun e => hi (Fin.ext e ▸ hj)
  unfold crWrite
  dsimp only
  split
  case h_1 hv => exact absurd hv (hne (j := crShape) (by decide))
  case h_2 hv => exact absurd hv (hne (j := crBar) (by decide))
  case h_3 hv => exact absurd hv (hne (j := crMbox) (by decide))
  case h_4 hv => exact absurd hv (hne (j := crWp) (by decide))
  case h_7 hv => exact absurd hv (hne (j := crPsave) (by decide))
  case h_5 | h_6 => split <;> exact ⟨_, rfl⟩
  case h_8 => exact ⟨_, rfl⟩

/-- What a write of cr.psave leaves of the thread: it ties later triggers to the area that it then names, and keeps what the area named
before awaits (R183, R371; log 12). -/
def retied (s : State) (v : Word) : Thread :=
  let t := s.thr.setCr crPsave (written s.thr crPsave v)
  match s.thr.areaUse with
  | some a => { t with
      areaUse := some t.psave, areaOld := if t.psave = a then t.areaOld else a :: t.areaOld
      late := if s.thr.inUse (some t.psave) then t.late else tiedTo s t.psave ++ t.late }
  | none => t

theorem crWrite_psave (s : State) (v : Word) : crWrite s crPsave v = s.setThr (retied s v) := by
  unfold retied
  dsimp only
  cases h : s.thr.areaUse <;> simp only [crWrite, h] <;> rfl

theorem retied_some {s : State} {a : Word} (ha : s.thr.areaUse = some a) (v : Word) :
    let t := s.thr.setCr crPsave (written s.thr crPsave v)
    retied s v = { t with
      areaUse := some t.psave, areaOld := if t.psave = a then t.areaOld else a :: t.areaOld
      late := if s.thr.inUse (some t.psave) then t.late else tiedTo s t.psave ++ t.late } := by
  simp only [retied, ha]

theorem retied_cr (s : State) (v : Word) : (retied s v).cr = s.thr.cr.set crPsave (written s.thr crPsave v) := by
  unfold retied
  dsimp only
  split <;> rfl

theorem retied_areaUse (s : State) (v : Word) : (retied s v).areaUse = s.thr.areaUse.map (fun _ => (retied s v).psave) := by
  cases ha : s.thr.areaUse with
  | some a => rw [retied_some ha]; rfl
  | none => simp only [retied, ha]; exact ha

/-- What the area named before awaits still reaches the thread. -/
theorem retied_inUse {s : State} {a : Word} (ha : s.thr.areaUse = some a) (v : Word) : (retied s v).inUse (some a) = true := by
  rw [retied_some ha]
  by_cases h : (s.thr.setCr crPsave (written s.thr crPsave v)).psave = a
  · simp [Thread.inUse, h]
  · simp [Thread.inUse, h]

/-- Results tied to an area that was not in use when cr.psave came to name it are late there. -/
theorem retied_late {s : State} {a : Word} (ha : s.thr.areaUse = some a) (v : Word) (hn : s.thr.inUse (some (retied s v).psave) = false)
    {o : Owed} (ho : o ∈ s.thr.owed) (harea : o.area = some (retied s v).psave) : o.tag ∈ (retied s v).late := by
  have hpsave : (retied s v).psave = (s.thr.setCr crPsave (written s.thr crPsave v)).psave := by rw [Thread.psave, retied_cr]; rfl
  rw [hpsave] at hn harea
  have htied : o.tag ∈ tiedTo s (s.thr.setCr crPsave (written s.thr crPsave v)).psave := by
    simp only [tiedTo, List.mem_append, List.mem_map, List.mem_filter, beq_iff_eq]
    exact .inl (.inl ⟨o, ⟨ho, harea⟩, rfl⟩)
  rw [retied_some ha]
  simp [hn, htied]

theorem crWrite_shape (s : State) (v : Word) : crWrite s crShape v =
    (s.setThr (s.thr.setCr crShape (BitVec.ofNat 64 (field (written s.thr crShape v) 47 0 + min (field (written s.thr crShape v) 60 48) 4096 * 2 ^ 48)))).onCore
      (fun k => { k with shapes := [] }) := rfl

theorem crWrite_bar (s : State) (v : Word) : crWrite s crBar v = s.onCore (fun c => { c with bar := v &&& 0x7FFFF8#64 }) := rfl

theorem crWrite_mbox (s : State) (v : Word) : crWrite s crMbox v =
    (s.onCore (fun c => { c with mboxBase := BitVec.ofNat 40 (field v 63 24), mboxSz := BitVec.ofNat 4 (field v 23 20) })).setThr
      (s.thr.setCr crMbox (v &&& 0xFFFF#64)) := rfl

/-- The watchpoint filter after a write of cr.wp: CMD 1 inserts the granule, 2 clears it (R388). -/
def commanded (f : BitVec 4096) (v : Word) : BitVec 4096 :=
  if field v 5 4 = 1 then bloomInsert f (field v 47 6) else if field v 5 4 = 2 then 0 else f

theorem crWrite_wp (s : State) (v : Word) : crWrite s crWp v =
    (s.setThr (s.thr.setCr crWp (written s.thr crWp v &&& ~~~(0x30#64)))).onCore (fun c => { c with filter := commanded c.filter v }) := by
  change (match field v 5 4 with | 1 => _ | 2 => _ | _ => _) = _
  split
  case h_1 hc =>
    have hinsert (f : BitVec 4096) : commanded f v = bloomInsert f (field v 47 6) := if_pos hc
    simp only [hinsert]; rfl
  case h_2 hc =>
    have hclear (f : BitVec 4096) : commanded f v = 0 := (if_neg (by omega)).trans (if_pos hc)
    simp only [hclear]; rfl
  case h_3 h1 h2 =>
    have hkeep (f : BitVec 4096) : commanded f v = f := (if_neg h1).trans (if_neg h2)
    simp only [hkeep]; rfl

/-- At supervisor level issuing leaves the control registers alone: the quantum and SKIP of cr.wp are user level's (R342, R388). -/
theorem finish_cr_sup {s0 : State} (h : s0.thr.sup = true) (s : State) (next : Word) (sw keep : Bool) :
    (finish s0 s next sw keep).thr.cr = s.thr.cr := by
  have hmarker (t : Thread) : t.enterMarker.cr = t.cr := by unfold Thread.enterMarker; split <;> rfl
  unfold finish
  dsimp only
  split
  · rfl
  · simp only [Thread.countWord, Thread.clearSkip, h, if_true]
    split
    · cases sw <;> simp [State.thr, hmarker]
    · split <;> simp [State.thr]

theorem done_mono {len : Nat} {sw : Bool} {x : Source} {ex ex' : List Part} {s : State} {P : State → Prop} {o : Host.Outcome State Fault Refusal}
    (h : Done len sw x ex s P o) (hsub : ∀ p ∈ ex, p ∈ issued sw x ++ ex') : Done len sw x ex' s P o := by
  obtain ⟨t, ho, hpassed, hkept, hp⟩ := h
  exact ⟨t, ho, hpassed, hkept.mono fun p hp => (List.mem_append.mp hp).elim (List.mem_append_left _) (hsub p), hp⟩

-- ## Frames

theorem setCr_expiry_keeps (s : State) (i : Fin 25) (v : Word) (expiry : Option Bool) :
    Keeps [.expiry, .cr i] s (s.setThr { s.thr.setCr i v with expiry }) := by
  refine ⟨rfl, fun p hp => ?_⟩
  cases p with
  | expiry => simp at hp
  | others => exact fun i hi => setThr_other s _ i hi
  | cr j =>
    have hj : j ≠ i := by rintro rfl; simp at hp
    simp [same, vector_set_other _ _ hj]
  | _ => simp [same, Thread.pred, Thread.opq, Thread.rpq]

theorem setCr_keeps (s : State) (i : Fin 25) (v : Word) : Keeps [.cr i] s (s.setThr (s.thr.setCr i v)) := by
  refine ⟨rfl, fun p hp => ?_⟩
  cases p with
  | others => exact fun i hi => setThr_other s _ i hi
  | cr j =>
    have hj : j ≠ i := by rintro rfl; simp at hp
    simp [same, vector_set_other _ _ hj]
  | _ => simp [same, Thread.pred, Thread.opq, Thread.rpq]

theorem set_shapes_keeps (s : State) (l : List (BitVec 6 × Nat × List Word)) : Keeps [.shapes] s (s.onCore (fun k => { k with shapes := l })) := by
  refine ⟨rfl, fun p hp => ?_⟩
  cases p with
  | shapes => simp at hp
  | _ => exact (keeps_refl [.shapes] s).2 _ hp

theorem set_coreRegs_keeps (s : State) (bar : Word) (mboxBase : BitVec 40) (mboxSz : BitVec 4) (filter : BitVec 4096) :
    Keeps [.coreRegs] s (s.onCore (fun k => { k with bar, mboxBase, mboxSz, filter })) := by
  refine ⟨rfl, fun p hp => ?_⟩
  cases p with
  | coreRegs => simp at hp
  | _ => exact (keeps_refl [.coreRegs] s).2 _ hp

theorem retied_keeps (s : State) (v : Word) : Keeps [.cr crPsave, .areaUse] s (s.setThr (retied s v)) := by
  have hset (use : Option Word) (old : List Word) (late : List Nat) : Keeps [.cr crPsave, .areaUse] s
      (s.setThr { s.thr.setCr crPsave (written s.thr crPsave v) with areaUse := use, areaOld := old, late }) := by
    refine ⟨rfl, fun p hp => ?_⟩
    cases p with
    | areaUse => simp at hp
    | others => exact fun i hi => setThr_other s _ i hi
    | cr j =>
      have hj : j ≠ crPsave := by rintro rfl; simp at hp
      simp [same, vector_set_other _ _ hj]
    | _ => simp [same, Thread.pred, Thread.opq, Thread.rpq]
  unfold retied
  dsimp only
  split
  · exact hset _ _ _
  · exact hset s.thr.areaUse s.thr.areaOld s.thr.late

-- ## The word

section Word

variable {sw : Bool} {g : Guard} {x : Source} {s : State} (h : CanIssue g x s)

include h

/-- sys.crw of a register that the level may access is done, with what its write leaves. -/
theorem sysCrw_done {i : Fin 25} {ex : List Part} {P : State → Prop} (hv : operand64 s x = BitVec.ofNat 64 i.val)
    (hl : s.thr.sup = true ∨ (crUser i).1 = true) (hk : Keeps (.expiry :: ex) (popped s x) (crWrite (popped s x) i s.thr.x[(0 : Fin 4)]))
    (hex : Part.mode ∉ Part.expiry :: ex)
    (hP : ∀ t, t.core = (crWrite (popped s x) i s.thr.x[(0 : Fin 4)]).core → Keeps (issued sw x) (crWrite (popped s x) i s.thr.x[(0 : Fin 4)]) t →
      (s.thr.sup = true → t.thr.cr = (crWrite (popped s x) i s.thr.x[(0 : Fin 4)]).thr.cr) → P t) :
    Done 4 sw x ex s P (exec (.sysCrw sw g x) s) := by
  have hthr := popped_thr s x
  have hrun : sysCrwPlan.run (popped s x) (operand s x) = .done (crWrite (popped s x) i s.thr.x[(0 : Fin 4)]) := by
    rw [← hthr] at hl
    simp only [sysCrwPlan, show low64 (operand s x) = _ from hv, crIndex_allowed hl, hthr]
  have hmode : (crWrite (popped s x) i s.thr.x[(0 : Fin 4)]).thr.mode = .run := by rw [hk.2 .mode hex, hthr, h.runs]
  refine done_mono (done_of_run h nofun nofun rfl rfl rfl hrun hk hmode (hP _ (finish_core ..) (finish_keeps s _ _ sw x hmode)
    fun hs => finish_cr_sup hs ..)) ?_
  simp +contextual [issued]

/-- A plain register takes its fields, and keeps its other bits (R189). -/
theorem sysCrw_plain {i : Fin 25} (hi : i ∉ specialRegs) (hv : operand64 s x = BitVec.ofNat 64 i.val)
    (hl : s.thr.sup = true ∨ (crUser i).1 = true) :
    Done 4 sw x [.cr i] s (fun t => t.thr.cr[i] = written s.thr i s.thr.x[(0 : Fin 4)]) (exec (.sysCrw sw g x) s) := by
  obtain ⟨expiry, hw⟩ := crWrite_plain hi (popped s x) s.thr.x[(0 : Fin 4)]
  have hval : (crWrite (popped s x) i s.thr.x[(0 : Fin 4)]).thr.cr[i] = written s.thr i s.thr.x[(0 : Fin 4)] := by
    rw [hw]; simp [popped_thr]
  refine sysCrw_done h hv hl (by rw [hw]; exact setCr_expiry_keeps ..) (by simp) fun t _ hkept hsup => ?_
  cases hs : s.thr.sup with
  | true => rw [hsup hs]; exact hval
  | false =>
    have hq : i ≠ crQleft := by
      rintro rfl
      simp [hs, crUser, crQleft] at hl
    have hwp : i ≠ crWp := fun e => hi (by simp [e, specialRegs])
    exact (hkept.2 (.cr i) (not_mem_issued (p := .cr i) (by simp [hq, hwp]) nofun sw x)).trans hval

variable (hs : s.thr.sup = true)

include hs

/-- cr.shape holds a table of at most 4096 shapes, and its write empties the cache of shapes (R204, R208). -/
theorem sysCrw_shape (hv : operand64 s x = BitVec.ofNat 64 crShape.val) :
    Done 4 sw x [.cr crShape, .shapes] s (fun t => t.core = { (popped s x).core with shapes := [] } ∧
      t.thr.cr[crShape] = BitVec.ofNat 64 (field (written s.thr crShape s.thr.x[(0 : Fin 4)]) 47 0 +
        min (field (written s.thr crShape s.thr.x[(0 : Fin 4)]) 60 48) 4096 * 2 ^ 48)) (exec (.sysCrw sw g x) s) := by
  refine sysCrw_done h hv (.inl hs) ?_ (by decide) fun t hcore _ hcr => ⟨by rw [hcore, crWrite_shape]; rfl, ?_⟩
  · rw [crWrite_shape]
    exact (setCr_keeps ..).trans (set_shapes_keeps ..) (by simp) (by simp)
  · rw [hcr hs, crWrite_shape]
    simp [popped_thr]

/-- cr.bar is the core's (R184). -/
theorem sysCrw_bar (hv : operand64 s x = BitVec.ofNat 64 crBar.val) :
    Done 4 sw x [.coreRegs] s (fun t => t.core = { (popped s x).core with bar := s.thr.x[(0 : Fin 4)] &&& 0x7FFFF8#64 })
      (exec (.sysCrw sw g x) s) := by
  refine sysCrw_done h hv (.inl hs) ?_ (by decide) fun t hcore _ _ => by rw [hcore, crWrite_bar]; rfl
  rw [crWrite_bar]
  exact (set_coreRegs_keeps ..).mono (by simp)

/-- The mailbox's place and size are the core's, the other fields of cr.mbox the thread's (R184). -/
theorem sysCrw_mbox (hv : operand64 s x = BitVec.ofNat 64 crMbox.val) :
    Done 4 sw x [.coreRegs, .cr crMbox] s (fun t =>
      t.core = { (popped s x).core with mboxBase := t.core.mboxBase, mboxSz := t.core.mboxSz } ∧
      t.core.mboxBase.toNat = field s.thr.x[(0 : Fin 4)] 63 24 ∧ t.core.mboxSz.toNat = field s.thr.x[(0 : Fin 4)] 23 20 ∧
      t.thr.cr[crMbox] = s.thr.x[(0 : Fin 4)] &&& 0xFFFF#64) (exec (.sysCrw sw g x) s) := by
  have hfits (v : Word) (hi lo n : Nat) (hn : hi + 1 - lo = n) : (BitVec.ofNat n (field v hi lo)).toNat = field v hi lo := by
    rw [BitVec.toNat_ofNat, Nat.mod_eq_of_lt]
    rw [field, hn]
    exact Nat.mod_lt _ (Nat.two_pow_pos n)
  refine sysCrw_done h hv (.inl hs) ?_ (by decide) fun t hcore _ hcr => ?_
  · rw [crWrite_mbox]
    exact (set_coreRegs_keeps ..).trans (setCr_keeps ..) (by simp) (by simp)
  · rw [hcr hs, hcore, crWrite_mbox]
    exact ⟨rfl, hfits _ 63 24 40 rfl, hfits _ 23 20 4 rfl, by simp [State.thr]⟩

/-- cr.wp, and its command on the core's filter (R388). -/
theorem sysCrw_wp (hv : operand64 s x = BitVec.ofNat 64 crWp.val) :
    Done 4 sw x [.coreRegs, .cr crWp] s (fun t =>
      t.thr.cr[crWp] = written s.thr crWp s.thr.x[(0 : Fin 4)] &&& ~~~(0x30#64) ∧
      t.core = { (popped s x).core with filter := commanded (popped s x).core.filter s.thr.x[(0 : Fin 4)] }) (exec (.sysCrw sw g x) s) := by
  refine sysCrw_done h hv (.inl hs) ?_ (by decide) fun t hcore _ hcr => ⟨?_, by rw [hcore, crWrite_wp]; rfl⟩
  · rw [crWrite_wp]
    exact (setCr_keeps ..).trans (set_coreRegs_keeps ..) (by simp) (by simp)
  · rw [hcr hs, crWrite_wp]
    simp [popped_thr]

/-- cr.psave ties later triggers to the area that it then names, and what the area named before awaits still reaches the thread; results tied
to the new area from before its write do not, unless it was in use (R183, R371). -/
theorem sysCrw_psave (hv : operand64 s x = BitVec.ofNat 64 crPsave.val) :
    Done 4 sw x [.cr crPsave, .areaUse] s (fun t => t.thr.cr[crPsave] = written s.thr crPsave s.thr.x[(0 : Fin 4)] ∧
      t.thr.areaUse = s.thr.areaUse.map (fun _ => t.thr.psave) ∧
      ∀ a, s.thr.areaUse = some a → t.thr.inUse (some a) = true ∧
        (s.thr.inUse (some t.thr.psave) = false → ∀ o ∈ s.thr.owed, o.area = some t.thr.psave → t.thr.reaches o.tag o.area = false))
      (exec (.sysCrw sw g x) s) := by
  refine sysCrw_done h hv (.inl hs) ?_ (by decide) fun t _ hkept hcr => ?_
  · rw [crWrite_psave]
    exact (retied_keeps ..).mono (by simp)
  · have hthr := popped_thr s x
    have hret : (crWrite (popped s x) crPsave s.thr.x[(0 : Fin 4)]).thr = retied (popped s x) s.thr.x[(0 : Fin 4)] := by
      rw [crWrite_psave, State.setThr_thr]
    obtain ⟨huse, hold, hlate⟩ := hkept.2 .areaUse (not_mem_issued (p := .areaUse) (by decide) nofun sw x)
    have hcr1 := hcr hs
    rw [hret] at huse hold hlate hcr1
    have hpsave : t.thr.psave = (retied (popped s x) s.thr.x[(0 : Fin 4)]).psave := by rw [Thread.psave, hcr1]; rfl
    refine ⟨by rw [hcr1, retied_cr, hthr]; simp, by rw [huse, hpsave, retied_areaUse, hthr], fun a ha => ⟨?_, fun hn o ho harea => ?_⟩⟩
    · rw [Thread.inUse, huse, hold]
      exact retied_inUse (by rw [hthr]; exact ha) _
    · rw [hpsave] at hn harea
      have hmem := retied_late (s := popped s x) (by rw [hthr]; exact ha) _ (by rw [hthr]; exact hn) (by rw [hthr]; exact ho) harea
      simpa [Thread.reaches, hlate] using fun _ => hmem

end Word

/-- Settles O42: a plain register takes its fields, and each special one what its own write says. -/
theorem controlRegistersWrite : Obligations.ControlRegistersWrite := by
  unfold Obligations.ControlRegistersWrite
  intro sw g x s h
  refine ⟨fun i hshape hbar hmbox hwp hpsave hv hl => sysCrw_plain h (by simp [specialRegs, *]) hv hl, fun hs => ⟨?shape, ?psave, ?bar, ?mbox, ?wp⟩⟩
  case shape => exact fun hv => by simpa only [written, hs] using sysCrw_shape h hs hv
  case psave => exact fun hv => by simpa only [written, hs] using sysCrw_psave h hs hv
  case bar => exact sysCrw_bar h hs
  case mbox => exact sysCrw_mbox h hs
  case wp => exact fun hv => by simpa only [written, commanded, hs] using sysCrw_wp h hs hv

end Sys2Proof.Proofs.Registers
end

section
/-! PROOF. Streams (R190 to R197): str.bind and str.free, and what a transport to a stream pushes. -/

namespace Sys2Proof.Proofs.Streams

open Sys2Proof Sys2Proof.Machine Sys2Proof.Safety Sys2Proof.Slice0 Sys2Proof.Proofs.Words Sys2Proof.Proofs.Loads Sys2Proof.Proofs.SystemWords
  Sys2Proof.Proofs.Sending

-- ## A stream of the core

theorem set_stream_keeps (s : State) (n : Fin 8) (st : Stream) : Keeps [.stream n] s (s.onCore (fun k => { k with streams := k.streams.set n st })) := by
  refine ⟨rfl, fun p hp => ?_⟩
  cases p with
  | stream j =>
    have hj : j ≠ n := by rintro rfl; simp at hp
    simp only [same, State.onCore_core, vector_set_other _ _ hj]
  | _ => exact (keeps_refl [.stream n] s).2 _ hp

/-- A source that is no stream pops nothing. -/
theorem popped_of_popOf_none {x : Source} (h : popOf x = none) (s : State) : popped s x = s := by
  cases x with
  | str i => simp [popOf] at h
  | _ => rfl

theorem not_mem_issued_of_popOf {p : Part} {x : Source} (h : popOf x = none)
    (hp : p ∉ [.pc, .cr crQleft, .cr crWp, .expiry, .relMark, .book, .turns, .mode, .fence]) (sw : Bool) : p ∉ issued sw x := by
  unfold issued
  rw [h]
  cases sw <;> simp_all

-- ## The fields of a bind's trigger value (R191)

/-- A field of a number is read by division (R23). -/
theorem field_ofNat {v : Nat} (hv : v < 2 ^ 64) (hi lo : Nat) : field (BitVec.ofNat 64 v) hi lo = v / 2 ^ lo % 2 ^ (hi + 1 - lo) := by
  rw [field, BitVec.toNat_ofNat, Nat.mod_eq_of_lt hv, Nat.shiftRight_eq_div_pow]

theorem getLsbD_ofNat {v : Nat} (hv : v < 2 ^ 64) (i : Nat) : (BitVec.ofNat 64 v).getLsbD i = decide (v / 2 ^ i % 2 = 1) := by
  rw [BitVec.getLsbD, BitVec.toNat_ofNat, Nat.mod_eq_of_lt hv, Nat.testBit_eq_decide_div_mod_eq]

/-- The value that binds stream `n` as a queue. -/
def queueValue (n p c : Fin 8) : Nat := n.val + 8 + 16 * p.val + 128 * c.val

/-- The value that binds stream `n` as a pattern. -/
def patternValue (n : Fin 8) (store wide : Bool) : Nat := n.val + 1024 * store.toNat + 2048 * wide.toNat

/-- What the fields of a queue's value are. -/
structure QueueFields (b : Word) (n p c : Fin 8) : Prop where
  stream : Fin.ofNat 8 (field b 2 0) = n
  queue : b.getLsbD 3 = true
  producer : Fin.ofNat 8 (field b 6 4) = p
  consumer : Fin.ofNat 8 (field b 9 7) = c
  low : field b 11 10 = 0
  high : field b 63 12 = 0

theorem queueFields (n p c : Fin 8) : QueueFields (BitVec.ofNat 64 (queueValue n p c)) n p c := by
  obtain ⟨v, he⟩ : ∃ v, v = queueValue n p c := ⟨_, rfl⟩
  rw [← he]
  rw [queueValue] at he
  have hv : v < 2 ^ 64 := by omega
  constructor
  case stream | producer | consumer => apply Fin.ext; simp only [Fin.val_ofNat, field_ofNat hv]; omega
  case queue => simp only [getLsbD_ofNat hv, decide_eq_true_eq]; omega
  case low | high => simp only [field_ofNat hv]; omega

/-- What the fields of a pattern's value are. -/
structure PatternFields (b : Word) (n : Fin 8) (store wide : Bool) : Prop where
  stream : Fin.ofNat 8 (field b 2 0) = n
  queue : b.getLsbD 3 = false
  store : b.getLsbD 10 = store
  wide : b.getLsbD 11 = wide
  low : field b 9 4 = 0
  high : field b 63 12 = 0

theorem patternFields (n : Fin 8) (store wide : Bool) : PatternFields (BitVec.ofNat 64 (patternValue n store wide)) n store wide := by
  obtain ⟨v, he⟩ : ∃ v, v = patternValue n store wide := ⟨_, rfl⟩
  rw [← he]
  rw [patternValue] at he
  have hstore := store.toNat_lt
  have hwide := wide.toNat_lt
  have hv : v < 2 ^ 64 := by omega
  have hbit (b : Bool) : decide (b.toNat = 1) = b := by cases b <;> rfl
  constructor
  case stream => apply Fin.ext; simp only [Fin.val_ofNat, field_ofNat hv]; omega
  case queue => simp only [getLsbD_ofNat hv, decide_eq_false_iff_not]; omega
  case store => rw [getLsbD_ofNat hv, show v / 2 ^ 10 % 2 = store.toNat by omega, hbit]
  case wide => rw [getLsbD_ofNat hv, show v / 2 ^ 11 % 2 = wide.toNat by omega, hbit]
  case low | high => simp only [field_ofNat hv]; omega

-- ## str.bind and str.free

theorem strBind_simple : Simple strBindPlan := ⟨⟨rfl, rfl⟩, rfl, rfl, rfl⟩
theorem strFree_simple : Simple strFreePlan := ⟨⟨rfl, rfl⟩, rfl, rfl, rfl⟩

/-- A word of the streams whose run sets one stream is done, and leaves that stream so. -/
theorem stream_done {sw : Bool} {g : Guard} {x : Source} {p : Plan} {n : Fin 8} {st : Stream} {s : State} (hp : Simple p) (h : CanIssue g x s)
    (hx : popOf x = none) (hr : p.run s (operand s x) = .done (s.onCore (fun k => { k with streams := k.streams.set n st }))) :
    Done 4 sw x [.stream n] s (fun t => t.core.streams[n] = st) (issueLong sw g x p s) := by
  refine done_of_simple hp h (by rw [popped_of_popOf_none hx]; exact hr) (by rw [popped_of_popOf_none hx]; exact set_stream_keeps s n st)
    (by simp) fun t ht => ?_
  have hkept := ht.2 (.stream n) (not_mem_issued_of_popOf hx (by simp) sw)
  exact hkept.trans (by simp)

/-- A free stream is bound as a queue between two slots of the context, one of them the current (R191, R193). -/
theorem strBind_queue_run {s : State} {v : Quad} {n p c : Fin 8} (hf : QueueFields (low64 v) n p c) (hmine : p = s.cur ∨ c = s.cur)
    (hp : p ≠ s.cur → slotHolds s p s.thr.cid = true) (hc : c ≠ s.cur → slotHolds s c s.thr.cid = true)
    (hfree : s.core.streams[n].bind = none) :
    strBindPlan.run s v =
      .done (s.onCore (fun k => { k with streams := k.streams.set n { s.core.streams[n] with bind := some (.queue p c), q := [] } })) := by
  have hslots : ¬((p ≠ s.cur ∧ c ≠ s.cur) ∨ (p ≠ s.cur ∧ slotHolds s p s.thr.cid = false) ∨
      (c ≠ s.cur ∧ slotHolds s c s.thr.cid = false)) := by
    rintro (⟨hnp, hnc⟩ | ⟨hnp, hno⟩ | ⟨hnc, hno⟩)
    · exact hmine.elim hnp hnc
    · simp [hp hnp] at hno
    · simp [hc hnc] at hno
  simp only [strBindPlan, hf.high, hf.queue, hf.low, hf.stream, hf.producer, hf.consumer, ne_eq, not_true_eq_false, if_false, if_true]
  rw [if_neg hslots, if_neg (by simpa using hfree)]

/-- The counts and strides of a pattern, as a bind reads them from x1 to x3 (R192). -/
def boundCounts (t : Thread) : Vector Nat 4 :=
  #v[field t.x[(1 : Fin 4)] 15 0, field t.x[(1 : Fin 4)] 31 16, field t.x[(1 : Fin 4)] 47 32, field t.x[(1 : Fin 4)] 63 48]

def boundStrides (t : Thread) : Vector Int 4 :=
  #v[stride t.x[(2 : Fin 4)] false, stride t.x[(2 : Fin 4)] true, stride t.x[(3 : Fin 4)] false, stride t.x[(3 : Fin 4)] true]

/-- A free stream is bound as the pattern of x0 to x3 (R191, R192, R195). -/
theorem strBind_pattern_run {s : State} {v : Quad} {n : Fin 8} {store wide : Bool} (hf : PatternFields (low64 v) n store wide)
    (hok : ∀ i : Fin 4, (boundCounts s.thr)[i] ≠ 0 ∧ (boundStrides s.thr)[i] % ((if wide then 16 else 8 : Nat) : Int) = 0)
    (hbase : s.thr.x[(0 : Fin 4)].toNat % (if wide then 16 else 8) = 0)
    (hcanon : classify s.thr.x[(0 : Fin 4)] ≠ .nonCanon) (hhole : classify s.thr.x[(0 : Fin 4)] ≠ .hole)
    (hfree : s.core.streams[n].bind = none) (hcounted : store = false → s.thr.counted = []) :
    strBindPlan.run s v =
      .done (s.onCore (fun k => { k with streams := k.streams.set n { s.core.streams[n] with
        bind := some (.pattern s.cur (!s.thr.sup) store wide s.thr.x[(0 : Fin 4)] (boundCounts s.thr) (boundStrides s.thr) 0 0 s.thr.cr[crCtx])
        q := [] } })) := by
  have hcounts : (boundCounts s.thr).any (· == 0) = false := by
    rw [Vector.any_eq_false]
    exact fun i hi => by simpa using (hok ⟨i, hi⟩).1
  have hstrides : (boundStrides s.thr).any (fun k => k % ((if wide then 16 else 8 : Nat) : Int) != 0) = false := by
    rw [Vector.any_eq_false]
    exact fun i hi => by simpa using (hok ⟨i, hi⟩).2
  simp only [boundCounts, boundStrides] at hcounts hstrides
  have hread : (!store && !s.thr.counted.isEmpty) = false := by
    cases store
    · simp [hcounted rfl]
    · rfl
  simp only [strBindPlan, hf.high, hf.queue, hf.low, hf.stream, hf.store, hf.wide, boundCounts, boundStrides, hcounts, hstrides, hbase, hcanon,
    hhole, hfree, hread, ne_eq, not_true_eq_false, decide_false, Bool.or_false, Bool.false_eq_true, Option.isSome_none, if_false]

/-- The current slot's end of a stream lets it free it: an end of its queue, with nothing in it, or its pattern (R197). -/
def Freeable (slot : Fin 8) (st : Stream) : Prop :=
  ((∃ k, st.bind = some (.queue slot k) ∨ st.bind = some (.queue k slot)) ∧ st.q = []) ∨
  ∃ user store wide base counts strides next popd ctx, st.bind = some (.pattern slot user store wide base counts strides next popd ctx)

theorem strFree_run {s : State} {v : Quad} {n : Fin 8} (hn : Fin.ofNat 8 (field (low64 v) 2 0) = n) (hhigh : field (low64 v) 63 3 = 0)
    (h : Freeable s.cur s.core.streams[n]) :
    strFreePlan.run s v = .done (s.onCore (fun k => { k with streams := k.streams.set n { s.core.streams[n] with bind := none, q := [] } })) := by
  subst hn
  simp only [strFreePlan, hhigh, ne_eq, not_true_eq_false, if_false]
  obtain ⟨⟨k, hbind | hbind⟩, hq⟩ | ⟨user, store, wide, base, counts, strides, next, popd, ctx, hbind⟩ := h
  · rw [hbind]; simp only [if_true, hq]
  · rw [hbind]; simp only [if_true, hq, ite_self]
  · rw [hbind]; simp only [if_true]

/-- Settles O33: the value's fields pass the word's checks in their order, and its run sets the stream. -/
theorem streamsBindAndFree : Obligations.StreamsBindAndFree := by
  unfold Obligations.StreamsBindAndFree
  intro sw g x n p c s h hx
  refine ⟨fun hv hmine hp hc hfree => ?queue, fun store wide hv => ?pattern, fun hv hown => ?free⟩
  case queue =>
    have hfields : QueueFields (operand64 s x) n p c := by rw [hv]; exact queueFields n p c
    exact stream_done strBind_simple h hx (strBind_queue_run hfields hmine hp hc hfree)
  case pattern =>
    intro r size counts strides hok hbase hcanon hhole hfree hcounted
    have hfields : PatternFields (operand64 s x) n store wide := by rw [hv]; exact patternFields n store wide
    have hsize : size = ((if wide then 16 else 8 : Nat) : Int) := by cases wide <;> rfl
    exact stream_done strBind_simple h hx
      (strBind_pattern_run hfields (fun i => hsize ▸ hok i) (by rw [hsize] at hbase; exact_mod_cast hbase) hcanon hhole hfree hcounted)
  case free =>
    have hlt : n.val < 2 ^ 64 := by omega
    refine stream_done strFree_simple h hx (strFree_run ?_ ?_ hown)
    · rw [show low64 (operand s x) = _ from hv, field_ofNat hlt]; apply Fin.ext; simp
    · rw [show low64 (operand s x) = _ from hv, field_ofNat hlt]; omega

-- ## A push into a queue (R190, R194)

theorem popped_queue {s : State} {n p c : Fin 8} (h : s.core.streams[n].bind = some (.queue p c)) (x : Source) :
    (popped s x).core.streams[n].bind = some (.queue p c) := by
  cases x with
  | str i =>
    cases hq : s.core.streams[i].q with
    | nil => simpa only [popped, readSource, popStream, hq] using h
    | cons e r =>
      simp only [popped, readSource, popStream, hq, State.onCore_core]
      by_cases hi : n = i
      · subst hi; rw [Fin.getElem_fin] at h; simp [h]
      · rw [vector_set_other _ _ hi, h]
  | _ => exact h

theorem pushStream_queue {s : State} {n p c : Fin 8} (h : s.core.streams[n].bind = some (.queue p c)) (v : Quad) :
    pushStream s n v = s.onCore (fun k => { k with streams := k.streams.set n { s.core.streams[n] with
      q := s.core.streams[n].q ++ [{ val := v, fault := none }] } }) := by
  simp only [pushStream, h]

/-- A transport to a queue that its slot produces, with room (R190, R194). -/
theorem transport_queue {len : Nat} {sw : Bool} {g : Guard} {n k : Fin 8} {x : Source} {s : State}
    (hb : s.core.streams[n].bind = some (.queue s.cur k)) (hq : s.core.streams[n].q.length < 8) (h : CanIssue g x s) :
    Done len sw x [.stream n] s (fun t => t.core.streams[n] = { (popped s x).core.streams[n] with
      q := (popped s x).core.streams[n].q ++ [{ val := operand s x, fault := none }] }) (issue len sw g x (transportPlan (.str n) x) s) := by
  have hroom (freed : Bool) : ¬ 8 + freed.toNat ≤ s.core.streams[n].q.length := by omega
  have hmiss : pushMiss s n = none := by simp only [pushMiss, hb]
  have hfault (freed : Bool) : pushFault s n freed = none := by
    simp only [pushFault, hb, ne_eq, not_true_eq_false, if_false, if_neg fun e => hroom freed (And.right e)]
  have hheld (freed : Bool) : pushHeld s n freed = false := by simp only [pushHeld, hb, decide_eq_false (hroom freed)]
  have hrun : (transportPlan (.str n) x).run (popped s x) (operand s x) = .done (pushStream (popped s x) n (operand s x)) := rfl
  rw [pushStream_queue (popped_queue hb x)] at hrun
  refine done_of_run h nofun nofun hmiss (hfault _) (hheld _) hrun (set_stream_keeps ..) ?_ ?_
  · rw [State.onCore_thr, popped_thr, h.runs]
  · rw [finish_core]; simp

-- ## A push into a store pattern (R196)

/-- The store that an element is (R152, R196). -/
def elementReq (s : State) (va : Word) (loc : Nat) (wide : Bool) (v : Quad) : Req :=
  { slot := some s.cur, src := s.src s.cur, tag := s.nextId, counted := true, loc, va, known := s.thr.floor, rel := none
    kind := .store (bytesLE (if wide then 16 else 8) v.toNat) false, waits := [], own := isOwn va }

/-- The thread behind its element: the store is counted, in the ring, and in the floor. -/
def elementThread (s : State) (va : Word) (loc : Nat) (wide : Bool) : Thread :=
  let t := (s.thr.ringTake s.nextId none va).count s.nextId (reachOf s va)
  { t with floor := floorAdd t.floor ((List.range (if wide then 16 else 8)).map (fun k => (loc + k, s.nextId))) }

/-- An element departs at once where none of its pattern's is before it, and nothing of its thread on its way to its bank (R136, R298). -/
def departsNow (s : State) (n : Fin 8) (r : Req) : Bool := r.own && s.core.streams[n].out.isEmpty && departsAtIssue s r.loc none

/-- An element on its way: to its bank, or the last of the pattern's elements (R136, R196). -/
def elementSent (s : State) (now : Bool) (n : Fin 8) (st : Stream) (r : Req) : State :=
  if now then toBank (s.onCore (fun k => { k with streams := k.streams.set n st })) r
  else s.onCore (fun k => { k with streams := k.streams.set n { st with out := st.out ++ [r] } })

/-- What a pushed element leaves: on its way to its bank at once, or the last of the pattern's elements, counted, the pattern one further. -/
abbrev ElementPushed (s : State) (n : Fin 8) (b : Binding) (r : Req) (t : State) : Prop :=
  (if departsNow s n r then
    t.core.streams[n].out = s.core.streams[n].out ∧
    t.st.bankq = s.st.bankq ++ [{ due := s.cycle + 8, mesh := false, bank := bankNo s.coreId, req := r }]
  else t.core.streams[n].out = s.core.streams[n].out ++ [r] ∧ t.st.bankq = s.st.bankq) ∧
  t.core.streams[n].bind = some b ∧
  t.thr.counted.map (·.tag) = s.thr.counted.map (·.tag) ++ [s.nextId]

/-- The parts that a pushed element changes. -/
def elementParts (n : Fin 8) : List Part := walks ++ [.stream n, .counted, .ring, .cr crSeq, .floor, .l1, .requests, .ids]

/-- Issuing a word that pops nothing leaves a pushed element as it is. -/
theorem ElementPushed.issued {s t u : State} {n : Fin 8} {b : Binding} {r : Req} (h : ElementPushed s n b r t) {sw : Bool} {x : Source}
    (hx : popOf x = none) (hk : Keeps (issued sw x) t u) : ElementPushed s n b r u := by
  have hkept (p : Part) (hp : p ∉ [.pc, .cr crQleft, .cr crWp, .expiry, .relMark, .book, .turns, .mode, .fence]) : same t u p :=
    hk.2 p (not_mem_issued_of_popOf hx hp sw)
  have hstream : u.core.streams[n] = t.core.streams[n] := hkept (.stream n) (by simp)
  have hcounted : u.thr.counted = t.thr.counted := hkept .counted (by decide)
  obtain ⟨-, -, hbankq, -⟩ := hkept .requests (by decide)
  obtain ⟨sent, bind, counted⟩ := h
  exact ⟨by simpa only [hstream, hbankq] using sent, by rw [hstream]; exact bind, by rw [hcounted]; exact counted⟩

theorem elementThread_keeps {s u : State} (h : u.thr = s.thr) (va : Word) (loc : Nat) (wide : Bool) :
    Keeps [.ring, .cr crSeq, .counted, .floor] u (u.setThr (elementThread s va loc wide)) := by
  have hcount := (ringTake_keeps u s.nextId none va).trans
    (count_keeps (u.setThr (u.thr.ringTake s.nextId none va)) s.nextId (reachOf s va)) (c := [.ring, .cr crSeq, .counted]) (by simp) (by simp)
  rw [setThr_setThr, State.setThr_thr, h] at hcount
  have hfloor := hcount.trans (set_floor_keeps (u.setThr ((s.thr.ringTake s.nextId none va).count s.nextId (reachOf s va)))
    (elementThread s va loc wide).floor) (c := [.ring, .cr crSeq, .counted, .floor]) (by simp +contextual) (by simp)
  rwa [setThr_setThr, State.setThr_thr] at hfloor

theorem elementSent_keeps (s : State) (now : Bool) (n : Fin 8) (st : Stream) (r : Req) :
    Keeps [.stream n, .requests] s (elementSent s now n st r) := by
  unfold elementSent
  split
  · exact (set_stream_keeps ..).trans (toBank_keeps ..) (by simp) (by simp)
  · exact (set_stream_keeps ..).mono (by simp)

/-- A store drops at most lines of the L1. -/
theorem l1Drop_eq (s : State) (loc : Nat) : ∃ l1 l1bad, l1Drop s loc = s.onCore (fun c => { c with l1, l1bad }) := by
  unfold l1Drop
  split
  · exact ⟨s.core.l1, s.core.l1bad, rfl⟩
  · exact ⟨_, _, rfl⟩

section Element

variable {s s1 : State} {n : Fin 8} {user wide : Bool} {base : Word} {counts : Vector Nat 4} {strides : Vector Int 4} {next popd loc : Nat}
  {ctx : Word} {attr : BitVec 5} (hb : s.core.streams[n].bind = some (.pattern s.cur user true wide base counts strides next popd ctx))
  (htr : elementTrans s (patternAddr base counts strides next) = .ok loc attr s1) (hstep : TlbStep s s1)

include hb htr hstep

/-- A pattern's push, where its element's translation gives a place (R196). -/
theorem pushStream_pattern (v : Quad) :
    pushStream s n v =
      let r := elementReq s (patternAddr base counts strides next) loc wide v
      elementSent ((l1Drop s1 loc).bump.setThr (elementThread s (patternAddr base counts strides next) loc wide)) (departsNow s n r) n
        { s.core.streams[n] with bind := some (.pattern s.cur user true wide base counts strides (next + 1) popd ctx) } r := by
  obtain ⟨l1, l2, mc, host, rfl⟩ := hstep
  simp only [pushStream, hb, htr, Results.bytesLE_length]
  rfl

theorem pushStream_keeps (v : Quad) : Keeps (elementParts n) s (pushStream s n v) := by
  have hthr : (l1Drop s1 loc).bump.thr = s.thr := by rw [State.bump_thr, l1Drop_thr, hstep.thr]
  have hdrop : Keeps (walks ++ [.l1, .ids]) s (l1Drop s1 loc).bump :=
    (hstep.keeps.trans (l1Drop_keeps s1 loc) (c := walks ++ [.l1]) (by simp +contextual) (by simp)).trans (bump_keeps _)
      (by simp +contextual [or_imp]) (by simp)
  have hcounted := hdrop.trans (elementThread_keeps hthr (patternAddr base counts strides next) loc wide) (c := elementParts n)
    (by simp +contextual [elementParts, or_imp]) (by simp +contextual [elementParts])
  rw [pushStream_pattern hb htr hstep v]
  exact hcounted.trans (elementSent_keeps ..) (fun _ hp => hp) (by simp +contextual [elementParts])

theorem pushStream_pushes (v : Quad) :
    ElementPushed s n (.pattern s.cur user true wide base counts strides (next + 1) popd ctx)
      (elementReq s (patternAddr base counts strides next) loc wide v) (pushStream s n v) := by
  obtain ⟨l1, l1bad, hdrop⟩ := l1Drop_eq s1 loc
  rw [pushStream_pattern hb htr hstep v, hdrop]
  obtain ⟨l1, l2, mc, host, rfl⟩ := hstep
  unfold elementSent
  dsimp only
  cases hnow : departsNow s n (elementReq s (patternAddr base counts strides next) loc wide v)
  case true => exact ⟨by simp [hnow, toBank]; rfl, by simp [toBank], by simp [toBank, elementThread]⟩
  case false => exact ⟨by simp [hnow], by simp, by simp [elementThread]⟩

/-- A transport to a store pattern of its slot, with room for one more element, one more store, and its place (R196). -/
theorem transport_pattern {len : Nat} {sw : Bool} {g : Guard} {x : Source} (hnext : next < patternSize counts)
    (hout : s.core.streams[n].out.length < 8) (hring : s.thr.ringFull = false) (hx : popOf x = none)
    (hwalk : dataWalk s s.thr.walker (patternAddr base counts strides next) = none)
    (hmx : (isOwn (patternAddr base counts strides next) && mxReading s) = false) (h : CanIssue g x s) :
    Done len sw x (elementParts n) s (ElementPushed s n (.pattern s.cur user true wide base counts strides (next + 1) popd ctx)
      (elementReq s (patternAddr base counts strides next) loc wide (operand s x))) (issue len sw g x (transportPlan (.str n) x) s) := by
  have hmiss : pushMiss s n = none := by simp only [pushMiss, hb, hwalk, ite_self]
  have hfault (freed : Bool) : pushFault s n freed = none := by
    simp only [pushFault, hb, htr, ne_eq, not_true_eq_false, Bool.true_eq_false, or_self, if_false, if_neg hnext.ne]
  have hheld (freed : Bool) : pushHeld s n freed = false := by
    simp only [pushHeld, hb, hring, hmx, Bool.or_false, decide_eq_false_iff_not]
    omega
  have hkeeps := pushStream_keeps hb htr hstep (operand s x)
  have hmode : (pushStream s n (operand s x)).thr.mode = .run := (hkeeps.2 .mode (by simp [elementParts, walks])).trans h.runs
  have hrun : (transportPlan (.str n) x).run (popped s x) (operand s x) = .done (pushStream s n (operand s x)) := by
    rw [popped_of_popOf_none hx]; rfl
  exact done_of_run h nofun nofun hmiss (hfault _) (hheld _) hrun (by rwa [popped_of_popOf_none hx]) hmode
    ((pushStream_pushes hb htr hstep _).issued hx (finish_keeps _ _ _ _ _ hmode))

end Element

/-- Settles O2: a transport's push at both lengths, into a queue and into a store pattern. -/
theorem streamPushAppends : Obligations.StreamPushAppends := by
  unfold Obligations.StreamPushAppends
  refine ⟨fun sw g n k c x s hb hq => ?queue, ?pattern⟩
  case queue =>
    exact ⟨fun h => transport_queue hb hq h, fun h => transport_queue hb hq h⟩
  case pattern =>
    intro sw g n user wide base counts strides next popd loc ctx attr s1 x s hb hnext hout hring hx va hwalk htr hmx
    have hstep : TlbStep s s1 := translate_step rfl hwalk htr
    exact ⟨fun h => transport_pattern hb htr hstep hnext hout hring hx hwalk hmx h,
      fun h => transport_pattern hb htr hstep hnext hout hring hx hwalk hmx h⟩

end Sys2Proof.Proofs.Streams
end

section
/-! PROOF. The save area (R182, R183): what trap entry leaves in it and in the control registers (R362, R370). -/

namespace Sys2Proof.Proofs.Areas

open Sys2Proof Sys2Proof.Machine Sys2Proof.Safety Sys2Proof.Slice0 Sys2Proof.Proofs.Words Sys2Proof.Proofs.Results Sys2Proof.Proofs.Streams
  Sys2Proof.Proofs.Fetch

-- ## Control registers after entry and return (R185, R362)

theorem setCr_same (t : Thread) (i : Fin 25) (v : Word) : (t.setCr i v).cr[i] = v := by simp [Thread.setCr]

theorem setCr_other (t : Thread) {i j : Fin 25} (v : Word) (h : j ≠ i) : (t.setCr i v).cr[j] = t.cr[j] := vector_set_other _ _ h

theorem decide_toNat_eq_one (b : Bool) : decide (b.toNat = 1) = b := by cases b <;> rfl

/-- The level, the enables and UH after `setStatus`. -/
theorem setStatus_bits (t : Thread) (sup ie uie uh : Bool) :
    (t.setStatus sup ie uie uh).sup = sup ∧ (t.setStatus sup ie uie uh).ie = ie ∧ (t.setStatus sup ie uie uh).uie = uie ∧
    (t.setStatus sup ie uie uh).uh = uh := by
  obtain ⟨v, hv⟩ : ∃ v, v = sup.toNat + 2 * ie.toNat + 4 * uie.toNat + 8 * uh.toNat := ⟨_, rfl⟩
  have hsup := sup.toNat_lt
  have hie := ie.toNat_lt
  have huie := uie.toNat_lt
  have huh := uh.toNat_lt
  have hcr : (t.setStatus sup ie uie uh).cr[crStatus] = (t.cr[crStatus] &&& ~~~(15#64)) ||| BitVec.ofNat 64 v := by
    rw [hv]; exact setCr_same ..
  have hbit (i : Nat) (hi : (15#64).getLsbD i = true) : (t.setStatus sup ie uie uh).cr[crStatus].getLsbD i = decide (v / 2 ^ i % 2 = 1) := by
    rw [hcr, BitVec.getLsbD_or, BitVec.getLsbD_and, BitVec.getLsbD_not, hi, getLsbD_ofNat (by omega)]
    simp
  refine ⟨(hbit 0 rfl).trans ?_, (hbit 1 rfl).trans ?_, (hbit 2 rfl).trans ?_, (hbit 3 rfl).trans ?_⟩
  · rw [show v / 2 ^ 0 % 2 = sup.toNat by omega, decide_toNat_eq_one]
  · rw [show v / 2 ^ 1 % 2 = ie.toNat by omega, decide_toNat_eq_one]
  · rw [show v / 2 ^ 2 % 2 = uie.toNat by omega, decide_toNat_eq_one]
  · rw [show v / 2 ^ 3 % 2 = uh.toNat by omega, decide_toNat_eq_one]

/-- What the fields of a cr.epc value are (R362). -/
theorem epcWord_fields (pc : Word) (psup pie uhf mk : Bool) :
    field (epcWord pc psup pie uhf mk) 47 1 = field pc 47 1 ∧ (epcWord pc psup pie uhf mk).getLsbD 48 = psup ∧
    (epcWord pc psup pie uhf mk).getLsbD 49 = pie ∧ (epcWord pc psup pie uhf mk).getLsbD 50 = uhf ∧
    (epcWord pc psup pie uhf mk).getLsbD 51 = mk := by
  have hpc : field pc 47 1 < 2 ^ 47 := Nat.mod_lt _ (by decide)
  have hpsup := psup.toNat_lt
  have hpie := pie.toNat_lt
  have huhf := uhf.toNat_lt
  have hmk := mk.toNat_lt
  rw [epcWord]
  generalize field pc 47 1 = f at hpc ⊢
  obtain ⟨v, hv⟩ : ∃ v, v = f * 2 + psup.toNat * 2 ^ 48 + pie.toNat * 2 ^ 49 + uhf.toNat * 2 ^ 50 + mk.toNat * 2 ^ 51 := ⟨_, rfl⟩
  rw [← hv]
  have hlt : v < 2 ^ 64 := by omega
  simp only [field_ofNat hlt, getLsbD_ofNat hlt]
  refine ⟨by omega, ?_, ?_, ?_, ?_⟩
  · rw [show v / 2 ^ 48 % 2 = psup.toNat by omega, decide_toNat_eq_one]
  · rw [show v / 2 ^ 49 % 2 = pie.toNat by omega, decide_toNat_eq_one]
  · rw [show v / 2 ^ 50 % 2 = uhf.toNat by omega, decide_toNat_eq_one]
  · rw [show v / 2 ^ 51 % 2 = mk.toNat by omega, decide_toNat_eq_one]

-- ## The last steps of entry (R370)

/-- The thread of a slot at its vector, out of the thread `a`: what entry writes, and what it keeps. -/
structure AtVector (a : Thread) (e : Entry) (b : Thread) : Prop where
  address : field b.cr[crEpc] 47 1 = field e.epc 47 1
  psup : b.cr[crEpc].getLsbD 48 = a.sup
  pie : b.cr[crEpc].getLsbD 49 = a.ie
  fromUser : b.cr[crEpc].getLsbD 50 = false
  marker : b.cr[crEpc].getLsbD 51 = e.marker
  cause : b.cr[crCause] = a.causeNow e.cause
  sup : b.sup = true
  ie : b.ie = false
  uie : b.uie = a.uie
  uh : b.uh = false
  pc : b.pc = BitVec.ofNat 64 (field a.cr[crKvec] 47 1 * 2)
  mode : b.mode = .run
  w : b.w = a.w
  q : b.q = a.q
  p : b.p = a.p
  x : b.x = a.x
  op : b.op = a.op
  rp : b.rp = a.rp
  cr : ∀ i : Fin 25, i ≠ crEpc → i ≠ crCause → i ≠ crStatus → b.cr[i] = a.cr[i]

/-- The control registers that entry writes. -/
def vectored (a : Thread) (e : Entry) : Thread :=
  ((a.setCr crEpc (epcWord e.epc a.sup a.ie false e.marker)).setCr crCause (a.causeNow e.cause)).setStatus true false a.uie false

theorem vectored_epc (a : Thread) (e : Entry) : (vectored a e).cr[crEpc] = epcWord e.epc a.sup a.ie false e.marker := by
  rw [vectored, Thread.setStatus, setCr_other _ _ (by decide), setCr_other _ _ (by decide), setCr_same]

theorem vectored_cause (a : Thread) (e : Entry) : (vectored a e).cr[crCause] = a.causeNow e.cause := by
  rw [vectored, Thread.setStatus, setCr_other _ _ (by decide), setCr_same]

theorem vectored_other (a : Thread) (e : Entry) (i : Fin 25) (hepc : i ≠ crEpc) (hcause : i ≠ crCause) (hstatus : i ≠ crStatus) :
    (vectored a e).cr[i] = a.cr[i] := by
  rw [vectored, Thread.setStatus, setCr_other _ _ hstatus, setCr_other _ _ hcause, setCr_other _ _ hepc]

theorem enterVector_atVector (s : State) (slot : Fin 8) (e : Entry) : AtVector s.slots[slot] e (enterVector s slot e false).slots[slot] := by
  unfold enterVector
  rw [onSlot_same]
  generalize s.slots[slot] = a
  obtain ⟨hsup, hie, huie, huh⟩ := setStatus_bits
    ((a.setCr crEpc (epcWord e.epc a.sup a.ie false e.marker)).setCr crCause (a.causeNow e.cause)) true false a.uie false
  obtain ⟨haddress, hpsup, hpie, huhf, hmk⟩ := epcWord_fields e.epc a.sup a.ie false e.marker
  have hbit {i : Nat} {b : Bool} (h : (epcWord e.epc a.sup a.ie false e.marker).getLsbD i = b) : (vectored a e).cr[crEpc].getLsbD i = b := by
    rw [vectored_epc, h]
  exact { address := (congrArg (field · 47 1) (vectored_epc a e)).trans haddress
          psup := hbit hpsup, pie := hbit hpie, fromUser := hbit huhf, marker := hbit hmk, cause := vectored_cause a e
          sup := hsup, ie := hie, uie := huie, uh := huh, pc := rfl, mode := rfl, w := rfl, q := rfl, p := rfl, x := rfl, op := rfl, rp := rfl
          cr := vectored_other a e }

-- ## The bytes of an area, entry by entry (R182)

theorem flatten_entry {l : List (List Byte)} (hl : ∀ e ∈ l, e.length = 16) {i : Nat} {e : List Byte} (h : l[i]? = some e) :
    (l.flatten.drop (16 * i)).take 16 = e := by
  induction l generalizing i with
  | nil => simp at h
  | cons d l ih =>
    rw [List.forall_mem_cons] at hl
    obtain ⟨hd, hl⟩ := hl
    cases i with
    | zero =>
      rw [List.getElem?_cons_zero, Option.some.injEq] at h
      subst h
      rw [List.flatten_cons, Nat.mul_zero, List.drop_zero, List.take_left' hd]
    | succ i =>
      rw [List.getElem?_cons_succ] at h
      rw [List.flatten_cons, show 16 * (i + 1) = d.length + 16 * i by omega, List.drop_length_add_append]
      exact ih hl h

theorem flatten_length {l : List (List Byte)} (hl : ∀ e ∈ l, e.length = 16) : l.flatten.length = 16 * l.length := by
  rw [List.length_flatten, List.map_congr_left hl, List.map_const', List.sum_replicate, Nat.mul_comm, smul_eq_mul, Nat.mul_comm]

/-- An entry of a written area reads back, and so does each number in it. -/
theorem numAt_entry {m : List Host.Cell} (hm : Mem.wf m = true) {l : List (List Byte)} (hl : ∀ e ∈ l, e.length = 16) (loc : Nat) {i : Nat}
    {e : List Byte} (h : l[i]? = some e) {o n : Nat} (ho : o + n ≤ 16) :
    natLE (Mem.read (Mem.write m loc l.flatten) (loc + 16 * i + o) n) = natLE ((e.drop o).take n) := by
  have hi : i < l.length := (List.getElem?_eq_some_iff.mp h).1
  have hread := Mem.read_write l.flatten loc hm
  have hentry := flatten_entry hl h
  rw [← hread, flatten_length hl, read_drop, read_take _ _ (by omega)] at hentry
  rw [← hentry, read_drop, read_take _ _ (by omega)]

theorem entry16_length (lo hi : Nat) : (entry16 lo hi).length = 16 := by simp [entry16]

/-- The two numbers of an entry. -/
theorem entry16_low {lo : Nat} (h : lo < 256 ^ 8) (hi : Nat) : natLE (((entry16 lo hi).drop 0).take 8) = lo := by
  rw [entry16, List.drop_zero, List.take_left' (bytesLE_length 8 lo), natLE_bytesLE 8 lo h]

theorem entry16_high (lo : Nat) {hi : Nat} (h : hi < 256 ^ 8) : natLE (((entry16 lo hi).drop 8).take 8) = hi := by
  rw [entry16, List.drop_left' (bytesLE_length 8 lo), List.take_of_length_le (by simp), natLE_bytesLE 8 hi h]

-- ## The image of a thread

theorem resvEntry_length (t : Thread) (i : Nat) : (resvEntry t i).length = 16 := by
  unfold resvEntry
  split <;> exact entry16_length ..

theorem areaImage_entries (t : Thread) (u : Option (Word × Word)) : ∀ e ∈ areaImage t u, e.length = 16 := by
  have hzero (n : Nat) : ∀ e ∈ List.replicate n (entry16 0 0), e.length = 16 := fun e he => List.eq_of_mem_replicate he ▸ entry16_length ..
  simp only [areaImage, List.forall_mem_append, List.forall_mem_cons, List.forall_mem_map, List.not_mem_nil, false_implies, implies_true,
    and_true, true_and, bytesLE_length, entry16_length, resvEntry_length, List.length_append]
  refine ⟨⟨hzero 4, ?_⟩, hzero 2⟩
  cases u <;> exact entry16_length ..

theorem areaImage_length (t : Thread) (u : Option (Word × Word)) : (areaImage t u).length = 64 := rfl

theorem areaImage_operand (t : Thread) (u : Option (Word × Word)) {p : OPort × Nat} (h : p ∈ OPort.saved.zipIdx) :
    (areaImage t u)[p.2]? = some (bytesLE 16 (t.opq p.1).toNat) := by
  have hp : OPort.saved[p.2]? = some p.1 := List.mem_zipIdx_iff_getElem?.mp h
  have hlt : p.2 < (OPort.saved.map fun r => bytesLE 16 (t.opq r).toNat).length := by
    rw [List.length_map]; exact (List.getElem?_eq_some_iff.mp hp).1
  simp only [areaImage, List.append_assoc]
  rw [List.getElem?_append_left hlt, List.getElem?_map, hp, Option.map_some]

theorem areaImage_result (t : Thread) (u : Option (Word × Word)) {p : RPort × Nat} (h : p ∈ RPort.all.zipIdx) :
    (areaImage t u)[24 + p.2]? = some (bytesLE 16 (t.rpq p.1).toNat) := by
  have hp : RPort.all[p.2]? = some p.1 := List.mem_zipIdx_iff_getElem?.mp h
  have hlt : p.2 < (RPort.all.map fun r => bytesLE 16 (t.rpq r).toNat).length := by
    rw [List.length_map]; exact (List.getElem?_eq_some_iff.mp hp).1
  have hhead : (OPort.saved.map (fun r => bytesLE 16 (t.opq r).toNat) ++ [entry16 0 0, entry16 0 0]).length = 24 := rfl
  have hsplit : areaImage t u = (OPort.saved.map (fun r => bytesLE 16 (t.opq r).toNat) ++ [entry16 0 0, entry16 0 0]) ++
      (RPort.all.map (fun r => bytesLE 16 (t.rpq r).toNat) ++ (areaImage t u).drop 50) := rfl
  rw [hsplit, List.getElem?_append_right (by omega), hhead, Nat.add_sub_cancel_left, List.getElem?_append_left hlt, List.getElem?_map, hp,
    Option.map_some]

theorem areaImage_reserved (t : Thread) (u : Option (Word × Word)) {i : Nat} (h : i ∈ ([22, 23, 52, 53, 54, 55, 62, 63] : List Nat)) :
    (areaImage t u)[i]? = some (entry16 0 0) := by
  simp only [List.mem_cons, List.not_mem_nil, or_false] at h
  rcases h with rfl | rfl | rfl | rfl | rfl | rfl | rfl | rfl <;> rfl

theorem areaImage_resv (t : Thread) (u : Option (Word × Word)) {i : Nat} (h : i < 4) : (areaImage t u)[57 + i]? = some (resvEntry t i) := by
  match i, h with
  | 0, _ | 1, _ | 2, _ | 3, _ => rfl

-- ## The owed marks (R182)

theorem testBit_foldl_or (l : List RPort) (m j : Nat) :
    (l.foldl (fun m p => m ||| 2 ^ p.fin.val) m).testBit j = (m.testBit j || l.any (fun p => p.fin.val == j)) := by
  induction l generalizing m with
  | nil => simp
  | cons p l ih => rw [List.foldl_cons, ih, Nat.testBit_or, Nat.testBit_two_pow, List.any_cons, Bool.or_assoc]; rfl

theorem foldl_or_lt (l : List RPort) {m : Nat} (h : m < 2 ^ 26) : l.foldl (fun m p => m ||| 2 ^ p.fin.val) m < 2 ^ 26 := by
  induction l generalizing m with
  | nil => exact h
  | cons p l ih => exact ih (Nat.or_lt_two_pow h (Nat.pow_lt_pow_right (by decide) p.fin.isLt))

theorem testBit_owedMarks (t : Thread) (p : RPort) :
    t.owedMarks.testBit p.fin.val = t.owed.any (fun o => o.area == t.areaUse && o.ports.contains p) := by
  have hport (r : RPort) : (r.fin.val == p.fin.val) = (p == r) := by
    rw [Bool.eq_iff_iff, beq_iff_eq, beq_iff_eq]
    exact ⟨fun h => (fin_inj (Fin.ext h)).symm, fun h => h ▸ rfl⟩
  rw [Thread.owedMarks, testBit_foldl_or, Nat.zero_testBit, Bool.false_or, List.any_flatMap, List.any_filter]
  simp only [hport, List.contains_eq_any_beq]

-- ## A written area holds the thread's image (R182)

theorem areaHolds_write {m : List Host.Cell} (hm : Mem.wf m = true) (t : Thread) (u : Option (Word × Word)) (loc : Nat) :
    AreaHolds t u (Mem.write m loc (areaImage t u).flatten) loc := by
  have hentry {i : Nat} {e : List Byte} (h : (areaImage t u)[i]? = some e) {o n : Nat} (ho : o + n ≤ 16) :
      natLE (Mem.read (Mem.write m loc (areaImage t u).flatten) (loc + 16 * i + o) n) = natLE ((e.drop o).take n) :=
    numAt_entry hm (areaImage_entries t u) loc h ho
  have hquad (v : Quad) : natLE (((bytesLE 16 v.toNat).drop 0).take 16) = v.toNat := by
    rw [List.drop_zero, List.take_of_length_le (by simp), natLE_bytesLE 16 _ v.isLt]
  have hword {v : Nat} (h : v < 2 ^ 26) : natLE (bytesLE 4 v) = v := natLE_bytesLE 4 v (h.trans (by decide))
  have hbits (v : BitVec 26) : natLE (bytesLE 4 v.toNat) = v.toNat := hword v.isLt
  have howed : t.owedMarks < 2 ^ 26 := foldl_or_lt _ (by decide)
  refine ⟨fun p hp => ?operands, fun p hp => ?results, fun i => ?causes, ?fence, ?poison, ?np, fun p => ?owed, fun i hi => ?resv, ?status, ?seq,
    fun i hi => ?reserved⟩
  case operands => exact (hentry (areaImage_operand t u hp) (by decide)).trans (hquad _)
  case results => exact (hentry (areaImage_result t u hp) (by decide)).trans (hquad _)
  case causes =>
    have hlt (i : Fin 4) : t.cause4[i].toNat < 256 ^ 8 := t.cause4[i].isLt
    match i with
    | 0 => exact (hentry (i := 50) rfl (o := 0) (by decide)).trans (entry16_low (hlt 0) _)
    | 1 => exact (hentry (i := 50) rfl (o := 8) (by decide)).trans (entry16_high _ (hlt 1))
    | 2 => exact (hentry (i := 51) rfl (o := 0) (by decide)).trans (entry16_low (hlt 2) _)
    | 3 => exact (hentry (i := 51) rfl (o := 8) (by decide)).trans (entry16_high _ (hlt 3))
  case fence => exact (hentry (i := 56) rfl (o := 0) (n := 4) (by decide)).trans (hbits t.fence)
  case poison => exact (hentry (i := 56) rfl (o := 4) (n := 4) (by decide)).trans (hbits t.poison)
  case np => exact (hentry (i := 56) rfl (o := 8) (n := 4) (by decide)).trans (hbits t.np)
  case owed =>
    have hmarks := (hentry (i := 56) rfl (o := 12) (n := 4) (by decide)).trans (hword howed)
    exact (congrArg (Nat.testBit · p.fin.val) hmarks).trans (testBit_owedMarks t p)
  case resv =>
    have hresv {o : Nat} (ho : o + 8 ≤ 16) := hentry (areaImage_resv t u hi) ho
    refine ⟨(hresv (by decide)).trans ?_, (hresv (by decide)).trans ?_⟩
    · unfold resvEntry
      cases t.resv[i]? with
      | none => exact entry16_low (by decide) _
      | some r => exact entry16_low r.va.isLt _
    · unfold resvEntry
      cases t.resv[i]? with
      | none => exact entry16_high _ (by decide)
      | some r => exact entry16_high _ (r.granted.toNat_lt.trans (by decide))
  case status =>
    refine (hentry (i := 61) rfl (o := 0) (n := 8) (by decide)).trans ?_
    cases u with
    | none => exact entry16_low (by decide) _
    | some p => exact entry16_low p.1.isLt _
  case seq =>
    refine (hentry (i := 61) rfl (o := 8) (n := 8) (by decide)).trans ?_
    cases u with
    | none => exact entry16_high _ (by decide)
    | some p => exact entry16_high _ p.2.isLt
  case reserved => exact hentry (areaImage_reserved t u hi) (by decide)

-- ## The stores of entry (R85, R147, R183)

/-- The area at a place stands in the own window, and none of the thread's requests on their way goes to its bank. -/
structure FreeArea (s : State) (slot : Fin 8) (area : Word) (loc : Nat) : Prop where
  own : ∀ o < 1024, isOwn (area + BitVec.ofNat 64 o) = true
  bank : ∀ o < 1024, isBank (loc + o) = true
  free : ∀ o < 1024, ownPending s slot (loc + o) = false

theorem freeArea_own {s : State} {slot : Fin 8} {area : Word} {off : Nat} (h : classify area = .own off) (ha : field area 9 0 = 0)
    (hp : ownPending s slot (winLoc s off) = false) : FreeArea s slot area (winLoc s off) where
  own _ ho := isOwn_add_offset h ha ho
  bank o _ := isBank_winLoc_add s off o
  free o ho := by rw [ownPending, pointOf_winLoc_add s (own_offset_aligned h ha) ho]; exact hp

theorem FreeArea.kept {s t : State} {slot : Fin 8} {area : Word} {loc : Nat} (h : FreeArea s slot area loc) (hk : AreaKept slot s t) :
    FreeArea t slot area loc where
  own := h.own
  bank := h.bank
  free o ho := by rw [ownPending, hk.pending]; exact h.free o ho

/-- A store into a free area is performed at once, whatever the thread has on its way to other places (R136, R183). -/
theorem FreeArea.store {s : State} {slot : Fin 8} {area : Word} {loc : Nat} (h : FreeArea s slot area loc) {o : Nat} (ho : o < 1024)
    (d : List Byte) : AreaKept slot s (areaStore s slot (area + BitVec.ofNat 64 o) (loc + o) d) ∧
      (areaStore s slot (area + BitVec.ofNat 64 o) (loc + o) d).st.mem = Mem.write s.st.mem (loc + o) d := by
  have heq : areaStore s slot (area + BitVec.ofNat 64 o) (loc + o) d =
      (floorOwn (s.bump.onSlot slot id) (some slot) (loc + o) d.length s.nextId).onSt (fun st => st.put
        { id := s.nextId, src := s.src slot, loc := loc + o, data := d, fe := none, rmw := false, known := s.slots[slot].floor, rel := none }) := by
    unfold areaStore
    simp only [h.own o ho, h.free o ho, if_true, Bool.false_eq_true, if_false, l1Drop, h.bank o ho, perform, sendAck]
    rfl
  rw [heq]
  exact ⟨⟨by simp [pendingReqs, floorOwn, Store.put],
    floorAdd s.slots[slot].floor ((List.range d.length).map (fun k => (loc + o + k, s.nextId))), s.slots[slot].headLost, by simp [floorOwn]⟩, rfl⟩

/-- The entries of a free area, stored one after the other, are one write (R183). -/
theorem FreeArea.storeEntries {s : State} {slot : Fin 8} {area : Word} {loc : Nat} (h : FreeArea s slot area loc) {l : List (List Byte)}
    (hl : ∀ e ∈ l, e.length = 16) {o : Nat} (ho : o + 16 * l.length ≤ 1024) :
    (Machine.storeEntries s slot (area + BitVec.ofNat 64 o) (loc + o) l).st.mem = Mem.write s.st.mem (loc + o) l.flatten := by
  induction l generalizing s o with
  | nil => rfl
  | cons e l ih =>
    rw [List.forall_mem_cons] at hl
    obtain ⟨he, hl⟩ := hl
    rw [List.length_cons] at ho
    obtain ⟨hkept, hmem⟩ := h.store (o := o) (by omega) e
    have haddr : area + BitVec.ofNat 64 o + 16#64 = area + BitVec.ofNat 64 (o + 16) := by rw [BitVec.add_assoc, ← BitVec.ofNat_add]
    rw [Machine.storeEntries, haddr, Nat.add_assoc, ih (h.kept hkept) hl (by omega), hmem, List.flatten_cons, write_append, he, Nat.add_assoc]

theorem psave_aligned (t : Thread) : field t.psave 9 0 = 0 := by
  have h : field t.cr[crPsave] 47 10 < 2 ^ 38 := Nat.mod_lt _ (by decide)
  rw [Thread.psave]
  generalize field t.cr[crPsave] 47 10 = f at h ⊢
  rw [field_ofNat (by omega)]
  omega

/-- Entry into a free own-window area writes the thread's image there, and no other byte. -/
theorem saveArea_mem {s s1 : State} {slot : Fin 8} {u : Option (Word × Word)} {loc off : Nat} {attr : BitVec 5}
    (h : saveArea s slot u = .ok loc attr s1) (hown : classify s.slots[slot].psave = .own off) (hfree : ownPending s slot (winLoc s off) = false) :
    s1.st.mem = Mem.write s.st.mem (winLoc s off) (areaImage s.slots[slot] u).flatten := by
  have harea := freeArea_own hown (psave_aligned _) hfree
  have hmem := harea.storeEntries (areaImage_entries s.slots[slot] u) (o := 0) (by rw [areaImage_length])
  rw [show s.slots[slot].psave + 0#64 = s.slots[slot].psave from BitVec.add_zero _, Nat.add_zero (winLoc s off)] at hmem
  simp only [saveArea, areaPlace_own hown, Trans.ok.injEq] at h
  obtain ⟨-, -, rfl⟩ := h
  rw [State.onSlot_st, hmem]

/-- Entry, once it waits for nothing and its area is written (R370). -/
theorem takeException_saved {s s1 : State} {slot : Fin 8} {loc : Nat} {attr : BitVec 5} (e : Entry) (hwait : entryWaits s slot = false)
    (huh : s.slots[slot].uh = false) (h : saveArea s slot (s.slots[slot].uintOf s.slots[slot].areaUse) = .ok loc attr s1) :
    takeException s slot e =
      .next (enterVector (s1.onSlot slot (fun t => { t with uints := dropUint t.uints s.slots[slot].areaUse })) slot e false) := by
  simp only [takeException, hwait, huh, h, Bool.false_eq_true, if_false]

/-- What entry writes and keeps of the thread says nothing of its pending interrupts. -/
theorem AtVector.of_uints {a b : Thread} {e : Entry} {uints : List (Option Word × Word × Word)} (h : AtVector { a with uints } e b) : AtVector a e b :=
  ⟨h.address, h.psup, h.pie, h.fromUser, h.marker, h.cause, h.sup, h.ie, h.uie, h.uh, h.pc, h.mode, h.w, h.q, h.p, h.x, h.op, h.rp, h.cr⟩

/-- Settles O9: entry's stores are one write of the thread's image, and its last steps change the thread alone. -/
theorem trapEntrySavesAndVectors : Obligations.TrapEntrySavesAndVectors := by
  unfold Obligations.TrapEntrySavesAndVectors
  intro s s1 slot e loc attr hwait huh h
  refine ⟨_, takeException_saved e hwait huh h, ?_⟩
  have hv := enterVector_atVector (s1.onSlot slot (fun t => { t with uints := dropUint t.uints s.slots[slot].areaUse })) slot e
  rw [onSlot_same] at hv
  obtain ⟨address, psup, pie, fromUser, marker, cause, sup, ie, uie, uh, pc, mode, w, q, p, x, op, rp, cr⟩ := hv.of_uints
  refine ⟨address, psup, pie, fromUser, marker, cause, sup, ie, uie, uh, pc, mode, w, q, p, x, op, rp, cr, fun i hi => ?others, rfl, rfl,
    fun off hown hfree hm => ?area⟩
  case others => rw [enterVector, onSlot_other _ _ hi, onSlot_other _ _ hi]
  case area =>
    have hmem : s1.st.mem = _ := saveArea_mem h hown hfree
    have hlen := flatten_length (areaImage_entries s.slots[slot] (s.slots[slot].uintOf s.slots[slot].areaUse))
    rw [areaImage_length] at hlen
    rw [Canonical.enterVector_mem, State.onSlot_st, hmem]
    exact ⟨areaHolds_write hm _ _ _, fun c hc => Mem.get_write_other _ _ _ hm (by omega)⟩

end Sys2Proof.Proofs.Areas
end

section
/-! PROOF. sys.eret (R377): what it reads back from the area, and the thread that it leaves. -/

namespace Sys2Proof.Proofs.Returns

open Sys2Proof Sys2Proof.Machine Sys2Proof.Safety Sys2Proof.Slice0 Sys2Proof.Proofs.Words Sys2Proof.Proofs.Results Sys2Proof.Proofs.Streams
  Sys2Proof.Proofs.Fetch Sys2Proof.Proofs.Areas

-- ## Numbers of an area's entries (R8, R182)

/-- The number in the first `n` bytes of entry `i` of an area's bytes. -/
def entryNum (b : List Byte) (i n : Nat) : Nat := natLE ((b.drop (16 * i)).take n)

theorem natLE_append (l r : List Byte) : natLE (l ++ r) = natLE l + 256 ^ l.length * natLE r := by
  induction l with
  | nil => simp [natLE]
  | cons x l ih => rw [List.cons_append, natLE, natLE, ih, List.length_cons, Nat.pow_succ]; ring

/-- The first bytes of a number are its low part. -/
theorem natLE_take_mod (l : List Byte) (n : Nat) : natLE l % 256 ^ n = natLE (l.take n) := by
  by_cases h : n ≤ l.length
  · have hlt := natLE_lt (l.take n)
    rw [List.length_take_of_le h] at hlt
    conv_lhs => rw [← List.take_append_drop n l, natLE_append, List.length_take_of_le h]
    rw [Nat.add_mul_mod_self_left, Nat.mod_eq_of_lt hlt]
  · have hle : l.length ≤ n := by omega
    rw [List.take_of_length_le hle, Nat.mod_eq_of_lt ((natLE_lt l).trans_le (Nat.pow_le_pow_right (by decide) hle))]

theorem natLE_drop_div (l : List Byte) {n : Nat} (h : n ≤ l.length) : natLE (l.drop n) = natLE l / 256 ^ n := by
  have hlt := natLE_lt (l.take n)
  rw [List.length_take_of_le h] at hlt
  conv_rhs => rw [← List.take_append_drop n l, natLE_append, List.length_take_of_le h]
  rw [Nat.add_mul_div_left _ _ (by positivity), Nat.div_eq_of_lt hlt, Nat.zero_add]

theorem entryNum_mod (b : List Byte) (i : Nat) : entryNum b i 16 % 2 ^ 64 = entryNum b i 8 := by
  rw [entryNum, show (2 : Nat) ^ 64 = 256 ^ 8 by decide, natLE_take_mod, List.take_take]
  rfl

/-- The fourth word of an entry, by the bits of its whole number. -/
theorem testBit_fourth_word {b : List Byte} (hb : b.length = 1024) {i : Nat} (hi : i < 64) (k : Fin 26) :
    (BitVec.ofNat 26 (natLE ((b.drop (16 * i + 12)).take 4))).getLsbD k.val = (entryNum b i 16).testBit (96 + k.val) := by
  have hword : natLE ((b.drop (16 * i + 12)).take 4) = entryNum b i 16 / 2 ^ 96 := by
    have hlen : 12 ≤ ((b.drop (16 * i)).take 16).length := by rw [List.length_take, List.length_drop]; omega
    rw [entryNum, show (2 : Nat) ^ 96 = 256 ^ 12 by decide, ← natLE_drop_div _ hlen, List.drop_take, List.drop_drop]
  rw [BitVec.getLsbD_ofNat, hword, Nat.testBit_div_two_pow, decide_eq_true k.isLt, Bool.true_and, Nat.add_comm]

-- ## Vectors set place by place

theorem foldl_set_other {α ι : Type} {n : Nat} {l : List ι} {place : ι → Fin n} (val : ι → α) (v : Vector α n) {j : Fin n}
    (h : ∀ p ∈ l, place p ≠ j) : (l.foldl (fun v p => v.set (place p) (val p)) v)[j] = v[j] := by
  induction l generalizing v with
  | nil => rfl
  | cons p l ih =>
    rw [List.forall_mem_cons] at h
    rw [List.foldl_cons, ih _ h.2, vector_set_other _ _ h.1.symm]

theorem foldl_set_same {α ι : Type} {n : Nat} {l : List ι} {place : ι → Fin n} (val : ι → α) (v : Vector α n)
    (hl : l.Pairwise (fun p r => place r ≠ place p)) {p : ι} (hp : p ∈ l) : (l.foldl (fun v p => v.set (place p) (val p)) v)[place p] = val p := by
  induction l generalizing v with
  | nil => simp at hp
  | cons r l ih =>
    rw [List.pairwise_cons] at hl
    rw [List.foldl_cons]
    rcases List.mem_cons.mp hp with rfl | hp
    · rw [foldl_set_other _ _ hl.1]; simp
    · exact ih _ hl.2 hp

-- ## The ports read back (R377)

/-- The value of an operand port, and of a result port, from the area's bytes. -/
def readOperand (b : List Byte) (p : OPort × Nat) : Quad :=
  if p.1.wide then BitVec.ofNat 128 (entryNum b p.2 16) else quad (low64 (BitVec.ofNat 128 (entryNum b p.2 16)))
def readResult (b : List Byte) (p : RPort × Nat) : Quad :=
  if p.1.wide then BitVec.ofNat 128 (entryNum b (24 + p.2) 16)
  else quad (BitVec.ofNat 64 (if p.1 = .fpuF then entryNum b (24 + p.2) 8 % 64 else entryNum b (24 + p.2) 8))

def operandsBack (b : List Byte) (op : Vector Quad 23) : Vector Quad 23 :=
  OPort.saved.zipIdx.foldl (fun v p => v.set p.1.fin (readOperand b p)) op
def resultsBack (b : List Byte) (rp : Vector Quad 26) : Vector Quad 26 :=
  RPort.all.zipIdx.foldl (fun v p => v.set p.1.fin (readResult b p)) rp

/-- A thread with the ports that an area's bytes give it. -/
def portsBack (b : List Byte) (t : Thread) : Thread :=
  RPort.all.zipIdx.foldl (fun (t : Thread) p => { t with rp := t.rp.set p.1.fin (readResult b p) })
    (OPort.saved.zipIdx.foldl (fun (t : Thread) p => t.setOp p.1 (BitVec.ofNat 128 (entryNum b p.2 16))) t)

theorem foldl_setOp (b : List Byte) (l : List (OPort × Nat)) (t : Thread) :
    l.foldl (fun (t : Thread) p => t.setOp p.1 (BitVec.ofNat 128 (entryNum b p.2 16))) t =
      { t with op := l.foldl (fun v p => v.set p.1.fin (readOperand b p)) t.op } := by
  induction l generalizing t with
  | nil => rfl
  | cons p l ih => rw [List.foldl_cons, ih]; rfl

theorem foldl_setRp (b : List Byte) (l : List (RPort × Nat)) (t : Thread) :
    l.foldl (fun (t : Thread) p => { t with rp := t.rp.set p.1.fin (readResult b p) }) t =
      { t with rp := l.foldl (fun v p => v.set p.1.fin (readResult b p)) t.rp } := by
  induction l generalizing t with
  | nil => rfl
  | cons p l ih => rw [List.foldl_cons, ih]; rfl

theorem portsBack_eq (b : List Byte) (t : Thread) : portsBack b t = { t with op := operandsBack b t.op, rp := resultsBack b t.rp } := by
  rw [portsBack, foldl_setOp, foldl_setRp]
  rfl

/-- An awaited result as the area's owed marks leave it. -/
def remarked (b : List Byte) (area : Word) (o : Owed) : Owed :=
  if o.area = some area then
    { o with marked := o.ports.any (fun p => (BitVec.ofNat 26 (natLE ((b.drop (16 * 56 + 12)).take 4))).getLsbD p.fin.val) } else o

/-- Reading an area back changes the ports, the marks and their causes, the record, and the marks of what the area awaits. -/
theorem loadArea_eq (t : Thread) (b : List Byte) (place : Word → Nat) : ∃ cause4 poison np resv, t.loadArea b place =
    { t with op := operandsBack b t.op, rp := resultsBack b t.rp, fence := BitVec.ofNat 26 (entryNum b 56 4), cause4, poison, np, resv
             owed := t.owed.map (remarked b t.psave) } := by
  have hports : ∃ cause4 poison np resv, t.loadArea b place = { portsBack b t with
      fence := BitVec.ofNat 26 (entryNum b 56 4), cause4, poison, np, resv, owed := (portsBack b t).owed.map (remarked b t.psave) } := ⟨_, _, _, _, rfl⟩
  rwa [portsBack_eq] at hports

theorem readOperand_eq (b : List Byte) (p : OPort × Nat) : readOperand b p =
    if p.1.wide then BitVec.ofNat 128 (entryNum b p.2 16) else quad (BitVec.ofNat 64 (entryNum b p.2 8)) := by
  have hlow : low64 (BitVec.ofNat 128 (entryNum b p.2 16)) = BitVec.ofNat 64 (entryNum b p.2 8) := by
    apply BitVec.eq_of_toNat_eq
    have hmod := entryNum_mod b p.2
    simp only [low64, BitVec.toNat_setWidth, BitVec.toNat_ofNat]
    omega
  rw [readOperand, hlow]

theorem readResult_eq (b : List Byte) (p : RPort × Nat) : readResult b p =
    if p.1 = .fpuF then BitVec.ofNat 128 (entryNum b (24 + p.2) 8 % 64)
    else if p.1.wide then BitVec.ofNat 128 (entryNum b (24 + p.2) 16) else quad (BitVec.ofNat 64 (entryNum b (24 + p.2) 8)) := by
  by_cases h : p.1 = .fpuF
  · have hwide : p.1.wide = false := by rw [h]; rfl
    have hflags : quad (BitVec.ofNat 64 (entryNum b (24 + p.2) 8 % 64)) = BitVec.ofNat 128 (entryNum b (24 + p.2) 8 % 64) := by
      apply BitVec.eq_of_toNat_eq
      simp only [quad, BitVec.toNat_setWidth, BitVec.toNat_ofNat]
      omega
    rw [readResult, hwide, if_neg Bool.false_ne_true, if_pos h, if_pos h, hflags]
  · rw [readResult, if_neg h, if_neg h]

theorem operandsBack_get (b : List Byte) (op : Vector Quad 23) {p : OPort × Nat} (h : p ∈ OPort.saved.zipIdx) :
    (operandsBack b op)[p.1.fin] = readOperand b p :=
  foldl_set_same (place := fun p : OPort × Nat => p.1.fin) (readOperand b) op (by decide) h

theorem resultsBack_get (b : List Byte) (rp : Vector Quad 26) {p : RPort × Nat} (h : p ∈ RPort.all.zipIdx) :
    (resultsBack b rp)[p.1.fin] = readResult b p :=
  foldl_set_same (place := fun p : RPort × Nat => p.1.fin) (readResult b) rp (by decide) h

theorem remarked_area (b : List Byte) (area : Word) (o : Owed) : (remarked b area o).area = o.area := by
  unfold remarked
  split <;> rfl

/-- What the area awaits, marked as its owed marks say. -/
theorem remarked_marked {b : List Byte} (hb : b.length = 1024) {area : Word} {l : List Owed} {o : Owed} (ho : o ∈ l.map (remarked b area))
    (harea : o.area = some area) : o.marked = o.ports.any (fun p => (entryNum b 56 16).testBit (96 + p.fin.val)) := by
  obtain ⟨r, -, rfl⟩ := List.mem_map.mp ho
  rw [remarked_area] at harea
  simp only [remarked, if_pos harea, testBit_fourth_word hb (i := 56) (by decide)]

-- ## The thread read back (R377)

/-- The ports and the marks of the thread `t` are those that an area's bytes `b` give the thread `a`. -/
structure Restored (b : List Byte) (a t : Thread) : Prop where
  operands : ∀ p ∈ OPort.saved.zipIdx, t.opq p.1 = readOperand b p
  results : ∀ p ∈ RPort.all.zipIdx, t.rpq p.1 = readResult b p
  fence : t.fence = BitVec.ofNat 26 (entryNum b 56 4)
  owed : ∃ l : List Owed, t.owed = l.map (remarked b a.psave)
  areaUse : t.areaUse = some a.psave
  q : t.q = a.q
  p : t.p = a.p
  x : t.x = a.x
  sAfter : t.sAfter = a.sAfter

/-- The thread `t` is the thread `a` with an area's bytes `b` read back. -/
structure ReadBack (b : List Byte) (a t : Thread) : Prop extends Restored b a t where
  w : t.w = a.w
  cr : t.cr = a.cr
  shadow : t.shadow = a.shadow

/-- The marks that a thread's own read of memory meets at a place, where the words carry none (R81, R147). -/
theorem firstMark_none_of_filter {l : List (Nat × BitVec 2)} {loc n : Nat} {f : Nat × BitVec 2 → Bool} (hf : ∀ p, p.2 ≠ 1#2 → f p = true)
    (h : firstMark l loc n = none) : firstMark (l.filter f) loc n = none := by
  simp only [firstMark, List.find?_eq_none, List.forall_mem_map, bne_iff_ne, ne_eq, Decidable.not_not] at h ⊢
  intro i hi
  have hzero : markOf l (loc / 8 + i) = 0#2 := h i hi
  rw [markOf_filter hf (by rw [hzero]; decide), hzero]

theorem firstMark_soundMarks {s : State} {slot : Fin 8} {tag loc n : Nat} (via : Option Nat)
    (h : firstMark (ownMarks s slot tag s.st.marks) loc n = none) : firstMark (ownMarks s slot tag (soundMarks s.st via)) loc n = none := by
  have hf (p : Nat × BitVec 2) (hp : p.2 ≠ 1#2) : (p.2 != 1#2 || !s.st.sound.contains (via, p.1)) = true := by simp [hp]
  have hswap : ownMarks s slot tag (soundMarks s.st via) =
      (ownMarks s slot tag s.st.marks).filter (fun m => m.2 != 1#2 || !s.st.sound.contains (via, m.1)) := by
    simp only [ownMarks, soundMarks, List.filter_filter, Bool.and_comm]
  rw [hswap]
  exact firstMark_none_of_filter hf h

theorem overlay_length (loc : Nat) (acc : List Byte) (loc' : Nat) (d : List Byte) : (overlay loc acc loc' d).length = acc.length := by
  simp [overlay]

theorem forwardOwn_length (s : State) (slot : Fin 8) (tag loc : Nat) (bytes : List Byte) : (forwardOwn s slot tag loc bytes).length = bytes.length := by
  unfold forwardOwn
  refine foldl_keeps _ List.length (fun acc r => ?_) _ _
  split
  · split
    · exact overlay_length ..
    · rfl
  · rfl

/-- An own-window area's place, for a return as for an entry. -/
theorem areaPlace_own_read {s : State} {slot : Fin 8} {area : Word} {off : Nat} (h : classify area = .own off) :
    areaPlace s slot area false = .ok (winLoc s off) 0b01111#5 s := by
  have hmesh : meshRefused s s.slots[slot].cid.val area (winLoc s off) = false :=
    meshRefused_eq_false (fun core off' e => by rw [h] at e; cases e)
  simp only [areaPlace, Machine.translate, h, hmesh, Bool.false_eq_true, if_false]

/-- An area in the own window without marks is read back (R377). -/
theorem restoreArea_own {s : State} {slot : Fin 8} {off : Nat} (h : classify s.slots[slot].psave = .own off)
    (hmark : let y := scrub s (winLoc s off) 1024
      firstMark (ownMarks y slot y.nextId y.st.marks) (winLoc s off) 1024 = none) :
    let y := scrub s (winLoc s off) 1024
    ∃ attr u, restoreArea s slot = .ok (winLoc s off) attr u ∧ ReadBack (areaRead y slot (winLoc s off) 1024) s.slots[slot] u.slots[slot] ∧
      u.cur = s.cur ∧ u.st = y.st := by
  obtain ⟨y, hy⟩ : ∃ y, y = scrub s (winLoc s off) 1024 := ⟨_, rfl⟩
  dsimp only at hmark ⊢
  rw [← hy] at hmark ⊢
  have hread : coreRead s (winLoc s off) 1024 = y := by
    rw [coreRead, if_pos (show isBank (winLoc s off) = true from isBank_winLoc_add s off 0), hy]
  have hslots : y.slots = s.slots := by
    have hrequests := scrub_requests s (winLoc s off) 1024
    simp only [requestsOf, Prod.mk.injEq] at hrequests
    obtain ⟨-, hslots, -⟩ := hrequests
    rw [hy, hslots]
  have hcur : y.cur = s.cur := by rw [hy]; exact (Translation.scrub_keeps s (winLoc s off) 1024).1
  simp only [restoreArea, areaPlace_own_read h, hread, firstMark_soundMarks _ hmark, Option.isSome_none, Bool.false_eq_true, if_false]
  obtain ⟨floor, relReads, hgains⟩ := gains_eq y slot y.nextId (winLoc s off) (pointMoment y.st (winLoc s off) 1024) y.freeCtr
  refine ⟨_, _, rfl, ?_, hcur, rfl⟩
  rw [onSlot_same, show gains y slot y.nextId (winLoc s off) (pointMoment y.st (winLoc s off) 1024) = _ from hgains, onSlot_same]
  obtain ⟨cause4, poison, np, resv, hload⟩ := loadArea_eq { y.slots[slot] with floor, relReads } (areaRead y slot (winLoc s off) 1024) (resvLoc y slot)
  rw [hload, hslots]
  exact { operands := fun p hp => operandsBack_get _ _ hp, results := fun p hp => resultsBack_get _ _ hp, fence := rfl, owed := ⟨_, rfl⟩
          areaUse := rfl, q := rfl, p := rfl, x := rfl, sAfter := rfl, w := rfl, cr := rfl, shadow := rfl }

-- ## Parking (R44, R377)

/-- The mode and the fence bits of a thread that parks where results are owed, or that goes on. -/
def parkRule (parks : Bool) (t : Thread) : Mode × BitVec 26 :=
  if parks then if t.pending then (.marker, t.fence) else (.run, 0) else (.run, t.fence)

theorem enterMarker_eq (t : Thread) : t.enterMarker = { t with mode := (parkRule true t).1, fence := (parkRule true t).2, sAfter := false } := by
  unfold Thread.enterMarker parkRule
  cases t.pending <;> rfl

/-- A return parks where its mark bit says so, or where the word that it returns to carried S. -/
theorem afterReturn_eq (t : Thread) (mk : Bool) : ∃ sAfter, t.afterReturn mk =
    { t with mode := (parkRule (mk || t.sAfter) t).1, fence := (parkRule (mk || t.sAfter) t).2, sAfter } := by
  unfold Thread.afterReturn Thread.unpark
  cases mk with
  | true => exact ⟨false, enterMarker_eq t⟩
  | false =>
    cases h : t.sAfter with
    | true => exact ⟨false, enterMarker_eq t⟩
    | false => exact ⟨false, rfl⟩

/-- What issuing a word leaves of a thread that runs or stands at a marker. -/
theorem finish_parks (s0 s : State) (next : Word) (sw : Bool) (hm : s.thr.mode = .run ∨ s.thr.mode = .marker) :
    ∃ cr reissue expiry fence mode sAfter, finish s0 s next sw false = { s.setThr { s.thr with
        cr, reissue, expiry, pc := next, wordPc := s0.thr.pc, held := none, miss := none, relMark := none, fence, mode, sAfter } with turn := .iss } ∧
      (∀ i : Fin 25, i ≠ crQleft → i ≠ crWp → cr[i] = s.thr.cr[i]) ∧
      (mode, fence) = if s.thr.mode = .marker then (.marker, s.thr.fence) else parkRule sw s.thr := by
  rcases hm with hm | hm
  · obtain ⟨cr, reissue, expiry, fence, mode, h, hcr, hmode, hfence⟩ := finish_run s0 s next sw false hm
    refine ⟨cr, reissue, expiry, fence, mode, _, h, hcr, ?_⟩
    rw [hmode, hfence, hm, if_neg (show ¬Mode.run = .marker by decide), parkRule]
    cases sw <;> cases s.thr.pending <;> rfl
  · obtain ⟨cr, reissue, expiry, hc, hcr⟩ := countWord_frame s.thr s0.thr.areaUse s0.thr.pc s0.thr.sup s0.thr.uh
    obtain ⟨cr', hskip, hcr'⟩ := clearSkip_frame (s.thr.countWord s0.thr.areaUse s0.thr.pc s0.thr.sup s0.thr.uh) s0.thr.sup
    refine ⟨cr', reissue, expiry, s.thr.fence, .marker, s.thr.sAfter, ?_, fun i h1 h2 => ?_, by rw [if_pos hm]⟩
    · unfold finish
      rw [if_neg (by rw [hm]; decide)]
      dsimp only
      rw [hskip, hc]
      simp [hm]
    · rw [hcr' i h2, hc]; exact hcr i h1

/-- The thread `t`, at `next`, is the thread `r` parked or going on, counted as an issued word. -/
structure Parked (parks : Bool) (next : Word) (r t : Thread) : Prop where
  pc : t.pc = next
  mode : t.mode = (parkRule parks r).1
  fence : t.fence = (parkRule parks r).2
  pending : t.pending = r.pending
  cr : ∀ i : Fin 25, i ≠ crQleft → i ≠ crWp → t.cr[i] = r.cr[i]
  op : t.op = r.op
  rp : t.rp = r.rp
  w : t.w = r.w
  q : t.q = r.q
  p : t.p = r.p
  x : t.x = r.x
  owed : t.owed = r.owed
  areaUse : t.areaUse = r.areaUse
  ucur : t.ucur = r.ucur
  shadow : t.shadow = r.shadow

/-- A returning word's own S parks it too (R44, R377). -/
theorem finish_afterReturn (s0 : State) {s : State} {r : Thread} {mk : Bool} (hs : s.thr = r.afterReturn mk) (next : Word) (sw : Bool) :
    Parked (sw || mk || r.sAfter) next r (finish s0 s next sw false).thr := by
  obtain ⟨sAfter, hafter⟩ := afterReturn_eq r mk
  rw [hafter] at hs
  have hmode : s.thr.mode = .run ∨ s.thr.mode = .marker := by
    rw [hs]
    unfold parkRule
    split
    · split
      · exact Or.inr rfl
      · exact Or.inl rfl
    · exact Or.inl rfl
  obtain ⟨cr, reissue, expiry, fence, mode, sAfter', h, hcr, hpark⟩ := finish_parks s0 s next sw hmode
  have hrule : (mode, fence) = parkRule (sw || mk || r.sAfter) r := by
    rw [hpark, hs, Bool.or_assoc]
    simp only [parkRule, show Thread.pending { r with mode := _, fence := _, sAfter := sAfter } = r.pending from rfl]
    cases sw <;> cases (mk || r.sAfter) <;> cases r.pending <;> rfl
  have hthr : (finish s0 s next sw false).thr = { r with
      cr, reissue, expiry, pc := next, wordPc := s0.thr.pc, held := none, miss := none, relMark := none, sAfter := sAfter'
      mode := (parkRule (sw || mk || r.sAfter) r).1, fence := (parkRule (sw || mk || r.sAfter) r).2 } := by
    rw [h, ← hrule]
    exact (State.setThr_thr s _).trans (by rw [hs])
  rw [hthr]
  exact { pc := rfl, mode := rfl, fence := rfl, pending := rfl, cr := fun i h1 h2 => (hcr i h1 h2).trans (by rw [hs]), op := rfl, rp := rfl
          w := rfl, q := rfl, p := rfl, x := rfl, owed := rfl, areaUse := rfl, ucur := rfl, shadow := rfl }

theorem Parked.status {parks : Bool} {next : Word} {r t : Thread} (h : Parked parks next r t) : t.sup = r.sup ∧ t.ie = r.ie ∧ t.uh = r.uh := by
  have hcr := h.cr crStatus (by decide) (by decide)
  exact ⟨congrArg (·.getLsbD 0) hcr, congrArg (·.getLsbD 1) hcr, congrArg (·.getLsbD 3) hcr⟩

/-- With a result owed whose mark is set a thread that parks stands at its marker, and else goes on with its fence bits clear. -/
theorem Parked.parks {next : Word} {r t : Thread} (h : Parked true next r t) :
    (t.pending = true → t.mode = .marker ∧ t.fence = r.fence) ∧ (t.pending = false → t.mode = .run ∧ t.fence = 0) := by
  rw [h.mode, h.fence, h.pending]
  constructor <;> intro hp <;> simp [parkRule, hp]

theorem Parked.goes {next : Word} {r t : Thread} (h : Parked false next r t) : t.mode = .run ∧ t.fence = r.fence := ⟨h.mode, h.fence⟩

-- ## The thread that a return leaves (R367, R372, R377)

/-- Out of a user-level handler, from the thread `a` before and the thread `t` with the area read back. -/
def userReturned (a t : Thread) : Thread :=
  { t.swapShadow.setStatus a.sup a.ie a.uie false with
    pc := BitVec.ofNat 64 (field a.cr[crUepc] 47 1 * 2), ucur := none, seqr := { t.seqr with paused := t.seqr.paused - 1 } }.setCr
      crUepc (a.cr[crUepc] &&& ~~~(1#64 <<< 48))

/-- At supervisor level. -/
def supReturned (a t : Thread) : Thread :=
  { t.ringEret.setStatus (a.cr[crEpc].getLsbD 48) (a.cr[crEpc].getLsbD 49) a.uie false with
    pc := BitVec.ofNat 64 (field a.cr[crEpc] 47 1 * 2), counted := t.counted.filter (fun c => !c.refused)
    seqr := { t.seqr with paused := t.seqr.paused - 1 } }.setCr crEpc (a.cr[crEpc] &&& ~~~(1#64 <<< 51))

def returned (a t : Thread) : Thread := if a.uh then userReturned a t else supReturned a t

/-- MK, or UMK out of a user-level handler. -/
def returnMark (a : Thread) : Bool := if a.uh then a.cr[crUepc].getLsbD 48 else a.cr[crEpc].getLsbD 51

theorem returnFromException_restored {s u : State} {slot : Fin 8} {loc : Nat} {attr : BitVec 5} (h : restoreArea s slot = .ok loc attr u) :
    returnFromException s slot = .next (u.onSlot slot (fun t => (returned s.slots[slot] t).afterReturn (returnMark s.slots[slot]))) := by
  unfold returnFromException returned returnMark
  rw [h]
  dsimp only
  cases s.slots[slot].uh <;> rfl

theorem swapShadow_low (t : Thread) {i : Fin 24} (h : i.val < 20) : t.swapShadow.w[i] = t.w[i] := by
  have hne {j : Fin 24} (hj : 20 ≤ j.val) : i ≠ j := fun e => by subst e; omega
  exact (vector_set_other _ _ (hne (j := 23) (by decide))).trans ((vector_set_other _ _ (hne (j := 22) (by decide))).trans
    ((vector_set_other _ _ (hne (j := 21) (by decide))).trans (vector_set_other _ _ (hne (j := 20) (by decide)))))

theorem swapShadow_high (t : Thread) (i : Fin 4) : t.swapShadow.w[20 + i.val] = t.shadow[i] ∧ t.swapShadow.shadow[i] = t.w[20 + i.val] := by
  match i with
  | 0 | 1 | 2 | 3 => simp [Thread.swapShadow]

theorem getLsbD_cleared (v : Word) {i : Nat} (h : i < 64) : (v &&& ~~~(1#64 <<< i)).getLsbD i = false := by
  simp [h]

/-- What a return leaves out of a user-level handler. -/
structure UserReturned (a t : Thread) : Prop where
  pc : t.pc = BitVec.ofNat 64 (field a.cr[crUepc] 47 1 * 2)
  sup : t.sup = a.sup
  ie : t.ie = a.ie
  umk : t.cr[crUepc].getLsbD 48 = false
  epc : t.cr[crEpc] = a.cr[crEpc]
  ucur : t.ucur = none
  low : ∀ i : Fin 24, i.val < 20 → t.w[i] = a.w[i]
  swapped : ∀ i : Fin 4, t.w[20 + i.val] = a.shadow[i] ∧ t.shadow[i] = a.w[20 + i.val]

/-- What a return leaves at supervisor level. -/
structure SupReturned (a t : Thread) : Prop where
  pc : t.pc = BitVec.ofNat 64 (field a.cr[crEpc] 47 1 * 2)
  sup : t.sup = a.cr[crEpc].getLsbD 48
  ie : t.ie = a.cr[crEpc].getLsbD 49
  marker : t.cr[crEpc].getLsbD 51 = false
  w : t.w = a.w

theorem setCr_status (t : Thread) {i : Fin 25} (v : Word) (h : crStatus ≠ i) :
    (t.setCr i v).sup = t.sup ∧ (t.setCr i v).ie = t.ie := by
  have hcr : (t.setCr i v).cr[crStatus] = t.cr[crStatus] := setCr_other _ _ h
  exact ⟨congrArg (·.getLsbD 0) hcr, congrArg (·.getLsbD 1) hcr⟩

theorem setCr_uh (t : Thread) {i : Fin 25} (v : Word) (h : crStatus ≠ i) : (t.setCr i v).uh = t.uh :=
  congrArg (·.getLsbD 3) (setCr_other t v h)

section Back

variable {b : List Byte} {a t : Thread} (h : ReadBack b a t)

include h

theorem ReadBack.userReturned : UserReturned a (userReturned a t) := by
  obtain ⟨hsup, hie, -, -⟩ := setStatus_bits t.swapShadow a.sup a.ie a.uie false
  obtain ⟨hs, hi⟩ := setCr_status ({ t.swapShadow.setStatus a.sup a.ie a.uie false with
    pc := BitVec.ofNat 64 (field a.cr[crUepc] 47 1 * 2), ucur := none, seqr := { t.seqr with paused := t.seqr.paused - 1 } })
    (i := crUepc) (a.cr[crUepc] &&& ~~~(1#64 <<< 48)) (by decide)
  exact {
    pc := rfl, sup := hs.trans hsup, ie := hi.trans hie, ucur := rfl
    umk := (congrArg (·.getLsbD 48) (setCr_same ..)).trans (getLsbD_cleared _ (by decide))
    epc := (setCr_other _ _ (by decide)).trans ((setCr_other _ _ (by decide)).trans (congrArg (·[crEpc]) h.cr))
    low := fun i hi => h.w ▸ swapShadow_low t hi
    swapped := fun i => h.w ▸ h.shadow ▸ swapShadow_high t i }

theorem ReadBack.supReturned : SupReturned a (supReturned a t) := by
  obtain ⟨hsup, hie, -, -⟩ := setStatus_bits t.ringEret (a.cr[crEpc].getLsbD 48) (a.cr[crEpc].getLsbD 49) a.uie false
  obtain ⟨hs, hi⟩ := setCr_status ({ t.ringEret.setStatus (a.cr[crEpc].getLsbD 48) (a.cr[crEpc].getLsbD 49) a.uie false with
    pc := BitVec.ofNat 64 (field a.cr[crEpc] 47 1 * 2), counted := t.counted.filter (fun c => !c.refused)
    seqr := { t.seqr with paused := t.seqr.paused - 1 } }) (i := crEpc) (a.cr[crEpc] &&& ~~~(1#64 <<< 51)) (by decide)
  exact {
    pc := rfl, sup := hs.trans hsup, ie := hi.trans hie, w := h.w
    marker := (congrArg (·.getLsbD 51) (setCr_same ..)).trans (getLsbD_cleared _ (by decide)) }

/-- A return keeps what has been read back, and ends the handler. -/
theorem ReadBack.returned : Restored b a (returned a t) ∧ (returned a t).uh = false := by
  obtain ⟨⟨operands, results, fence, owed, areaUse, q, p, x, sAfter⟩, -, -, -⟩ := h
  unfold Returns.returned
  cases a.uh with
  | true =>
    obtain ⟨-, -, -, huh⟩ := setStatus_bits t.swapShadow a.sup a.ie a.uie false
    exact ⟨⟨operands, results, fence, owed, areaUse, q, p, x, sAfter⟩, (setCr_uh _ _ (by decide)).trans huh⟩
  | false =>
    obtain ⟨-, -, -, huh⟩ := setStatus_bits t.ringEret (a.cr[crEpc].getLsbD 48) (a.cr[crEpc].getLsbD 49) a.uie false
    exact ⟨⟨operands, results, fence, owed, areaUse, q, p, x, sAfter⟩, (setCr_uh _ _ (by decide)).trans huh⟩

end Back

-- ## The word (R376, R377)

theorem thr_onSlot {s : State} {slot : Fin 8} (h : s.cur = slot) (f : Thread → Thread) : (s.onSlot slot f).thr = f s.slots[slot] := by
  subst h
  exact onSlot_same s s.cur f

/-- sys.eret's run, where it waits for nothing and its area stands unmarked in the own window. -/
theorem sysEretPlan_returns {s : State} {v : Quad} {off : Nat} (hv : low64 v = 0) (hpending : s.thr.pending = false) (hflight : s.thr.flight = [])
    (hrun : s.thr.seqr.run.any (fun r => r.area.isNone) = false) (hown : classify s.thr.psave = .own off)
    (hamo : amoPending s s.cur (winLoc s off) 1024 = false)
    (hmark : let y := scrub s (winLoc s off) 1024
      firstMark (ownMarks y s.cur y.nextId y.st.marks) (winLoc s off) 1024 = none) :
    let y := scrub s (winLoc s off) 1024
    ∃ u r, sysEretPlan.run s v = .jump u u.thr.pc ∧ u.thr = (returned s.thr r).afterReturn (returnMark s.thr) ∧
      ReadBack (areaRead y s.cur (winLoc s off) 1024) s.thr r ∧ u.st = y.st := by
  have hfenced : areaFenced s s.cur = false := by rw [areaFenced, show classify s.slots[s.cur].psave = .own off from hown]
  have hplace : areaPlace s s.cur s.slots[s.cur].psave false = .ok (winLoc s off) 0b01111#5 s := areaPlace_own_read hown
  have hwaits : returnWaits s s.cur = false := by
    simp only [returnWaits, hfenced, hplace, hamo, show s.slots[s.cur].pending = false from hpending,
      show s.slots[s.cur].flight = [] from hflight, show s.slots[s.cur].seqr.run.any (fun r => r.area.isNone) = false from hrun]
    rfl
  obtain ⟨attr, u, hrestore, hback, hcur, hst⟩ := restoreArea_own hown hmark
  refine ⟨u.onSlot s.cur (fun t => (returned s.thr t).afterReturn (returnMark s.thr)), u.slots[s.cur], ?_, ?_, hback, hst⟩
  · simp only [sysEretPlan, hv, hwaits, returnFromException_restored hrestore, ne_eq, if_false, Bool.false_eq_true]
    rfl
  · exact thr_onSlot hcur _

theorem afterReturn_pc (t : Thread) (mk : Bool) : (t.afterReturn mk).pc = t.pc := by
  obtain ⟨sAfter, h⟩ := afterReturn_eq t mk
  rw [h]

theorem returned_user {a : Thread} (h : a.uh = true) (t : Thread) : returned a t = userReturned a t := if_pos h
theorem returned_sup {a : Thread} (h : a.uh = false) (t : Thread) : returned a t = supReturned a t := if_neg (by rw [h]; decide)

/-- Settles O12: the run reads the area back and returns, and issuing the word parks the thread or lets it go on. -/
theorem eretRestores : Obligations.EretRestores := by
  unfold Obligations.EretRestores
  intro sw g x s off h hv hlevel hpending hflight hrun hown loc hamo y b entry hmark park
  have hreturns := sysEretPlan_returns (s := popped s x) (v := operand s x) (off := off)
  rw [popped_thr, popped_cur, Tiles.popped_winLoc] at hreturns
  obtain ⟨u, r, hjump, hthr, hback, hst⟩ := hreturns hv hpending hflight hrun hown hamo hmark
  have hsup : sysEretPlan.sup s = true → s.thr.sup = true := fun hs => hlevel.resolve_right (by simpa [sysEretPlan] using hs)
  refine ⟨_, issue_jump h hsup nofun rfl rfl rfl hjump, ?_⟩
  have hparked := finish_afterReturn s hthr u.thr.pc sw
  have hpc : u.thr.pc = (returned s.thr r).pc := by rw [hthr, afterReturn_pc]
  generalize hfinal : finish s u u.thr.pc sw false = t at hparked ⊢
  obtain ⟨hsup, hie, huh⟩ := hparked.status
  obtain ⟨hrestored, hended⟩ := hback.returned
  obtain ⟨operands, results, fence, ⟨l, owed⟩, areaUse, q, p, x', sAfter⟩ := hrestored
  have hbytes : bytesOf (scrub (popped s x) loc 1024) = bytesOf s :=
    (scrub_bytes ..).trans (congrArg (fun st : Store => (st.mem, st.full)) (Loads.popped_st s x))
  have hst' : t.st = (scrub (popped s x) loc 1024).st := by rw [← hfinal, finish_st, hst]
  have hlen : b.length = 1024 := (forwardOwn_length ..).trans (Mem.read_length ..)
  have hpark (hs : s.thr.sAfter = false) : (sw || returnMark s.thr || (returned s.thr r).sAfter) = park := by
    rw [sAfter, hs, Bool.or_false]; rfl
  have hparks (hp : park = true) : (sw || returnMark s.thr || (returned s.thr r).sAfter) = true := by
    rw [show (sw || returnMark s.thr) = true from hp]; rfl
  refine ⟨fun hnot => ?sup, fun huser => ?user, huh.trans hended, hparked.q.trans q, hparked.p.trans p, hparked.x.trans x', hparked.areaUse.trans areaUse,
    fun o ho => ?operands, fun o ho => ?results, fun hp => ?parks, fun hp hs => ?goes, fun o ho harea => ?owed, ?mem, ?full⟩
  case sup =>
    rw [returned_sup hnot] at hparked hpc hsup hie
    obtain ⟨pc, sup, ie, marker, w⟩ := hback.supReturned
    exact ⟨hparked.pc.trans (hpc.trans pc), hsup.trans sup, hie.trans ie, by rw [hparked.cr crEpc (by decide) (by decide)]; exact marker,
      hparked.w.trans w⟩
  case user =>
    rw [returned_user huser] at hparked hpc hsup hie
    obtain ⟨pc, sup, ie, umk, epc, ucur, low, swapped⟩ := hback.userReturned
    refine ⟨hparked.pc.trans (hpc.trans pc), hsup.trans sup, hie.trans ie, by rw [hparked.cr crUepc (by decide) (by decide)]; exact umk,
      (hparked.cr crEpc (by decide) (by decide)).trans epc, hparked.ucur.trans ucur, ?_, ?_⟩
    · rw [hparked.w]; exact low
    · rw [hparked.w, hparked.shadow]; exact swapped
  case operands => exact (congrArg (·[o.1.fin]) hparked.op).trans ((operands o ho).trans (readOperand_eq b o))
  case results => exact (congrArg (·[o.1.fin]) hparked.rp).trans ((results o ho).trans (readResult_eq b o))
  case parks =>
    rw [hparks hp] at hparked
    exact fence ▸ hparked.parks
  case goes =>
    rw [hpark hs, hp] at hparked
    exact fence ▸ hparked.goes
  case owed =>
    rw [hparked.owed, owed] at ho
    exact remarked_marked hlen ho harea
  case mem => rw [hst']; exact congrArg Prod.fst hbytes
  case full => rw [hst']; exact congrArg Prod.snd hbytes

end Sys2Proof.Proofs.Returns
end

section
/-! PROOF. The words whose results depend on their operands alone: the alu and mul operations (R202, R203), the predicate operations
(R213), and the transfers with their faults (R214 to R217). -/

namespace Sys2Proof.Proofs.Scalar

open Sys2Proof Sys2Proof.Machine Sys2Proof.Safety Sys2Proof.Slice0 Sys2Proof.Proofs.Words Sys2Proof.Proofs.SystemWords Sys2Proof.Proofs.Tracks
  Sys2Proof.Proofs.Streams

-- ## Words that send a fixed-latency result (R22, R36, R41)

/-- A result that a word sent is under way once the word has issued. -/
theorem sends_of_issued {lat : Nat} {ports : List (RPort × Quad)} {s s' s1 t : State} {sw : Bool} {x : Source} (h : Sends lat ports s' s1)
    (hflight : s'.thr.flight = s.thr.flight) (hrot : s'.thr.rot = s.thr.rot) (hid : s'.nextId = s.nextId) (hk : Keeps (issued sw x) s1 t) :
    Sends lat ports s t := by
  have hkept : t.thr.flight = s1.thr.flight := hk.2 .flight (not_mem_issued (p := .flight) (by decide) nofun sw x)
  unfold Sends at h ⊢
  rw [hkept, h, hflight, hrot, hid]

/-- A word whose run sends a result that nothing holds is done. -/
theorem bothDone_sends {i : Words} {p : Plan} (hi : Plans i p) {lat : Nat} {ports : List (RPort × Quad)} {x : Source} {s s' : State} {ex : List Part}
    (hrun : p.run (popped s x) (operand s x) = sendFixed s' lat ports) (hk : Keeps ex (popped s x) s')
    (hex : ∀ p ∈ [.flight, .rot, .ids, .mode], p ∉ ex) (hhold : s'.thr.orderHold lat (ports.map (·.1)) = false) (sw : Bool) (g : Guard) :
    BothDone i sw g x x s (ex ++ [.flight, .ids]) (fun _ t => Sends lat ports s t) := by
  obtain ⟨s1, hsend, hsends, hkeeps, -⟩ := sendFixed_done s' lat ports hhold
  have hflight : s'.thr.flight = s.thr.flight := (hk.2 .flight (hex _ (by decide))).trans (by rw [popped_thr])
  have hrot : s'.thr.rot = s.thr.rot := (hk.2 .rot (hex _ (by decide))).1.trans (by rw [popped_thr])
  have hid : s'.nextId = s.nextId := (hk.2 .ids (hex _ (by decide))).1.trans (popped_nextId s x)
  refine bothDone_of_run hi.short hi.long hi.simple (hrun.trans hsend) (hk.trans hkeeps (fun _ h => List.mem_append_left _ h)
    (fun _ h => List.mem_append_right _ h)) (by simpa using hex .mode (by decide)) fun next hm => ?_
  exact sends_of_issued (x := x) hsends hflight hrot hid (finish_keeps s s1 next sw x hm)

/-- An operation of its operands alone, whose results nothing holds. -/
theorem bothDone_values {i : Words} {o : Op} {lat : Nat} {f : Thread → Quad → Word ⊕ List (RPort × Quad)}
    (hi : Plans i ((valuePlan lat f).covered o)) {ports : Source → List (RPort × Quad)} {s : State}
    (hf : ∀ y, f s.thr (operand s y) = .inr (ports y)) (hhold : ∀ y, s.thr.orderHold lat ((ports y).map (·.1)) = false)
    (sw : Bool) (g : Guard) (c x : Source) : BothDone i sw g c x s [.flight, .ids] (fun y t => Sends lat (ports y) s t) := by
  have hboth (y : Source) : BothDone i sw g y y s ([] ++ [.flight, .ids]) (fun _ t => Sends lat (ports y) s t) := by
    refine bothDone_sends hi ?_ (keeps_refl _ _) (by simp) (by rw [popped_thr]; exact hhold y) sw g
    simp only [Plan.covered, valuePlan, popped_thr, hf]
  exact ⟨(hboth c).1, (hboth x).2⟩

/-- Both words of an operation may be said to change more. -/
theorem bothDone_mono {i : Words} {sw : Bool} {g : Guard} {c x : Source} {s : State} {ex ex' : List Part} {P : Source → State → Prop}
    (h : BothDone i sw g c x s ex P) (hsub : ∀ p ∈ ex, p ∈ ex') : BothDone i sw g c x s ex' P :=
  ⟨fun hc => Registers.done_mono (h.1 hc) fun p hp => List.mem_append_right _ (hsub p hp),
    fun hx => Registers.done_mono (h.2 hx) fun p hp => List.mem_append_right _ (hsub p hp)⟩

-- ## Integer operations (R202)

theorem b2w_decide (p : Prop) [Decidable p] : b2w (decide p) = if p then 1 else 0 := by
  by_cases h : p <;> simp [b2w, h]

/-- Each alu operation's plan computes the value that R202 gives. -/
theorem aluOps_plans : ∀ op ∈ aluOps, ∃ f o, Plans op.1 ((aluPlan f).covered o) ∧ ∀ a b, f a b = op.2 a b := by
  simp only [aluOps, List.forall_mem_cons, List.not_mem_nil, false_implies, implies_true, and_true]
  refine ⟨?add, ?sub, ?and, ?or, ?xor, ?shl, ?shr, ?sra, ?slt, ?sltu, ?seq, ?min, ?max, ?minu, ?maxu, ?sxb, ?sxh, ?clz, ?popc⟩
  all_goals refine ⟨_, _, ⟨fun _ _ _ => rfl, fun _ _ _ _ => rfl, ⟨rfl, rfl⟩, rfl, rfl, rfl⟩, fun a b => ?_⟩
  case slt | sltu | seq => exact b2w_decide _
  case min | max => simp only [BitVec.slt, decide_eq_true_eq]
  case minu | maxu => simp only [BitVec.ult, decide_eq_true_eq]
  all_goals rfl

/-- The highest set bit stands just below the leading zeros. -/
theorem clzFrom_bounds {v n : Nat} (h : v < 2 ^ n) :
    clzFrom v n ≤ n ∧ v < 2 ^ (n - clzFrom v n) ∧ (v ≠ 0 → 2 ^ (n - 1 - clzFrom v n) ≤ v) := by
  induction n with
  | zero => exact ⟨Nat.le_refl _, h, fun hv => Nat.one_le_iff_ne_zero.mpr hv⟩
  | succ n ih =>
    rw [clzFrom]
    cases hbit : v.testBit n with
    | true => exact ⟨Nat.zero_le _, h, fun _ => Nat.ge_two_pow_of_testBit hbit⟩
    | false =>
      have hlow : v < 2 ^ n := by
        by_contra hge
        rw [Nat.testBit_eq_decide_div_mod_eq, decide_eq_false_iff_not] at hbit
        have hdiv : v / 2 ^ n = 1 := Nat.div_eq_of_lt_le (by omega) (by rw [Nat.pow_succ] at h; omega)
        omega
      obtain ⟨hle, hlt, hpos⟩ := ih hlow
      rw [if_neg (by decide)]
      refine ⟨by omega, ?_, fun hv => ?_⟩
      · rw [show n + 1 - (1 + clzFrom v n) = n - clzFrom v n by omega]; exact hlt
      · rw [show n + 1 - 1 - (1 + clzFrom v n) = n - 1 - clzFrom v n by omega]; exact hpos hv

/-- Settles O3: each operation's plan sends its value, and clz counts down to the highest set bit. -/
theorem aluResults : Obligations.AluResults := by
  unfold Obligations.AluResults
  refine ⟨fun op hop sw g c x s hhold => ?_, fun a => ?clz⟩
  case clz =>
    obtain ⟨hle, hlt, hpos⟩ := clzFrom_bounds a.isLt
    exact ⟨hle, hlt, fun ha => hpos fun h => ha (BitVec.eq_of_toNat_eq h)⟩
  obtain ⟨f, o, hplans, hvalue⟩ := aluOps_plans op hop
  exact bothDone_values hplans (fun y => by rw [hvalue]) (fun _ => hhold) sw g c x

-- ## Products and divisions (R203)

theorem divS_eq (a b : Word) : divS a b = (quot a b, rest a b) := by
  unfold divS quot rest
  by_cases h : b = 0#64 <;> simp [h]

theorem divU_eq (a b : Word) : divU a b = (quotU a b, restU a b) := by
  unfold divU quotU restU
  by_cases h : b = 0#64 <;> simp [h]

/-- Each mul operation's plan computes the values that R203 gives. -/
theorem mulOps_plans : ∀ op ∈ mulOps, ∃ f o, Plans op.1 ((mulPlan op.2.1 f).covered o) ∧ ∀ a b c, f a b c = op.2.2 a b c := by
  simp only [mulOps, List.forall_mem_cons, List.not_mem_nil, false_implies, implies_true, and_true]
  refine ⟨?mul, ?mulh, ?mulhu, ?mad, ?div, ?divu, ?rem, ?remu⟩
  all_goals refine ⟨_, _, ⟨fun _ _ _ => rfl, fun _ _ _ _ => rfl, ⟨rfl, rfl⟩, rfl, rfl, rfl⟩, fun a b c => ?_⟩
  case div => exact divS_eq a b
  case divu => exact divU_eq a b
  case rem => exact congrArg Prod.swap (divS_eq a b)
  case remu => exact congrArg Prod.swap (divU_eq a b)
  all_goals rfl

/-- Settles O4: each operation's plan sends its two values. -/
theorem mulResults : Obligations.MulResults := by
  unfold Obligations.MulResults
  intro op hop sw g c x s hhold
  obtain ⟨f, o, hplans, hvalue⟩ := mulOps_plans op hop
  exact bothDone_values hplans (fun y => by rw [hvalue]) (fun _ => hhold) sw g c x

-- ## Faults before any effect (R52)

theorem popped_restored (s : State) (x : Source) : (popped s x).onCore (fun k => { k with streams := s.core.streams }) = s := by
  obtain ⟨l, h⟩ := Tiles.popped_streams s x
  rw [h]
  rfl

/-- A word whose run takes a precise fault has no other effect, whatever its source. -/
theorem issue_takesPrecise {len : Nat} {sw : Bool} {g : Guard} {x : Source} {p : Plan} {s : State} {cause : Word} (hp : Simple p)
    (h : CanIssue g x s) (hrun : p.run (popped s x) (operand s x) = .trap (popped s x) cause) :
    TakesPrecise (issue len sw g x p s) s cause := by
  unfold TakesPrecise
  rw [issue_trap h (hp.admits s).sup ((hp.admits s).feat _) (by rw [hp.miss]) (by rw [hp.fault7]) (by rw [hp.held7]) hrun, popped_restored]

-- ## Predicates (R213)

theorem prdOps_plans : ∀ op ∈ prdOps, ∃ o, Plans op.1 ((prdPlan op.2).covered o) := by
  simp only [prdOps, List.forall_mem_cons, List.not_mem_nil, false_implies, implies_true, and_true]
  and_intros
  all_goals exact ⟨_, ⟨fun _ _ _ => rfl, fun _ _ _ _ => rfl, ⟨rfl, rfl⟩, rfl, rfl, rfl⟩⟩

/-- The three predicates of a trigger value, the one written first. -/
theorem predicateValue_fields {v : Word} {d a b : Fin 16} (h : v = BitVec.ofNat 64 (d.val + 16 * a.val + 256 * b.val)) :
    field v 63 12 = 0 ∧ Fin.ofNat 16 (field v 3 0) = d ∧ Fin.ofNat 16 (field v 7 4) = a ∧ Fin.ofNat 16 (field v 11 8) = b := by
  have hd := d.isLt
  have ha := a.isLt
  have hb := b.isLt
  have hlt : d.val + 16 * a.val + 256 * b.val < 2 ^ 64 := by omega
  simp only [h, field_ofNat hlt, Fin.ext_iff, Fin.val_ofNat]
  omega

theorem prdPlan_writes {f : Bool → Bool → Bool} {s : State} {q : Quad} {d a b : Fin 16}
    (h : low64 q = BitVec.ofNat 64 (d.val + 16 * a.val + 256 * b.val)) :
    (prdPlan f).run s q = .done (s.setThr (s.thr.setPred d (f (s.thr.pred a) (s.thr.pred b)))) := by
  obtain ⟨hhigh, hd, ha, hb⟩ := predicateValue_fields h
  simp only [prdPlan, hhigh, hd, ha, hb, ne_eq, not_true_eq_false, if_false]

theorem prdPlan_reserved {f : Bool → Bool → Bool} {s : State} {q : Quad} (h : field (low64 q) 63 12 ≠ 0) :
    (prdPlan f).run s q = .trap s reservedPort := if_pos h

/-- Settles O5: the plan writes the predicate that the trigger value names first, or takes the fault before any effect. -/
theorem predicateResults : Obligations.PredicateResults := by
  unfold Obligations.PredicateResults
  refine ⟨fun op hop sw g c x d a b s => ?writes, fun op hop sw g c x s => ?reserved⟩
  case writes =>
    obtain ⟨o, hplans⟩ := prdOps_plans op hop
    have hboth {y : Source} (hv : operand64 s y = BitVec.ofNat 64 (d.val + 16 * a.val + 256 * b.val)) : BothDone op.1 sw g y y s [.p d]
        (fun _ t => t.thr.pred d = (d.val == 0 || op.2 (s.thr.pred a) (s.thr.pred b))) := by
      refine bothDone_of_run hplans.short hplans.long hplans.simple (prdPlan_writes hv) (setPred_keeps ..) (by simp) fun next hm => ?_
      have hkept := (finish_keeps s _ next sw y hm).2 (.p d) (not_mem_issued (p := .p d) (by simp) nofun sw y)
      rw [hkept, State.setThr_thr, setPred_same, popped_thr]
    exact ⟨fun h hv => (hboth hv).1 h, fun h hv => (hboth hv).2 h⟩
  case reserved =>
    obtain ⟨o, hplans⟩ := prdOps_plans op hop
    refine ⟨fun h hv => ?_, fun h hv => ?_⟩
    · rw [hplans.short]; exact issue_takesPrecise hplans.simple h (prdPlan_reserved hv)
    · rw [hplans.long]; exact issue_takesPrecise hplans.simple h (prdPlan_reserved hv)

-- ## Transfers (R214 to R217)

theorem ctlJmpPlan_simple : Simple ctlJmpPlan := ⟨⟨rfl, rfl⟩, rfl, rfl, rfl⟩
theorem ctlJrelPlan_simple : Simple ctlJrelPlan := ⟨⟨rfl, rfl⟩, rfl, rfl, rfl⟩
theorem ctlCallPlan_simple (len : Nat) : Simple (ctlCallPlan len) := ⟨⟨rfl, rfl⟩, rfl, rfl, rfl⟩
theorem ctlRetPlan_simple : Simple ctlRetPlan := ⟨⟨rfl, rfl⟩, rfl, rfl, rfl⟩

section Run

variable {s : State} {q : Quad}

theorem ctlJmpPlan_even (h : (low64 q).getLsbD 0 = false) : ctlJmpPlan.run s q = .jump s (low64 q) := if_neg (ne_true_of_eq_false h)
theorem ctlJmpPlan_odd (h : (low64 q).getLsbD 0 = true) : ctlJmpPlan.run s q = .trap s (causeVa 6 2 0 (low64 q)) := if_pos h

/-- ctl.call leaves the next word's address in lk. -/
def linked (s : State) (len : Nat) : State := s.setThr (s.thr.setOp .lk (quad (s.thr.pc + BitVec.ofNat 64 len)))

theorem ctlCallPlan_even (len : Nat) (h : (low64 q).getLsbD 0 = false) : (ctlCallPlan len).run s q = .jump (linked s len) (low64 q) :=
  if_neg (ne_true_of_eq_false h)
theorem ctlCallPlan_odd (len : Nat) (h : (low64 q).getLsbD 0 = true) : (ctlCallPlan len).run s q = .trap s (causeVa 6 2 0 (low64 q)) := if_pos h

theorem ctlRetPlan_reserved (h : low64 q ≠ 0) : ctlRetPlan.run s q = .trap s reservedPort := if_pos h
theorem ctlRetPlan_even (h : low64 q = 0) (hl : s.thr.lk.getLsbD 0 = false) : ctlRetPlan.run s q = .jump s s.thr.lk :=
  (if_neg (not_not.mpr h)).trans (if_neg (ne_true_of_eq_false hl))
theorem ctlRetPlan_odd (h : low64 q = 0) (hl : s.thr.lk.getLsbD 0 = true) : ctlRetPlan.run s q = .trap s (causeVa 6 2 0 s.thr.lk) :=
  (if_neg (not_not.mpr h)).trans (if_pos hl)

theorem linked_lk (s : State) (len : Nat) : (linked s len).thr.lk = s.thr.pc + BitVec.ofNat 64 len := by
  simp [linked, Thread.lk, Thread.opw, Thread.opq, OPort.wide, low64, quad]

end Run

/-- A word transfers to `dest` within the parts `ex` besides what issuing may change. -/
def Goes (sw : Bool) (s : State) (x : Source) (ex : List Part) (dest : Word) (P : State → Prop) (o : Host.Outcome State Fault Refusal) : Prop :=
  Completes o (fun t => Passed sw dest t ∧ Keeps (issued sw x ++ ex) s t ∧ P t)

section Word

variable {len : Nat} {sw : Bool} {g : Guard} {x : Source} {s : State} (h : CanIssue g x s)

include h

/-- A word whose run transfers goes to its target. -/
theorem issue_goes {p : Plan} {s1 : State} {dest : Word} {ex : List Part} {P : State → Prop} (hp : Simple p)
    (hrun : p.run (popped s x) (operand s x) = .jump s1 dest) (hk : Keeps ex (popped s x) s1) (hex : Part.mode ∉ ex)
    (hP : ∀ t, Keeps (issued sw x) s1 t → P t) : Goes sw s x ex dest P (issue len sw g x p s) := by
  have hmode : s1.thr.mode = .run := by rw [hk.2 .mode hex, popped_thr, h.runs]
  obtain ⟨hpassed, hkept⟩ := finish_done sw x dest hk hmode
  exact ⟨_, issue_jump h (hp.admits s).sup ((hp.admits s).feat _) (by rw [hp.miss]) (by rw [hp.fault7]) (by rw [hp.held7]) hrun, hpassed, hkept,
    hP _ (finish_keeps s s1 dest sw x hmode)⟩

/-- The same for one that changes nothing but the pc. -/
theorem issue_goes_only {p : Plan} {dest : Word} (hp : Simple p) (hrun : p.run (popped s x) (operand s x) = .jump (popped s x) dest) :
    Goes sw s x [] dest (fun _ => True) (issue len sw g x p s) :=
  issue_goes h hp hrun (keeps_refl _ _) (by simp) fun _ _ => trivial

theorem ctlJmp_goes (ht : (operand64 s x).getLsbD 0 = false) : Goes sw s x [] (operand64 s x) (fun _ => True) (issue len sw g x ctlJmpPlan s) :=
  issue_goes_only h ctlJmpPlan_simple (ctlJmpPlan_even ht)

theorem ctlJrel_goes : Goes sw s x [] (s.thr.pc + 2 * operand64 s x) (fun _ => True) (issue len sw g x ctlJrelPlan s) := by
  have htwice : (2 : Word) * operand64 s x = operand64 s x <<< 1 := by
    rw [BitVec.shiftLeft_eq_mul_twoPow, BitVec.mul_comm]; rfl
  rw [htwice, ← popped_thr s x]
  exact issue_goes_only h ctlJrelPlan_simple rfl

theorem ctlCall_goes (ht : (operand64 s x).getLsbD 0 = false) : Goes sw s x [.op .lk] (operand64 s x)
    (fun t => t.thr.lk = s.thr.pc + BitVec.ofNat 64 len) (issue len sw g x (ctlCallPlan len) s) := by
  refine issue_goes h (ctlCallPlan_simple len) (ctlCallPlan_even len ht) (setOp_keeps ..) (by simp) fun t ht => ?_
  have hlk : t.thr.opq .lk = (linked (popped s x) len).thr.opq .lk := ht.2 (.op .lk) (not_mem_issued (p := .op .lk) (by decide) nofun sw x)
  rw [Thread.lk, Thread.opw, hlk, ← popped_thr s x]
  exact linked_lk ..

theorem ctlRet_goes (hv : operand64 s x = 0) (hl : s.thr.lk.getLsbD 0 = false) :
    Goes sw s x [] s.thr.lk (fun _ => True) (issue len sw g x ctlRetPlan s) := by
  rw [← popped_thr s x] at hl ⊢
  exact issue_goes_only h ctlRetPlan_simple (ctlRetPlan_even hv hl)

theorem ctlJmp_faults (ht : (operand64 s x).getLsbD 0 = true) :
    TakesPrecise (issue len sw g x ctlJmpPlan s) s (causeVa 6 2 0 (operand64 s x)) := issue_takesPrecise ctlJmpPlan_simple h (ctlJmpPlan_odd ht)

theorem ctlCall_faults (n : Nat) (ht : (operand64 s x).getLsbD 0 = true) :
    TakesPrecise (issue len sw g x (ctlCallPlan n) s) s (causeVa 6 2 0 (operand64 s x)) :=
  issue_takesPrecise (ctlCallPlan_simple n) h (ctlCallPlan_odd n ht)

theorem ctlRet_reserved (hv : operand64 s x ≠ 0) : TakesPrecise (issue len sw g x ctlRetPlan s) s reservedPort :=
  issue_takesPrecise ctlRetPlan_simple h (ctlRetPlan_reserved hv)

theorem ctlRet_faults (hv : operand64 s x = 0) (hl : s.thr.lk.getLsbD 0 = true) :
    TakesPrecise (issue len sw g x ctlRetPlan s) s (causeVa 6 2 0 s.thr.lk) := by
  rw [← popped_thr s x] at hl ⊢
  exact issue_takesPrecise ctlRetPlan_simple h (ctlRetPlan_odd hv hl)

end Word

/-- Settles O6: each transfer's run goes to its target, and ctl.call's also writes lk. -/
theorem transfersGoToTarget : Obligations.TransfersGoToTarget := by
  unfold Obligations.TransfersGoToTarget
  exact fun _ _ _ _ _ =>
    ⟨fun h => ⟨ctlJmp_goes h, ctlJrel_goes h, ctlCall_goes h, ctlRet_goes h⟩,
      fun h => ⟨ctlJmp_goes h, ctlJrel_goes h, ctlCall_goes h, ctlRet_goes h⟩⟩

/-- Settles O7: each transfer's run checks its target, and ctl.ret its trigger value, before any effect. -/
theorem oddTargetsFault : Obligations.OddTargetsFault := by
  unfold Obligations.OddTargetsFault
  exact fun _ _ _ _ _ =>
    ⟨fun h => ⟨fun ht => ⟨ctlJmp_faults h ht, ctlCall_faults h 2 ht⟩, ctlRet_reserved h, ctlRet_faults h⟩,
      fun h => ⟨fun ht => ⟨ctlJmp_faults h ht, ctlCall_faults h 4 ht⟩, ctlRet_reserved h, ctlRet_faults h⟩⟩

end Sys2Proof.Proofs.Scalar
end

section
/-! PROOF. The index operations (R204 to R212): what the reading of a shape's entry leaves alone, and the values that idx.adr, idx.bnd and
idx.tix send. -/

namespace Sys2Proof.Proofs.Index

open Sys2Proof Sys2Proof.Machine Sys2Proof.Safety Sys2Proof.Slice0 Sys2Proof.Proofs.Words Sys2Proof.Proofs.Loads Sys2Proof.Proofs.Translation
  Sys2Proof.Proofs.Tracks Sys2Proof.Proofs.Scalar

-- ## A shape's entry is read (R208)

/-- What the reading of a shape's entry may change. -/
def shapeParts : List Part := walks ++ [.lines, .errors, .dbg, .floor, .releases, .shapes]

/-- A word's read at its ordering point for the current slot (R81, R139, R297). -/
theorem homeRead_keeps (s : State) (tag loc n : Nat) : Keeps (sliceParts ++ [.floor, .releases]) s (homeRead s s.cur tag loc n).2 := by
  have hscrub := pointScrub_keeps s loc n
  have hgains (y : State) (m : Moment) : Keeps [.floor, .releases] y (gains y y.cur tag loc m) := Tiles.set_floor_relReads_keeps y _ _
  unfold homeRead
  rw [← hscrub.1]
  exact hscrub.trans (hgains _ _) (fun _ h => List.mem_append_left _ h) (fun _ h => List.mem_append_right _ h)

theorem shapeWords_keeps {s : State} {slot : Fin 8} (h : s.cur = slot) (va : Word) (loc n : Nat) (acc : List Word) :
    Keeps (sliceParts ++ [.floor, .releases]) s (shapeWords s slot va loc n acc).2 := by
  induction n generalizing s acc with
  | zero => exact keeps_refl _ s
  | succ n ih =>
    subst h
    have hread := homeRead_keeps s s.nextId (loc + 8 * (15 - n)) 8
    unfold shapeWords
    dsimp only
    split
    case h_1 heq => rw [heq] at hread; exact hread
    case h_2 heq => rw [heq] at hread; exact keeps_trans hread (ih hread.1 _)

/-- Where a shape's words are at hand, the core's cache held them, or a translation without a walk and the words' reads are behind them. -/
theorem shapeRead_keeps {s s1 : State} {va : Word} {ws : List Word} (h : ∀ k, shapeRead s va k = k s1 ws) : Keeps shapeParts s s1 := by
  have hdone := h (fun t _ => .done t)
  unfold shapeRead at hdone
  dsimp only at hdone
  split at hdone
  case h_1 => cases hdone; exact keeps_refl _ s
  case h_2 =>
    split at hdone
    case h_1 => cases hdone
    case h_2 hwalk =>
      split at hdone
      case h_1 => cases hdone
      case h_2 => cases hdone
      case h_3 loc attr s2 htr =>
        have htlbs := (translate_step (w := { s.thr.walker with user := false }) rfl hwalk htr).keeps
        have hwords := shapeWords_keeps (s := s2) rfl va loc 16 []
        split at hdone
        case isTrue => cases hdone
        case isFalse =>
          split at hdone
          case isTrue => cases hdone
          case isFalse =>
            split at hdone
            case h_1 => cases hdone
            case h_2 heq =>
              cases hdone
              rw [heq] at hwords
              have hread := htlbs.trans hwords (c := shapeParts) (by decide) (by decide)
              exact hread.trans (Registers.set_shapes_keeps _ _) (fun _ h => h) (by decide)

/-- What the reading leaves alone decides what holds a result (R41, R371). -/
theorem orderHold_kept {s t : State} (h : Keeps shapeParts s t) (lat : Nat) (ports : List RPort) :
    t.thr.orderHold lat ports = s.thr.orderHold lat ports := by
  have hflight : t.thr.flight = s.thr.flight := h.2 .flight (by decide)
  have howed : t.thr.owed = s.thr.owed := h.2 .owed (by decide)
  obtain ⟨hrot, -⟩ := h.2 .rot (by decide)
  obtain ⟨huse, hold, hlate⟩ := h.2 .areaUse (by decide)
  simp only [Thread.orderHold, Thread.reaches, Thread.inUse, hflight, howed, hrot, huse, hold, hlate]

-- ## The words

theorem idxTix_plans : Plans (.idxTixShort, .idxTixLong) (idxTixPlan.covered .idxTix) :=
  ⟨fun _ _ _ => rfl, fun _ _ _ _ => rfl, ⟨rfl, rfl⟩, rfl, rfl, rfl⟩

/-- With its operands in range and its shape at hand, idx.tix sends the coordinates (R204, R210). -/
theorem idxTixPlan_sends {s s1 : State} {q : Quad} {ws : List Word} {dims : List (Nat × Nat × Nat)} (hhigh : field (s.thr.opw .idxSh) 63 12 = 0)
    (hshape : (s.thr.opw .idxSh).toNat < field s.thr.cr[crShape] 60 48) (hi : (low64 q).toNat < 2 ^ 40)
    (hread : ∀ k, shapeRead s (BitVec.ofNat 64 (field s.thr.cr[crShape] 47 7 * 128 + 128 * (s.thr.opw .idxSh).toNat)) k = k s1 ws)
    (hdims : shapeDims ws = some dims) : idxTixPlan.run s q = sendFixed s1 2 (tixPorts (low64 q).toNat dims) := by
  have hrange : ¬(field (s.thr.opw .idxSh) 63 12 ≠ 0 ∨ field s.thr.cr[crShape] 60 48 ≤ (s.thr.opw .idxSh).toNat) := by
    rintro (h | h)
    · exact h hhigh
    · exact Nat.not_le.mpr hshape h
  simp only [idxTixPlan, if_neg hrange, if_neg (Nat.not_le.mpr hi), hread, hdims]
  rfl

theorem idxAdr_plans : Plans (.idxAdrShort, .idxAdrLong) (idxAdrPlan.covered .idxAdr) :=
  ⟨fun _ _ _ => rfl, fun _ _ _ _ => rfl, ⟨rfl, rfl⟩, rfl, rfl, rfl⟩
theorem idxBnd_plans : Plans (.idxBndShort, .idxBndLong) (idxBndPlan.covered .idxBnd) :=
  ⟨fun _ _ _ => rfl, fun _ _ _ _ => rfl, ⟨rfl, rfl⟩, rfl, rfl, rfl⟩

/-- The values of idx.adr and idx.bnd are those of R204 and R212 where idx.b is in range. -/
theorem idxOps_plans : ∀ op ∈ idxOps, ∃ f o, Plans op.1 ((valuePlan 2 f).covered o) ∧
    ∀ (t : Thread) v, op.2.1 (t.opw .idxB) → f t v = .inr [(.idxO0, quad (op.2.2 (low64 v) (t.opw .idxB)))] := by
  simp only [idxOps, List.forall_mem_cons, List.not_mem_nil, false_implies, implies_true, and_true]
  refine ⟨⟨_, _, idxAdr_plans, fun t v hb => if_neg (not_not.mpr hb)⟩, ⟨_, _, idxBnd_plans, fun t v hb => ?_⟩⟩
  have hpos : ¬(t.opw .idxB).sle 0#64 = true := by simpa [BitVec.sle] using hb
  refine (if_neg hpos).trans ?_
  simp only [BitVec.slt, BitVec.sle, decide_eq_true_eq]
  rfl

/-- Settles O8: idx.adr and idx.bnd send what their operands give, and idx.tix what the shape's entry gives. -/
theorem indexResults : Obligations.IndexResults := by
  unfold Obligations.IndexResults
  refine ⟨fun op hop sw g c x s hb hhold => ?values, ?tix⟩
  case values =>
    obtain ⟨f, o, hplans, hvalue⟩ := idxOps_plans op hop
    exact bothDone_values hplans (fun y => hvalue _ _ hb) (fun _ => hhold) sw g c x
  case tix =>
    intro sw g x s s1 ws dims va hhigh hshape hi hread hdims hhold
    have hkeeps := shapeRead_keeps hread
    have hhold1 : s1.thr.orderHold 2 [.idxO0, .idxO1, .idxO2, .idxO3, .idxO4] = false := by rw [orderHold_kept hkeeps, popped_thr]; exact hhold
    rw [← popped_thr s x] at hhigh hshape
    have hrun := idxTixPlan_sends hhigh hshape hi (by rw [popped_thr]; exact hread) hdims
    exact bothDone_mono (bothDone_sends idxTix_plans hrun hkeeps (by decide) hhold1 sw g) (by decide)

end Sys2Proof.Proofs.Index
end

section
/-! PROOF. ctl.trap (R218): what the accesses of a save area leave of the control registers, the slot at its vector out of a user-level
handler (R372), and the exception that the word takes. -/

namespace Sys2Proof.Proofs.Traps

open Sys2Proof Sys2Proof.Machine Sys2Proof.Safety Sys2Proof.Slice0 Sys2Proof.Proofs.Words Sys2Proof.Proofs.Results Sys2Proof.Proofs.Fetch
  Sys2Proof.Proofs.Translation Sys2Proof.Proofs.SystemWords Sys2Proof.Proofs.Engines Sys2Proof.Proofs.Streams Sys2Proof.Proofs.Areas
  Sys2Proof.Proofs.Returns

-- ## What keeps the control registers

/-- The current slot is the same, and of every slot all control registers but cr.mon, which a wake clears (R378). -/
structure CrKept (s t : State) : Prop where
  cur : t.cur = s.cur
  cr : ∀ (i : Fin 8) (j : Fin 25), j ≠ crMon → t.slots[i].cr[j] = s.slots[i].cr[j]

theorem CrKept.refl (s : State) : CrKept s s := ⟨rfl, fun _ _ _ => rfl⟩

theorem CrKept.trans {s t u : State} (h1 : CrKept s t) (h2 : CrKept t u) : CrKept s u :=
  ⟨h2.cur.trans h1.cur, fun i j hj => (h2.cr i j hj).trans (h1.cr i j hj)⟩

theorem CrKept.foldl {α : Type} {f : State → α → State} (h : ∀ s a, CrKept s (f s a)) (l : List α) (s : State) : CrKept s (l.foldl f s) := by
  induction l generalizing s with
  | nil => exact .refl s
  | cons a l ih => exact (h s a).trans (ih _)

theorem crKept_of_slots {s t : State} (hcur : t.cur = s.cur) (hslots : t.slots = s.slots) : CrKept s t := ⟨hcur, fun _ _ _ => by rw [hslots]⟩

theorem onSt_crKept (s : State) (f : Store → Store) : CrKept s (s.onSt f) := crKept_of_slots rfl rfl

theorem sliceStep_crKept {s t : State} (h : SliceStep s t) : CrKept s t := crKept_of_slots h.cur h.slots

theorem sliceChange_crKept {s t : State} (h : SliceChange s t) : CrKept s t := by
  obtain ⟨_, _, _, _, _, _, _, rfl⟩ := h
  exact crKept_of_slots rfl rfl

theorem onSlot_crKept (s : State) (slot : Fin 8) {f : Thread → Thread} (h : ∀ (t : Thread) (j : Fin 25), j ≠ crMon → (f t).cr[j] = t.cr[j]) :
    CrKept s (s.onSlot slot f) := by
  refine ⟨rfl, fun i j hj => ?_⟩
  by_cases hi : i = slot
  · subst hi; rw [onSlot_same]; exact h _ j hj
  · rw [onSlot_other s f hi]

-- ## The accesses of a save area (R85, R88, R183, R298)

theorem deliver_cr (t : Thread) (v : PortVal) : (t.deliver v).cr = t.cr := by
  obtain ⟨_, _, _, _, h⟩ := deliver_eq t v
  rw [h]

theorem unpark_cr (t : Thread) : t.unpark.cr = t.cr := by
  unfold Thread.unpark
  split
  · rw [enterMarker_eq]
  · rfl

theorem wakeSlot_crKept (s : State) (slot : Fin 8) (reason : Nat) : CrKept s (wakeSlot s slot reason) := by
  unfold wakeSlot
  dsimp only
  split
  · refine onSlot_crKept s slot (f := fun t => ((t.deliver { port := .sysO, val := BitVec.ofNat 128 reason, mark := none }).setCr crMon
      (t.cr[crMon] &&& ~~~(1#64))).unpark) fun t j hj => ?_
    rw [unpark_cr, setCr_other _ _ hj, deliver_cr]
  · exact .refl s

theorem wakeEntry_crKept (s : State) (m : Monitor) (reason : Nat) : CrKept s (wakeEntry s m reason) := by
  unfold wakeEntry
  split
  · exact wakeSlot_crKept ..
  · exact .refl s

theorem wakeLine_crKept (s : State) (line : Nat) : CrKept s (wakeLine s line) := by
  unfold wakeLine
  dsimp only
  exact (onSt_crKept s _).trans (.foldl (fun s m => wakeEntry_crKept s m 1) _ _)

theorem touchLine_crKept (s : State) (loc : Nat) : CrKept s (touchLine s loc).1 := by
  have hhome := sliceChange_crKept (ownedHome_change s (lineOf loc))
  unfold touchLine
  dsimp only
  exact (hhome.trans (onSt_crKept _ _)).trans (wakeLine_crKept _ _)

theorem perform_crKept (s : State) (p : PWrite) : CrKept s (perform s p).1 := by
  unfold perform
  split
  · exact onSt_crKept s (fun st => st.put p)
  · exact ((sliceChange_crKept (ownedHome_change s (lineOf p.loc))).trans (onSt_crKept _ _)).trans (touchLine_crKept _ _)

theorem sendAck_crKept (s : State) (r : Req) (seqTag await : BitVec 16) : CrKept s (sendAck s r seqTag await) := by
  unfold sendAck
  dsimp only
  split
  · exact onSt_crKept _ _
  · split
    · exact onSt_crKept _ _
    · exact .refl s

theorem l1Drop_crKept (s : State) (loc : Nat) : CrKept s (l1Drop s loc) := by
  unfold l1Drop
  split
  · exact .refl s
  · exact crKept_of_slots rfl rfl

/-- A store of the area, performed at once or behind the thread's requests. -/
theorem areaStore_crKept (s : State) (slot : Fin 8) (va : Word) (loc : Nat) (data : List Byte) : CrKept s (areaStore s slot va loc data) := by
  have hcount (y : State) : CrKept y (y.bump.onSlot slot (fun t => if isOwn va then t else t.count y.nextId (reachOf y va))) := by
    refine (crKept_of_slots rfl rfl : CrKept y y.bump).trans (onSlot_crKept _ slot fun t j _ => ?_)
    split <;> rfl
  have hfloor (y : State) (id : Nat) : CrKept y (floorOwn y (some slot) loc data.length id) := by
    unfold floorOwn
    exact onSlot_crKept y slot fun _ _ _ => rfl
  have hissued := ((hcount s).trans (l1Drop_crKept _ loc)).trans (hfloor _ s.nextId)
  unfold areaStore
  dsimp only
  split
  · exact hissued.trans (onSlot_crKept _ slot fun _ _ _ => rfl)
  · exact (hissued.trans (perform_crKept _ _)).trans (sendAck_crKept ..)

theorem storeEntries_crKept (s : State) (slot : Fin 8) (va : Word) (loc : Nat) (l : List (List Byte)) : CrKept s (storeEntries s slot va loc l) := by
  induction l generalizing s va loc with
  | nil => exact .refl s
  | cons e l ih => exact (areaStore_crKept ..).trans (ih ..)

theorem coreRead_crKept (s : State) (loc n : Nat) : CrKept s (coreRead s loc n) := by
  unfold coreRead
  split
  · exact sliceStep_crKept (scrub_step s loc n)
  · exact .foldl (fun s k => sliceStep_crKept (lineRead_step s _ _)) _ s

/-- The area's translation, for the current slot (R183). -/
theorem areaPlace_crKept {s s1 : State} {slot : Fin 8} {area : Word} {write : Bool} {loc : Nat} {attr : BitVec 5} (hcur : s.cur = slot)
    (h : areaPlace s slot area write = .ok loc attr s1) : CrKept s s1 := by
  unfold areaPlace at h
  dsimp only at h
  split at h
  case h_2 hno => exact absurd h (hno _ _ _)
  case h_1 htr =>
    split at h
    case isTrue => cases h
    case isFalse =>
      cases h
      obtain ⟨hkeeps, hslots⟩ := translate_tables htr
      refine ⟨hkeeps.1, fun i j _ => ?_⟩
      by_cases hi : i = slot
      · subst hi hcur
        have hcr : s1.thr.cr[j] = s.thr.cr[j] := hkeeps.2 (.cr j) (by simp [reads, walks])
        simpa only [State.thr, hkeeps.1] using hcr
      · rw [hslots i (by simpa using hi)]

theorem saveArea_crKept {s s1 : State} {slot : Fin 8} {u : Option (Word × Word)} {loc : Nat} {attr : BitVec 5} (hcur : s.cur = slot)
    (h : saveArea s slot u = .ok loc attr s1) : CrKept s s1 := by
  unfold saveArea at h
  dsimp only at h
  split at h
  case h_2 hno => exact absurd h (hno _ _ _)
  case h_1 hplace =>
    cases h
    exact ((areaPlace_crKept hcur hplace).trans (storeEntries_crKept ..)).trans (onSlot_crKept _ slot fun _ _ _ => rfl)

-- ## The slot at its vector (R218, R370, R372)

/-- What the last steps of entry write of a slot's thread, out of a user-level handler or not. -/
theorem enterVector_fields (s : State) (slot : Fin 8) (e : Entry) (uhf : Bool) :
    let a := s.slots[slot]
    let b := (enterVector s slot e uhf).slots[slot]
    b.cr[crEpc] = epcWord e.epc a.sup a.ie uhf e.marker ∧ b.cr[crCause] = a.causeNow e.cause ∧ b.sup = true ∧ b.ie = false ∧ b.uh = false ∧
    b.cr[crKvec] = a.cr[crKvec] ∧ b.pc = BitVec.ofNat 64 (field a.cr[crKvec] 47 1 * 2) := by
  dsimp only
  unfold enterVector
  rw [onSlot_same]
  generalize s.slots[slot] = a
  have hstatus := setStatus_bits ((a.setCr crEpc (epcWord e.epc a.sup a.ie uhf e.marker)).setCr crCause (a.causeNow e.cause)) true false a.uie false
  obtain ⟨hsup, hie, -, huh⟩ := hstatus
  refine ⟨?epc, ?cause, hsup, hie, huh, ?kvec, rfl⟩
  case epc => exact (setCr_other _ _ (by decide)).trans ((setCr_other _ _ (by decide)).trans (setCr_same ..))
  case cause => exact (setCr_other _ _ (by decide)).trans (setCr_same ..)
  case kvec => exact (setCr_other _ _ (by decide)).trans ((setCr_other _ _ (by decide)).trans (setCr_other _ _ (by decide)))

/-- A cause other than a refusal is written as it is (R366). -/
theorem causeNow_of_code {t : Thread} {c : Word} (h : field c 7 0 ≠ 9) : t.causeNow c = c := if_neg fun hc => h hc.1

theorem enterVector_thr {s : State} {slot : Fin 8} (h : s.cur = slot) (e : Entry) (uhf : Bool) :
    (enterVector s slot e uhf).thr = (enterVector s slot e uhf).slots[slot] := by
  subst h
  rfl

section Entry

variable {s s1 : State} {slot : Fin 8} {loc : Nat} {attr : BitVec 5} (e : Entry) (hcur : s.cur = slot)

include hcur

/-- While a result is in flight the slot stands before the entry. -/
theorem takeException_waits (h : s.thr.draining = true) :
    Completes (takeException s slot e) (fun t => t.thr.mode = .entering e ∧ t.thr.pc = s.thr.pc) := by
  subst hcur
  have hwait : entryWaits s s.cur = true := by rw [entryWaits, show s.slots[s.cur].draining = true from h, Bool.true_or]
  refine ⟨_, if_pos hwait, ?_⟩
  dsimp only
  rw [thr_onSlot rfl]
  exact ⟨rfl, rfl⟩

variable (hwait : entryWaits s slot = false)

include hwait

/-- An entry that waits for nothing, with its area written, brings the current slot to its vector. -/
theorem takeException_vectors (huh : s.thr.uh = false) (h : saveArea s slot (s.thr.uintOf s.thr.areaUse) = .ok loc attr s1) :
    Completes (takeException s slot e) (fun t => AtVector s1.slots[slot] e t.thr) := by
  subst hcur
  have hcur (f : Thread → Thread) : (s1.onSlot s.cur f).cur = s.cur := (saveArea_crKept rfl h).cur
  refine ⟨_, takeException_saved e hwait huh h, ?_⟩
  dsimp only
  rw [enterVector_thr (hcur _)]
  have hv := enterVector_atVector (s1.onSlot s.cur (fun t => { t with uints := dropUint t.uints s.slots[s.cur].areaUse })) s.cur e
  rw [onSlot_same] at hv
  exact hv.of_uints

/-- Out of a user-level handler ctl.trap's entry stands after its own word, and the handler ends (R218, R372). -/
theorem takeException_handler (hcode : field e.cause 7 0 = 0x13) (huh : s.thr.uh = true)
    (h : areaPlace s slot s.thr.psave true = .ok loc attr s1) :
    ∃ u, takeException s slot e = .next (enterVector u slot e true) ∧ CrKept s u := by
  subst hcur
  unfold takeException
  dsimp only
  rw [if_neg (ne_true_of_eq_false hwait), if_pos (show s.slots[s.cur].uh = true from huh), if_pos hcode]
  split
  case h_1 hstop => cases h.symm.trans hstop
  case h_2 hbad => cases h.symm.trans hbad
  case h_3 hok =>
    refine ⟨_, rfl, ?_⟩
    have hread (loc n : Nat) := (areaPlace_crKept rfl hok).trans (coreRead_crKept _ loc n)
    refine CrKept.trans ?_ (onSlot_crKept _ _ fun _ _ _ => rfl)
    split
    · refine ((hread _ _).trans (areaStore_crKept ..)).trans (onSlot_crKept _ _ fun _ _ _ => ?_)
      split <;> rfl
    · exact hread _ _

/-- What that entry leaves: the handler has ended, and its slot stands at KVEC with UHF set. -/
theorem takeException_ends_handler (hcode : field e.cause 7 0 = 0x13) (huh : s.thr.uh = true)
    (h : areaPlace s slot s.thr.psave true = .ok loc attr s1) :
    Completes (takeException s slot e) (fun t => field t.thr.cr[crEpc] 47 1 = field e.epc 47 1 ∧ t.thr.cr[crEpc].getLsbD 50 = true ∧
      t.thr.cr[crEpc].getLsbD 51 = e.marker ∧ t.thr.cr[crCause] = e.cause ∧ t.thr.sup = true ∧ t.thr.ie = false ∧ t.thr.uh = false ∧
      t.thr.cr[crKvec] = s.thr.cr[crKvec] ∧ t.thr.pc = BitVec.ofNat 64 (field s.thr.cr[crKvec] 47 1 * 2)) := by
  obtain ⟨u, htake, hkept⟩ := takeException_handler e hcur hwait hcode huh h
  subst hcur
  obtain ⟨hepc, hcause, hsup, hie, huh', hkvec, hpc⟩ := enterVector_fields u s.cur e true
  have hkvec' : u.slots[s.cur].cr[crKvec] = s.thr.cr[crKvec] := hkept.cr s.cur crKvec (by decide)
  rw [causeNow_of_code (by rw [hcode]; decide)] at hcause
  obtain ⟨haddress, -, -, huhf, hmk⟩ := epcWord_fields e.epc u.slots[s.cur].sup u.slots[s.cur].ie true e.marker
  rw [hkvec'] at hkvec hpc
  refine ⟨_, htake, ?_⟩
  dsimp only
  rw [enterVector_thr hkept.cur, hepc]
  exact ⟨haddress, huhf, hmk, hcause, hsup, hie, huh', hkvec, hpc⟩

end Entry

-- ## The word (R218)

/-- A word that raises a trap issues, and then its slot takes the exception, with the next word in cr.epc. -/
theorem issue_raise {len : Nat} {sw : Bool} {g : Guard} {x : Source} {p : Plan} {s s1 : State} {c : Word} (hp : Simple p) (h : CanIssue g x s)
    (hr : p.run (popped s x) (operand s x) = .raise s1 c) :
    issue len sw g x p s = takeException (finish s s1 (s.thr.pc + BitVec.ofNat 64 len) false false) s.cur
      { cause := c, epc := s.thr.pc + BitVec.ofNat 64 len, marker := false } := by
  have hverdict := verdict_run (sw := sw) h (hp.admits s).sup ((hp.admits s).feat _) (by rw [hp.miss]) (by rw [hp.fault7]) (by rw [hp.held7])
  unfold issue
  dsimp only
  rw [if_neg (by simp [h.runs]), hverdict, hr]
  simp [unpop, h.quiet]

theorem ctlTrapPlan_simple : Simple ctlTrapPlan := ⟨⟨rfl, rfl⟩, rfl, rfl, rfl⟩

/-- The code of ctl.trap's cause. -/
theorem trapCause_code (v : Word) : field (BitVec.ofNat 64 (0x13 + field v 47 0 * 2 ^ 16)) 7 0 = 0x13 := by
  have hv : field v 47 0 < 2 ^ 48 := Nat.mod_lt _ (by decide)
  rw [field_ofNat (by omega)]
  omega

/-- Settles O11: the word issues and its slot takes the exception, from the state that the word leaves. -/
theorem trapWordsTakeException : Obligations.TrapWordsTakeException := by
  unfold Obligations.TrapWordsTakeException
  intro sw g c x s After Entry0 Takes
  have htakes {len : Nat} {g : Guard} {y : Source} (h : CanIssue g y s) : Takes y len (issue len sw g y ctlTrapPlan s) := by
    have hissue : issue len sw g y ctlTrapPlan s = takeException (After y len) s.cur (Entry0 y len) :=
      issue_raise (s1 := popped s y) ctlTrapPlan_simple h rfl
    have hmode : (popped s y).thr.mode = .run := by rw [popped_thr, h.runs]
    have hkeeps := finish_keeps s (popped s y) (s.thr.pc + BitVec.ofNat 64 len) false y hmode
    have hcr (j : Fin 25) (hj : Part.cr j ∉ issued false y) : (After y len).thr.cr[j] = s.thr.cr[j] := by
      rw [← popped_thr s y]; exact hkeeps.2 (.cr j) hj
    have hcur : (After y len).cur = s.cur := hkeeps.1.trans (popped_cur s y)
    have hpc : (After y len).thr.pc = s.thr.pc + BitVec.ofNat 64 len := (finish_passed s (popped s y) _ false hmode).pc
    have huh : (After y len).thr.uh = s.thr.uh := congrArg (·.getLsbD 3) (hcr crStatus (not_mem_issued (p := .cr crStatus) (by decide) nofun _ _))
    have hkvec := hcr crKvec (not_mem_issued (p := .cr crKvec) (by decide) nofun _ _)
    have hcode : field (Entry0 y len).cause 7 0 = 0x13 := trapCause_code _
    refine ⟨hissue, ?_⟩
    rw [hissue, ← huh, ← hkvec]
    refine ⟨fun hdraining => ?waits, fun loc attr s1 hwait hnot hsave => ?vectors, fun loc attr s1 hwait hin hplace => ?handler⟩
    case waits => rw [← hpc]; exact takeException_waits _ hcur hdraining
    case vectors =>
      obtain ⟨t, ht, hat⟩ := takeException_vectors (Entry0 y len) hcur hwait hnot hsave
      exact ⟨t, ht, hat.cause.trans (causeNow_of_code (by rw [hcode]; decide)), hat.sup, hat.ie, hat.pc⟩
    case handler => exact takeException_ends_handler (Entry0 y len) hcur hwait hcode hin hplace
  exact ⟨htakes, htakes⟩

end Sys2Proof.Proofs.Traps
end

section
/-! PROOF. Words whose result has a fixed latency: vec operations (R239, R240), scalar float (R256 to R261), function units and random numbers
(R262 to R269). Each sends its values under way, or raises its fault before it. -/

namespace Sys2Proof.Proofs.Values

open Sys2Proof Sys2Proof.Machine Sys2Proof.Safety Sys2Proof.Slice0 Sys2Proof.Proofs.Words Sys2Proof.Proofs.Loads Sys2Proof.Proofs.SystemWords
  Sys2Proof.Proofs.Alignment

-- ## A result under way (R22, R36)

theorem bump_send_keeps (s : State) (lat : Nat) (ports : List RPort) (vals : Option (List PortVal)) (flags : Option (BitVec 6 × Bool)) :
    Keeps [.flight, .ids] s (s.bump.setThr (s.thr.send s.nextId lat ports vals flags)) :=
  (bump_keeps s).trans (send_keeps s.bump s.nextId lat ports vals flags) (by simp) (by simp)

section Run

variable {sw : Bool} {g : Guard} {x : Source} {p : Plan} {s : State}

/-- A word whose run sends a result is done, with the result last under way. -/
theorem done_of_send {lat : Nat} {ports : List RPort} {vals : Option (List PortVal)} {flags : Option (BitVec 6 × Bool)} (h : CanIssue g x s)
    (ha : Admits p s) (hw : p.miss s = none) (h7 : p.fault7 s = none) (hh : p.held7 s = false)
    (hr : p.run (popped s x) (operand s x) =
      .done ((popped s x).bump.setThr ((popped s x).thr.send (popped s x).nextId lat ports vals flags))) :
    Done 4 sw x [.flight, .ids] s
      (fun t => t.thr.flight = s.thr.flight ++ [{ due := s.thr.rot + lat, tag := s.nextId, ports, vals, flags }]) (issueLong sw g x p s) :=
  done_of_plan h ha hw h7 hh hr (bump_send_keeps _ _ _ _ _) (by rw [State.setThr_thr, Thread.send, popped_thr]) fun t ht => by
    have hflight : t.thr.flight = _ := ht.2 .flight (not_mem_issued (p := .flight) (by decide) nofun sw x)
    rw [hflight, State.setThr_thr, Thread.send, popped_thr, popped_nextId]

/-- The same for a result without flags. -/
theorem done_of_sendFixed {lat : Nat} {ports : List (RPort × Quad)} (h : CanIssue g x s) (ha : Admits p s) (hw : p.miss s = none)
    (h7 : p.fault7 s = none) (hh : p.held7 s = false) (hr : p.run (popped s x) (operand s x) = sendFixed (popped s x) lat ports)
    (hfree : s.thr.orderHold lat (ports.map (·.1)) = false) : Done 4 sw x [.flight, .ids] s (Sends lat ports s) (issueLong sw g x p s) :=
  done_of_send h ha hw h7 hh (hr.trans (by simp only [sendFixed, popped_thr, hfree, Bool.false_eq_true, if_false]))

/-- A word without the feature that its plan asks for raises 0x05 with the feature's number (R49). -/
theorem takesPrecise_of_feature {len b : Nat} (h : CanIssue g x s) (hsup : p.sup s = false) (hfeat : p.feat s (peekSource s x) = some b)
    (hoff : featOn s (dieOf s.coreId) b = false) : TakesPrecise (issue len sw g x p s) s (causeOf 5 b) := by
  have hv : verdict sw g x p s = .trap s (causeOf 5 b) := by simp [verdict, h.noCapture, h.guarded, hsup, hfeat, hoff]
  simp [issue, h.runs, hv, TakesPrecise]

end Run

-- ## vec (R239 to R249)

theorem conv_congr {c d : Core} (h : d.tables = c.tables) : conv d = conv c := by
  have htab : tableAt d = tableAt c := by funext i; simp only [tableAt, h]
  have hdec : decEntry d = decEntry c := by funext t k; simp only [decEntry, htab]
  have henc : encodeCode d = encodeCode c := by funext fmt v; simp only [encodeCode, nanCode, hdec]
  funext fmt t clamp x
  simp only [conv, hdec, henc]

/-- A vec operation reads of its core the tables alone. -/
theorem vecCompute_congr {c d : Core} (h : d.tables = c.tables) : vecCompute d = vecCompute c := by
  have hconvert : convert d = convert c := by funext fmt t clamp l; simp only [convert, conv_congr h]
  funext fmt o ty a b z
  simp only [vecCompute, hconvert]

theorem popped_tables (s : State) (x : Source) : (popped s x).core.tables = s.core.tables := by
  have hkept := (popped_keeps false s x).2 .coreRegs (not_mem_issued (p := .coreRegs) (by decide) nofun _ _)
  exact hkept.2.2.2.2.2.1

/-- Each vec operation's plan, with its latency. -/
theorem vecOps_planned : ∀ op ∈ vecOps, LongWord op.1 ((vecPlan op.2.2 op.2.1).covered op.2.1) := by
  simp only [vecOps, List.forall_mem_cons, List.not_mem_nil, false_implies, implies_true, and_true]
  and_intros
  all_goals exact fun _ _ _ _ => rfl

section Vec

variable {lat : Nat} {o : Op} {x : Source} {s : State}

theorem vecPlan_value {v : Quad} {cl : Bool}
    (hr : vecCompute s.core s.thr.cr[crFmt] o (s.thr.opw .vecTy) (operand s x) (s.thr.opq .vecB) (s.thr.opq .vecC) = some (v, cl))
    (hfree : s.thr.orderHold lat [.vecO] = false) :
    (vecPlan lat o).run (popped s x) (operand s x) =
      .done ((popped s x).bump.setThr ((popped s x).thr.send (popped s x).nextId lat [.vecO]
        (some [{ port := .vecO, val := v, mark := none }]) (if cl then some (flagCL, false) else none))) := by
  simp only [vecPlan, vecCompute_congr (popped_tables s x), popped_thr, hr, hfree, Bool.false_eq_true, if_false]

theorem vecPlan_fault
    (hr : vecCompute s.core s.thr.cr[crFmt] o (s.thr.opw .vecTy) (operand s x) (s.thr.opq .vecB) (s.thr.opq .vecC) = none) :
    (vecPlan lat o).run (popped s x) (operand s x) = .trap (popped s x) reservedPort := by
  simp only [vecPlan, vecCompute_congr (popped_tables s x), popped_thr, hr]

end Vec

/-- Settles O28: every vec operation has one plan, whose run is its computation's value or its reserved port. -/
theorem vecResults : Obligations.VecResults := by
  unfold Obligations.VecResults
  intro op hop sw g x s h r
  have hplan := vecOps_planned op hop
  refine ⟨fun v cl hr hfree => ?value, fun hr => ?fault⟩
  case value =>
    rw [hplan]
    exact done_of_send h ⟨nofun, nofun⟩ rfl rfl rfl (vecPlan_value hr hfree)
  case fault =>
    rw [hplan]
    exact takesPrecise_of_run ⟨⟨rfl, rfl⟩, rfl, rfl, rfl⟩ h (vecPlan_fault hr)

-- ## fpu (R256 to R261)

/-- The part of an operand that a format reads. -/
def operandBits (d : Bool) (a : Nat) : Nat := a % 2 ^ (if d then 64 else 32)

theorem fArg_eq (d : Bool) (a : Nat) : fArg (if d then .b64 else .b32) a = fDecode (if d then .b64 else .b32) (operandBits d a) := by
  cases d <;> rfl

/-- Each fpu operation's plan: its function of the trigger value and of the operands cut to the format. -/
theorem fpuOps_planned : ∀ op ∈ fpuOps, ∃ f o, LongWord op.1 ((fpuPlan op.2.1 f).covered o) ∧
    ∀ (d : Bool) (ty : Word) (a b c : Nat), f (if d then .b64 else .b32) ty a (operandBits d b) (operandBits d c) =
      op.2.2 (if d then .b64 else .b32) ty a b c := by
  simp only [fpuOps, List.forall_mem_cons, List.not_mem_nil, false_implies, implies_true, and_true]
  and_intros
  all_goals exact ⟨_, _, fun _ _ _ _ => rfl, fun d ty a b c => by simp only [fArg_eq, fRm]⟩

theorem fpuPlan_run {lat : Nat} {f : FFmt → Word → Nat → Nat → Nat → Nat × BitVec 6} {x : Source} {s : State}
    (hty : field (s.thr.opw .fpuTy) 63 12 = 0) (hlow : field (s.thr.opw .fpuTy) 4 1 = 0) (hfree : s.thr.orderHold lat [.fpuO] = false)
    (hflags : (s.thr.opw .fpuTy).getLsbD 7 = true → flagsOwed s.thr = false) :
    let d := (s.thr.opw .fpuTy).getLsbD 0
    let r := f (if d then .b64 else .b32) (s.thr.opw .fpuTy) (operand64 s x).toNat (operandBits d (s.thr.opw .fpuB).toNat)
      (operandBits d (s.thr.opw .fpuC).toNat)
    (fpuPlan lat f).run (popped s x) (operand s x) =
      .done ((popped s x).bump.setThr ((popped s x).thr.send (popped s x).nextId lat [.fpuO]
        (some [{ port := .fpuO, val := BitVec.ofNat 128 r.1, mark := none }]) (some (r.2, (s.thr.opw .fpuTy).getLsbD 7)))) := by
  have hhold : ((s.thr.opw .fpuTy).getLsbD 7 && flagsOwed s.thr) = false := by
    cases hc : (s.thr.opw .fpuTy).getLsbD 7
    · rfl
    · simp [hflags hc]
  simp only [fpuPlan, popped_thr, hty, hlow, hfree, hhold, ne_eq, not_true_eq_false, or_self, if_false, Bool.or_self, Bool.false_eq_true, operandBits]

/-- Settles O31: every fpu operation has one plan, which sends its function's value and flags. -/
theorem fpuResults : Obligations.FpuResults := by
  unfold Obligations.FpuResults
  intro op hop sw g x s h ty d r
  obtain ⟨f, o, hplan, hvalue⟩ := fpuOps_planned op hop
  rw [hplan]
  refine ⟨fun hty hlow hfeat hfree hflags => ?value, fun hd hoff => ?feature⟩
  case value =>
    have hadmits : Admits ((fpuPlan op.2.1 f).covered o) s := by
      refine ⟨nofun, fun v b hb => ?_⟩
      have hb' : (if d then some 2 else none) = some b := hb
      split at hb'
      · rename_i hd; cases hb'; exact hfeat hd
      · cases hb'
    have hrun := fpuPlan_run (f := f) (x := x) hty hlow hfree hflags
    dsimp only at hrun
    rw [hvalue] at hrun
    exact done_of_send h hadmits rfl rfl rfl hrun
  case feature =>
    exact takesPrecise_of_feature h rfl (if_pos hd) hoff

-- ## sfu and rng (R262 to R269)

/-- Each function unit's plan. -/
theorem sfuOps_planned : ∀ op ∈ ([(.sfuExp2, sfuExp2), (.sfuLog2, sfuLog2), (.sfuRcp, sfuRcp), (.sfuRsq, sfuRsq), (.sfuSin, sfuSin), (.sfuCos, sfuCos)] :
    List ((Bool → Guard → Source → Instr) × (FVal → Nat))), ∃ o, LongWord op.1 ((sfuPlan op.2).covered o) := by
  simp only [List.forall_mem_cons, List.not_mem_nil, false_implies, implies_true, and_true]
  and_intros
  all_goals exact ⟨_, fun _ _ _ _ => rfl⟩

theorem rngNextPlan_run {x : Source} {s : State} (hid : field (s.thr.opw .rngS) 63 48 = 0) :
    rngNextPlan.run (popped s x) (operand s x) =
      if 2 ^ 48 ≤ (operand64 s x).toNat then .trap (popped s x) (BitVec.ofNat 64 (0x10 + field (s.thr.opw .rngS) 47 0 * 2 ^ 16))
      else sendFixed (popped s x) 2 [(.rngO, quad (rngDraw s.thr.cr[crRng] (s.thr.opw .rngS) (operand64 s x)))] := by
  simp only [rngNextPlan, valuePlan, popped_thr, hid, ne_eq, not_true_eq_false, if_false]
  split_ifs <;> rfl

theorem rngNextPlan_simple : Simple (rngNextPlan.covered .rngNext) := ⟨⟨rfl, rfl⟩, rfl, rfl, rfl⟩

/-- Settles O32: the function units share a plan that asks for F0; rng.next draws, or faults on its counter. -/
theorem functionUnitResults : Obligations.FunctionUnitResults := by
  unfold Obligations.FunctionUnitResults
  intro sw g x s h
  refine ⟨fun op hop => ?sfu, fun hid => ⟨fun hc hfree => ?draw, fun hc => ?counter⟩⟩
  case sfu =>
    obtain ⟨o, hplan⟩ := sfuOps_planned op hop
    rw [hplan]
    refine ⟨fun hon hfree => ?_, fun hoff => takesPrecise_of_feature h rfl rfl hoff⟩
    exact done_of_sendFixed h ⟨nofun, fun v b hb => by cases hb; exact hon⟩ rfl rfl rfl rfl hfree
  case draw =>
    exact done_of_sendFixed h (rngNextPlan_simple.admits s) rfl rfl rfl ((rngNextPlan_run hid).trans (if_neg (Nat.not_le_of_lt hc))) hfree
  case counter =>
    exact takesPrecise_of_run rngNextPlan_simple h ((rngNextPlan_run hid).trans (if_pos hc))

end Sys2Proof.Proofs.Values
end

section
/-! PROOF. The watchpoint filter (R389): what a granule's three bits add to it. -/

namespace Sys2Proof.Proofs.Filter

open Sys2Proof Sys2Proof.Machine

/-- The bits of a filter after a list of them has been set. -/
theorem setBits_getLsbD (l : List Nat) (f : BitVec 4096) (i : Nat) :
    (l.foldl (fun f b => f ||| (1#4096 <<< b)) f).getLsbD i = (f.getLsbD i || (decide (i < 4096) && decide (i ∈ l))) := by
  induction l generalizing f with
  | nil => simp
  | cons b l ih =>
    have hbit : (1#4096 <<< b).getLsbD i = (decide (i < 4096) && decide (i = b)) := by
      simp only [BitVec.getLsbD_shiftLeft, BitVec.getLsbD_one]
      rw [Bool.eq_iff_iff]
      simp
      omega
    rw [List.foldl_cons, ih, BitVec.getLsbD_or, hbit]
    simp only [List.mem_cons, Bool.decide_or, Bool.and_or_distrib_left, Bool.or_assoc]

theorem bloomInsert_getLsbD (f : BitVec 4096) (g i : Nat) :
    (bloomInsert f g).getLsbD i = (f.getLsbD i || (decide (i < 4096) && decide (i ∈ bloomBits g))) := setBits_getLsbD _ f i

theorem bloomBits_lt {g b : Nat} (h : b ∈ bloomBits g) : b < 4096 := by
  obtain ⟨k, -, rfl⟩ := List.mem_map.1 h
  exact Nat.div_lt_of_lt_mul (Nat.mod_lt _ (by decide))

theorem bloomHit_iff {f : BitVec 4096} {g : Nat} : bloomHit f g = true ↔ ∀ b ∈ bloomBits g, f.getLsbD b = true := List.all_eq_true

/-- Settles O43: an insertion sets the granule's own bits, and clears none. -/
theorem watchpointFilterHolds : Obligations.WatchpointFilterHolds := by
  unfold Obligations.WatchpointFilterHolds
  intro f a b
  simp only [bloomHit_iff, bloomInsert_getLsbD]
  exact ⟨fun i hi => by simp [bloomBits_lt hi, hi], fun h i hi => by simp [h i hi]⟩

end Sys2Proof.Proofs.Filter
end

section
/-! PROOF. The kill of a thread (R370, R385): what it leaves of the slot, of the other slots' registers and of memory. The requests that the kill
lets into the waiter entries (R144) may serve other slots: they fill results owed and wake slots, and change no register of a program. -/

namespace Sys2Proof.Proofs.Kill

open Sys2Proof Sys2Proof.Machine Sys2Proof.Safety Sys2Proof.Slice0 Sys2Proof.Proofs.Results Sys2Proof.Proofs.Words Sys2Proof.Proofs.Canonical Sys2Proof.Proofs.Tiles
  Sys2Proof.Proofs.Engines

-- ## The registers and the place of a thread's program

/-- A thread's registers and their shadows, its pc, its pending faults, and its control registers but cr.mon, which a wake clears (R378), are the
same, and so is its mode where it does not wait in sys.mwait; with `sends`, its counted and its queued requests too. -/
structure SamePlace (sends : Bool) (t u : Thread) : Prop where
  w : u.w = t.w
  q : u.q = t.q
  pc : u.pc = t.pc
  shadow : u.shadow = t.shadow
  faults : u.faults = t.faults
  mode : t.mode ≠ .mwait → u.mode = t.mode
  cr : ∀ i : Fin 25, i ≠ crMon → u.cr[i] = t.cr[i]
  requests : sends = true → u.counted = t.counted ∧ u.psq = t.psq

/-- Every slot's are, and the machine outside the cores and memory, with the teams that are out. -/
structure SamePlaces (sends : Bool) (s t : State) : Prop where
  slots : ∀ i : Fin 8, SamePlace sends s.slots[i] t.slots[i]
  net : t.net = s.net
  fw : t.fw = s.fw
  away : t.images.map (·.launch) = s.images.map (·.launch)

variable {q : Bool}

theorem SamePlace.refl (t : Thread) : SamePlace q t t := ⟨rfl, rfl, rfl, rfl, rfl, fun _ => rfl, fun _ _ => rfl, fun _ => ⟨rfl, rfl⟩⟩

theorem SamePlace.trans {t u v : Thread} (h1 : SamePlace q t u) (h2 : SamePlace q u v) : SamePlace q t v :=
  ⟨h2.w.trans h1.w, h2.q.trans h1.q, h2.pc.trans h1.pc, h2.shadow.trans h1.shadow, h2.faults.trans h1.faults,
    fun ht => (h2.mode (by rw [h1.mode ht]; exact ht)).trans (h1.mode ht), fun i hi => (h2.cr i hi).trans (h1.cr i hi),
    fun hq => ⟨(h2.requests hq).1.trans (h1.requests hq).1, (h2.requests hq).2.trans (h1.requests hq).2⟩⟩

theorem SamePlaces.trans {s t u : State} (h1 : SamePlaces q s t) (h2 : SamePlaces q t u) : SamePlaces q s u :=
  ⟨fun i => (h1.slots i).trans (h2.slots i), h2.net.trans h1.net, h2.fw.trans h1.fw, h2.away.trans h1.away⟩

theorem SamePlaces.of_eq {s t : State} (h : t.slots = s.slots ∧ t.net = s.net ∧ t.fw = s.fw ∧ t.images = s.images) : SamePlaces q s t :=
  ⟨fun i => by rw [h.1]; exact .refl _, h.2.1, h.2.2.1, by rw [h.2.2.2]⟩

theorem SamePlaces.refl (s : State) : SamePlaces q s s := .of_eq ⟨rfl, rfl, rfl, rfl⟩

theorem onSt_samePlaces (s : State) (f : Store → Store) : SamePlaces q s (s.onSt f) := .of_eq ⟨rfl, rfl, rfl, rfl⟩

theorem onSlot_samePlaces_of (s : State) (slot : Fin 8) {f : Thread → Thread} (h : SamePlace q s.slots[slot] (f s.slots[slot])) :
    SamePlaces q s (s.onSlot slot f) := by
  refine ⟨fun i => ?_, rfl, rfl, rfl⟩
  by_cases hi : i = slot
  · subst hi; rw [onSlot_same]; exact h
  · rw [onSlot_other _ _ hi]; exact .refl _

theorem onSlot_samePlaces (s : State) (slot : Fin 8) {f : Thread → Thread} (h : ∀ t, SamePlace q t (f t)) : SamePlaces q s (s.onSlot slot f) :=
  onSlot_samePlaces_of s slot (h _)

theorem foldl_samePlaces {α : Type} {f : State → α → State} (h : ∀ s a, SamePlaces q s (f s a)) (l : List α) (s : State) :
    SamePlaces q s (l.foldl f s) := by
  induction l generalizing s with
  | nil => exact .refl s
  | cons a l ih => exact (h s a).trans (ih _)

theorem samePlaces_of_change {s t : State} (h : SliceChange s t) : SamePlaces q s t := by
  obtain ⟨_, _, _, _, _, _, _, rfl⟩ := h
  exact .of_eq ⟨rfl, rfl, rfl, rfl⟩

theorem deliver_samePlace (t : Thread) (v : PortVal) : SamePlace q t (t.deliver v) := by
  obtain ⟨_, _, _, _, h⟩ := deliver_eq t v
  rw [h]
  exact ⟨rfl, rfl, rfl, rfl, rfl, fun _ => rfl, fun _ _ => rfl, fun _ => ⟨rfl, rfl⟩⟩

theorem unpark_samePlace {t : Thread} (h : t.mode = .mwait) : SamePlace q t t.unpark := by
  unfold Thread.unpark Thread.enterMarker
  repeat' split
  all_goals exact ⟨rfl, rfl, rfl, rfl, rfl, fun ht => absurd h ht, fun _ _ => rfl, fun _ => ⟨rfl, rfl⟩⟩

theorem setMon_samePlace (t : Thread) (v : Word) : SamePlace q t (t.setCr crMon v) :=
  ⟨rfl, rfl, rfl, rfl, rfl, fun _ => rfl, fun _ hi => vector_set_other _ _ hi, fun _ => ⟨rfl, rfl⟩⟩

-- ## Waking slots (R88, R378)

theorem deliver_mode (t : Thread) (v : PortVal) : (t.deliver v).mode = t.mode := by
  obtain ⟨_, _, _, _, h⟩ := deliver_eq t v
  rw [h]

theorem wakeSlot_samePlaces (s : State) (slot : Fin 8) (reason : Nat) : SamePlaces q s (wakeSlot s slot reason) := by
  unfold wakeSlot
  dsimp only
  split
  · next hmode =>
    exact onSlot_samePlaces_of s slot (f := fun t =>
      ((t.deliver { port := .sysO, val := BitVec.ofNat 128 reason, mark := none }).setCr crMon (t.cr[crMon] &&& ~~~(1#64))).unpark)
      (((deliver_samePlace _ _).trans (setMon_samePlace _ _)).trans (unpark_samePlace ((deliver_mode ..).trans hmode)))
  · exact .refl s

theorem wakeLine_samePlaces (s : State) (line : Nat) : SamePlaces q s (wakeLine s line) := by
  refine (SamePlaces.of_eq (by exact ⟨rfl, rfl, rfl, rfl⟩)).trans (foldl_samePlaces (fun s m => ?_) _ _)
  unfold wakeEntry
  split
  · exact wakeSlot_samePlaces _ _ _
  · exact .refl _

-- ## Requests performed and served (R139, R142, R144)

theorem touchLine_samePlaces (s : State) (loc : Nat) : SamePlaces q s (touchLine s loc).1 := by
  have hhome : SamePlaces q s (hostOwn (lineHome s (lineOf loc)) (lineOf loc)) := samePlaces_of_change (ownedHome_change s (lineOf loc))
  unfold touchLine
  dsimp only
  exact (hhome.trans (onSt_samePlaces _ _)).trans (wakeLine_samePlaces _ _)

theorem perform_samePlaces (s : State) (p : PWrite) : SamePlaces q s (perform s p).1 := by
  unfold perform
  split
  · exact .of_eq ⟨rfl, rfl, rfl, rfl⟩
  · exact ((samePlaces_of_change (ownedHome_change s (lineOf p.loc))).trans (onSt_samePlaces _ _)).trans (touchLine_samePlaces _ _)

theorem sendAck_samePlaces (s : State) (r : Req) (seqTag await : BitVec 16) : SamePlaces q s (sendAck s r seqTag await) := by
  unfold sendAck
  dsimp only
  repeat' split
  all_goals exact .of_eq ⟨rfl, rfl, rfl, rfl⟩

theorem gains_samePlaces (s : State) (slot : Fin 8) (tag loc : Nat) (m : Moment) : SamePlaces q s (gains s slot tag loc m) := by
  unfold gains readGains
  exact onSlot_samePlaces _ _ fun _ => ⟨rfl, rfl, rfl, rfl, rfl, fun _ => rfl, fun _ _ => rfl, fun _ => ⟨rfl, rfl⟩⟩

theorem floorOwn_samePlaces (s : State) (slot : Option (Fin 8)) (loc n id : Nat) : SamePlaces q s (floorOwn s slot loc n id) := by
  cases slot with
  | none => exact .refl s
  | some i =>
    unfold floorOwn
    exact onSlot_samePlaces _ _ fun _ => ⟨rfl, rfl, rfl, rfl, rfl, fun _ => rfl, fun _ _ => rfl, fun _ => ⟨rfl, rfl⟩⟩

theorem pointScrub_samePlaces (s : State) (loc n : Nat) : SamePlaces q s (pointScrub s loc n) := by
  unfold pointScrub
  split
  · exact samePlaces_of_change (scrub_change _ _ _)
  · exact samePlaces_of_change ((lineHome_change _ _).trans (scrub_change _ _ _))

theorem answer_samePlaces (s : State) (r : Req) (port : RPort) (n : Nat) (ext : Bool) : SamePlaces q s (answer s r port n ext) := by
  unfold answer
  dsimp only
  split
  · exact pointScrub_samePlaces _ _ _
  · exact ((pointScrub_samePlaces _ _ _).trans (gains_samePlaces _ _ _ _ _)).trans (onSlot_samePlaces _ _ fun _ => ⟨rfl, rfl, rfl, rfl, rfl, fun _ => rfl, fun _ _ => rfl, fun _ => ⟨rfl, rfl⟩⟩)

/-- A write performed for a request, with the request's floor and its acknowledgement. -/
theorem performed_samePlaces (s : State) (p : PWrite) (r : Req) (loc n id : Nat) :
    SamePlaces q s (sendAck (floorOwn (perform s p).1 r.slot loc n id) r (perform s p).2.1 (perform s p).2.2) :=
  ((perform_samePlaces s p).trans (floorOwn_samePlaces _ _ _ _ _)).trans (sendAck_samePlaces _ _ _ _)

theorem serve_samePlaces (s : State) (r : Req) : SamePlaces q s (serve s r) := by
  unfold serve
  split
  · exact answer_samePlaces _ _ _ _ _
  · exact (answer_samePlaces _ _ _ _ _).trans (performed_samePlaces _ _ _ _ _ _)
  · refine SamePlaces.trans ?_ (performed_samePlaces _ _ _ _ _ _)
    refine (pointScrub_samePlaces s r.loc 8).trans ?_
    unfold rmwGains
    split
    · exact gains_samePlaces _ _ _ _ _
    · exact .refl _
  · exact .refl s

theorem serveLoads_samePlaces (s : State) (l : List Req) : SamePlaces q s (serveLoads s l) := by
  induction l generalizing s with
  | nil => exact .refl s
  | cons r l ih =>
    have hserved : SamePlaces q s ((serve s r).onSt (fun st => { st with waiters := st.waiters.filter (fun w => w.req.tag != r.tag) })) :=
      (serve_samePlaces s r).trans (.of_eq (by exact ⟨rfl, rfl, rfl, rfl⟩))
    unfold serveLoads
    dsimp only
    split
    · exact hserved
    · exact hserved.trans (ih _)

theorem serviceLoop_samePlaces (s : State) (loc n : Nat) : SamePlaces q s (serviceLoop s loc n) := by
  induction n generalizing s with
  | zero => exact .refl s
  | succ n ih =>
    have hloads (l : List Req) : SamePlaces q s (if isFull s loc then serveLoads s l else s) := by
      split
      · exact serveLoads_samePlaces s l
      · exact .refl s
    unfold serviceLoop
    dsimp only
    split
    · exact ((hloads _).trans ((serve_samePlaces _ _).trans (.of_eq (by exact ⟨rfl, rfl, rfl, rfl⟩)))).trans (ih _)
    · exact hloads _

theorem enlist_samePlaces (s : State) (r : Req) : SamePlaces q s (enlist s r) := by
  have hloop (n : Nat) : SamePlaces q s (serviceLoop (s.onSt (fun st => { st with waiters := st.waiters ++ [{ req := r }] })) r.loc n) :=
    (SamePlaces.of_eq (by exact ⟨rfl, rfl, rfl, rfl⟩)).trans (serviceLoop_samePlaces _ _ _)
  unfold enlist
  dsimp only
  split
  · exact (hloop _).trans (.of_eq (by exact ⟨rfl, rfl, rfl, rfl⟩))
  · exact hloop _

theorem waitRetry_samePlaces (s : State) (n : Nat) : SamePlaces q s (waitRetry s n) := by
  induction n generalizing s with
  | zero => exact .refl s
  | succ n ih =>
    unfold waitRetry
    split
    · exact .refl s
    · rename_i r _
      have hentry : SamePlaces q s (enlist (s.onSt (fun st => { st with waitq := st.waitq.filter (fun x => x.tag != r.tag) })) r) :=
        (SamePlaces.of_eq (by exact ⟨rfl, rfl, rfl, rfl⟩)).trans (enlist_samePlaces _ _)
      exact hentry.trans (ih _)

theorem dropWaiting_samePlaces (s : State) (gone : Req → Bool) : SamePlaces q s (dropWaiting s gone) :=
  (SamePlaces.of_eq (by exact ⟨rfl, rfl, rfl, rfl⟩)).trans (waitRetry_samePlaces _ _)

theorem dropWaiting_samePlace {s u : State} (h : u.slots = s.slots) (gone : Req → Bool) (i : Fin 8) :
    SamePlace q s.slots[i] (dropWaiting u gone).slots[i] := by
  rw [← h]
  exact (dropWaiting_samePlaces u gone).slots i

/-- With nothing that waits for an entry, requests leave their lists and none comes in. -/
theorem dropWaiting_quiet {s : State} (gone : Req → Bool) (h : s.st.waitq = []) : dropWaiting s gone =
    s.onSt (fun st => { st with waiters := st.waiters.filter (fun w => !gone w.req), waitq := st.waitq.filter (fun r => !gone r) }) := by
  simp [dropWaiting, refillWaiters, waitRetry, h]

-- ## The kill (R385)

/-- Withdrawn interests change the core's tile units and the network alone. -/
theorem dropInterests_rest (l : List Interest) (s : State) :
    (l.foldl dropInterest s).slots = s.slots ∧ (l.foldl dropInterest s).st = s.st := by
  induction l generalizing s with
  | nil => exact ⟨rfl, rfl⟩
  | cons i l ih =>
    obtain ⟨n, hn⟩ := dropInterest_eq s i
    have hone : (dropInterest s i).slots = s.slots ∧ (dropInterest s i).st = s.st := by rw [hn]; exact ⟨rfl, rfl⟩
    obtain ⟨hslots, hst⟩ := ih (dropInterest s i)
    exact ⟨hslots.trans hone.1, hst.trans hone.2⟩

theorem killUnits_samePlace (s : State) (slot i : Fin 8) : SamePlace false s.slots[i] (killUnits s slot).slots[i] := by
  have hdrop := (dropInterests_rest (s.core.interests.filter (fun i => i.slot == slot)) s).1
  exact dropWaiting_samePlace (by exact hdrop) _ i

/-- With nothing that waits for an entry, the kill of the units performs no request. -/
theorem killUnits_memory {s : State} (slot : Fin 8) (h : s.st.waitq = []) :
    (killUnits s slot).st.mem = s.st.mem ∧ (killUnits s slot).st.full = s.st.full := by
  have hst := (dropInterests_rest (s.core.interests.filter (fun i => i.slot == slot)) s).2
  unfold killUnits
  dsimp only
  rw [dropWaiting_quiet _ (by rw [← h, ← hst])]
  simp only [State.onSt_st, hst, and_self]

/-- A killed slot's thread. -/
def killedThread (t : Thread) : Thread := { Thread.reset with mode := .killed, cr := Vector.replicate 25 0#64, rot := t.rot, lost := t.lost }

theorem killedThread_killed (t : Thread) : Killed (killedThread t) := by
  have hz {n m : Nat} (i : Fin n) : (Vector.replicate n (0#m))[i] = 0#m := by simp
  refine ⟨rfl, hz, hz, fun i => ?_, hz, fun r => hz r.fin, fun r => hz r.fin, rfl, rfl, rfl, hz, hz, rfl, rfl, rfl, rfl, rfl, rfl⟩
  show (i.val == 0 || (1#16).getLsbD i.val) = (i.val == 0)
  revert i
  decide

/-- What the kill leaves of the slots and of the memory is what the kill of the units left. -/
theorem killThread_slots (s : State) (slot : Fin 8) :
    (killThread s slot).slots = (killUnits s slot).slots.set slot (killedThread s.slots[slot]) := rfl

theorem killThread_st (s : State) (slot : Fin 8) : (killThread s slot).st = (killUnits s slot).st := rfl

/-- A killed thread's state is 0; the other slots' registers stay, and memory where no request waits for an entry. -/
theorem killThread_kills (s : State) (slot : Fin 8) : Killed (killThread s slot).slots[slot] ∧
    (∀ i : Fin 8, i ≠ slot → SamePlace false s.slots[i] (killThread s slot).slots[i]) ∧
    (s.st.waitq = [] → (killThread s slot).st.mem = s.st.mem ∧ (killThread s slot).st.full = s.st.full) := by
  refine ⟨?_, fun i hi => ?_, fun h => ?_⟩
  · simp only [killThread_slots, Fin.getElem_fin, Vector.getElem_set_self]
    exact killedThread_killed _
  · have hne : (slot : Nat) ≠ i := fun e => hi (Fin.ext e.symm)
    have hkept := killUnits_samePlace s slot i
    simpa only [killThread_slots, Fin.getElem_fin, Vector.getElem_set_ne slot.isLt i.isLt hne] using hkept
  · rw [killThread_st]; exact killUnits_memory slot h

-- ## A double fault (R370)

theorem trackTold_rest (s : State) (slot : Fin 8) (cause : Word) :
    (trackTold s slot cause).slots = s.slots ∧ (trackTold s slot cause).st = s.st := by
  unfold trackTold
  dsimp only
  split <;> exact ⟨rfl, rfl⟩

/-- Settles O10: at SUP = 1 with IE = 0 a precise fault comes to the kill. -/
theorem doubleFaultKills : Obligations.DoubleFaultKills := by
  unfold Obligations.DoubleFaultKills
  intro s slot cause hsup hie
  obtain ⟨hslots, hst⟩ := trackTold_rest s slot cause
  obtain ⟨hkilled, hothers, hmem⟩ := killThread_kills (trackTold s slot cause) slot
  refine ⟨killThread (trackTold s slot cause) slot, ?_, hkilled, ?_, fun h => ?_⟩
  · simp only [takePrecise, hslots, hsup, hie, Bool.not_false, Bool.and_self, if_true]
  · rw [hslots] at hothers; exact fun i hi => ⟨(hothers i hi).w, (hothers i hi).pc⟩
  · rw [hst] at hmem; exact (hmem h).1

end Sys2Proof.Proofs.Kill
end

section
/-! PROOF. The words of the matrix unit (R272 to R277, R287, R289): a command joins its core's queue with what its trigger sampled, and mx.wait takes
the batch before it. -/

namespace Sys2Proof.Proofs.Matrix

open Sys2Proof Sys2Proof.Machine Sys2Proof.Safety Sys2Proof.Slice0 Sys2Proof.Proofs.Words Sys2Proof.Proofs.Loads Sys2Proof.Proofs.SystemWords
  Sys2Proof.Proofs.Sending Sys2Proof.Proofs.Copies Sys2Proof.Proofs.Tracks Sys2Proof.Proofs.Values

theorem set_matrix_keeps (s : State) (b : MxBatch) (w : List (Nat × MxBatch)) :
    Keeps [.matrix] s (s.setThr { s.thr with mxOpen := b, mxWaits := w }) := by
  refine ⟨rfl, fun p hp => ?_⟩
  cases p with
  | others => exact fun i hi => setThr_other s _ i hi
  | matrix => simp at hp
  | _ => simp [same, Thread.pred, Thread.opq, Thread.rpq]

theorem set_mx_keeps (s : State) (m : MxState) : Keeps [.mx] s (s.onCore (fun k => { k with mx := m })) := by
  refine ⟨rfl, fun p hp => ?_⟩
  cases p with
  | mx => simp at hp
  | _ => exact (keeps_refl [.mx] s).2 _ hp

-- ## A command joins the queue (R272, R277)

/-- The thread behind a command's trigger: a ring entry, the number of the open batch, and for mx.st a count. -/
def commandThread (s : State) (o : Op) (a : Word) : Thread :=
  let t1 := s.thr.ringTake s.nextId (some o) a
  let t2 := if o = .mxSt then t1.count s.nextId (.cluster (clusterOf s.home)) else t1
  { t2 with mxOpen := { t2.mxOpen with seq := t1.seqOf s.nextId } }

/-- The command with the values sampled at its trigger. -/
def command (s : State) (o : Op) (a : Word) : MxCmd :=
  { op := o, slot := s.cur, tag := s.nextId, seq := (s.thr.ringTake s.nextId (some o) a).seqOf s.nextId, a, xs := s.thr.x, fmt := s.thr.cr[crFmt]
    scale := s.thr.cr[crScale], known := relOf s s.cur, rel := relOf s s.cur, born := s.cycle, written := 0, clamp := false }

def commandQueued (s : State) (o : Op) (a : Word) : State :=
  (s.bump.setThr (commandThread s o a)).onCore (fun k => { k with mx := { k.mx with queue := k.mx.queue ++ [command s o a] } })

theorem mxPlan_run {o : Op} {feat : State → Option Nat} {bad : State → Word → Option Word} {s : State} {v : Quad} (hbad : bad s (low64 v) = none)
    (hroom : s.core.mx.queue.length < 4) (hring : s.thr.ringFull = false) : (mxPlan o feat bad).run s v = .done (commandQueued s o (low64 v)) := by
  have hfits : ¬ (4 ≤ s.core.mx.queue.length ∨ s.thr.ringFull = true) := by simp [hring, hroom]
  simp only [mxPlan, hbad, if_neg hfits]
  rfl

/-- What a command's trigger may change: under mx.st the count also. -/
def commandParts (st : Bool) : List Part := [.mx, .ring, .cr crSeq, .matrix, .ids] ++ (if st then [.counted] else [])

theorem maybeCount_keeps (s : State) (c : Bool) (tag : Nat) (r : Reach) :
    Keeps (if c then [.counted] else []) s (s.setThr (if c then s.thr.count tag r else s.thr)) := by
  cases c
  · rw [if_neg (by decide), if_neg (by decide), show s.setThr s.thr = s by simp [State.setThr, State.setSlot, State.thr]]
    exact keeps_refl _ s
  · exact count_keeps s tag r

theorem commandThread_keeps (s : State) (o : Op) (a : Word) :
    Keeps ([.ring, .cr crSeq, .matrix] ++ (if o == .mxSt then [.counted] else [])) s (s.setThr (commandThread s o a)) := by
  have hring := ringTake_keeps s s.nextId (some o) a
  have hcount := hring.trans (maybeCount_keeps _ (o == .mxSt) s.nextId (.cluster (clusterOf s.home)))
    (c := [.ring, .cr crSeq, .matrix] ++ (if o == .mxSt then [.counted] else [])) (by simp +contextual [or_imp]) (by simp +contextual)
  have hall := hcount.trans (set_matrix_keeps _ (commandThread s o a).mxOpen (commandThread s o a).mxWaits) (fun _ h => h) (by simp)
  have hthread : commandThread s o a = { (if o == .mxSt then (s.thr.ringTake s.nextId (some o) a).count s.nextId (.cluster (clusterOf s.home))
      else s.thr.ringTake s.nextId (some o) a) with mxOpen := (commandThread s o a).mxOpen, mxWaits := (commandThread s o a).mxWaits } := by
    simp only [commandThread, beq_iff_eq]
  rw [hthread]
  simpa only [setThr_setThr, State.setThr_thr] using hall

theorem commandQueued_keeps (s : State) (o : Op) (a : Word) : Keeps (commandParts (o == .mxSt)) s (commandQueued s o a) := by
  have hthr := (commandThread_keeps s o a).trans (bump_keeps _) (c := commandParts (o == .mxSt)) (by simp +contextual [commandParts, or_imp])
    (by simp [commandParts])
  exact hthr.trans (set_mx_keeps _ { s.core.mx with queue := s.core.mx.queue ++ [command s o a] }) (fun _ h => h) (by simp [commandParts])

theorem commandThread_counted (s : State) (o : Op) (a : Word) (ho : o = .mxSt) :
    (commandThread s o a).counted.map (·.tag) = s.thr.counted.map (·.tag) ++ [s.nextId] := by
  subst ho
  simp [commandThread, Thread.count]

/-- A command of an operation stands last in the queue with what its trigger at `s` sampled; where `st`, it is counted. -/
def JoinsQueue (o : Op) (st : Bool) (x : Source) (s t : State) : Prop :=
  (∃ c : MxCmd, t.core.mx = { s.core.mx with queue := s.core.mx.queue ++ [c] } ∧ c.op = o ∧ c.slot = s.cur ∧ c.tag = s.nextId ∧
    c.a = operand64 s x ∧ c.xs = s.thr.x ∧ c.fmt = s.thr.cr[crFmt] ∧ c.scale = s.thr.cr[crScale] ∧ c.born = s.cycle) ∧
  (st = true → t.thr.counted.map (·.tag) = s.thr.counted.map (·.tag) ++ [s.nextId])

theorem popped_cycle (s : State) (x : Source) : (popped s x).cycle = s.cycle := by
  unfold popped readSource
  cases x with
  | str i => simp only [popStream]; split <;> rfl
  | _ => rfl

theorem popped_mx (s : State) (x : Source) : (popped s x).core.mx = s.core.mx :=
  (popped_keeps false s x).2 .mx (not_mem_issued (p := .mx) (by decide) nofun _ _)

/-- The word of a command that its plan lets pass is done. -/
theorem command_done {sw : Bool} {g : Guard} {x : Source} {s : State} {o o' : Op} {feat : State → Option Nat} {bad : State → Word → Option Word}
    {st : Bool} (hst : (o == .mxSt) = st) (h : CanIssue g x s) (hfeat : ∀ b, feat s = some b → featOn s (dieOf s.coreId) b = true)
    (hbad : bad (popped s x) (operand64 s x) = none) (hroom : s.core.mx.queue.length < 4) (hring : s.thr.ringFull = false) :
    Done 4 sw x (commandParts st) s (JoinsQueue o st x s) (issueLong sw g x ((mxPlan o feat bad).covered o') s) := by
  subst hst
  have hk := commandQueued_keeps (popped s x) o (operand64 s x)
  have hmode : (commandQueued (popped s x) o (operand64 s x)).thr.mode = s.thr.mode := by
    rw [hk.2 .mode (by unfold commandParts; split <;> decide), popped_thr]
  refine done_of_plan (p := (mxPlan o feat bad).covered o') h ⟨nofun, fun _ b hb => hfeat b hb⟩ rfl rfl rfl
    (mxPlan_run (feat := feat) hbad (by rwa [popped_mx]) (by rwa [popped_thr])) hk hmode fun t ht => ⟨?_, fun ho => ?_⟩
  · have htmx : t.core.mx = _ := ht.2 .mx (not_mem_issued (p := .mx) (by decide) nofun sw x)
    refine ⟨command (popped s x) o (operand64 s x), ?_, rfl, popped_cur s x, popped_nextId s x, rfl, ?_, ?_, ?_, popped_cycle s x⟩
    · rw [htmx, ← popped_mx s x]; rfl
    · exact congrArg Thread.x (popped_thr s x)
    · exact congrArg (·.cr[crFmt]) (popped_thr s x)
    · exact congrArg (·.cr[crScale]) (popped_thr s x)
  · have htcounted : t.thr.counted = (commandThread (popped s x) o (operand64 s x)).counted := by
      have hkept : t.thr.counted = _ := ht.2 .counted (not_mem_issued (p := .counted) (by decide) nofun sw x)
      simpa [commandQueued] using hkept
    rw [htcounted, commandThread_counted _ _ _ (by simpa using ho), popped_thr, popped_nextId]

/-- Settles O34: the five words share one plan, whose checks are the feature, the operands, the queue and the ring. -/
theorem matrixCommandsQueue : Obligations.MatrixCommandsQueue := by
  unfold Obligations.MatrixCommandsQueue
  intro sw g x s h On
  refine ⟨fun hpat hoff => ?pattern, fun hoff => ?counters, fun hroom hring => ?queued⟩
  case pattern => exact takesPrecise_of_feature (p := mxRunPlan.covered .mxRun) h rfl (if_pos hpat) (by simpa [On] using hoff)
  case counters =>
    have hoff' : featOn s (dieOf s.coreId) 1 = false := by simpa [On] using hoff
    simp only [List.forall_mem_cons, List.not_mem_nil, false_implies, implies_true, and_true]
    exact ⟨takesPrecise_of_feature (p := mxCntPlan.covered .mxCnt) h rfl rfl hoff',
      takesPrecise_of_feature (p := mxDrnPlan.covered .mxDrn) h rfl rfl hoff',
      takesPrecise_of_feature (p := mxMrgPlan.covered .mxMrg) h rfl rfl hoff'⟩
  case queued =>
    intro Queued
    refine ⟨fun hon hok => ?run, fun hon hok => ?cnt, fun hon hzero => ⟨?drn, ?mrg⟩, fun hok => ?st⟩
    case run =>
      refine command_done (o := .mxRun) (o' := .mxRun) (bad := fun s a => mxOperandFault true a s.thr.x) rfl h (fun b hb => ?_)
        (by rw [popped_thr]; exact hok) hroom hring
      split at hb
      · rename_i hpat; cases hb; exact hon hpat
      · cases hb
    case cnt =>
      exact command_done (o := .mxCnt) (o' := .mxCnt) (bad := fun s a => mxOperandFault false a s.thr.x) rfl h (fun b hb => by cases hb; exact hon)
        (by rw [popped_thr]; exact hok) hroom hring
    case drn => exact command_done (o := .mxDrn) (o' := .mxDrn) rfl h (fun b hb => by cases hb; exact hon) (if_pos hzero) hroom hring
    case mrg => exact command_done (o := .mxMrg) (o' := .mxMrg) rfl h (fun b hb => by cases hb; exact hon) (if_pos hzero) hroom hring
    case st =>
      exact command_done (o := .mxSt) (o' := .mxSt) (bad := fun s a => mxStoreFault a s.thr.x[(0 : Fin 4)]) rfl h nofun
        (by rw [popped_thr]; exact hok) hroom hring

-- ## mx.wait (R289)

/-- The thread that waits for its open batch: the result is owed, and a new batch is open. -/
def waitThread (s : State) : Thread :=
  { s.thr.owe s.nextId [.mxO, .fpuF] false none with
    mxWaits := s.thr.mxWaits ++ [(s.nextId, s.thr.mxOpen)], mxOpen := { seq := 0, code := 0#8, fail := false, clamp := false, done := [] } }

theorem waitThread_keeps (s : State) : Keeps [.owed, .fence, .matrix] s (s.setThr (waitThread s)) := by
  have h := (owe_keeps s s.nextId [.mxO, .fpuF] false none).trans (set_matrix_keeps _ (waitThread s).mxOpen (waitThread s).mxWaits)
    (c := [.owed, .fence, .matrix]) (by simp) (by simp)
  rw [setThr_setThr, State.setThr_thr] at h
  exact h

theorem mxWaitPlan_run {x : Source} {s : State} (hv : operand64 s x = 0) :
    mxWaitPlan.run (popped s x) (operand s x) = .done (mxSettle ((popped s x).bump.setThr (waitThread (popped s x))) (popped s x).cur) := by
  have hv' : low64 (operand s x) = 0#64 := hv
  simp only [mxWaitPlan, hv', ne_eq, not_true_eq_false, if_false]
  rfl

/-- A slot that waits for one batch still open waits on. -/
theorem mxSettle_open {s : State} {w : Nat × MxBatch} (hw : s.thr.mxWaits = [w])
    (h : ∃ c ∈ s.core.mx.queue, c.slot = s.cur ∧ c.tag < w.1) : mxSettle s s.cur = s := by
  have hopen : s.core.mx.queue.any (fun c => c.slot == s.cur && decide (c.tag < w.1)) = true := by simpa using h
  have hwaits : s.slots[s.cur].mxWaits = [w] := hw
  have hsame : s.setSlot s.cur { s.slots[s.cur] with mxWaits := [w] } = s := by
    rw [← hwaits]
    show s.setSlot s.cur s.slots[s.cur] = s
    simp [State.setSlot]
  unfold mxSettle
  dsimp only
  rw [hwaits]
  simpa only [List.filter_cons, List.filter_nil, hopen, Bool.not_true, Bool.false_eq_true, if_false, if_true, List.foldl_nil] using hsame

/-- A slot that waits for one batch with none of its commands queued is answered. -/
theorem mxSettle_closed {s : State} {w : Nat × MxBatch} (hw : s.thr.mxWaits = [w]) (h : ∀ c ∈ s.core.mx.queue, c.slot ≠ s.cur) :
    mxSettle s s.cur = s.setThr { s.thr.fill w.1 [{ port := .mxO, val := mxStatus w.2, mark := none }] (some (if w.2.clamp then flagCL else 0)) w.2.done
      with mxWaits := [] } := by
  have hopen : s.core.mx.queue.any (fun c => c.slot == s.cur && decide (c.tag < w.1)) = false := by
    rw [List.any_eq_false]; exact fun c hc => by simp [h c hc]
  have hwaits : s.slots[s.cur].mxWaits = [w] := hw
  unfold mxSettle
  dsimp only
  rw [hwaits]
  simp only [List.filter_cons, List.filter_nil, hopen, Bool.not_false, Bool.false_eq_true, if_false, if_true, List.foldl_cons, List.foldl_nil]
  rfl

/-- The result that mx.wait owes, answered or not, stands last. -/
theorem waitThread_owed (s : State) :
    (waitThread s).owed = s.thr.owed ++ [{ tag := s.nextId, ports := [.mxO, .fpuF], area := s.thr.areaUse, marked := true, load := false, read := none
                                           vals := none, flags := none, work := [], rels := [] }] := rfl

/-- Settles O35: the settling at the trigger answers the batch, or finds a command of the slot before it. -/
theorem matrixWaitReports : Obligations.MatrixWaitReports := by
  unfold Obligations.MatrixWaitReports
  intro sw g x s h hv hnone b
  have hkeeps : Keeps [.owed, .fence, .matrix, .ids] (popped s x) ((popped s x).bump.setThr (waitThread (popped s x))) :=
    (waitThread_keeps (popped s x)).trans (bump_keeps _) (by simp +contextual [or_imp]) (by simp)
  have hwaits : ((popped s x).bump.setThr (waitThread (popped s x))).thr.mxWaits = [(s.nextId, b)] := by
    simp [waitThread, popped_thr, popped_nextId, hnone, b]
  have hthr : ((popped s x).bump.setThr (waitThread (popped s x))).thr = waitThread (popped s x) := State.setThr_thr ..
  have hplan : Simple (mxWaitPlan.covered .mxWait) := ⟨⟨rfl, rfl⟩, rfl, rfl, rfl⟩
  refine ⟨fun hclosed => ?closed, fun hopen => ?opened⟩
  case closed =>
    have hrun := mxSettle_closed hwaits (by simpa [popped_mx, popped_cur] using hclosed)
    rw [hthr] at hrun
    have hfill := (fill_keeps ((popped s x).bump.setThr (waitThread (popped s x))) s.nextId [{ port := .mxO, val := mxStatus b, mark := none }]
      (some (if b.clamp then flagCL else 0)) b.done []).trans (set_matrix_keeps _ (waitThread (popped s x)).mxOpen []) (c := [.owed, .matrix])
      (by simp) (by simp)
    have hall := hkeeps.trans hfill (fun _ h => h) (by simp +contextual [or_imp])
    rw [setThr_setThr, State.setThr_thr, hthr] at hall
    refine done_of_simple hplan h ((mxWaitPlan_run hv).trans (congrArg _ hrun)) hall (by decide) fun t ht => ?_
    have howed : t.thr.owed = _ := ht.2 .owed (not_mem_issued (p := .owed) (by decide) nofun sw x)
    obtain ⟨-, hmx⟩ : _ ∧ t.thr.mxWaits = _ := ht.2 .matrix (not_mem_issued (p := .matrix) (by decide) nofun sw x)
    rw [State.setThr_thr, Thread.fill, waitThread_owed, popped_nextId, List.map_append, List.map_cons, List.map_nil, if_pos rfl] at howed
    exact ⟨by rw [hmx, State.setThr_thr], _, by rw [howed]; exact List.getLast?_concat, rfl, rfl, rfl, rfl⟩
  case opened =>
    have hrun := mxSettle_open hwaits (by simpa [popped_mx, popped_cur] using hopen)
    refine done_of_simple hplan h ((mxWaitPlan_run hv).trans (congrArg _ hrun)) hkeeps (by decide) fun t ht => ?_
    have howed : t.thr.owed = _ := ht.2 .owed (not_mem_issued (p := .owed) (by decide) nofun sw x)
    obtain ⟨-, hmx⟩ : _ ∧ t.thr.mxWaits = _ := ht.2 .matrix (not_mem_issued (p := .matrix) (by decide) nofun sw x)
    rw [hthr, waitThread_owed, popped_thr, popped_nextId] at howed
    exact ⟨⟨_, howed, rfl, rfl, rfl⟩, hmx.trans hwaits⟩

end Sys2Proof.Proofs.Matrix
end

section
/-! PROOF. syn.fence, syn.acq and syn.rel (R304 to R306), and the words of the barriers: syn.arrive, syn.wait and syn.mask (R308 to R310). -/

namespace Sys2Proof.Proofs.Order

open Sys2Proof Sys2Proof.Machine Sys2Proof.Safety Sys2Proof.Slice0 Sys2Proof.Proofs.Words Sys2Proof.Proofs.Loads Sys2Proof.Proofs.SystemWords
  Sys2Proof.Proofs.Sending Sys2Proof.Proofs.Copies Sys2Proof.Proofs.Tracks Sys2Proof.Proofs.Tiles

-- ## A popped source leaves alone what a thread has on its way

/-- What store patterns hold for memory stays when a source is popped. -/
theorem popped_out (s : State) (x : Source) :
    (popped s x).core.streams.toList.flatMap (·.out) = s.core.streams.toList.flatMap (·.out) := by
  have hset (i : Fin 8) (e : Stream) (he : e.out = s.core.streams[i].out) :
      (s.core.streams.set i e).toList.flatMap (·.out) = s.core.streams.toList.flatMap (·.out) := by
    have hat : (s.core.streams.toList.map (·.out)).set i s.core.streams[i].out = s.core.streams.toList.map (·.out) := by
      apply List.ext_getElem (by simp)
      intro n h1 h2
      by_cases hn : n = i
      · subst hn; simp
      · rw [List.getElem_set_ne (fun e => hn e.symm)]
    rw [List.flatMap_def, List.flatMap_def, Vector.toList_set, List.map_set, he, hat]
  unfold popped readSource
  cases x with
  | str i =>
    simp only [popStream]
    split
    · rfl
    · exact hset i _ rfl
  | _ => rfl

theorem popped_pendingReqs (s : State) (x : Source) (slot : Fin 8) : pendingReqs (popped s x) slot = pendingReqs s slot := by
  have hout := popped_out s x
  obtain ⟨l, h⟩ := popped_streams s x
  rw [h] at hout ⊢
  simp only [pendingReqs, hout]
  rfl

theorem popped_readTags (s : State) (x : Source) : readTags (popped s x) = readTags s := by
  simp only [readTags, popped_thr, popped_cur, popped_pendingReqs]

theorem popped_relOf (s : State) (x : Source) (slot : Fin 8) : relOf (popped s x) slot = relOf s slot := by
  unfold relOf unserved
  rw [popped_pendingReqs, popped_st, (popped_tracks s x).1]

theorem popped_home (s : State) (x : Source) : (popped s x).home = s.home := by
  obtain ⟨l, h⟩ := popped_streams s x
  rw [h]; rfl

theorem popped_src (s : State) (x : Source) (slot : Fin 8) : (popped s x).src slot = s.src slot := by
  obtain ⟨l, h⟩ := popped_streams s x
  rw [h]; rfl

-- ## Floors (R297)

/-- A floor gains the writes of another, the initial writes left out. -/
theorem mem_floorAdd {f g : List (Nat × Nat)} {e : Nat × Nat} : e ∈ floorAdd f g ↔ e ∈ f ∨ (e ∈ g ∧ e.2 ≠ 0) := by
  induction g generalizing f with
  | nil => simp [floorAdd]
  | cons y g ih =>
    have hstep : e ∈ (if y.2 = 0 ∨ f.contains y then f else y :: f) ↔ e ∈ f ∨ (e = y ∧ e.2 ≠ 0) := by
      split
      · rename_i h
        constructor
        · exact .inl
        · rintro (he | ⟨rfl, he⟩)
          · exact he
          · exact (h.resolve_left he |> List.contains_iff_mem.mp)
      · rename_i h
        rw [not_or] at h
        constructor
        · rintro (_ | ⟨_, he⟩)
          · exact .inr ⟨rfl, h.1⟩
          · exact .inl he
        · rintro (he | ⟨rfl, -⟩)
          · exact .tail _ he
          · exact .head _
    show e ∈ floorAdd (if y.2 = 0 ∨ f.contains y then f else y :: f) g ↔ _
    rw [ih, hstep, List.mem_cons]
    tauto

/-- A floor gains the Rel of each release of a list (R306, R309). -/
def floorRels (f : List (Nat × Nat)) (l : List Release) : List (Nat × Nat) := l.foldl (fun f r => floorAdd f r.rel) f

theorem mem_floorRels {f : List (Nat × Nat)} {l : List Release} {e : Nat × Nat} :
    e ∈ floorRels f l ↔ e ∈ f ∨ (∃ r ∈ l, e ∈ r.rel ∧ e.2 ≠ 0) := by
  induction l generalizing f with
  | nil => simp [floorRels]
  | cons r l ih =>
    show e ∈ floorRels (floorAdd f r.rel) l ↔ _
    rw [ih, mem_floorAdd]
    simp only [List.mem_cons, exists_eq_or_imp]
    tauto

theorem set_l1_keeps (s : State) (l bad : List Nat) : Keeps [.l1] s (s.onCore (fun c => { c with l1 := l, l1bad := bad })) := by
  refine ⟨rfl, fun p hp => ?_⟩
  cases p with
  | l1 => simp at hp
  | _ => exact (keeps_refl [.l1] s).2 _ hp

-- ## syn.fence (R304)

/-- A word's check of syn.sc and of its value has passed (R303). -/
theorem synCheck_pass {s : State} {x : Source} (hv : operand64 s x = 0) (hsc : scBad (s.thr.opw .synSc) = false) (k : Scope → Verdict) :
    synCheck (popped s x) (operand s x) k = k ((s.thr.opw .synSc).setWidth 42) := by
  have hv' : low64 (operand s x) = 0#64 := hv
  simp [synCheck, popped_thr, hsc, hv']

theorem popped_fenceTags (s : State) (x : Source) (sc : Scope) : fenceTags (popped s x) sc = fenceTags s sc := by
  simp only [fenceTags, popped_thr, popped_home]

theorem fenceTags_nil {s : State} {sc : Scope} : fenceTags s sc = [] ↔ ∀ c ∈ s.thr.counted, meets sc s.home c.reach = false := by
  simp [fenceTags, List.filter_eq_nil_iff]

-- ## syn.acq (R306)

/-- The floor behind an acquire. -/
theorem acquire_floor (s : State) (sc : Scope) : (acquire s s.cur sc).thr.floor =
    floorRels s.thr.floor (s.thr.relReads.filter (pairs sc s.home (s.src s.cur))) := by
  simp [acquire, State.thr, floorRels]

theorem acquire_keeps (s : State) (sc : Scope) : Keeps [.floor, .l1] s (acquire s s.cur sc) :=
  (set_floor_keeps s _).trans (set_l1_keeps _ [] []) (by simp) (by simp)

-- ## syn.rel (R305)

theorem set_relMark_keeps (s : State) (m : Option Scope) : Keeps [.relMark] s (s.setThr { s.thr with relMark := m }) := by
  refine ⟨rfl, fun p hp => ?_⟩
  cases p with
  | others => exact fun i hi => setThr_other s _ i hi
  | relMark => simp at hp
  | _ => simp [same, Thread.pred, Thread.opq, Thread.rpq]

/-- Parking after a switch marker does not look at the mark. -/
theorem enterMarker_relMark (t : Thread) (m : Option Scope) :
    ({ t with relMark := m } : Thread).enterMarker = { t.enterMarker with relMark := m } := by
  have hpending : ({ t with relMark := m } : Thread).pending = t.pending := rfl
  unfold Thread.enterMarker
  rw [hpending]
  split <;> rfl

/-- A word that keeps the mark leaves what another leaves, and the mark. -/
theorem finish_marked (s0 s : State) (next : Word) (sw : Bool) (hm : s.thr.mode = .run) :
    finish s0 s next sw true = (finish s0 s next sw false).setThr { (finish s0 s next sw false).thr with relMark := s.thr.relMark } := by
  have hlive : s.thr.mode ≠ .killed := by rw [hm]; nofun
  have hrun : ((s.thr.countWord s0.thr.areaUse s0.thr.pc s0.thr.sup s0.thr.uh).clearSkip s0.thr.sup).mode = .run ∧
      ((s.thr.countWord s0.thr.areaUse s0.thr.pc s0.thr.sup s0.thr.uh).clearSkip s0.thr.sup).relMark = s.thr.relMark := by
    obtain ⟨_, _, _, hc, -⟩ := countWord_frame s.thr s0.thr.areaUse s0.thr.pc s0.thr.sup s0.thr.uh
    obtain ⟨_, hd, -⟩ := clearSkip_frame (s.thr.countWord s0.thr.areaUse s0.thr.pc s0.thr.sup s0.thr.uh) s0.thr.sup
    rw [hd, hc]
    exact ⟨hm, rfl⟩
  unfold finish
  rw [if_neg hlive, if_neg hlive]
  generalize (s.thr.countWord s0.thr.areaUse s0.thr.pc s0.thr.sup s0.thr.uh).clearSkip s0.thr.sup = t1 at hrun
  obtain ⟨hmode, hmark⟩ := hrun
  have hpark := enterMarker_relMark { t1 with pc := next, wordPc := s0.thr.pc, held := none, miss := none, relMark := none } t1.relMark
  dsimp only at hpark ⊢
  rw [if_pos hmode, if_pos hmode, ← hmark, if_pos rfl, if_neg Bool.false_ne_true]
  cases sw
  · simp [State.setThr, State.setSlot, State.thr]
  · rw [if_pos rfl, if_pos rfl, hpark]
    simp [State.setThr, State.setSlot, State.thr]

/-- A word that marks the next one, done within no part but the mark. -/
theorem done_of_mark {sw : Bool} {g : Guard} {x : Source} {p : Plan} {s : State} {sc : Scope} (hp : Simple p) (h : CanIssue g x s)
    (hr : p.run (popped s x) (operand s x) = .marked ((popped s x).onThr (fun t => { t with relMark := some sc }))) :
    Done 4 sw x [] s (fun t => t.thr.relMark = some sc) (issueLong sw g x p s) := by
  have hv : verdict sw g x p s = unpop s (p.run (popped s x) (operand s x)) :=
    verdict_run h (hp.admits s).sup ((hp.admits s).feat _) (by rw [hp.miss]) (by rw [hp.fault7]) (by rw [hp.held7])
  have hmode : ((popped s x).onThr (fun t => { t with relMark := some sc })).thr.mode = .run := by
    rw [State.onThr_thr]; exact (congrArg Thread.mode (popped_thr s x)).trans h.runs
  have hnext : issueLong sw g x p s = .next (finish s ((popped s x).onThr (fun t => { t with relMark := some sc }))
      (s.thr.pc + BitVec.ofNat 64 4) sw true) := by
    unfold issueLong issue
    dsimp only
    rw [if_neg (by simp [h.runs]), hv, hr]
    simp [unpop, h.quiet]
  have hmark : Keeps [.relMark] (popped s x) ((popped s x).onThr (fun t => { t with relMark := some sc })) := set_relMark_keeps _ _
  have hfinish := finish_keeps s _ (s.thr.pc + BitVec.ofNat 64 4) sw x hmode
  have hpassed := finish_passed s _ (s.thr.pc + BitVec.ofNat 64 4) sw hmode
  refine ⟨_, hnext, ?_, ?_, ?_⟩ <;> rw [finish_marked _ _ _ _ hmode]
  · obtain ⟨hpc, hm, hclears⟩ := hpassed
    constructor <;> rw [State.setThr_thr] <;> assumption
  · have hrel : Part.relMark ∈ issued sw x ++ [] := by simp [issued]
    have hall := ((popped_keeps sw s x).trans hmark (c := issued sw x ++ []) (fun _ hp => List.mem_append_left _ hp)
      (by simpa using hrel)).trans hfinish (c := issued sw x ++ [])
      (fun _ hp => hp) (fun _ hp => List.mem_append_left _ hp)
    exact hall.trans (set_relMark_keeps _ _) (fun _ hp => hp) (by simpa using hrel)
  · simp only [State.setThr_thr, State.onThr_thr]

section Run

variable {s : State} {x : Source} (hv : operand64 s x = 0) (hsc : scBad (s.thr.opw .synSc) = false)

include hv hsc

theorem synFencePlan_run : synFencePlan.run (popped s x) (operand s x) =
    let tags := fenceTags s ((s.thr.opw .synSc).setWidth 42)
    if tags = [] then .done (popped s x) else .done ((popped s x).onThr (fun t => { t with mode := .fence tags })) := by
  unfold synFencePlan
  dsimp only
  rw [synCheck_pass hv hsc, popped_fenceTags]

theorem synAcqPlan_run : synAcqPlan.run (popped s x) (operand s x) =
    if readTags s = [] then .done (acquire (popped s x) (popped s x).cur ((s.thr.opw .synSc).setWidth 42))
    else .done ((popped s x).onThr (fun t => { t with mode := .acq (readTags s) })) := by
  unfold synAcqPlan
  dsimp only
  rw [synCheck_pass hv hsc, popped_readTags]

theorem synRelPlan_run : synRelPlan.run (popped s x) (operand s x) =
    .marked ((popped s x).onThr (fun t => { t with relMark := some ((s.thr.opw .synSc).setWidth 42) })) := by
  unfold synRelPlan
  dsimp only
  rw [synCheck_pass hv hsc]

end Run

/-- Settles O24: each of the three words passes its checks, and acts or parks as the tags that it finds say. -/
theorem fenceWordsOrder : Obligations.FenceWordsOrder := by
  unfold Obligations.FenceWordsOrder
  intro sw g x s h hv hsc sc Parks
  have hfence : Simple synFencePlan := ⟨⟨rfl, rfl⟩, rfl, rfl, rfl⟩
  have hacq : Simple synAcqPlan := ⟨⟨rfl, rfl⟩, rfl, rfl, rfl⟩
  have hrun (m : Mode) (hm : ParkMode m) (p : Plan) (hp : Simple p)
      (hr : p.run (popped s x) (operand s x) = .done ((popped s x).onThr (fun t => { t with mode := m }))) : Parks m (issueLong sw g x p s) := by
    have hparks := parks_of_plan (ex := []) (P := fun _ => True) (sw := sw) h (hp.admits s) (by rw [hp.miss]) (by rw [hp.fault7]) (by rw [hp.held7]) hr
      (set_mode_keeps _ m) (State.setThr_thr .. ▸ rfl) hm (fun _ _ => trivial)
    obtain ⟨t, ho, hmode, hpc, hkept, -⟩ := hparks
    exact ⟨t, ho, hmode, hpc, by simpa using hkept⟩
  refine ⟨fun hfree => ?goes, fun hmeets => ?waits, fun hnone => ?acquires, fun hsome => ?reads, ?release⟩
  case goes =>
    exact done_of_simple hfence h ((synFencePlan_run hv hsc).trans (if_pos (fenceTags_nil.2 hfree))) (keeps_refl [] _) (by decide) (fun _ _ => trivial)
  case waits =>
    have htags : fenceTags s sc ≠ [] := fun e => by
      obtain ⟨c, hc, hmeet⟩ := hmeets
      rw [fenceTags_nil.1 e c hc] at hmeet
      cases hmeet
    exact hrun (.fence (fenceTags s sc)) ⟨nofun, nofun, nofun⟩ _ hfence ((synFencePlan_run hv hsc).trans (if_neg htags))
  case acquires =>
    refine done_of_simple hacq h ((synAcqPlan_run hv hsc).trans (if_pos hnone)) (acquire_keeps _ sc) (by decide) fun t ht => ?_
    obtain ⟨hl1, -, -⟩ : t.core.l1 = _ ∧ _ := ht.2 .l1 (not_mem_issued (p := .l1) (by decide) nofun sw x)
    have hfloor : t.thr.floor = _ := ht.2 .floor (not_mem_issued (p := .floor) (by decide) nofun sw x)
    rw [acquire_floor, popped_thr, popped_cur, popped_home, popped_src] at hfloor
    rw [hfloor]
    refine ⟨hl1, fun e he => mem_floorRels.2 (.inl he), fun r hr hpairs e he hne => mem_floorRels.2 (.inr ⟨r, ?_, he, hne⟩)⟩
    exact List.mem_filter.2 ⟨hr, hpairs⟩
  case reads =>
    exact hrun (.acq (readTags s)) ⟨nofun, nofun, nofun⟩ _ hacq ((synAcqPlan_run hv hsc).trans (if_neg hsome))
  case release =>
    exact done_of_mark ⟨⟨rfl, rfl⟩, rfl, rfl, rfl⟩ h (synRelPlan_run hv hsc)

end Sys2Proof.Proofs.Order
end

section
/-! PROOF. The words of the barriers (R308 to R310): syn.arrive, syn.wait and syn.mask, behind their checks. -/

namespace Sys2Proof.Proofs.Barriers

open Sys2Proof Sys2Proof.Machine Sys2Proof.Safety Sys2Proof.Slice0 Sys2Proof.Proofs.Words Sys2Proof.Proofs.Loads Sys2Proof.Proofs.SystemWords
  Sys2Proof.Proofs.Sending Sys2Proof.Proofs.Copies Sys2Proof.Proofs.Tracks Sys2Proof.Proofs.Tiles Sys2Proof.Proofs.Order

-- ## A popped source leaves the groups alone

theorem popped_groups (s : State) (x : Source) : selector (popped s x) = selector s ∧ selectorBad (popped s x) = selectorBad s ∧
    groupOf (popped s x) = groupOf s ∧ (popped s x).isMember = s.isMember ∧ (popped s x).threadNo = s.threadNo ∧
    (popped s x).waitAll = s.waitAll := by
  obtain ⟨l, h⟩ := popped_streams s x
  rw [h]
  exact ⟨rfl, rfl, rfl, rfl, rfl, rfl⟩

-- ## The group's record (R357)

/-- A group's record is found as it was last put back. -/
theorem groupOf_putGroup {s : State} {k : GroupKey} {g g' : Machine.Group} (h : groupOf s k = some g) (hkey : g'.key = g.key) :
    groupOf (putGroup s g') k = some g' := by
  have hg : (g.key == k) = true := List.find?_some (p := fun g : Machine.Group => g.key == k) h
  have hsame : (fun y : Machine.Group => (if y.key = g'.key then g' else y).key == k) = fun y => y.key == k := by
    funext y
    split
    · rename_i hy; rw [hy]
    · rfl
  unfold groupOf putGroup
  dsimp only
  rw [List.find?_map]
  show ((s.net.groups.find? (fun y : Machine.Group => (if y.key = g'.key then g' else y).key == k)).map _) = _
  rw [hsame]
  unfold groupOf at h
  rw [h, Option.map_some, if_pos hkey.symm]

theorem groupKey_of_groupOf {s : State} {k : GroupKey} {g : Machine.Group} (h : groupOf s k = some g) : g.key = k := by
  simpa using List.find?_some (p := fun g : Machine.Group => g.key == k) h

theorem groupOf_congr {s t : State} (h : t.net = s.net) : groupOf t = groupOf s := by
  funext k
  unfold groupOf
  rw [h]

theorem putGroup_keeps (s : State) (g : Machine.Group) : Keeps [.net] s (putGroup s g) := set_net_keeps s _

/-- A field lies in the low bits that a word keeps. -/
theorem field_setWidth {m n hi lo : Nat} {v : BitVec m} (h : hi < n) : field (v.setWidth n) hi lo = field v hi lo := by
  refine Nat.eq_of_testBit_eq fun i => ?_
  simp only [field, BitVec.toNat_setWidth, Nat.testBit_mod_two_pow, Nat.testBit_shiftRight]
  by_cases hi' : i < hi + 1 - lo
  · have hin : lo + i < n := by omega
    simp [hi', hin]
  · simp [hi']

-- ## syn.arrive (R308)

/-- The release write that an arrival is, on its way to its group. -/
def arrivalReq (s : State) (k : GroupKey) (g : Machine.Group) : Req :=
  { slot := some s.cur, src := s.src s.cur, tag := s.nextId, counted := false, kind := .arrive k, loc := 0, va := 0, known := s.thr.floor
    rel := some { scope := g.rect.setWidth 42, core := some s.home, src := s.src s.cur, rel := relOf s s.cur }, waits := s.waitAll }

/-- The thread behind its arrival. -/
def arriveThread (s : State) (k : GroupKey) (g : Machine.Group) : Thread :=
  { s.thr with psq := s.thr.psq ++ [arrivalReq s k g], arrivals := (k, g.gen) :: s.thr.arrivals.filter (fun x => x.1 != k) }

theorem arriveThread_keeps (s : State) (k : GroupKey) (g : Machine.Group) : Keeps [.psq, .arrivals, .ids] s (s.bump.setThr (arriveThread s k g)) := by
  refine ⟨rfl, fun p hp => ?_⟩
  cases p with
  | others => exact fun i hi => setThr_other s _ i hi
  | psq | arrivals | ids => simp at hp
  | _ => simp [same, arriveThread, Thread.pred, Thread.opq, Thread.rpq]

theorem popped_arrivalReq (s : State) (x : Source) (k : GroupKey) (g : Machine.Group) : arrivalReq (popped s x) k g = arrivalReq s k g := by
  obtain ⟨-, -, -, -, -, hwaits⟩ := popped_groups s x
  simp only [arrivalReq, popped_cur, popped_src, popped_nextId, popped_thr, popped_home, popped_relOf, hwaits]

section Words

variable {s : State} {v : Quad} {g : Machine.Group} {k : GroupKey} (hk : selector s (low64 v) = k) (hbits : field (low64 v) 63 9 = 0)
  (hbad : selectorBad s k.wide k.grp = false) (hgroup : groupOf s k = some g)

include hk hbits hbad hgroup

/-- A member that has not arrived, and has no arrival on its way, arrives. -/
theorem synArrivePlan_run (huh : s.thr.uh = false) (hmember : s.isMember g (s.threadNo s.cur) = true)
    (hnew : g.arrived.any (fun y => y.1 == s.threadNo s.cur) = false)
    (hway : (pendingReqs s s.cur).any (fun r => match r.kind with | .arrive k' => k' == k | _ => false) = false) :
    synArrivePlan.run s v = .done (s.bump.setThr (arriveThread s k g)) := by
  have hchecks : ¬ (field (low64 v) 63 9 ≠ 0 ∨ selectorBad s k.wide k.grp = true ∨ s.thr.uh = true) := by simp [hbits, hbad, huh]
  unfold synArrivePlan
  dsimp only
  rw [hk, if_neg hchecks, hgroup]
  dsimp only
  rw [hmember, hnew]
  refine (if_neg (by decide)).trans ((if_neg fun hheld => ?_).trans ?_)
  · exact Bool.false_ne_true (hway.symm.trans ((Bool.false_or _).symm.trans hheld))
  · simp only [sendOther, Bool.false_eq_true, if_false, State.onThr, State.setThr_thr, setThr_setThr]
    rfl

/-- A wait on the generation of the thread's arrival is owed: on a closed one it is answered, on an open one it is listed. -/
theorem synWaitPlan_run {k' : GroupKey} {gen : Nat} (harrived : s.thr.arrivals.find? (fun y => y.1 == k) = some (k', gen)) :
    synWaitPlan.run s v =
      let s1 := s.bump.setThr (s.thr.owe s.nextId [.synO] false none)
      if gen < g.gen then .done (deliverWait s1 g s.cur s.nextId gen)
      else .done (putGroup s1 { g with waits := g.waits ++ [(s.cur, s.nextId, gen)] }) := by
  have hchecks : ¬ (field (low64 v) 63 9 ≠ 0 ∨ selectorBad s k.wide k.grp = true) := by simp [hbits, hbad]
  unfold synWaitPlan
  dsimp only
  rw [hk, if_neg hchecks, hgroup, harrived]

/-- A legal mask acts at once where no member has arrived, and else is kept with the group. -/
theorem synMaskPlan_run (h0 : field s.thr.x[(0 : Fin 4)] 63 40 = 0) (h1 : field s.thr.x[(1 : Fin 4)] 63 8 = 0)
    (hdie : k.wide = false → field s.thr.x[(0 : Fin 4)] 9 0 / 256 = dieOf s.home % 4 ∧ field s.thr.x[(0 : Fin 4)] 29 20 / 256 = dieOf s.home % 4 ∧
      field s.thr.x[(0 : Fin 4)] 19 10 / 256 = dieOf s.home / 4 ∧ field s.thr.x[(0 : Fin 4)] 39 30 / 256 = dieOf s.home / 4)
    (hx : field s.thr.x[(0 : Fin 4)] 9 0 ≤ field s.thr.x[(0 : Fin 4)] 29 20) (hy : field s.thr.x[(0 : Fin 4)] 19 10 ≤ field s.thr.x[(0 : Fin 4)] 39 30) :
    synMaskPlan.run s v =
      let rect : BitVec 40 := s.thr.x[(0 : Fin 4)].setWidth 40
      let mask : Byte := s.thr.x[(1 : Fin 4)].setWidth 8
      if g.arrived = [] then .done (applyMask s g rect mask) else .done (putGroup s { g with pending := some (rect, mask) }) := by
  have hchecks : ¬ (field (low64 v) 63 9 ≠ 0 ∨ selectorBad s k.wide k.grp = true ∨ field s.thr.x[(0 : Fin 4)] 63 40 ≠ 0 ∨
      field s.thr.x[(1 : Fin 4)] 63 8 ≠ 0 ∨ field s.thr.x[(0 : Fin 4)] 29 20 < field s.thr.x[(0 : Fin 4)] 9 0 ∨
      field s.thr.x[(0 : Fin 4)] 39 30 < field s.thr.x[(0 : Fin 4)] 19 10 ∨ (k.wide = false ∧
        (decide (field s.thr.x[(0 : Fin 4)] 9 0 / 256 = dieOf s.home % 4) && decide (field s.thr.x[(0 : Fin 4)] 29 20 / 256 = dieOf s.home % 4) &&
         decide (field s.thr.x[(0 : Fin 4)] 19 10 / 256 = dieOf s.home / 4) && decide (field s.thr.x[(0 : Fin 4)] 39 30 / 256 = dieOf s.home / 4)) =
          false)) := by
    rintro (h | h | h | h | h | h | ⟨hwide, h⟩)
    · exact h hbits
    · rw [hbad] at h; cases h
    · exact h h0
    · exact h h1
    · omega
    · omega
    · obtain ⟨ha, hb, hc, hd⟩ := hdie hwide
      rw [decide_eq_true ha, decide_eq_true hb, decide_eq_true hc, decide_eq_true hd] at h
      cases h
  unfold synMaskPlan
  dsimp only
  rw [hk]
  repeat rw [field_setWidth (n := 40) (by decide)]
  rw [if_neg hchecks, hgroup]
  rfl

end Words

-- ## syn.wait on a closed generation (R309)

/-- The Rels of a closed generation. -/
def pastRels (g : Machine.Group) (gen : Nat) : List Release := (g.past.filter (fun p => p.1 == gen)).flatMap (·.2)

/-- A wait's value: its generation. -/
def waitVal (gen : Nat) : PortVal := { port := .synO, val := BitVec.ofNat 128 (gen % 2 ^ 32), mark := none }

theorem deliverWait_cur (s : State) (g : Machine.Group) (tag gen : Nat) : deliverWait s g s.cur tag gen =
    (s.setThr ({ s.thr with floor := floorRels s.thr.floor (pastRels g gen) }.fill tag [waitVal gen] none)).onCore
      (fun c => { c with l1 := [], l1bad := [] }) := rfl

theorem deliverWait_thr (s : State) (g : Machine.Group) (tag gen : Nat) : (deliverWait s g s.cur tag gen).thr =
    { s.thr with floor := floorRels s.thr.floor (pastRels g gen) }.fill tag [waitVal gen] none := by
  rw [deliverWait_cur, State.onCore_thr, State.setThr_thr]

theorem deliverWait_keeps (s : State) (g : Machine.Group) (tag gen : Nat) : Keeps [.owed, .floor, .l1] s (deliverWait s g s.cur tag gen) := by
  rw [deliverWait_cur]
  have hfloor := set_floor_keeps s (floorRels s.thr.floor (pastRels g gen))
  have hfill := hfloor.trans (fill_keeps _ tag [waitVal gen] none [] []) (c := [.owed, .floor]) (by simp) (by simp)
  rw [setThr_setThr, State.setThr_thr] at hfill
  exact hfill.trans (set_l1_keeps _ [] []) (by simp +contextual [or_imp]) (by simp)

/-- Settles O25: each word's run, from its checks behind it, and what that leaves of the thread, the core and the group. -/
theorem barrierWordsAct : Obligations.BarrierWordsAct := by
  unfold Obligations.BarrierWordsAct
  intro sw g x s grp h k hbits hbad hgroup
  obtain ⟨hsel, hselbad, hgroups, hmem, hnum, hwaits⟩ := popped_groups s x
  have hk : selector (popped s x) (low64 (operand s x)) = k := congrFun hsel _
  have hbad' : selectorBad (popped s x) k.wide k.grp = false := hselbad ▸ hbad
  have hgroup' : groupOf (popped s x) k = some grp := hgroups ▸ hgroup
  have hwait : Simple synWaitPlan := ⟨⟨rfl, rfl⟩, rfl, rfl, rfl⟩
  have hkowe : Keeps [.owed, .fence, .ids] (popped s x) ((popped s x).bump.setThr ((popped s x).thr.owe (popped s x).nextId [.synO] false none)) :=
    (owe_keeps _ _ _ _ _).trans (bump_keeps _) (by simp +contextual [or_imp]) (by simp)
  refine ⟨fun huh hmember hnew hway => ?arrive, fun k' gen harrived => ⟨fun hclosed => ?closed, fun hopen => ?opened⟩, ?mask⟩
  case arrive =>
    have hrun := synArrivePlan_run hk hbits hbad' hgroup' (popped_thr s x ▸ huh) (by rw [hmem, hnum, popped_cur]; exact hmember)
      (by rw [hnum, popped_cur]; exact hnew) (by rw [popped_cur, popped_pendingReqs]; exact hway)
    refine done_of_simple ⟨⟨rfl, rfl⟩, rfl, rfl, rfl⟩ h hrun (arriveThread_keeps _ _ _) (by decide) fun t ht => ?_
    have hpsq : t.thr.psq = _ := ht.2 .psq (not_mem_issued (p := .psq) (by decide) nofun sw x)
    have harr : t.thr.arrivals = _ := ht.2 .arrivals (not_mem_issued (p := .arrivals) (by decide) nofun sw x)
    rw [State.setThr_thr, arriveThread, popped_thr, popped_arrivalReq] at hpsq
    rw [State.setThr_thr, arriveThread, popped_thr] at harr
    exact ⟨⟨_, hpsq, rfl, rfl, rfl, rfl, rfl⟩, harr⟩
  case closed =>
    have hrun := (synWaitPlan_run hk hbits hbad' hgroup' (popped_thr s x ▸ harrived)).trans (if_pos hclosed)
    have hkeeps := hkowe.trans (deliverWait_keeps _ grp (popped s x).nextId gen) (c := [.owed, .fence, .floor, .l1, .ids])
      (by simp +contextual [or_imp]) (by simp +contextual [or_imp])
    refine done_of_simple hwait h hrun hkeeps (by decide) fun t ht => ?_
    obtain ⟨hl1, -, -⟩ : t.core.l1 = _ ∧ _ := ht.2 .l1 (not_mem_issued (p := .l1) (by decide) nofun sw x)
    have hfloor : t.thr.floor = _ := ht.2 .floor (not_mem_issued (p := .floor) (by decide) nofun sw x)
    have howed : t.thr.owed = _ := ht.2 .owed (not_mem_issued (p := .owed) (by decide) nofun sw x)
    have hthr : (deliverWait ((popped s x).bump.setThr ((popped s x).thr.owe (popped s x).nextId [.synO] false none)) grp (popped s x).cur
        (popped s x).nextId gen).thr = _ := deliverWait_thr _ grp _ gen
    rw [State.setThr_thr, popped_thr, popped_nextId] at hthr
    rw [popped_thr, popped_nextId, hthr] at hfloor howed
    replace hfloor : t.thr.floor = floorRels s.thr.floor (pastRels grp gen) := hfloor
    rw [Thread.fill, Thread.owe, List.map_append, List.map_cons, List.map_nil, if_pos rfl] at howed
    refine ⟨hl1, fun e he => ?_, fun p hp hgen r hr e he hne => ?_, _, by rw [howed]; exact List.getLast?_concat, rfl, rfl, rfl⟩
    · rw [hfloor]; exact mem_floorRels.2 (.inl he)
    · rw [hfloor]
      exact mem_floorRels.2 (.inr ⟨r, List.mem_flatMap.2 ⟨p, List.mem_filter.2 ⟨hp, by simp [hgen]⟩, hr⟩, he, hne⟩)
  case opened =>
    have hrun := (synWaitPlan_run hk hbits hbad' hgroup' (popped_thr s x ▸ harrived)).trans (if_neg (Nat.not_lt.2 hopen))
    have hkeeps := hkowe.trans (putGroup_keeps _ { grp with waits := grp.waits ++ [((popped s x).cur, (popped s x).nextId, gen)] })
      (c := [.owed, .fence, .net, .ids]) (by simp +contextual [or_imp]) (by simp)
    refine done_of_simple hwait h hrun hkeeps (by decide) fun t ht => ?_
    have howed : t.thr.owed = _ := ht.2 .owed (not_mem_issued (p := .owed) (by decide) nofun sw x)
    have hnet : t.net = _ := ht.2 .net (not_mem_issued (p := .net) (by decide) nofun sw x)
    have hput := groupOf_putGroup (s := (popped s x).bump.setThr ((popped s x).thr.owe (popped s x).nextId [.synO] false none)) hgroup'
      (g' := { grp with waits := grp.waits ++ [((popped s x).cur, (popped s x).nextId, gen)] }) rfl
    have howed' : t.thr.owed = ((popped s x).bump.setThr ((popped s x).thr.owe (popped s x).nextId [.synO] false none)).thr.owed := howed
    rw [State.setThr_thr, popped_thr, popped_nextId] at howed'
    refine ⟨owes_of_owed howed' rfl rfl, ?_⟩
    rw [groupOf_congr hnet, ← popped_cur s x, ← popped_nextId s x]
    exact hput
  case mask =>
    intro x0 x1 hsup h0 h1 hdie hx hy
    have hx01 : (popped s x).thr.x = s.thr.x := congrArg Thread.x (popped_thr s x)
    have hrun := synMaskPlan_run hk hbits hbad' hgroup' (by rw [hx01]; exact h0) (by rw [hx01]; exact h1)
      (by rw [hx01, popped_home]; exact hdie) (by rw [hx01]; exact hx) (by rw [hx01]; exact hy)
    rw [hx01] at hrun
    have hadmits : Admits synMaskPlan s := ⟨fun _ => hsup, nofun⟩
    refine ⟨fun hsome => ?kept, fun hnone => ?now⟩
    case now => exact issue_done h hadmits.sup (hadmits.feat _) rfl rfl rfl (hrun.trans (if_pos hnone))
    case kept =>
      refine done_of_plan h hadmits rfl rfl rfl (hrun.trans (if_neg hsome)) (putGroup_keeps _ _) (congrArg Thread.mode (popped_thr s x)) fun t ht => ?_
      have hnet : t.net = _ := ht.2 .net (not_mem_issued (p := .net) (by decide) nofun sw x)
      rw [groupOf_congr hnet]
      exact groupOf_putGroup hgroup' rfl

end Sys2Proof.Proofs.Barriers
end

section
/-! PROOF. msg.send, msg.recv and msg.any (R318, R322 to R327): a message on its way, and a receive that takes one or waits. -/

namespace Sys2Proof.Proofs.Messages

open Sys2Proof Sys2Proof.Machine Sys2Proof.Safety Sys2Proof.Slice0 Sys2Proof.Proofs.Words Sys2Proof.Proofs.Loads Sys2Proof.Proofs.SystemWords
  Sys2Proof.Proofs.Sending Sys2Proof.Proofs.Copies Sys2Proof.Proofs.Tracks Sys2Proof.Proofs.Tiles Sys2Proof.Proofs.Order Sys2Proof.Proofs.Barriers

-- ## The earliest message (R317, R325)

theorem earliest_congr {s t : State} (h : t.core.arrivals = s.core.arrivals) (p : Message → Bool) (l : List Message) :
    earliest t p l = earliest s p l := by
  have hage : age t = age s := by funext m; simp only [age, h]
  induction l with
  | nil => rfl
  | cons m l ih =>
    unfold earliest
    rw [ih, hage]

theorem earliest_mem {s : State} {p : Message → Bool} {l : List Message} {m : Message} (h : earliest s p l = some m) : m ∈ l := by
  induction l generalizing m with
  | nil => cases h
  | cons y l ih =>
    unfold earliest at h
    split at h
    · split at h
      · cases h; exact .head _
      · cases h
    · rename_i z hz
      split at h
      · cases h; exact .head _
      · cases h; exact .tail _ (ih hz)

/-- With nothing spilled, a message taken leaves its mailbox alone changed. -/
theorem takeMessage_of_mail {s : State} {m : Message} (hm : m ∈ s.core.mail) (hspill : s.core.spill = []) :
    takeMessage s m = s.onCore (fun c => { c with mail := c.mail.erase m }) := by
  have hin : s.core.mail.contains m = true := List.contains_iff_mem.2 hm
  unfold takeMessage
  rw [if_pos hin]
  simp [refill, hspill, earliest]

-- ## Receives (R326, R327)

/-- A receive of a slot, owed and in wait. -/
def owedReceive (s : State) : State := s.bump.setThr (s.thr.owe s.nextId [.msgO, .msgId] false none)

theorem owedReceive_keeps (s : State) : Keeps [.owed, .fence, .ids] s (owedReceive s) :=
  (owe_keeps s s.nextId [.msgO, .msgId] false none).trans (bump_keeps _) (by simp +contextual [or_imp]) (by simp)

theorem earliest_owedReceive (s : State) (p : Message → Bool) (l : List Message) : earliest (owedReceive s) p l = earliest s p l :=
  earliest_congr (s := s) (t := owedReceive s) rfl p l

theorem set_mail_keeps (s : State) (mail : List Message) (receives : List Receive) :
    Keeps [.mail] s (s.onCore (fun c => { c with mail, receives })) := by
  refine ⟨rfl, fun p hp => ?_⟩
  cases p with
  | mail => simp at hp
  | _ => exact (keeps_refl [.mail] s).2 _ hp

/-- What a received message brings to its receive's ports. -/
def messageVals (m : Message) : List PortVal :=
  [{ port := .msgO, val := m.data, mark := none }, { port := .msgId, val := quad m.id, mark := none }]

section Receive

variable {s : State} {ident : Option Word} {mask : BitVec 16} (hroom : (s.thr.owed.filter (fun o => o.ports.contains .msgO)).length < 4)

include hroom

/-- With no message that fits, a receive is listed. -/
theorem receive_waits (hnone : earliest s (fun m => ({ slot := s.cur, tag := s.nextId, ident, mask } : Receive).takes m.id)
      (s.core.mail ++ s.core.spill.map (·.2)) = none) :
    receive s ident mask = .done ((owedReceive s).onCore (fun c =>
      { c with receives := c.receives ++ [{ slot := s.cur, tag := s.nextId, ident, mask }] })) := by
  unfold receive
  dsimp only
  rw [if_neg (Nat.not_le.2 hroom)]
  have hnone' : earliest (owedReceive s) (fun m => ({ slot := s.cur, tag := s.nextId, ident, mask } : Receive).takes m.id)
    ((owedReceive s).core.mail ++ (owedReceive s).core.spill.map (·.2)) = none := (earliest_owedReceive _ _ _).trans hnone
  rw [show (s.bump.setThr (s.thr.owe s.nextId [.msgO, .msgId] false none)) = owedReceive s from rfl, hnone']

/-- A receive takes the earliest message in the mailboxes that fits. -/
theorem receive_takes {m : Message} (hspill : s.core.spill = [])
    (hsome : earliest s (fun m => ({ slot := s.cur, tag := s.nextId, ident, mask } : Receive).takes m.id) s.core.mail = some m) :
    receive s ident mask = .done (((owedReceive s).onCore (fun c => { c with mail := c.mail.erase m })).onThr (fun t =>
      t.fill s.nextId (messageVals m) none [] m.rel.toList)) := by
  have hsome' : earliest (owedReceive s) (fun m => ({ slot := s.cur, tag := s.nextId, ident, mask } : Receive).takes m.id)
    ((owedReceive s).core.mail ++ (owedReceive s).core.spill.map (·.2)) = some m := by
    rw [earliest_owedReceive, show (owedReceive s).core = s.core from rfl, hspill, List.map_nil, List.append_nil]; exact hsome
  unfold receive
  dsimp only
  rw [if_neg (Nat.not_le.2 hroom),
    show (s.bump.setThr (s.thr.owe s.nextId [.msgO, .msgId] false none)) = owedReceive s from rfl, hsome']
  dsimp only
  rw [takeMessage_of_mail (s := owedReceive s) (earliest_mem hsome) hspill]
  rfl

end Receive

theorem popped_mail (s : State) (x : Source) : (popped s x).core.mail = s.core.mail ∧ (popped s x).core.spill = s.core.spill ∧
    (popped s x).core.arrivals = s.core.arrivals ∧ (popped s x).core.receives = s.core.receives ∧
    logicalBad (popped s x) = logicalBad s ∧ shapeOf (popped s x) = shapeOf s ∧ sendFault (popped s x) = sendFault s := by
  obtain ⟨l, h⟩ := popped_streams s x
  rw [h]
  exact ⟨rfl, rfl, rfl, rfl, rfl, rfl, rfl⟩

section Word

variable {sw : Bool} {g : Guard} {x : Source} {s : State} {p : Plan} {ident : Option Word} {mask : BitVec 16}

/-- A word whose run is a receive waits where no message fits, and else takes the earliest. -/
theorem receives_of_run (h : CanIssue g x s) (ha : Admits p s) (hw : p.miss s = none) (h7 : p.fault7 s = none) (hh : p.held7 s = false)
    (hroom : (s.thr.owed.filter (fun o => o.ports.contains .msgO)).length < 4)
    (hr : p.run (popped s x) (operand s x) = receive (popped s x) ident mask) :
    let r : Receive := { slot := s.cur, tag := s.nextId, ident, mask }
    (earliest s (fun m => r.takes m.id) (s.core.mail ++ s.core.spill.map (·.2)) = none →
      Done 4 sw x [.mail, .owed, .fence, .ids] s (fun t => Owes [.msgO, .msgId] s t ∧ t.core.receives = s.core.receives ++ [r] ∧ t.core.mail = s.core.mail)
        (issueLong sw g x p s)) ∧
    (∀ m, s.core.spill = [] → earliest s (fun m => r.takes m.id) s.core.mail = some m →
      Done 4 sw x [.mail, .owed, .fence, .ids] s (fun t => t.core.mail = s.core.mail.erase m ∧ t.core.receives = s.core.receives ∧
        ∃ w : Owed, t.thr.owed.getLast? = some w ∧ w.tag = s.nextId ∧ w.ports = [.msgO, .msgId] ∧ w.vals = some (messageVals m))
        (issueLong sw g x p s)) := by
  obtain ⟨hmail, hspill, harrivals, hreceives, -⟩ := popped_mail s x
  have hroom' : ((popped s x).thr.owed.filter (fun o => o.ports.contains .msgO)).length < 4 := popped_thr s x ▸ hroom
  have howed : (owedReceive (popped s x)).thr.owed = (s.thr.owe s.nextId [.msgO, .msgId] false none).owed := by
    rw [owedReceive, State.setThr_thr, popped_thr, popped_nextId]
  have hmode : (owedReceive (popped s x)).thr.mode = s.thr.mode := by
    rw [owedReceive, State.setThr_thr, popped_thr]; rfl
  intro r
  refine ⟨fun hnone => ?waits, fun m hempty hsome => ?takes⟩
  case waits =>
    have hrun := hr.trans (receive_waits hroom' (by rw [earliest_congr harrivals, hmail, hspill, popped_cur, popped_nextId]; exact hnone))
    have hk := (owedReceive_keeps (popped s x)).trans (set_mail_keeps _ (owedReceive (popped s x)).core.mail ((owedReceive (popped s x)).core.receives ++
      [{ slot := (popped s x).cur, tag := (popped s x).nextId, ident, mask }])) (c := [.mail, .owed, .fence, .ids]) (by simp +contextual) (by simp)
    refine done_of_plan h ha hw h7 hh hrun hk hmode fun t ht => ?_
    have howed' : t.thr.owed = (owedReceive (popped s x)).thr.owed := ht.2 .owed (not_mem_issued (p := .owed) (by decide) nofun sw x)
    obtain ⟨htmail, -, -, -, htrec⟩ : t.core.mail = (popped s x).core.mail ∧ _ ∧ _ ∧ _ ∧ t.core.receives = (popped s x).core.receives ++ _ :=
      ht.2 .mail (not_mem_issued (p := .mail) (by decide) nofun sw x)
    rw [hreceives, popped_cur, popped_nextId] at htrec
    exact ⟨owes_of_owed (howed'.trans howed) rfl rfl, htrec, htmail.trans hmail⟩
  case takes =>
    have hrun := hr.trans (receive_takes hroom' (hspill.trans hempty)
      (by rw [earliest_congr harrivals, hmail, popped_cur, popped_nextId]; exact hsome))
    have hk := ((owedReceive_keeps (popped s x)).trans (set_mail_keeps _ ((owedReceive (popped s x)).core.mail.erase m) (owedReceive (popped s x)).core.receives)
      (c := [.mail, .owed, .fence, .ids]) (by simp +contextual) (by simp)).trans
      (fill_keeps _ (popped s x).nextId (messageVals m) none [] m.rel.toList) (fun _ hp => hp) (by simp)
    refine done_of_plan h ha hw h7 hh hrun hk (by rw [State.onThr_thr]; exact hmode) fun t ht => ?_
    have howed' : t.thr.owed = _ := ht.2 .owed (not_mem_issued (p := .owed) (by decide) nofun sw x)
    obtain ⟨htmail, -, -, -, htrec⟩ : t.core.mail = (popped s x).core.mail.erase m ∧ _ ∧ _ ∧ _ ∧ t.core.receives = (popped s x).core.receives :=
      ht.2 .mail (not_mem_issued (p := .mail) (by decide) nofun sw x)
    rw [State.onThr_thr, State.onCore_thr, Thread.fill, howed, Thread.owe, popped_nextId, List.map_append, List.map_cons, List.map_nil,
      if_pos rfl] at howed'
    exact ⟨htmail.trans (by rw [hmail]), htrec.trans hreceives, _, by rw [howed']; exact List.getLast?_concat, rfl, rfl, rfl⟩

end Word

-- ## msg.send (R322 to R324)

/-- The thread behind a counted request that waits in its queue. -/
def countedSend (s : State) (o : Op) (target : Word) (reach : Reach) (r : Req) : Thread :=
  { ((s.thr.ringTake s.nextId (some o) target).count s.nextId reach) with psq := s.thr.psq ++ [r] }

theorem countedSend_keeps (s : State) (o : Op) (target : Word) (reach : Reach) (r : Req) :
    Keeps [.psq, .counted, .ring, .cr crSeq, .ids] s (s.bump.setThr (countedSend s o target reach r)) := by
  refine ⟨rfl, fun p hp => ?_⟩
  cases p with
  | others => exact fun i hi => setThr_other s _ i hi
  | psq | counted | ring | ids => simp at hp
  | cr i =>
    have hi : i ≠ crSeq := by rintro rfl; simp at hp
    simp only [same, State.setThr_thr, countedSend, Thread.count, Thread.ringTake_cr, vector_set_other _ _ hi]
  | _ => simp [same, countedSend, Thread.count, Thread.pred, Thread.opq, Thread.rpq]

/-- The core to which a message's value sends it, and its request. -/
def messageReq (s : State) (v : Word) : Req :=
  { slot := some s.cur, src := s.src s.cur, tag := s.nextId, counted := true
    kind := .msg (v.getLsbD 63) (field v 59 40) (if v.getLsbD 63 then coreNum (field v 29 20) (field v 39 30) else field v 39 20)
      (sendId s.thr (field v 3 0)) (s.thr.opq .msgD)
    loc := 0, va := 0, known := s.thr.floor
    rel := some { scope := 0, core := some s.home, src := s.src s.cur, rel := relOf s s.cur }, waits := s.waitAll }

/-- Where the message's effects may be seen, which its count carries (R301). -/
def messageReach (s : State) (v : Word) : Reach :=
  if v.getLsbD 63 then .core (coreNum (field v 29 20) (field v 39 30))
  else match namedCore s (field v 59 40) (field v 39 20) with | some c => .core c | none => .module

theorem msgSendPlan_run {s : State} {q : Quad} (hfault : sendFault s (low64 q) = none) (hring : s.thr.ringFull = false) :
    msgSendPlan.run s q =
      .done (s.bump.setThr (countedSend s .msgSend (low64 q) (messageReach s (low64 q)) (messageReq s (low64 q)))) := by
  have hsend (reach : Reach) : sendOther s .msgSend (low64 q) (messageReq s (low64 q)).kind true reach (messageReq s (low64 q)).rel s.waitAll =
    s.bump.setThr (countedSend s .msgSend (low64 q) reach (messageReq s (low64 q))) := rfl
  unfold msgSendPlan
  dsimp only
  rw [hfault]
  dsimp only
  rw [hring, if_neg Bool.false_ne_true]
  rw [← hsend]
  simp only [messageReach, messageReq]
  split <;> rfl

/-- Settles O39: msg.send's run sends, and the two receiving words share one run. -/
theorem messageWordsAct : Obligations.MessageWordsAct := by
  unfold Obligations.MessageWordsAct
  intro sw g x s h v Receives
  obtain ⟨-, -, -, -, hlogical, hshape, hsendFault⟩ := popped_mail s x
  refine ⟨fun hfault hring => ?send, fun hroom => ⟨fun h63 hlog hslot => ?recv, fun hsup hbits hv => ?any⟩⟩
  case send =>
    have hrun := msgSendPlan_run (s := popped s x) (q := operand s x) (by rw [hsendFault]; exact hfault) (popped_thr s x ▸ hring)
    refine done_of_simple ⟨⟨rfl, rfl⟩, rfl, rfl, rfl⟩ h hrun (countedSend_keeps _ _ _ _ _) (by decide) fun t ht => ?_
    have hpsq : t.thr.psq = _ := ht.2 .psq (not_mem_issued (p := .psq) (by decide) nofun sw x)
    have hcounted : t.thr.counted = _ := ht.2 .counted (not_mem_issued (p := .counted) (by decide) nofun sw x)
    rw [State.setThr_thr, countedSend, popped_thr] at hpsq hcounted
    refine ⟨⟨messageReq (popped s x) v, hpsq, popped_nextId s x, congrArg some (popped_cur s x), (popped_groups s x).2.2.2.2.2, ?_⟩, ?_⟩
    · rw [messageReq, popped_thr]
    · simp [hcounted, Thread.count, popped_nextId]
  case recv =>
    have hchecks : ¬ (v.getLsbD 63 = true ∨ logicalBad s (field v 55 36) (field v 35 16) = true ∨ (shapeOf s).2.2 ≤ field v 58 56) := by
      rintro (h | h | h)
      · rw [h63] at h; cases h
      · rw [hlog] at h; cases h
      · omega
    refine receives_of_run (p := msgRecvPlan) h ⟨nofun, nofun⟩ rfl rfl rfl hroom ?_
    unfold msgRecvPlan
    dsimp only
    rw [hlogical, hshape, if_neg hchecks]
  case any =>
    refine receives_of_run (p := msgAnyPlan) h ⟨fun _ => hsup, nofun⟩ rfl rfl rfl hroom ?_
    unfold msgAnyPlan
    dsimp only
    rw [if_neg (by rintro (hb | hz); exacts [hb hbits, hv hz])]

end Sys2Proof.Proofs.Messages
end

section
/-! PROOF. The vector sequencer (R250, R251): vec.rec, the words that a capture takes or refuses, and vec.run. -/

namespace Sys2Proof.Proofs.Sequencer

open Sys2Proof Sys2Proof.Machine Sys2Proof.Safety Sys2Proof.Slice0 Sys2Proof.Proofs.Words Sys2Proof.Proofs.Loads Sys2Proof.Proofs.SystemWords
  Sys2Proof.Proofs.Sending Sys2Proof.Proofs.Tiles Sys2Proof.Proofs.Streams Sys2Proof.Proofs.Values

theorem set_seqr_keeps (s : State) (q : Sequencer) : Keeps [.seqr] s (s.setThr { s.thr with seqr := q }) := by
  refine ⟨rfl, fun p hp => ?_⟩
  cases p with
  | others => exact fun i hi => setThr_other s _ i hi
  | seqr => simp at hp
  | _ => simp [same, Thread.pred, Thread.opq, Thread.rpq]

-- ## vec.rec (R250)

theorem vecRecPlan_run {s : State} {v : Quad} {m : Nat} (h0 : 0 < m) (h16 : m ≤ 16) (hv : low64 v = BitVec.ofNat 64 m) :
    vecRecPlan.run s v = .done (s.onThr (fun t => { t with seqr := { t.seqr with left := m, buf := [], paused := 0 } })) := by
  have hm : (low64 v).toNat = m := by rw [hv, BitVec.toNat_ofNat]; omega
  simp only [vecRecPlan, hm]
  rw [if_neg (by omega)]

-- ## Words under a capture (R250)

section Capture

variable {len : Nat} {sw : Bool} {g : Guard} {x : Source} {p : Plan} {s : State} (hmode : s.thr.mode = .run) (hleft : s.thr.seqr.left ≠ 0)
  (hpaused : s.thr.seqr.paused = 0)

include hleft hpaused in
/-- An open capture comes before everything else that a word is checked for. -/
theorem verdict_of_capture : verdict sw g x p s = capture s sw g x p := if_pos ⟨hleft, hpaused⟩

/-- The source that a capture keeps. -/
theorem capSource_of_captures {k : CapSrc} (h : Captures x s k) : capSource x = some k := by
  rcases h with ⟨i, rfl, rfl⟩ | ⟨i, rfl, rfl⟩ | ⟨rfl, rfl⟩ | ⟨⟨v, rfl⟩ | ⟨v, rfl⟩ | ⟨v, rfl⟩, rfl⟩
  · rfl
  · rfl
  · rfl
  all_goals
    simp [capSource, operand64, operand, readSource, low64, quad]

include hmode hleft hpaused

/-- A word that the capture admits joins its buffer, and has no effect. -/
theorem joins_of_capture {k : CapSrc} {d : CapDest} (hquiet : s.thr.event? = none) (hsrc : capSource x = some k) (hdst : p.cap = some d) :
    Done len false .pc [.seqr] s (fun t => t.thr.seqr = { s.thr.seqr with left := s.thr.seqr.left - 1, buf := s.thr.seqr.buf ++ [{ src := k, dst := d }] })
      (issue len false .always x p s) := by
  have hk := set_seqr_keeps s { s.thr.seqr with left := s.thr.seqr.left - 1, buf := s.thr.seqr.buf ++ [{ src := k, dst := d }] }
  have hcapture : verdict false .always x p s = .done (s.setThr { s.thr with seqr :=
      { s.thr.seqr with left := s.thr.seqr.left - 1, buf := s.thr.seqr.buf ++ [{ src := k, dst := d }] } }) := by
    rw [verdict_of_capture hleft hpaused]
    unfold capture
    dsimp only
    rw [hsrc, hdst]
  have hrun : (s.setThr { s.thr with seqr := { s.thr.seqr with left := s.thr.seqr.left - 1, buf := s.thr.seqr.buf ++ [{ src := k, dst := d }] } }).thr.mode =
      .run := by rw [State.setThr_thr]; exact hmode
  obtain ⟨hpassed, hkeeps⟩ := finish_done false .pc (s.thr.pc + BitVec.ofNat 64 len) (s := s) hk hrun
  refine ⟨_, ?_, hpassed, hkeeps, ?_⟩
  · simp [issue, hmode, hcapture, hquiet]
  · obtain ⟨-, -, -, -, -, -, -, -, -, -, -, hseqr, -⟩ := finish_thr s _ (s.thr.pc + BitVec.ofNat 64 len) false hrun
    rw [hseqr, State.setThr_thr]

/-- A word that the capture refuses raises reserved port, and the capture ends. -/
theorem ends_of_capture (h : sw = true ∨ g ≠ .always ∨ ∃ i, x = .w i) : issue len sw g x p s =
    takePrecise (s.setThr { s.thr with seqr := { s.thr.seqr with left := 0, buf := [] } }) s.cur reservedPort := by
  have hcapture : capture s sw g x p = .trap (s.setThr { s.thr with seqr := { s.thr.seqr with left := 0, buf := [] } }) reservedPort := by
    unfold capture
    dsimp only
    split
    · rename_i hsrc _
      rcases h with h | h | ⟨i, rfl⟩
      · cases h
      · exact absurd rfl h
      · cases hsrc
    · rfl
  simp [issue, hmode, verdict_of_capture hleft hpaused, hcapture]

end Capture

-- ## vec.run (R251)

/-- A run at its start, with what its trigger samples. -/
def newRun (s : State) (n : Nat) : Run :=
  { n, it := 1, j := 0, clamp := false, tag := s.nextId, seq := (s.thr.ringTake s.nextId (some .vecRun) 0).seqOf s.nextId
    fmt := s.thr.cr[crFmt], area := s.thr.areaUse, sup := s.thr.sup }

/-- The thread behind a vec.run: a ring entry, and its run. -/
def runThread (s : State) (n : Nat) : Thread :=
  let t1 := s.thr.ringTake s.nextId (some .vecRun) 0
  { t1 with seqr := { t1.seqr with run := some (newRun s n) } }

theorem runThread_keeps (s : State) (n : Nat) : Keeps [.seqr, .ring, .cr crSeq, .ids] s (s.bump.setThr (runThread s n)) := by
  have hring := ringTake_keeps s s.nextId (some .vecRun) 0
  have hrun := hring.trans (set_seqr_keeps _ (runThread s n).seqr) (c := [.seqr, .ring, .cr crSeq]) (by simp +contextual) (by simp)
  rw [setThr_setThr, State.setThr_thr] at hrun
  exact hrun.trans (bump_keeps _) (by simp +contextual [or_imp]) (by simp)

theorem vecRunPlan_run {s : State} {v : Quad} {n : Nat} (hn : n < 2 ^ 16) (hv : low64 v = BitVec.ofNat 64 n) (hbuf : s.thr.seqr.buf ≠ [])
    (hleft : s.thr.seqr.left = 0) (hstreams : runStreamFault s s.thr.seqr.buf = none) :
    vecRunPlan.run s v =
      if n = 0 then .done s else if s.thr.ringFull then .hold none none .mem else .done (s.bump.setThr (runThread s n)) := by
  have hlow : field (low64 v) 15 0 = n := by rw [hv, field_ofNat (by omega)]; omega
  have hhigh : field (low64 v) 63 16 = 0 := by rw [hv, field_ofNat (by omega)]; omega
  have hchecks : ¬ (field (low64 v) 63 16 ≠ 0 ∨ s.thr.seqr.buf = [] ∨ s.thr.seqr.left ≠ 0) := by simp [hhigh, hbuf, hleft]
  unfold vecRunPlan
  dsimp only
  rw [if_neg hchecks, hstreams, hlow]
  simp only [runThread, newRun]

theorem transportPlan_cap (d : Dest) (x : Source) : (transportPlan d x).cap = capDest d := rfl

/-- The destinations of a capture are kept as their capture's. -/
theorem captureDests_cap : ∀ d ∈ captureDests, capDest d.1 = some d.2 := by
  simp only [captureDests, List.forall_mem_append, List.forall_mem_map, List.forall_mem_cons, List.not_mem_nil, false_implies, implies_true, and_true]
  exact ⟨⟨fun _ _ => rfl, fun _ _ => rfl⟩, rfl, rfl, rfl⟩

/-- Settles O30: vec.rec and vec.run by their runs; an open capture comes first in every word's verdict, whatever its plan. -/
theorem sequencerCapturesAndRuns : Obligations.SequencerCapturesAndRuns := by
  unfold Obligations.SequencerCapturesAndRuns
  intro sw g x s
  refine ⟨fun h m h0 h16 hv => ?rec, fun hmode hleft hpaused => ?capture, fun h hbuf hstreams n hn hv => ?run⟩
  case rec =>
    refine done_of_simple ⟨⟨rfl, rfl⟩, rfl, rfl, rfl⟩ h (vecRecPlan_run h0 h16 hv) (set_seqr_keeps _ _) (by decide) fun t ht => ?_
    have hseqr : t.thr.seqr = _ := ht.2 .seqr (not_mem_issued (p := .seqr) (by decide) nofun sw x)
    rw [hseqr, State.onThr_thr, popped_thr]
  case capture =>
    intro Joins Ends
    refine ⟨fun k hquiet hk => ⟨fun d hd => ?transport, fun op hop => ?trigger⟩, fun hbad => ⟨fun w hw => ?word, fun d => ?move⟩⟩
    case transport =>
      exact ⟨joins_of_capture hmode hleft hpaused hquiet (capSource_of_captures hk) (captureDests_cap d hd),
        joins_of_capture hmode hleft hpaused hquiet (capSource_of_captures hk) (captureDests_cap d hd)⟩
    case trigger =>
      rw [vecOps_planned op hop]
      exact joins_of_capture hmode hleft hpaused hquiet (capSource_of_captures hk) rfl
    case word =>
      obtain ⟨p, hp, -⟩ := longWords_planned w hw
      rw [hp]
      exact ends_of_capture hmode hleft hpaused hbad
    case move => exact ends_of_capture hmode hleft hpaused hbad
  case run =>
    have hthr := popped_thr s x
    have hrun := vecRunPlan_run (s := popped s x) hn hv (by rw [hthr]; exact hbuf) (by rw [hthr]; exact h.noCapture) (by rw [hthr]; exact hstreams)
    have hplan : Simple vecRunPlan := ⟨⟨rfl, rfl⟩, rfl, rfl, rfl⟩
    refine ⟨fun hzero => ?none, fun hpos hring => ?some⟩
    case none => exact done_of_simple hplan h (hrun.trans (if_pos hzero)) (keeps_refl [] _) (by decide) fun _ _ => trivial
    case some =>
      refine done_of_simple hplan h ((hrun.trans (if_neg (by omega))).trans (if_neg (by rw [hthr, hring]; decide))) (runThread_keeps _ n) (by decide)
        fun t ht => ?_
      have hseqr : t.thr.seqr = _ := ht.2 .seqr (not_mem_issued (p := .seqr) (by decide) nofun sw x)
      rw [State.setThr_thr, runThread, hthr, popped_nextId] at hseqr
      exact ⟨newRun (popped s x) n, hseqr, rfl, rfl, rfl, popped_nextId s x, by rw [newRun, hthr], by rw [newRun, hthr]⟩

end Sys2Proof.Proofs.Sequencer
end

section
/-! PROOF. Integer elements of vec (R236 to R245): a quad of lanes gives each lane back, and fix of R238 is the exact integer, wrapped or
clamped to the element's type. -/

namespace Sys2Proof.Proofs.Elements

open Sys2Proof Sys2Proof.Machine Sys2Proof.Slice0

-- ## Lanes of a quad (R236)

/-- Element `i` of a quad, of `w` bits. -/
def lane (w i : Nat) (v : Quad) : Nat := v.toNat / 2 ^ (w * i) % 2 ^ w

theorem lane_lt (w i : Nat) (v : Quad) : lane w i v < 2 ^ w := Nat.mod_lt _ (Nat.two_pow_pos w)

theorem lanes_eq (w : Nat) (v : Quad) : lanes w v = (List.range (128 / w)).map (fun i => lane w i v) := rfl

theorem joinLanes_lt (w : Nat) (l : List Nat) : joinLanes w l < 2 ^ (w * l.length) := by
  induction l with
  | nil => exact Nat.one_pos
  | cons x r ih =>
    have hx : x % 2 ^ w < 2 ^ w := Nat.mod_lt _ (Nat.two_pow_pos w)
    have hstep : 2 ^ w * (joinLanes w r + 1) ≤ 2 ^ w * 2 ^ (w * r.length) := Nat.mul_le_mul_left _ ih
    rw [List.length_cons, Nat.mul_succ, Nat.add_comm (w * r.length), Nat.pow_add, joinLanes]
    rw [Nat.mul_succ] at hstep
    omega

/-- A list of elements joined gives each element back. -/
theorem joinLanes_lane (w : Nat) (l : List Nat) (i : Nat) (h : i < l.length) : joinLanes w l / 2 ^ (w * i) % 2 ^ w = l[i] % 2 ^ w := by
  induction l generalizing i with
  | nil => exact absurd h (Nat.not_lt_zero i)
  | cons x r ih =>
    have hx : x % 2 ^ w < 2 ^ w := Nat.mod_lt _ (Nat.two_pow_pos w)
    cases i with
    | zero => simp [joinLanes]
    | succ i =>
      have hrest : joinLanes w (x :: r) / 2 ^ w = joinLanes w r := by
        rw [joinLanes, Nat.add_mul_div_left _ _ (Nat.two_pow_pos w), Nat.div_eq_of_lt hx, Nat.zero_add]
      rw [Nat.mul_succ, Nat.add_comm (w * i), Nat.pow_add, ← Nat.div_div_eq_div_mul, hrest, ih i (Nat.lt_of_succ_lt_succ h)]
      rfl

theorem lane_ofLanes {w i : Nat} {l : List Nat} (hl : w * l.length ≤ 128) (hi : i < l.length) : lane w i (ofLanes w l) = l[i] % 2 ^ w := by
  have hfit : joinLanes w l < 2 ^ 128 := (joinLanes_lt w l).trans_le (Nat.pow_le_pow_right (by decide) hl)
  rw [lane, ofLanes, BitVec.toNat_ofNat, Nat.mod_eq_of_lt hfit, joinLanes_lane w l i hi]

/-- An elementwise operation on integers computes each element from the operands' elements. -/
theorem lane_elementwise {t : VTy} (o : Op) (hty : t.ty ≤ 3) (a b z : Quad) {i : Nat} (hi : i < 128 / tyWidth t.ty) :
    lane (tyWidth t.ty) i (elementwise o t a b z) =
      intElem o (tyWidth t.ty) t.sat t.u (lane (tyWidth t.ty) i a) (lane (tyWidth t.ty) i b) (lane (tyWidth t.ty) i z) % 2 ^ tyWidth t.ty := by
  have hfmt : tyFmt t.ty = none := by
    obtain h | h | h | h : t.ty = 0 ∨ t.ty = 1 ∨ t.ty = 2 ∨ t.ty = 3 := by omega
    all_goals rw [h]; rfl
  simp only [elementwise, hfmt]
  rw [lane_ofLanes]
  · simp [lanes_eq]
  · simpa [lanes_eq] using Nat.mul_div_le 128 (tyWidth t.ty)
  · simpa [lanes_eq] using hi

-- ## Integers of w bits (R237, R238)

section Fix

variable {w : Nat}

theorem half_pow (hw : 0 < w) : 2 ^ w = 2 * 2 ^ (w - 1) := by
  rw [← Nat.pow_succ', Nat.succ_eq_add_one, Nat.sub_add_cancel hw]

theorem signedAt_eq_bmod (hw : 0 < w) (x : Nat) : signedAt w x = Int.bmod x (2 ^ w) := by
  have hhalf : (2 ^ w + 1) / 2 = 2 ^ (w - 1) := by rw [half_pow hw]; omega
  have hmod : (x : Int) % ((2 ^ w : Nat) : Int) = ((x % 2 ^ w : Nat) : Int) := (Int.natCast_emod x (2 ^ w)).symm
  simp only [signedAt, Int.bmod, hmod]
  have hcut : (((x % 2 ^ w : Nat) : Int) < (((2 ^ w : Nat) : Int) + 1) / 2) ↔ x % 2 ^ w < 2 ^ (w - 1) := by
    rw [← hhalf]; omega
  simp only [hcut]

/-- The integer that an element of `w` bits stands for. -/
theorem elem_eq (hw : 0 < w) (u : Bool) (x : Nat) : elem w u x = if u then (x : Int) else Int.bmod x (2 ^ w) := by
  rw [elem, signedAt_eq_bmod hw]

theorem wrapTo_cast (v : Int) : (wrapTo w v : Int) = v % (2 ^ w : Nat) :=
  Int.toNat_of_nonneg (Int.emod_nonneg v (by exact_mod_cast (Nat.two_pow_pos w).ne'))

theorem wrapTo_lt (v : Int) : wrapTo w v < 2 ^ w := by
  have h := Int.emod_lt_of_pos v (b := (2 ^ w : Nat)) (by exact_mod_cast Nat.two_pow_pos w)
  rw [← wrapTo_cast] at h
  exact_mod_cast h

theorem elem_wrapTo (hw : 0 < w) (u : Bool) (v : Int) : elem w u (wrapTo w v) = if u then v % (2 ^ w : Nat) else Int.bmod v (2 ^ w) := by
  rw [elem_eq hw, wrapTo_cast, Int.emod_bmod]

/-- fix of R238 as an integer: clamped to the element's type where SAT is set, and wrapped otherwise. -/
theorem elem_fix (hw : 0 < w) (sat u : Bool) (v : Int) : elem w u (fix w sat u v) =
    if sat then (if u then max 0 (min v (2 ^ w - 1)) else max (-(2 ^ (w - 1))) (min v (2 ^ (w - 1) - 1)))
    else if u then v % 2 ^ w else Int.bmod v (2 ^ w) := by
  have hcast : ∀ k : Nat, ((2 ^ k : Nat) : Int) = 2 ^ k := fun k => by push_cast; rfl
  have hpos : (0 : Int) < 2 ^ (w - 1) := by positivity
  have hhalf : (2 : Int) ^ w = 2 * 2 ^ (w - 1) := by exact_mod_cast half_pow hw
  rw [fix, elem_wrapTo hw]
  cases sat <;> cases u <;> simp only [clampInt, intMin, intMax, Bool.false_eq_true, if_true, if_false, hcast]
  case true.true => exact Int.emod_eq_of_lt (by omega) (by omega)
  case true.false => exact Int.bmod_eq_of_le_mul_two (by push_cast; omega) (by push_cast; omega)

theorem intElem_fixed (hw : 0 < w) (sat u : Bool) (v : Int) {x e : Nat} (hx : x = e % 2 ^ w) (he : e = fix w sat u v) : elem w u x =
    if sat then (if u then max 0 (min v (2 ^ w - 1)) else max (-(2 ^ (w - 1))) (min v (2 ^ (w - 1) - 1)))
    else if u then v % 2 ^ w else Int.bmod v (2 ^ w) := by
  have hlt : fix w sat u v < 2 ^ w := wrapTo_lt _
  rw [hx, he, Nat.mod_eq_of_lt hlt, elem_fix hw]

/-- Elements of the same bits are those of the same integer. -/
theorem elem_inj (hw : 0 < w) (u : Bool) {x y : Nat} (hx : x < 2 ^ w) (hy : y < 2 ^ w) (h : elem w u x = elem w u y) : x = y := by
  have hmod : ∀ n : Nat, n < 2 ^ w → (elem w u n) % ((2 ^ w : Nat) : Int) = n := fun n hn => by
    have hself : (n : Int) % ((2 ^ w : Nat) : Int) = n := Int.emod_eq_of_lt (Int.natCast_nonneg n) (by exact_mod_cast hn)
    rw [elem_eq hw]
    cases u
    · exact (Int.bmod_emod).trans hself
    · exact hself
  exact_mod_cast (hmod x hx).symm.trans ((congrArg (· % ((2 ^ w : Nat) : Int)) h).trans (hmod y hy))

end Fix

-- ## The operations (R242, R245)

theorem tyWidth_pos (n : Nat) : 0 < tyWidth n := by
  unfold tyWidth
  split <;> decide

/-- An elementwise operation on integers with an accepted type word. -/
theorem vecCompute_integer (core : Core) (fmt ty : Word) (a b z : Quad) (hbits : field ty 63 12 = 0) (h7 : ty.getLsbD 7 = false)
    (hty : field ty 2 0 ≤ 3) : ∀ o ∈ [Op.vecAdd, .vecSub, .vecMul, .vecMad, .vecMin, .vecMax, .vecCeq, .vecClt],
    vecCompute core fmt o ty a b z = some (elementwise o (vTy ty) a b z, false) := by
  have hbad : (vTy ty).bad = false := by rw [vTy, hbits, h7]; rfl
  have hok : (vTy ty).ty ≤ 5 := hty.trans (by decide)
  simp only [List.forall_mem_cons, List.not_mem_nil, false_implies, implies_true, and_true]
  and_intros
  all_goals simp [vecCompute, hbad, tyOk, hok]

/-- Settles O29: each element of the result is the operation on the operands' elements. -/
theorem vecIntegerElements : Obligations.VecIntegerElements := by
  unfold Obligations.VecIntegerElements
  intro core fmt ty a b z i hbits h7 hty w u hi U E Is Fixed
  have hw : 0 < w := tyWidth_pos _
  have hE : ∀ v, E v = elem w u (U v) := fun v => (elem_eq hw u _).symm
  have hlt : ∀ v, U v < 2 ^ w := fun v => lane_lt w i v
  have hlane : ∀ o, U (elementwise o (vTy ty) a b z) = intElem o w (vTy ty).sat u (U a) (U b) (U z) % 2 ^ w :=
    fun o => lane_elementwise o hty a b z hi
  have hval := vecCompute_integer core fmt ty a b z hbits h7 hty
  have hones : 2 ^ w - 1 < 2 ^ w := Nat.sub_lt (Nat.two_pow_pos w) Nat.one_pos
  have hflag : ∀ c : Prop, [Decidable c] → (if c then 2 ^ w - 1 else 0) % 2 ^ w = if c then 2 ^ w - 1 else 0 := fun c _ => by
    split
    · exact Nat.mod_eq_of_lt hones
    · rfl
  have hfixed : ∀ o e, intElem o w (vTy ty).sat u (U a) (U b) (U z) = fix w (vTy ty).sat u e → Fixed e (elementwise o (vTy ty) a b z) :=
    fun o e he => (hE _).trans (intElem_fixed hw _ u e (hlane o) he)
  refine ⟨⟨_, hval .vecAdd (by decide), hfixed _ _ ?add⟩, ⟨_, hval .vecSub (by decide), hfixed _ _ ?sub⟩, ⟨_, hval .vecMul (by decide), hfixed _ _ ?mul⟩,
    ⟨_, hval .vecMad (by decide), hfixed _ _ ?mad⟩, ⟨_, hval .vecMin (by decide), ?min⟩, ⟨_, hval .vecMax (by decide), ?max⟩,
    ⟨_, hval .vecCeq (by decide), ?ceq⟩, ⟨_, hval .vecClt (by decide), ?clt⟩⟩
  case add => rw [hE a, hE b]; rfl
  case sub => rw [hE a, hE b]; rfl
  case mul => rw [hE a, hE b]; rfl
  case mad => rw [hE a, hE b, hE z]; rfl
  case min =>
    refine (hE _).trans ?_
    rw [hlane, hE a, hE b]
    by_cases h : elem w u (U b) < elem w u (U a)
    · rw [intElem, if_pos h, Nat.mod_eq_of_lt (hlt b), min_eq_right h.le]
    · rw [intElem, if_neg h, Nat.mod_eq_of_lt (hlt a), min_eq_left (not_lt.mp h)]
  case max =>
    refine (hE _).trans ?_
    rw [hlane, hE a, hE b]
    by_cases h : elem w u (U a) < elem w u (U b)
    · rw [intElem, if_pos h, Nat.mod_eq_of_lt (hlt b), max_eq_right h.le]
    · rw [intElem, if_neg h, Nat.mod_eq_of_lt (hlt a), max_eq_left (not_lt.mp h)]
  case ceq =>
    have hsame : elem w u (U a) = elem w u (U b) ↔ U a = U b := ⟨elem_inj hw u (hlt a) (hlt b), congrArg _⟩
    exact (hlane _).trans ((hflag _).trans (if_congr hsame rfl rfl))
  case clt =>
    refine (hlane _).trans ((hflag _).trans ?_)
    rw [hE a, hE b]

end Sys2Proof.Proofs.Elements
end

section
/-! PROOF. tsk (R346, R350 to R355): a record joins the ready queue, an entry is taken and its words written to the window, a slot waits for the
dispatcher, and a quantum ends early. -/

namespace Sys2Proof.Proofs.Tasks

open Sys2Proof Sys2Proof.Machine Sys2Proof.Safety Sys2Proof.Slice0 Sys2Proof.Proofs.Results Sys2Proof.Proofs.Words Sys2Proof.Proofs.Loads
  Sys2Proof.Proofs.Fetch Sys2Proof.Proofs.Translation Sys2Proof.Proofs.SystemWords Sys2Proof.Proofs.Sending Sys2Proof.Proofs.Copies Sys2Proof.Proofs.Engines
  Sys2Proof.Proofs.Tracks Sys2Proof.Proofs.Tiles Sys2Proof.Proofs.Cards Sys2Proof.Proofs.Order

-- ## Words written to the own window (R54, R353)

/-- The bytes of a list of words. -/
def wordBytes (l : List (Nat × BitVec 2)) : List Byte := l.flatMap (fun w => bytesLE 8 w.1)

theorem wordBytes_length (l : List (Nat × BitVec 2)) : (wordBytes l).length = 8 * l.length := by
  induction l with
  | nil => rfl
  | cons w l ih =>
    have hcons : wordBytes (w :: l) = bytesLE 8 w.1 ++ wordBytes l := rfl
    rw [hcons, List.length_append, ih, bytesLE_length, List.length_cons]
    omega

theorem wordBytes_word (l : List (Nat × BitVec 2)) (k : Nat) (h : k < l.length) : ((wordBytes l).drop (8 * k)).take 8 = bytesLE 8 l[k].1 := by
  induction l generalizing k with
  | nil => exact absurd h (Nat.not_lt_zero k)
  | cons w l ih =>
    have hcons : wordBytes (w :: l) = bytesLE 8 w.1 ++ wordBytes l := rfl
    cases k with
    | zero => rw [hcons, Nat.mul_zero, List.drop_zero, List.take_left' (bytesLE_length ..)]; rfl
    | succ k =>
      rw [hcons, Nat.mul_succ, Nat.add_comm, ← List.drop_drop, List.drop_left' (bytesLE_length ..), ih k (Nat.lt_of_succ_lt_succ h)]
      rfl

/-- A word of a list of words, read from where the list was written. -/
theorem read64_words {st : Store} {m : List Host.Cell} (hm : Mem.wf m = true) {loc : Nat} {l : List (Nat × BitVec 2)}
    (h : st.mem = Mem.write m loc (wordBytes l)) (k : Nat) (hk : k < l.length) : read64 st (loc + 8 * k) = l[k].1 % 2 ^ 64 := by
  have hall := Mem.read_write (wordBytes l) loc hm
  rw [wordBytes_length, ← h] at hall
  have hword : Mem.read st.mem (loc + 8 * k) 8 = bytesLE 8 l[k].1 := by
    rw [← wordBytes_word l k hk, ← hall, read_drop, read_take _ _ (by omega)]
  rw [read64, hword, natLE_bytesLE_mod, show (256 : Nat) ^ 8 = 2 ^ 64 by norm_num]

theorem put_keeps (s : State) (p : PWrite) :
    Keeps [.memory, .errors, .history, .ids, .turns] s { s.bump with wrote := true, st := s.st.put p } := by
  refine ⟨rfl, fun q hq => ?_⟩
  cases q with
  | memory | errors | history | ids | turns => simp at hq
  | _ => exact (keeps_refl [.memory, .errors, .history, .ids, .turns] s).2 _ hq

theorem isBank_winLoc (s : State) (off : Nat) : isBank (winLoc s off) = true := isBank_winLoc_add s off 0

/-- Words written to the observed core's window are performed there, and nothing else: no request waits for them. -/
theorem writeWords_window (l : List (Nat × BitVec 2)) {s : State} (src off loc : Nat) (known : List (Nat × Nat)) (rel : Release)
    (hwait : s.st.waiting = []) (hmarks : ∀ w ∈ l, w.2 = 0#2) (hloc : ∀ k < l.length, winLoc s (off + 8 * k) = loc + 8 * k) :
    Keeps [.memory, .errors, .history, .ids, .turns] s (writeWords s src s.coreId off known rel l) ∧
      (writeWords s src s.coreId off known rel l).st.mem = Mem.write s.st.mem loc (wordBytes l) := by
  induction l generalizing s off loc with
  | nil => exact ⟨keeps_refl _ s, rfl⟩
  | cons w l ih =>
    obtain ⟨v, mark⟩ := w
    obtain rfl : mark = 0#2 := hmarks _ (.head _)
    have hfirst : winLoc s off = loc := hloc 0 (Nat.succ_pos _)
    have hplace : windowLoc s s.coreId off = loc := (if_pos rfl).trans hfirst
    have hstore := engineWrite_bank hwait (hfirst ▸ isBank_winLoc s off : isBank loc = true) src v true known (some rel)
    obtain ⟨hkeeps, hmem⟩ := ih (s := { s.bump with wrote := true, st := s.st.put (engineStore s src loc v true known (some rel)) }) (off + 8) (loc + 8)
      hwait (fun w hw => hmarks w (.tail _ hw)) fun k hk => by
        have hnext := hloc (k + 1) (Nat.succ_lt_succ hk)
        rw [Nat.mul_succ, Nat.add_comm (8 * k), ← Nat.add_assoc, ← Nat.add_assoc] at hnext
        exact hnext
    have hstep : writeWords s src s.coreId off known rel ((v, 0#2) :: l) =
        writeWords { s.bump with wrote := true, st := s.st.put (engineStore s src loc v true known (some rel)) } src s.coreId (off + 8) known rel l := by
      rw [writeWords, hplace]
      exact congrArg (fun t => writeWords t src s.coreId (off + 8) known rel l) hstore
    rw [hstep]
    refine ⟨keeps_trans (put_keeps s _) hkeeps, hmem.trans ?_⟩
    have hcons : wordBytes ((v, 0#2) :: l) = bytesLE 8 v ++ wordBytes l := rfl
    rw [hcons, write_append, bytesLE_length]
    rfl

-- ## A record's place (R351)

theorem recordFault_none {v : Word} (h : recordFault v = none) : field v 16 0 % 64 = 0 := by
  unfold recordFault at h
  split at h
  · cases h
  · cases h
  · rename_i off hclass
    obtain ⟨-, -, -, rfl⟩ := classify_own hclass
    split at h
    · cases h
    · rename_i hbad
      simpa using (not_or.mp hbad).1
  · cases h

/-- The 64 bytes of a record follow one another in their bank. -/
theorem winLoc_record (s : State) {off k : Nat} (h : off % 64 = 0) (hk : k < 8) : winLoc s (off + 8 * k) = winLoc s off + 8 * k := by
  have hcore : (off + 8 * k) / 0x4000 = off / 0x4000 := by omega
  have hoff : (off + 8 * k) % 0x4000 = off % 0x4000 + 8 * k := by omega
  rw [winLoc, hcore, hoff, winLoc, bankLoc, bankLoc, ← Nat.add_assoc]

-- ## tsk.push (R346, R352)

theorem set_ready_keeps (s : State) (l : List Ready) : Keeps [.ready] s (s.onCore (fun c => { c with ready := l })) := by
  refine ⟨rfl, fun p hp => ?_⟩
  cases p with
  | ready => simp at hp
  | _ => exact (keeps_refl [.ready] s).2 _ hp

theorem popped_ready (s : State) (x : Source) : (popped s x).core.ready = s.core.ready := by
  obtain ⟨l, h⟩ := popped_streams s x
  rw [h]
  rfl

theorem cardReady_congr {s t : State} (hcards : t.core.cards = s.core.cards) (hslots : t.slots = s.slots) : cardReady t = cardReady s := by
  have hready : cardIsReady t = cardIsReady s := by funext c; simp only [cardIsReady, hslots]
  simp only [cardReady, hcards, hready]

/-- The bytes of the record at an offset of the window, and the entry that it makes of them. -/
def recordBytes (s : State) (off : Nat) : List Byte := ((List.range 8).map (Cards.storedWord s off)).flatMap (·.1)

theorem recordBytes_eq (s : State) (off : Nat) : recordBytes s off = (List.range 8).flatMap (fun k => (Cards.storedWord s off k).1) :=
  List.flatMap_map ..

def recordEntry (s : State) (off : Nat) : Ready :=
  { entry := cardWord (recordBytes s off) 0, hint := cardWord (recordBytes s off) 1, tagw := cardWord (recordBytes s off) 2
    prio := (s.thr.opw .tskPr).setWidth 2, card := none, byp := 0
    args := #v[cardWord (recordBytes s off) 4, cardWord (recordBytes s off) 5, cardWord (recordBytes s off) 6, cardWord (recordBytes s off) 7] }

theorem recordEntry_eq {s y : State} {off : Nat} {b : List Byte} (hthr : y.thr = s.thr) (hb : b = recordBytes y off) : recordEntry y off =
    { entry := cardWord b 0, hint := cardWord b 1, tagw := cardWord b 2, prio := (s.thr.opw .tskPr).setWidth 2, card := none, byp := 0
      args := #v[cardWord b 4, cardWord b 5, cardWord b 6, cardWord b 7] } := by
  subst hb
  rw [recordEntry, hthr]

/-- A record that has passed its checks joins the queue. -/
theorem tskPush_run {s y : State} {q : Quad} {off : Nat} (hoff : off = field (low64 q) 16 0) (hy : winScrub s off 64 = y)
    (hpr : field (y.thr.opw .tskPr) 63 2 = 0) (hplace : recordFault (low64 q) = none)
    (hwords : ∀ k < 8, amoPending y y.cur (winLoc y (off + 8 * k)) 8 = false ∧ (Cards.storedWord y off k).2 ≠ 1)
    (hzero : cardWord (recordBytes y off) 3 = 0) (hentry : entryOk (cardWord (recordBytes y off) 0) = true)
    (hroom : y.core.ready.length < 64) (hcard : cardReady y = none) :
    tskPushPlan.run s q = .done ((winGains y y.cur y.nextId off 64).onCore (fun c => { c with ready := c.ready ++ [recordEntry y off] })) := by
  have hheld : (List.range 8).any (fun k => amoPending y y.cur (winLoc y (off + 8 * k)) 8) = false :=
    List.any_eq_false.mpr fun k hk => by simp [(hwords k (List.mem_range.mp hk)).1]
  have hsound : (List.range 8).find? (fun k => (((List.range 8).map (Cards.storedWord y off)).getD k ([], 0#2)).2 == 1#2) = none :=
    List.find?_eq_none.mpr fun k hk => by
      have hlt : k < 8 := List.mem_range.mp hk
      simpa [List.getD_eq_getElem?_getD, hlt] using (hwords k hlt).2
  have hgood : ¬(cardWord (recordBytes y off) 3 ≠ 0#64 ∨ entryOk (cardWord (recordBytes y off) 0) = false) :=
    not_or.mpr ⟨not_not.mpr hzero, by simp [hentry]⟩
  have hfree : ¬(64 ≤ y.core.ready.length ∨ (cardReady y).isSome = true) := by simp [hroom, hcard]
  subst hoff
  subst hy
  simp only [tskPushPlan, hplace]
  refine (if_neg (not_not.mpr hpr)).trans ((if_neg (Bool.eq_false_iff.mp hheld)).trans ((if_neg hgood).trans ?_))
  split
  · next k hk => exact absurd (hk.symm.trans hsound) nofun
  · exact if_neg hfree

-- ## tsk.pop (R353)

section Pop

variable (s : State)

/-- The word owes its status. -/
def popOwed : State := s.bump.setThr (s.thr.owe s.nextId [.tskO] false none)

/-- A status delivered to tsk.o. -/
def gave (tag st : Nat) : State := s.setThr (s.thr.fill tag [{ port := .tskO, val := BitVec.ofNat 128 st, mark := none }] none)

theorem popOwed_keeps : Keeps [.owed, .fence, .ids] s (popOwed s) :=
  (owe_keeps s s.nextId [.tskO] false none).trans (bump_keeps _) (by simp +contextual [or_imp]) (by simp)

theorem gave_keeps (tag st : Nat) : Keeps [.owed] s (gave s tag st) := fill_keeps s tag _ none [] []

/-- What the last result owed holds once its status is given. -/
theorem gave_owed {t : Thread} (st : Nat) (h : s.thr.owed = (t.owe n [.tskO] false none).owed) :
    ∃ o : Owed, (gave s n st).thr.owed.getLast? = some o ∧ o.tag = n ∧ o.ports = [.tskO] ∧
      o.vals = some [{ port := .tskO, val := BitVec.ofNat 128 st, mark := none }] := by
  have howed : (gave s n st).thr.owed = _ := congrArg Thread.owed (State.setThr_thr ..)
  rw [Thread.fill, h, Thread.owe, List.map_append, List.map_cons, List.map_nil, if_pos rfl] at howed
  exact ⟨_, (congrArg List.getLast? howed).trans List.getLast?_concat, rfl, rfl, rfl⟩

theorem readyStatus_lt (r : Ready) : readyStatus r < 2 ^ 64 := by
  have hprio : r.prio.toNat < 4 := r.prio.isLt
  unfold readyStatus
  split
  · next c _ =>
      have hc : c.val < 32 := c.isLt
      omega
  · omega

/-- The words that an entry writes are whole words without marks. -/
theorem readyWords_unmarked (r : Ready) : ∀ w ∈ readyWords r, (w.1 % 2 ^ 64, 0#2) = w := by
  have hword : ∀ v : Word, v.toNat % 2 ^ 64 = v.toNat := fun v => Nat.mod_eq_of_lt v.isLt
  intro w hw
  obtain ⟨v, hv, rfl⟩ := List.mem_map.mp hw
  refine congrArg (·, 0#2) ?_
  rcases List.mem_append.mp hv with hv | hv
  · simp only [List.mem_cons, List.not_mem_nil, or_false] at hv
    rcases hv with rfl | rfl | rfl | rfl
    · exact hword _
    · exact hword _
    · exact hword _
    · exact Nat.mod_eq_of_lt (readyStatus_lt r)
  · obtain ⟨a, -, rfl⟩ := List.mem_map.mp hv
    exact hword a

/-- The entry leaves the queue and its words are written. -/
def popWritten (v : Word) (r : Ready × Nat) : State :=
  let s1 := popOwed s
  let s2 := s1.onCore (fun c => { c with ready := c.ready.eraseIdx r.2 })
  writeWords s2 (srcCmd s.nextId) s2.coreId (field v 16 0) (relOf s s.cur) (engineRel s2 (s2.src s2.cur) (relOf s s.cur)) (readyWords r.1)

theorem tskPop_empty {q : Quad} (hplace : recordFault (low64 q) = none) (h : s.core.ready = []) :
    tskPopPlan.run s q = .done (gave (popOwed s) s.nextId 0) := by
  have htop : topEntries s.core.ready = [] := by rw [h]; rfl
  simp only [tskPopPlan, hplace, htop]
  rfl

theorem tskPop_takes {q : Quad} {r : Ready × Nat} {rest : List (Ready × Nat)} (hplace : recordFault (low64 q) = none)
    (h : topEntries s.core.ready = r :: rest) :
    tskPopPlan.run s q = .done (gave (popWritten s (low64 q) r) s.nextId (readyStatus r.1)) := by
  simp only [tskPopPlan, hplace, h]
  rfl

theorem popWritten_keeps (v : Word) (r : Ready × Nat) (hplace : recordFault v = none) (hwait : s.st.waiting = []) :
    Keeps [.ready, .owed, .fence, .ids, .memory, .errors, .history, .turns] s (popWritten s v r) ∧
      (popWritten s v r).thr.owed = (s.thr.owe s.nextId [.tskO] false none).owed ∧
      (popWritten s v r).core.ready = s.core.ready.eraseIdx r.2 ∧
      (popWritten s v r).st.mem = Mem.write s.st.mem (winLoc s (field v 16 0)) (wordBytes (readyWords r.1)) := by
  have hlen : (readyWords r.1).length = 8 := by simp [readyWords]
  obtain ⟨hkeeps, hmem⟩ := writeWords_window (readyWords r.1) (s := (popOwed s).onCore (fun c => { c with ready := c.ready.eraseIdx r.2 }))
    (srcCmd s.nextId) (field v 16 0) (winLoc s (field v 16 0)) (relOf s s.cur)
    (engineRel ((popOwed s).onCore (fun c => { c with ready := c.ready.eraseIdx r.2 }))
      (((popOwed s).onCore (fun c => { c with ready := c.ready.eraseIdx r.2 })).src
        ((popOwed s).onCore (fun c => { c with ready := c.ready.eraseIdx r.2 })).cur) (relOf s s.cur))
    hwait (fun w hw => (congrArg Prod.snd (readyWords_unmarked r.1 w hw)).symm) (fun k hk => winLoc_record s (recordFault_none hplace) (hlen ▸ hk))
  have howed := hkeeps.2 .owed (by decide)
  have hready := hkeeps.2 .ready (by decide)
  have hset := (popOwed_keeps s).trans (set_ready_keeps (popOwed s) ((popOwed s).core.ready.eraseIdx r.2)) (c := [.ready, .owed, .fence, .ids])
    (by simp +contextual) (by simp)
  refine ⟨hset.trans hkeeps (by simp +contextual) (by simp +contextual), howed.trans ?_, hready, hmem⟩
  exact congrArg Thread.owed ((State.onCore_thr ..).trans (State.setThr_thr ..))

end Pop

-- ## tsk.yield (R342, R355)

theorem countWord_spent (t : Thread) (area : Option Word) (pc : Word) (sup uh : Bool) (h : field t.cr[crQleft] 31 0 = 0) :
    (t.countWord area pc sup uh).expiry = t.expiry ∧ (t.countWord area pc sup uh).cr = t.cr := by
  simp only [Thread.countWord, h, or_true, if_true]
  repeat' split
  all_goals exact ⟨rfl, rfl⟩

theorem enterMarker_counts (t : Thread) : t.enterMarker.expiry = t.expiry ∧ t.enterMarker.cr[crQleft] = t.cr[crQleft] := by
  unfold Thread.enterMarker
  split <;> exact ⟨rfl, rfl⟩

theorem clearSkip_counts (t : Thread) (sup : Bool) : (t.clearSkip sup).expiry = t.expiry ∧ (t.clearSkip sup).cr[crQleft] = t.cr[crQleft] := by
  unfold Thread.clearSkip
  split
  · exact ⟨rfl, rfl⟩
  · exact ⟨rfl, vector_set_other _ _ (by decide)⟩

/-- A word that leaves LEFT at 0 leaves its expiry as it is. -/
theorem finish_spent (s0 s : State) (next : Word) (sw : Bool) (hm : s.thr.mode = .run) (h : field s.thr.cr[crQleft] 31 0 = 0) :
    (finish s0 s next sw false).thr.expiry = s.thr.expiry ∧ (finish s0 s next sw false).thr.cr[crQleft] = s.thr.cr[crQleft] := by
  obtain ⟨hexpiry, hcr⟩ := countWord_spent s.thr s0.thr.areaUse s0.thr.pc s0.thr.sup s0.thr.uh h
  obtain ⟨hexpiry', hcr'⟩ := clearSkip_counts (s.thr.countWord s0.thr.areaUse s0.thr.pc s0.thr.sup s0.thr.uh) s0.thr.sup
  have hmode : ((s.thr.countWord s0.thr.areaUse s0.thr.pc s0.thr.sup s0.thr.uh).clearSkip s0.thr.sup).mode = .run := by
    obtain ⟨_, _, _, hc, -⟩ := countWord_frame s.thr s0.thr.areaUse s0.thr.pc s0.thr.sup s0.thr.uh
    obtain ⟨_, hd, -⟩ := clearSkip_frame (s.thr.countWord s0.thr.areaUse s0.thr.pc s0.thr.sup s0.thr.uh) s0.thr.sup
    rw [hd, hc]
    exact hm
  rw [hcr] at hcr'
  rw [hexpiry] at hexpiry'
  unfold finish
  rw [if_neg (by rw [hm]; nofun)]
  generalize (s.thr.countWord s0.thr.areaUse s0.thr.pc s0.thr.sup s0.thr.uh).clearSkip s0.thr.sup = t1 at hexpiry' hcr' hmode
  have hset : ∀ t : Thread, t.expiry = s.thr.expiry ∧ t.cr[crQleft] = s.thr.cr[crQleft] →
      ({ s.setThr t with turn := .iss } : State).thr.expiry = s.thr.expiry ∧ ({ s.setThr t with turn := .iss } : State).thr.cr[crQleft] = s.thr.cr[crQleft] := by
    intro t ht
    have hthr : ({ s.setThr t with turn := .iss } : State).thr = t := State.setThr_thr s t
    rwa [hthr]
  refine hset _ ?_
  dsimp only
  rw [if_pos hmode]
  split
  · obtain ⟨hexpiry2, hcr2⟩ := enterMarker_counts
      { t1 with pc := next, wordPc := s0.thr.pc, held := none, miss := none, relMark := if false then t1.relMark else none }
    exact ⟨hexpiry2.trans hexpiry', hcr2.trans hcr'⟩
  · exact ⟨hexpiry', hcr'⟩

/-- LEFT is 0 and the expiry pending with Y. -/
def yielded (s : State) : State := s.onThr (fun t => { t.setCr crQleft 0#64 with expiry := some true })

theorem yielded_keeps (s : State) : Keeps [.cr crQleft, .expiry] s (yielded s) := by
  refine ⟨rfl, fun p hp => ?_⟩
  cases p with
  | expiry => simp at hp
  | cr i =>
    have hi : i ≠ crQleft := by rintro rfl; simp at hp
    simp [same, yielded, Thread.setCr, vector_set_other _ _ hi]
  | others => exact fun i hi => setThr_other s _ i hi
  | _ => simp [same, yielded, Thread.setCr, Thread.pred, Thread.opq, Thread.rpq]

section Settle

variable {sw : Bool} {g : Guard} {x : Source} {s : State} (h : CanIssue g x s)

include h

theorem tskYield_done (hv : operand64 s x = 0) :
    Done 4 sw x [] s (fun t => t.thr.expiry = some true ∧ field t.thr.cr[crQleft] 31 0 = 0) (exec (.tskYield sw g x) s) := by
  have hrun : tskYieldPlan.run (popped s x) (operand s x) = .done (yielded (popped s x)) := by
    simp only [tskYieldPlan, hv]
    exact if_neg (not_not.mpr rfl)
  have hthr : (yielded (popped s x)).thr = { s.thr.setCr crQleft 0#64 with expiry := some true } := by
    rw [yielded, State.onThr_thr, popped_thr]
  have hleft : (yielded (popped s x)).thr.cr[crQleft] = 0#64 := by rw [hthr]; simp [Thread.setCr]
  have hmode : (yielded (popped s x)).thr.mode = .run := by rw [hthr]; exact h.runs
  obtain ⟨hpassed, hkeeps⟩ := finish_done sw x (s.thr.pc + BitVec.ofNat 64 4) (yielded_keeps (popped s x)) hmode
  obtain ⟨hexpiry, hcr⟩ := finish_spent s (yielded (popped s x)) (s.thr.pc + BitVec.ofNat 64 4) sw hmode (by rw [hleft]; rfl)
  refine ⟨_, issue_done h nofun nofun rfl rfl rfl hrun, hpassed, ⟨hkeeps.1, fun p hp => hkeeps.2 p ?_⟩, hexpiry.trans (by rw [hthr]), ?_⟩
  · simp only [List.append_nil] at hp
    rw [List.mem_append, not_or]
    exact ⟨hp, fun hex => hp (by rcases List.mem_pair.mp hex with rfl | rfl <;> simp [issued])⟩
  · rw [hcr, hleft]; rfl

theorem tskPark_parks (hv : operand64 s x = 0) (hmore : s.thr.more = false) :
    Parks sw x s .dispatch [] (fun _ => True) (exec (.tskPark sw g x) s) := by
  have hmore' : (popped s x).thr.more = false := by rw [popped_thr]; exact hmore
  have hrun : tskParkPlan.run (popped s x) (operand s x) = .done ((popped s x).setThr { (popped s x).thr with mode := .dispatch }) := by
    simp only [tskParkPlan, hv, hmore', Bool.false_eq_true, ne_eq, or_false]
    exact if_neg (not_not.mpr rfl)
  exact parks_of_plan (m := .dispatch) (p := tskParkPlan) h ⟨nofun, nofun⟩ rfl rfl rfl hrun (set_mode_keeps _ .dispatch) (by rw [State.setThr_thr])
    ⟨nofun, nofun, nofun⟩ fun _ _ => trivial

theorem tskPop_gives_none (hsup : s.thr.sup = true) (hplace : recordFault (operand64 s x) = none) (hempty : s.core.ready = []) :
    Done 4 sw x [.owed, .fence, .ids] s (fun t => ∃ o : Owed, t.thr.owed.getLast? = some o ∧ o.tag = s.nextId ∧ o.ports = [.tskO] ∧
      o.vals = some [{ port := .tskO, val := BitVec.ofNat 128 0, mark := none }]) (exec (.tskPop sw g x) s) := by
  have hrun := tskPop_empty (popped s x) hplace ((popped_ready s x).trans hempty)
  have hkeeps : Keeps [.owed, .fence, .ids] (popped s x) (gave (popOwed (popped s x)) (popped s x).nextId 0) :=
    (popOwed_keeps _).trans (gave_keeps _ _ 0) (by simp) (by simp)
  refine done_of_plan (p := tskPopPlan) h ⟨fun _ => hsup, nofun⟩ rfl rfl rfl hrun hkeeps
    ((hkeeps.2 .mode (by decide)).trans (congrArg Thread.mode (popped_thr s x))) fun t ht => ?_
  have howed := ht.2 .owed (not_mem_issued (p := .owed) (by decide) nofun sw x)
  obtain ⟨o, hlast, hfields⟩ := gave_owed (popOwed (popped s x)) (n := (popped s x).nextId) 0 (congrArg Thread.owed (State.setThr_thr ..))
  rw [← popped_nextId s x]
  exact ⟨o, (congrArg List.getLast? howed).trans hlast, hfields⟩

theorem tskPop_gives_top {r : Ready × Nat} {rest : List (Ready × Nat)} (hsup : s.thr.sup = true)
    (hplace : recordFault (operand64 s x) = none) (htop : topEntries s.core.ready = r :: rest) (hwait : s.st.waiting = []) :
    Done 4 sw x [.ready, .owed, .fence, .ids, .memory, .errors, .history] s (fun t =>
      (∃ o : Owed, t.thr.owed.getLast? = some o ∧ o.tag = s.nextId ∧ o.ports = [.tskO] ∧
        o.vals = some [{ port := .tskO, val := BitVec.ofNat 128 (readyStatus r.1), mark := none }]) ∧
      t.core.ready = s.core.ready.eraseIdx r.2 ∧
      t.st.mem = Mem.write s.st.mem (winLoc s (field (operand64 s x) 16 0)) (wordBytes (readyWords r.1))) (exec (.tskPop sw g x) s) := by
  have hrun := tskPop_takes (popped s x) hplace ((congrArg topEntries (popped_ready s x)).trans htop)
  obtain ⟨hwritten, howed, hready, hmem⟩ := popWritten_keeps (popped s x) (operand64 s x) r hplace (by rw [popped_st]; exact hwait)
  have hgave := gave_keeps (popWritten (popped s x) (operand64 s x) r) (popped s x).nextId (readyStatus r.1)
  have hkeeps := hwritten.trans hgave (c := [.ready, .owed, .fence, .ids, .memory, .errors, .history, .turns]) (fun _ hp => hp) (by simp)
  have hdone : Done 4 sw x [.ready, .owed, .fence, .ids, .memory, .errors, .history, .turns] s (fun t =>
      (∃ o : Owed, t.thr.owed.getLast? = some o ∧ o.tag = s.nextId ∧ o.ports = [.tskO] ∧
        o.vals = some [{ port := .tskO, val := BitVec.ofNat 128 (readyStatus r.1), mark := none }]) ∧
      t.core.ready = s.core.ready.eraseIdx r.2 ∧
      t.st.mem = Mem.write s.st.mem (winLoc s (field (operand64 s x) 16 0)) (wordBytes (readyWords r.1))) (exec (.tskPop sw g x) s) := by
    refine done_of_plan (p := tskPopPlan) h ⟨fun _ => hsup, nofun⟩ rfl rfl rfl hrun hkeeps
      ((hkeeps.2 .mode (by decide)).trans (congrArg Thread.mode (popped_thr s x))) fun t ht => ⟨?_, ?_, ?_⟩
    · obtain ⟨o, hlast, hfields⟩ := gave_owed (popWritten (popped s x) (operand64 s x) r) (readyStatus r.1) howed
      rw [← popped_nextId s x]
      exact ⟨o, (congrArg List.getLast? (ht.2 .owed (not_mem_issued (p := .owed) (by decide) nofun sw x))).trans hlast, hfields⟩
    · rw [← popped_ready s x]
      exact (ht.2 .ready (not_mem_issued (p := .ready) (by decide) nofun sw x)).trans ((hgave.2 .ready (by decide)).trans hready)
    · rw [← popped_winLoc s x, ← popped_st s x]
      exact (ht.2 .memory (not_mem_issued (p := .memory) (by decide) nofun sw x)).1.trans ((hgave.2 .memory (by decide)).1.trans hmem)
  obtain ⟨t, ho, hpassed, hkept, hall⟩ := hdone
  refine ⟨t, ho, hpassed, ⟨hkept.1, fun p hp => hkept.2 p fun hin => hp ?_⟩, hall⟩
  rcases List.mem_append.mp hin with hin | hin
  · exact List.mem_append_left _ hin
  · by_cases hturns : p = .turns
    · exact List.mem_append_left _ (by rw [hturns]; simp [issued])
    · exact List.mem_append_right _ (by simpa [hturns] using hin)

omit h in
/-- What the check of a record's codes leaves of the machine. -/
theorem scrubbed_record {y : State} {off : Nat} (hy : winScrub (popped s x) off 64 = y) :
    y.cur = s.cur ∧ y.nextId = s.nextId ∧ y.thr = s.thr ∧ winLoc y = winLoc s ∧ y.core.ready = s.core.ready ∧ cardReady y = cardReady s := by
  subst hy
  have hscrub := winScrub_keeps (popped s x) off 64
  obtain ⟨hcore, -, hslots, -⟩ := (winScrub_change (popped s x) off 64).rest
  obtain ⟨l, hpop⟩ := popped_streams s x
  exact ⟨hscrub.1.trans (popped_cur s x), (hscrub.2 .ids (by decide)).1.trans (popped_nextId s x), (winScrub_thr ..).trans (popped_thr s x),
    (winScrub_winLoc ..).trans (popped_winLoc s x), (congrArg Core.ready hcore).trans (popped_ready s x),
    cardReady_congr ((congrArg Core.cards hcore).trans (popped_cards s x).1) (hslots.trans (by rw [hpop]; rfl))⟩

theorem tskPush_joins {y : State} {off : Nat} (hoff : off = field (operand64 s x) 16 0) (hy : winScrub (popped s x) off 64 = y)
    (hsup : s.thr.sup = true) (hpr : field (s.thr.opw .tskPr) 63 2 = 0) (hplace : recordFault (operand64 s x) = none)
    (hwords : ∀ k < 8, amoPending y y.cur (winLoc y (off + 8 * k)) 8 = false ∧ (Cards.storedWord y off k).2 ≠ 1)
    (hzero : cardWord (recordBytes y off) 3 = 0) (hentry : entryOk (cardWord (recordBytes y off) 0) = true)
    (hroom : s.core.ready.length < 64) (hcard : cardReady s = none) :
    Done 4 sw x [.ready, .floor, .releases, .errors, .mc, .host] s (fun t => t.core.ready = s.core.ready ++ [recordEntry y off])
      (exec (.tskPush sw g x) s) := by
  obtain ⟨-, -, hthr, -, hready, hcards⟩ := scrubbed_record hy
  have hrun := tskPush_run hoff hy (hthr ▸ hpr) hplace hwords hzero hentry (hready ▸ hroom) (hcards.trans hcard)
  have hgains := winGains_keeps y y.nextId off 64
  have hadd := hgains.trans (set_ready_keeps _ ((winGains y y.cur y.nextId off 64).core.ready ++ [recordEntry y off]))
    (c := [.ready, .floor, .releases]) (by simp) (by simp)
  have hkeeps : Keeps [.ready, .floor, .releases, .errors, .mc, .host] (popped s x) _ :=
    (hy ▸ winScrub_keeps ..).trans hadd (by simp [codeParts]) (by simp +contextual [or_imp])
  refine done_of_plan (p := tskPushPlan) h ⟨fun _ => hsup, nofun⟩ rfl rfl rfl hrun hkeeps
    ((hkeeps.2 .mode (by decide)).trans (congrArg Thread.mode (popped_thr s x))) fun t ht => ?_
  have hlist : (winGains y y.cur y.nextId off 64).core.ready = s.core.ready := (hgains.2 .ready (by decide)).trans hready
  exact (ht.2 .ready (not_mem_issued (p := .ready) (by decide) nofun sw x)).trans (congrArg (· ++ [recordEntry y off]) hlist)

end Settle

/-- Settles O40: each word's run, from its checks behind it, and what that leaves of the queue, the thread and memory. -/
theorem taskWordsAct : Obligations.TaskWordsAct := by
  unfold Obligations.TaskWordsAct
  intro sw g x s h v off y W b Gives
  refine ⟨?push, fun hsup hplace hempty => tskPop_gives_none h hsup hplace hempty, fun r rest hok hsup hplace htop hwait => ?pop, fun hv hmore => ?park,
    fun hv => tskYield_done h hv⟩
  case park =>
    obtain ⟨t, ho, hmode, hpc, hkeeps, -⟩ := tskPark_parks (sw := sw) (g := g) h hv hmore
    rw [List.append_nil] at hkeeps
    exact ⟨t, ho, hmode, hpc, hkeeps⟩
  case pop =>
    obtain ⟨t, ho, hpassed, hkeeps, hgives, hready, hmem⟩ := tskPop_gives_top (sw := sw) (g := g) h hsup hplace htop hwait
    have hlen : (readyWords r.1).length = 8 := by simp [readyWords]
    refine ⟨t, ho, hpassed, hkeeps, hgives, hready, fun k hk => ?word, fun c hc => ?other⟩
    case word =>
      rw [winLoc_record s (recordFault_none hplace) hk, read64_words hok hmem k (hlen ▸ hk), List.getD_eq_getElem _ _ (hlen ▸ hk)]
      exact readyWords_unmarked r.1 _ (List.getElem_mem _)
    case other =>
      rw [hmem]
      exact Mem.get_write_other _ _ _ hok (by rw [wordBytes_length, hlen]; exact hc)
  case push =>
    intro hsup hpr hplace hwords hzero hentry hroom hcard
    obtain ⟨hcur, hid, hthr, hloc, -⟩ := scrubbed_record (s := s) (x := x) (y := y) rfl
    have hword : ∀ k, W k = Cards.storedWord y off k := fun k => by rw [Cards.storedWord, hcur, hid, hloc]
    have hb : b = recordBytes y off :=
      (congrArg (List.flatMap · (List.range 8)) (funext fun k => congrArg Prod.fst (hword k))).trans (recordBytes_eq y off).symm
    obtain ⟨t, ho, hpassed, hkeeps, hready⟩ := tskPush_joins (sw := sw) (g := g) h (y := y) rfl rfl hsup hpr hplace
      (fun k hk => by rw [hcur, hloc, ← hword]; exact hwords k hk) (hb ▸ hzero) (hb ▸ hentry) hroom hcard
    exact ⟨t, ho, hpassed, hkeeps, hready.trans (congrArg (fun r => s.core.ready ++ [r]) (recordEntry_eq hthr hb))⟩

end Sys2Proof.Proofs.Tasks
end

section
/-! PROOF. The events of a slot (R342, R343, R365, R368, R370, R372, R385): an expiry and an imprecise fault become pending, entries are completed, and a
precise fault inside a user-level handler ends it. -/

namespace Sys2Proof.Proofs.Events

open Sys2Proof Sys2Proof.Machine Sys2Proof.Safety Sys2Proof.Slice0 Sys2Proof.Proofs.Words Sys2Proof.Proofs.Results Sys2Proof.Proofs.Fetch
  Sys2Proof.Proofs.Translation Sys2Proof.Proofs.Engines Sys2Proof.Proofs.Streams Sys2Proof.Proofs.Areas Sys2Proof.Proofs.Returns
  Sys2Proof.Proofs.Traps Sys2Proof.Proofs.Kill

variable {q : Bool}

-- ## Translations keep every slot's place (R70 to R72, R297)

theorem readGains_samePlaces (s : State) (i : Fin 8) (g : List (Nat × Nat)) : SamePlaces q s (readGains s i g) := by
  unfold readGains
  exact onSlot_samePlaces s i fun _ => ⟨rfl, rfl, rfl, rfl, rfl, fun _ => rfl, fun _ _ => rfl, fun _ => ⟨rfl, rfl⟩⟩

theorem entryRead_samePlaces (slots : List (Fin 8)) (s : State) (pa : Nat) : SamePlaces q s (walkGains (pointScrub s pa 8) slots pa 8) :=
  (pointScrub_samePlaces s pa 8).trans (foldl_samePlaces (fun s i => readGains_samePlaces s i _) slots _)

theorem walkFrom_samePlaces (cluster : Nat) (cid : BitVec 6) (slots : List (Fin 8)) (va n table : Nat) (seen : List WalkEntry) (s : State) :
    SamePlaces q s (walkFrom cluster cid slots va n table seen s).2 := by
  induction n generalizing table seen s with
  | zero => exact .refl s
  | succ n ih =>
    have hread (pa : Nat) := entryRead_samePlaces (q := q) slots s pa
    unfold walkFrom
    dsimp only
    split
    · exact ih _ _ _
    · split
      · exact .refl s
      · split
        · exact hread _
        · split
          · exact hread _
          · split
            · exact hread _
            · split
              · split
                · exact hread _
                · split
                  · exact hread _
                  · exact (hread _).trans (ih _ _ _)
              · repeat' split
                all_goals exact hread _

theorem walkNow_samePlaces (s : State) (w : Walker) (va : Nat) : SamePlaces q s (walkNow s w va).2 := by
  have hwalk := walkFrom_samePlaces (q := q) (w.place s) (BitVec.ofNat 6 w.cid) w.slots va 4 w.root [] s
  unfold walkNow
  dsimp only
  split
  · next hw =>
    rw [hw] at hwalk
    dsimp only
    split <;> exact hwalk.trans (.of_eq (by exact ⟨rfl, rfl, rfl, rfl⟩))
  · next hw =>
    rw [hw] at hwalk
    exact hwalk.trans (.of_eq (by exact ⟨rfl, rfl, rfl, rfl⟩))
  · exact hwalk

theorem lookup_samePlaces (s : State) (w : Walker) (va : Nat) : SamePlaces q s (lookup s w va).2 := by
  have hscrub : SamePlaces q s (tlbScrub s w va) := by
    unfold tlbScrub
    dsimp only
    split
    all_goals exact .of_eq ⟨rfl, rfl, rfl, rfl⟩
  unfold lookup
  dsimp only
  split
  · exact hscrub
  · split
    · dsimp only
      split
      · exact hscrub.trans (.of_eq (by exact ⟨rfl, rfl, rfl, rfl⟩))
      · exact hscrub
    · split
      · exact hscrub
      · exact hscrub.trans (walkNow_samePlaces _ w va)

theorem translate_samePlaces {s s1 : State} {w : Walker} {a : Acc} {va : Word} {loc : Nat} {attr : BitVec 5}
    (h : Machine.translate s w a va = .ok loc attr s1) : SamePlaces q s s1 := by
  unfold Machine.translate at h
  split at h
  · cases h
  · cases h
  · cases h; exact .refl s
  · cases h; exact .refl s
  · have hlookup := lookup_samePlaces (q := q) s w (field va 47 0)
    unfold translatePaged at h
    split at h <;> rename_i hl
    · split at h
      · cases h
      · cases h; rw [hl] at hlookup; exact hlookup
    all_goals cases h

-- ## The accesses of a save area

theorem areaPlace_samePlaces {s s1 : State} {slot : Fin 8} {area : Word} {write : Bool} {loc : Nat} {attr : BitVec 5}
    (h : areaPlace s slot area write = .ok loc attr s1) : SamePlaces q s s1 := by
  unfold areaPlace at h
  dsimp only at h
  split at h
  case h_2 hno => exact absurd h (hno _ _ _)
  case h_1 htr =>
    split at h
    · cases h
    · cases h; exact translate_samePlaces htr

theorem lineFetch_change (s : State) (d pa : Nat) : SliceChange s (lineFetch s d pa) :=
  ((lineHome_change s pa).trans (scrub_change _ _ _)).trans ⟨_, _, _, _, _, _, _, rfl⟩

theorem lineRead_change (s : State) (d pa : Nat) : SliceChange s (lineRead s d pa) := by
  unfold lineRead
  dsimp only
  split
  · exact (lineHome_change s pa).trans (scrub_change _ _ _)
  · split
    · refine .ite (SliceChange.trans ?_ (lineFetch_change (lineFlawed s d pa) d pa))
      exact ⟨_, _, _, _, _, _, _, rfl⟩
    · exact ((lineFetch_change s d pa).trans (lineRoom_change _ d pa)).trans ⟨_, _, _, _, _, _, _, rfl⟩

theorem coreRead_samePlaces (s : State) (loc n : Nat) : SamePlaces q s (coreRead s loc n) := by
  unfold coreRead
  split
  · exact samePlaces_of_change (scrub_change s loc n)
  · exact foldl_samePlaces (fun s k => samePlaces_of_change (lineRead_change s _ _)) _ s

theorem l1Drop_samePlaces (s : State) (loc : Nat) : SamePlaces q s (l1Drop s loc) := by
  unfold l1Drop
  split
  · exact .refl s
  · exact .of_eq ⟨rfl, rfl, rfl, rfl⟩

theorem areaStore_samePlaces (s : State) (slot : Fin 8) (va : Word) (loc : Nat) (data : List Byte) :
    SamePlaces false s (areaStore s slot va loc data) := by
  have hcount : SamePlaces false s (s.bump.onSlot slot (fun t => if isOwn va then t else t.count s.nextId (reachOf s va))) :=
    (SamePlaces.of_eq (by exact ⟨rfl, rfl, rfl, rfl⟩)).trans (onSlot_samePlaces s.bump slot fun t => by
      split
      · exact .refl t
      · exact ⟨rfl, rfl, rfl, rfl, rfl, fun _ => rfl, fun _ _ => rfl, nofun⟩)
  have hissued := (hcount.trans (l1Drop_samePlaces _ loc)).trans (floorOwn_samePlaces _ (some slot) loc data.length s.nextId)
  unfold areaStore
  dsimp only
  split
  · exact hissued.trans (onSlot_samePlaces _ _ fun _ => ⟨rfl, rfl, rfl, rfl, rfl, fun _ => rfl, fun _ _ => rfl, nofun⟩)
  · exact (hissued.trans (perform_samePlaces _ _)).trans (sendAck_samePlaces _ _ _ _)

-- ## A user-level handler that ends with a fault (R372)

/-- The machine once the handler's completion stands in entry 61 of its area, and one that stood there is pending again. -/
def completionKept (s : State) (slot : Fin 8) (a : Thread) (loc : Nat) : State :=
  let s1 := coreRead s (loc + 976) 16
  let u0 := natLE (areaRead s1 slot (loc + 976) 8)
  let u1 := natLE (areaRead s1 slot (loc + 976 + 8) 8)
  match a.ucur with
  | some u =>
    (areaStore s1 slot (a.psave + 976#64) (loc + 976) (entry16 u.1.toNat u.2.toNat)).onSlot slot (fun t =>
      if u0 = 0 ∧ u1 = 0 then t else { t with uints := insUint t.uints (some t.psave, BitVec.ofNat 64 u0, BitVec.ofNat 64 u1) })
  | none => s1

theorem completionKept_samePlaces (s : State) (slot : Fin 8) (a : Thread) (loc : Nat) : SamePlaces false s (completionKept s slot a loc) := by
  have hread : SamePlaces false s (coreRead s (loc + 976) 16) := coreRead_samePlaces s (loc + 976) 16
  unfold completionKept
  dsimp only
  split
  · refine (hread.trans (areaStore_samePlaces _ slot _ _ _)).trans (onSlot_samePlaces _ _ fun t => ?_)
    split
    · exact .refl t
    · exact ⟨rfl, rfl, rfl, rfl, rfl, fun _ => rfl, fun _ _ => rfl, fun _ => ⟨rfl, rfl⟩⟩
  · exact hread

/-- The slot's own registers back, and no completion in hand. -/
def handlerLeft (s : State) (slot : Fin 8) : State := s.onSlot slot (fun t => { t.swapShadow with ucur := none })

/-- The entry of a fault that ends a handler resumes at UEPC. -/
def resumeEntry (a : Thread) (cause : Word) : Entry :=
  { cause, epc := BitVec.ofNat 64 (field a.cr[crUepc] 47 1 * 2), marker := a.cr[crUepc].getLsbD 48 }

/-- The parts of the thread that the entry does not write. -/
theorem enterVector_rest (s : State) (slot : Fin 8) (e : Entry) (uhf : Bool) :
    let a := s.slots[slot]
    let b := (enterVector s slot e uhf).slots[slot]
    b.mode = .run ∧ b.ucur = a.ucur ∧ b.w = a.w ∧ b.shadow = a.shadow := by
  dsimp only
  unfold enterVector
  rw [onSlot_same]
  exact ⟨rfl, rfl, rfl, rfl⟩

section Handler

variable {s s1 : State} {slot : Fin 8} {cause : Word} {loc : Nat} {attr : BitVec 5} (huh : s.slots[slot].uh = true)
  (hlevel : s.slots[slot].sup = false ∨ s.slots[slot].ie = true) (htrap : field cause 7 0 ≠ 0x13) (htrack : field cause 7 0 ≠ 0x0B)
  (hwait : entryWaits s slot = false) (hplace : areaPlace s slot s.slots[slot].psave true = .ok loc attr s1)

include huh hlevel htrap htrack hwait hplace

theorem takePrecise_ends : takePrecise s slot cause =
    .next (enterVector (handlerLeft (completionKept s1 slot s.slots[slot] loc) slot) slot (resumeEntry s.slots[slot] cause) true) := by
  have htold : trackTold s slot cause = s := if_neg fun h => htrack h.1
  have hlive : ¬(s.slots[slot].sup && !s.slots[slot].ie) = true := by
    rcases hlevel with h | h
    · rw [h]; exact Bool.false_ne_true
    · rw [h, Bool.not_true, Bool.and_false]; exact Bool.false_ne_true
  unfold takePrecise
  dsimp only
  rw [htold, if_neg hlive]
  unfold takeException
  dsimp only
  rw [if_neg (ne_true_of_eq_false hwait), if_pos huh, if_neg htrap]
  split
  case h_1 hstop => cases hplace.symm.trans hstop
  case h_2 hbad => cases hplace.symm.trans hbad
  case h_3 hok =>
    cases hplace.symm.trans hok
    rfl

/-- What the end of a handler leaves of its slot's thread. -/
theorem takePrecise_leaves : ∃ t, takePrecise s slot cause = .next t ∧
    t.st = (completionKept s1 slot s.slots[slot] loc).st ∧ (∀ i : Fin 8, i ≠ slot → t.slots[i] = (completionKept s1 slot s.slots[slot] loc).slots[i]) ∧
    let a := s.slots[slot]
    let b := t.slots[slot]
    field b.cr[crEpc] 47 1 = field a.cr[crUepc] 47 1 ∧ b.cr[crEpc].getLsbD 48 = a.sup ∧ b.cr[crEpc].getLsbD 49 = a.ie ∧ b.cr[crEpc].getLsbD 50 = true ∧
    b.cr[crEpc].getLsbD 51 = a.cr[crUepc].getLsbD 48 ∧ b.cr[crCause] = a.causeNow cause ∧ b.sup = true ∧ b.ie = false ∧ b.uh = false ∧ b.mode = .run ∧
    b.pc = BitVec.ofNat 64 (field a.cr[crKvec] 47 1 * 2) ∧ b.ucur = none ∧ (∀ i : Fin 24, i.val < 20 → b.w[i] = a.w[i]) ∧
    ∀ i : Fin 4, b.w[20 + i.val] = a.shadow[i] ∧ b.shadow[i] = a.w[20 + i.val] := by
  have hkept := ((areaPlace_samePlaces hplace).trans (completionKept_samePlaces s1 slot s.slots[slot] loc)).slots slot
  refine ⟨_, takePrecise_ends huh hlevel htrap htrack hwait hplace, rfl, fun i hi => ?_, ?_⟩
  · exact (onSlot_other _ _ hi).trans (onSlot_other _ _ hi)
  generalize completionKept s1 slot s.slots[slot] loc = u at hkept
  obtain ⟨hw, -, -, hshadow, hfaults, -, hcr, -⟩ := hkept
  obtain ⟨hepc, hcause, hsup, hie, huh', -, hpc⟩ := enterVector_fields (handlerLeft u slot) slot (resumeEntry s.slots[slot] cause) true
  obtain ⟨hmode, hucur, hwv, hshadowv⟩ := enterVector_rest (handlerLeft u slot) slot (resumeEntry s.slots[slot] cause) true
  have hleft : (handlerLeft u slot).slots[slot] = { u.slots[slot].swapShadow with ucur := none } := onSlot_same ..
  rw [hleft] at hepc hcause hpc hucur hwv hshadowv
  have hstatus := hcr crStatus (by decide)
  obtain ⟨haddress, hpsup, hpie, huhf, hmk⟩ := epcWord_fields (resumeEntry s.slots[slot] cause).epc u.slots[slot].sup u.slots[slot].ie true
    (resumeEntry s.slots[slot] cause).marker
  have hepc' : (enterVector (handlerLeft u slot) slot (resumeEntry s.slots[slot] cause) true).slots[slot].cr[crEpc] =
      epcWord (resumeEntry s.slots[slot] cause).epc u.slots[slot].sup u.slots[slot].ie true (resumeEntry s.slots[slot] cause).marker := hepc
  have huepc : field s.slots[slot].cr[crUepc] 47 1 < 2 ^ 47 := Nat.mod_lt _ (by decide)
  dsimp only
  rw [hepc', hmode, hucur, hwv, hshadowv]
  refine ⟨haddress.trans ?_, hpsup.trans (congrArg (·.getLsbD 0) hstatus), hpie.trans (congrArg (·.getLsbD 1) hstatus), huhf, hmk, hcause.trans ?_,
    hsup, hie, huh', rfl, hpc.trans ?_, rfl, fun i hi => ?_, fun i => ?_⟩
  · unfold resumeEntry
    dsimp only
    rw [field_ofNat (by omega)]
    omega
  · have hnow : ∀ t u : Thread, u.faults = t.faults → u.causeNow cause = t.causeNow cause := fun t u h => by rw [Thread.causeNow, h]; rfl
    exact hnow s.slots[slot] _ hfaults
  · exact congrArg (fun k => BitVec.ofNat 64 (field k 47 1 * 2)) (hcr crKvec (by decide))
  · rw [← hw]; exact swapShadow_low _ hi
  · rw [← hw, ← hshadow]; exact swapShadow_high _ i

end Handler

-- ## The completion in its area (R183, R372)

/-- A store into a free area leaves every other slot alone. -/
theorem store_others {s : State} {slot : Fin 8} {area : Word} {loc : Nat} (h : FreeArea s slot area loc) {o : Nat} (ho : o < 1024)
    (d : List Byte) {i : Fin 8} (hi : i ≠ slot) : (areaStore s slot (area + BitVec.ofNat 64 o) (loc + o) d).slots[i] = s.slots[i] := by
  have hstore : (areaStore s slot (area + BitVec.ofNat 64 o) (loc + o) d).slots = (floorOwn (s.bump.onSlot slot id) (some slot) (loc + o) d.length s.nextId).slots := by
    unfold areaStore
    simp only [h.own o ho, h.free o ho, if_true, Bool.false_eq_true, if_false, l1Drop, h.bank o ho, perform, sendAck]
    rfl
  rw [hstore]
  exact (onSlot_other _ _ hi).trans (onSlot_other _ _ hi)

/-- Where the area is a free one of the own window, the completion's entry alone is written, and no other slot changes. -/
theorem completionKept_own {s : State} {slot : Fin 8} {off : Nat} {u : Word × Word} (hmem : MemoryOk s)
    (hown : classify s.slots[slot].psave = .own off) (hfree : ownPending s slot (winLoc s off) = false) (hu : s.slots[slot].ucur = some u) :
    let t := completionKept s slot s.slots[slot] (winLoc s off)
    (∀ i : Fin 8, i ≠ slot → t.slots[i] = s.slots[i]) ∧ natLE (Mem.read t.st.mem (winLoc s off + 976) 8) = u.1.toNat ∧
    natLE (Mem.read t.st.mem (winLoc s off + 984) 8) = u.2.toNat ∧
    ∀ c : Nat, c < winLoc s off + 976 ∨ winLoc s off + 992 ≤ c → Mem.get t.st.mem c = Mem.get s.st.mem c := by
  have harea := freeArea_own hown (psave_aligned _) hfree
  have hbank := harea.bank 976 (by decide)
  have hread := coreRead_bank_areaKept slot (s := s) (n := 16) hbank
  have hslots : (coreRead s (winLoc s off + 976) 16).slots = s.slots := by
    rw [coreRead, if_pos hbank]; exact (scrub_step _ _ _).slots
  have hkept := harea.kept hread
  obtain ⟨-, hwrite⟩ := hkept.store (o := 976) (by decide) (entry16 u.1.toNat u.2.toNat)
  rw [coreRead_mem] at hwrite
  have hstored : (completionKept s slot s.slots[slot] (winLoc s off)).st.mem = Mem.write s.st.mem (winLoc s off + 976) (entry16 u.1.toNat u.2.toNat) := by
    unfold completionKept
    dsimp only
    rw [hu]
    dsimp only
    rw [State.onSlot_st, hwrite]
  have hentry {o n : Nat} (ho : o + n ≤ 16) : natLE (Mem.read (Mem.write s.st.mem (winLoc s off + 976) (entry16 u.1.toNat u.2.toNat)) (winLoc s off + 976 + o) n) =
      natLE (((entry16 u.1.toNat u.2.toNat).drop o).take n) := by
    have h := numAt_entry hmem (l := [entry16 u.1.toNat u.2.toNat]) (by simp [entry16_length]) (winLoc s off + 976) (i := 0) rfl ho
    simpa using h
  refine ⟨fun i hi => ?_, ?_, ?_, fun c hc => ?_⟩
  · unfold completionKept
    dsimp only
    rw [hu]
    exact (onSlot_other _ _ hi).trans ((store_others hkept (o := 976) (by decide) _ hi).trans (by rw [hslots]))
  · rw [hstored]
    exact (hentry (o := 0) (by decide)).trans (entry16_low u.1.isLt _)
  · rw [hstored]
    exact (hentry (o := 8) (by decide)).trans (entry16_high _ u.2.isLt)
  · rw [hstored]
    exact Mem.get_write_other _ _ _ hmem (by rw [entry16_length]; omega)

-- ## Events that become pending (R343, R365)

theorem mem_insFault (l : List (Nat × Word)) (f g : Nat × Word) : g ∈ insFault l f ↔ g = f ∨ g ∈ l := by
  induction l with
  | nil => simp [insFault]
  | cons x l ih =>
    unfold insFault
    split
    · simp only [List.mem_cons, ih, or_left_comm]
    · simp only [List.mem_cons]

theorem setSlot_same (s : State) (i : Fin 8) (t : Thread) : (s.setSlot i t).slots[i] = t := by simp

theorem setSlot_other (s : State) {i j : Fin 8} (t : Thread) (h : j ≠ i) : (s.setSlot i t).slots[j] = s.slots[j] := onSlot_other s (fun _ => t) h

section Pending

variable {slot : Fin 8} {s : State} (hlive : holdsThread s.slots[slot] = true)

include hlive

theorem quantumExpiry_pends (hquant : field s.slots[slot].cr[crQuant] 31 0 ≠ 0) (hleft : field s.slots[slot].cr[crQleft] 31 0 = 0)
    (hnone : s.slots[slot].expiry = none) :
    exec (.quantumExpiry slot) s = .next (s.onSlot slot (fun t => { t with expiry := some false })) := by
  show execQuantumExpiry slot s = _
  unfold execQuantumExpiry
  dsimp only
  split
  · next h => rw [holdsThread, h] at hlive; cases hlive
  · next h => rw [holdsThread, h] at hlive; cases hlive
  · next h => rw [holdsThread, h] at hlive; cases hlive
  · refine if_neg (not_or.mpr ⟨hquant, not_or.mpr ⟨not_not.mpr hleft, ?_⟩⟩)
    rw [hnone]
    exact Bool.false_ne_true

theorem impreciseFault_pends (seq : Nat) (cause : Word) (h : impreciseCode (field cause 7 0) = true) :
    exec (.impreciseFaultArrival slot seq cause) s = .next (s.setSlot slot (s.slots[slot].addFault seq cause)) :=
  if_pos (by rw [hlive, h]; rfl)

theorem threadKill_kills : exec (.threadKill slot) s = .next (killThread s slot) := if_pos hlive

end Pending

-- ## Entries (R370, R372)

theorem trapEntry_completes {slot : Fin 8} {s s1 : State} {e : Entry} {loc : Nat} {attr : BitVec 5} (hmode : s.slots[slot].mode = .entering e)
    (hwait : entryWaits s slot = false) (huh : s.slots[slot].uh = false)
    (h : saveArea s slot (s.slots[slot].uintOf s.slots[slot].areaUse) = .ok loc attr s1) :
    Completes (exec (.trapEntry slot) s) (fun t => AtVector s1.slots[slot] e t.slots[slot]) := by
  have hexec : exec (.trapEntry slot) s = takeException s slot e := by
    show execTrapEntry slot s = _
    unfold execTrapEntry
    dsimp only
    rw [hmode]
    exact if_neg (ne_true_of_eq_false hwait)
  refine ⟨_, hexec.trans (takeException_saved e hwait huh h), ?_⟩
  · have hv := enterVector_atVector (s1.onSlot slot (fun t => { t with uints := dropUint t.uints s.slots[slot].areaUse })) slot e
    rw [onSlot_same] at hv
    exact hv.of_uints

/-- The slot's thread once a user-level interrupt has been taken, out of the thread `a` before and the thread `b` whose area is written. -/
def userEntered (a b : Thread) (u : Word × Word) : Thread :=
  let t1 := b.setCr crUepc (BitVec.ofNat 64 (field a.pc 47 1 * 2 + a.sAfter.toNat * 2 ^ 48))
  let t2 := { t1.setStatus a.sup a.ie a.uie true with uints := dropUint b.uints a.areaUse, ucur := some u, shadow := #v[u.1, u.2, 0#64, 0#64] }
  { t2.swapShadow with
    pc := BitVec.ofNat 64 (field a.cr[crUvec] 47 1 * 2)
    seqr := { a.seqr with paused := a.seqr.paused + (if a.seqr.left = 0 then 0 else 1) }
    mode := .run, sAfter := false, held := none, miss := none }

theorem userEntry_completes {slot : Fin 8} {s s1 : State} {u : Word × Word} {loc : Nat} {attr : BitVec 5} (hmode : s.slots[slot].mode = .userEntering)
    (hwait : entryWaits s slot = false) (hu : s.slots[slot].uintOf s.slots[slot].areaUse = some u) (h : saveArea s slot none = .ok loc attr s1) :
    exec (.userLevelEntry slot) s = .next (s1.onSlot slot (fun t => userEntered s.slots[slot] t u)) := by
  show execUserLevelEntry slot s = _
  unfold execUserLevelEntry
  dsimp only
  rw [hmode]
  refine (if_neg (ne_true_of_eq_false hwait)).trans ?_
  unfold takeUser
  dsimp only
  rw [if_neg (ne_true_of_eq_false hwait), hu]
  dsimp only
  rw [h]
  rfl

theorem userEntered_fields (a b : Thread) (u : Word × Word) :
    field (userEntered a b u).cr[crUepc] 47 1 = field a.pc 47 1 ∧ (userEntered a b u).cr[crUepc].getLsbD 48 = a.sAfter ∧ (userEntered a b u).uh = true := by
  have hpc : field a.pc 47 1 < 2 ^ 47 := Nat.mod_lt _ (by decide)
  have hmark := a.sAfter.toNat_lt
  have hepc : (userEntered a b u).cr[crUepc] = BitVec.ofNat 64 (field a.pc 47 1 * 2 + a.sAfter.toNat * 2 ^ 48) :=
    (setCr_other _ _ (by decide)).trans (setCr_same ..)
  obtain ⟨-, -, -, huh⟩ := setStatus_bits (b.setCr crUepc (BitVec.ofNat 64 (field a.pc 47 1 * 2 + a.sAfter.toNat * 2 ^ 48))) a.sup a.ie a.uie true
  refine ⟨?_, ?_, huh⟩ <;> rw [hepc]
  · rw [field_ofNat (by omega)]
    omega
  · rw [getLsbD_ofNat (by omega), show (field a.pc 47 1 * 2 + a.sAfter.toNat * 2 ^ 48) / 2 ^ 48 % 2 = a.sAfter.toNat by omega, decide_toNat_eq_one]

/-- Settles O46: what each event leaves of its slot, from the state before it or from the one whose area it has written. -/
theorem slotEventsAct : Obligations.SlotEventsAct := by
  unfold Obligations.SlotEventsAct
  intro slot s a Rest
  refine ⟨fun hlive => ⟨fun hquant hleft hnone => ?expiry, fun seq cause hcode => ?imprecise, ?kill⟩, fun e s1 loc attr hmode hwait huh h => ?trap,
    fun u s1 loc attr hmode hwait hu h => ?user, fun cause s1 loc attr huh hlevel htrap htrack hwait hplace => ?handler⟩
  case expiry => exact ⟨_, quantumExpiry_pends hlive hquant hleft hnone, onSlot_same .., fun i hi => onSlot_other _ _ hi⟩
  case imprecise =>
    have hsame : (s.setSlot slot (a.addFault seq cause)).slots[slot] = a.addFault seq cause := setSlot_same ..
    refine ⟨_, impreciseFault_pends hlive seq cause hcode, fun f => ?_, ?_, fun i hi => setSlot_other _ _ hi⟩
    · rw [hsame]; exact mem_insFault _ _ _
    · rw [hsame]; rfl
  case kill =>
    obtain ⟨hkilled, hothers, hmem⟩ := killThread_kills s slot
    exact ⟨_, threadKill_kills hlive, hkilled, hmem, fun i hi => ⟨(hothers i hi).w, (hothers i hi).pc⟩⟩
  case trap =>
    obtain ⟨t, ht, hat⟩ := trapEntry_completes hmode hwait huh h
    exact ⟨t, ht, hat.cause, hat.sup, hat.ie, hat.mode, hat.pc⟩
  case user =>
    obtain ⟨haddress, hmk, huh⟩ := userEntered_fields a s1.slots[slot] u
    refine ⟨_, userEntry_completes hmode hwait hu h, ?_⟩
    dsimp only
    rw [onSlot_same]
    exact ⟨haddress, hmk, huh, rfl, rfl, rfl⟩
  case handler =>
    obtain ⟨t, ht, hst, hothers, hfields⟩ := takePrecise_leaves huh hlevel htrap htrack hwait hplace
    obtain ⟨hepc, hpsup, hpie, huhf, hmk, hcause, hsup, hie, huh', hmode, hpc, hucur, hlow, hhigh⟩ := hfields
    refine ⟨t, ht, hepc, hpsup, hpie, huhf, hmk, hcause, hsup, hie, huh', hmode, hpc, hucur, hlow, hhigh, fun off u hmem hown hfree hu => ?_⟩
    cases hplace.symm.trans (areaPlace_own hown)
    obtain ⟨hslots, hlo, hhi, hbytes⟩ := completionKept_own hmem hown hfree hu
    rw [hst]
    exact ⟨fun i hi => (hothers i hi).trans (hslots i hi), hlo, hhi, hbytes⟩

end Sys2Proof.Proofs.Events
end

section
/-! PROOF. The barriers, the mailboxes, the tasks and the cards of a core go on (R177, R308 to R310, R314, R325, R341, R346 to R348). -/

namespace Sys2Proof.Proofs.Units

open Sys2Proof Sys2Proof.Machine Sys2Proof.Safety Sys2Proof.Slice0 Sys2Proof.Proofs.Words Sys2Proof.Proofs.Results Sys2Proof.Proofs.Fetch
  Sys2Proof.Proofs.Translation Sys2Proof.Proofs.Engines Sys2Proof.Proofs.Barriers Sys2Proof.Proofs.Kill Sys2Proof.Proofs.Events

variable {q : Bool}

-- ## Writes of the barrier network (R359)

theorem performFree_samePlaces (s : State) (p : PWrite) (tag : Nat) : SamePlaces q s (performFree s p tag) := by
  unfold performFree
  dsimp only
  split
  · exact (perform_samePlaces s p).trans (.of_eq (by exact ⟨rfl, rfl, rfl, rfl⟩))
  · exact perform_samePlaces s p

theorem service_samePlaces (s : State) (loc : Nat) : SamePlaces q s (service s loc) :=
  (serviceLoop_samePlaces _ _ _).trans (waitRetry_samePlaces _ _)

theorem netWrite_samePlaces (s : State) (loc v : Nat) : SamePlaces q s (netWrite s loc v) :=
  ((SamePlaces.of_eq (by exact ⟨rfl, rfl, rfl, rfl⟩)).trans (performFree_samePlaces { s.bump with wrote := true } _ _)).trans (service_samePlaces _ loc)

theorem recordBarrier_launch (s : State) (g : Machine.Group) (i : Image) : (recordBarrier s g i).launch = i.launch := by
  unfold recordBarrier
  dsimp only
  repeat' split
  all_goals rfl

theorem writeBarrier_samePlaces (s : State) (g : Machine.Group) : SamePlaces q s (writeBarrier s g) := by
  unfold writeBarrier
  have hrecorded : (s.images.map (recordBarrier s g)).map (·.launch) = s.images.map (·.launch) := by
    rw [List.map_map]
    exact List.map_congr_left fun i _ => recordBarrier_launch s g i
  refine SamePlaces.trans (t := { s with images := s.images.map (recordBarrier s g) }) ⟨fun i => .refl _, rfl, rfl, hrecorded⟩
    (foldl_samePlaces (fun s c => ?_) _ _)
  split
  · exact netWrite_samePlaces s _ _
  · exact .refl s

-- ## Reservations are granted and refused outside the network (R96, R98, R100)

/-- The network and what firmware holds are the same. -/
structure Outside (s t : State) : Prop where
  net : t.net = s.net
  fw : t.fw = s.fw

theorem Outside.refl (s : State) : Outside s s := ⟨rfl, rfl⟩

theorem Outside.trans {s t u : State} (h1 : Outside s t) (h2 : Outside t u) : Outside s u := ⟨h2.net.trans h1.net, h2.fw.trans h1.fw⟩

theorem outside_of {s t : State} (h : SamePlaces q s t) : Outside s t := ⟨h.net, h.fw⟩

theorem onSt_outside (s : State) (f : Store → Store) : Outside s (s.onSt f) := ⟨rfl, rfl⟩

theorem images_outside (s : State) (l : List Image) : Outside s { s with images := l } := ⟨rfl, rfl⟩

theorem foldl_outside {α : Type} {f : State → α → State} (h : ∀ s a, Outside s (f s a)) (l : List α) (s : State) : Outside s (l.foldl f s) := by
  induction l generalizing s with
  | nil => exact .refl s
  | cons a l ih => exact (h s a).trans (ih _)

/-- The state that a translation comes to, if it comes to one, is the same outside the core and memory. -/
def TransOutside (s : State) : Trans → Prop
  | .ok _ _ t => Outside s t
  | .bad _ t => Outside s t
  | .stop _ => True

theorem translatePaged_outside (s : State) (w : Walker) (a : Acc) (va : Word) : TransOutside s (translatePaged s w a va) := by
  have hl : Outside s (lookup s w (field va 47 0)).2 := outside_of (lookup_samePlaces (q := true) s w _)
  unfold translatePaged
  split <;> rename_i e <;> rw [e] at hl
  · split <;> exact hl
  · exact hl
  · exact hl
  · trivial

theorem translate_outside (s : State) (w : Walker) (a : Acc) (va : Word) : TransOutside s (Machine.translate s w a va) := by
  unfold Machine.translate
  split
  case h_5 => exact translatePaged_outside ..
  all_goals exact .refl s

theorem areaPlace_outside (s : State) (slot : Fin 8) (area : Word) (write : Bool) : TransOutside s (areaPlace s slot area write) := by
  have ht := translate_outside s { s.slots[slot].walker with user := false, th := s.slots[slot].mcth slot, cause := 0, slots := [slot] }
    { user := false, fetch := false, write, sync := false } area
  unfold areaPlace
  dsimp only
  split
  · next h =>
    rw [h] at ht
    split <;> exact ht
  · exact ht

theorem resvSettle_outside (s : State) (slot : Fin 8) (r : Req) (grant : Bool) : Outside s (resvSettle s slot r grant) := by
  unfold resvSettle
  dsimp only
  split
  · exact ⟨rfl, rfl⟩
  · next a _ =>
    have hplace := areaPlace_outside s slot a true
    split
    · next loc attr s1 h =>
      rw [h] at hplace
      have hread : Outside s (coreRead s1 (loc + 16 * 57) 64) := hplace.trans (outside_of (coreRead_samePlaces (q := true) s1 _ _))
      split
      · exact hread.trans (outside_of (areaStore_samePlaces _ slot _ _ _))
      · exact hread
    · next h => rw [h] at hplace; exact hplace.trans ⟨rfl, rfl⟩
    · exact .refl s

theorem settleAway_outside (s : State) (a : Nat × Nat × Fin 8) (y : Settled) : Outside s (settleAway s a y) := by
  have hgrant (s : State) (img : Image) (l : Launch) (slot : Fin 8) (tag : Nat) (v : Quad) : Outside s (awayGrant s img l slot tag v) := by
    unfold awayGrant
    split
    · exact .refl s
    · split
      · exact ⟨rfl, rfl⟩
      · exact Outside.trans (t := s.bump) ⟨rfl, rfl⟩ (outside_of (performFree_samePlaces (q := true) s.bump _ _))
  unfold settleAway
  split
  · dsimp only
    split
    · exact (images_outside s _).trans (hgrant ..)
    · exact ⟨rfl, rfl⟩
  · exact .refl s

theorem refuseLrw_outside (s : State) (r : Req) (kind : Nat) : Outside s (refuseLrw s r kind) := by
  unfold refuseLrw
  split
  · exact settleAway_outside ..
  · next i _ hslot =>
    rw [hslot]
    exact (resvSettle_outside s i r false).trans ⟨rfl, rfl⟩
  · exact .refl s

theorem giveGrant_outside (s : State) (r : Req) : Outside s (giveGrant s r) := by
  have hscrub : Outside s (pointScrub s r.loc 8) := outside_of (pointScrub_samePlaces (q := true) s r.loc 8)
  unfold giveGrant
  dsimp only
  split
  · exact hscrub.trans (settleAway_outside ..)
  · exact (resvSettle_outside ..).trans (outside_of (answer_samePlaces (q := true) _ r .amoO 8 false))
  · exact hscrub

theorem grantNext_outside (s : State) (e : Resv) : Outside s (grantNext s e) := by
  unfold grantNext
  dsimp only
  split
  · exact ⟨rfl, rfl⟩
  · split
    · exact ⟨rfl, rfl⟩
    · exact (onSt_outside s _).trans (giveGrant_outside ..)

theorem lrwArrive_outside (s : State) (r : Req) (grp : GroupKey) (gen tkt : Nat) : Outside s (lrwArrive s r grp gen tkt) := by
  unfold lrwArrive
  dsimp only
  split
  · exact refuseLrw_outside ..
  · split
    · split
      · exact refuseLrw_outside ..
      · exact grantNext_outside ..
    · split
      · exact ⟨rfl, rfl⟩
      · exact (onSt_outside s _).trans (grantNext_outside ..)

theorem resvRetry_outside (s : State) (n : Nat) : Outside s (resvRetry s n) := by
  induction n generalizing s with
  | zero => exact .refl s
  | succ n ih =>
    unfold resvRetry
    split
    · exact .refl s
    · dsimp only
      split
      · exact ((onSt_outside s _).trans (lrwArrive_outside ..)).trans (ih _)
      · exact (onSt_outside s _).trans (ih _)

theorem strandAway_outside (s : State) (grp : GroupKey) (gen : Nat) : Outside s (strandAway s grp gen) := by
  unfold strandAway
  dsimp only
  refine foldl_outside (fun s img => ?_) _ _
  refine (images_outside s _).trans (foldl_outside (fun s r => ?_) _ _)
  split
  · exact settleAway_outside ..
  · exact refuseLrw_outside ..

theorem deliverWaits_outside (s : State) (g : Machine.Group) (l : List (Fin 8 × Nat × Nat)) :
    Outside s (l.foldl (fun s w => deliverWait s g w.1 w.2.1 w.2.2) s) :=
  foldl_outside (f := fun s (w : Fin 8 × Nat × Nat) => deliverWait s g w.1 w.2.1 w.2.2) (fun _ _ => ⟨rfl, rfl⟩) l s

-- ## Arrivals and closes (R308 to R310)

/-- What the arrival of a thread of another core releases (R308). -/
def awayArrival (s : State) (k : GroupKey) (g : Machine.Group) (n : Nat) (known : List (Nat × Nat)) : Release :=
  { scope := g.rect.setWidth 42, core := some ((s.coreOf n).getD 0)
    src := srcOf ((s.coreOf n).getD 0) (Fin.ofNat 8 n) (match s.fw.launches[k.launch - 1]? with | some l => l.cid.val | none => s.thr.cid.val)
    rel := known }

/-- A group with that arrival. -/
def arrivedGroup (s : State) (k : GroupKey) (g : Machine.Group) (n : Nat) (known : List (Nat × Nat)) : Machine.Group :=
  { g with arrived := g.arrived ++ [(n, awayArrival s k g n known)] }

/-- A group whose generation has closed. -/
def closedGroup (g : Machine.Group) : Machine.Group :=
  { g with
    gen := g.gen + 1, arrived := [], past := (g.gen, g.arrived.map (·.2)) :: g.past, waits := g.waits.filter (fun w => decide (g.gen < w.2.2)) }

section Groups

variable {s : State} {k : GroupKey} {g : Machine.Group} (h : groupOf s k = some g)

include h

theorem barrierArrival_counts {n : Nat} (known : List (Nat × Nat)) (hother : s.threadNo (Fin.ofNat 8 n) ≠ n)
    (hnew : g.arrived.any (fun y => y.1 == n) = false) (hmember : s.isMember g n = true) :
    exec (.barrierNetworkArrival k { thread := n, known }) s =
      .next (writeBarrier (putGroup s (arrivedGroup s k g n known)) (arrivedGroup s k g n known)) := by
  have hnot : ¬(!s.isMember g n) = true := by rw [hmember]; exact Bool.false_ne_true
  show execBarrierNetworkArrival k { thread := n, known } s = _
  unfold execBarrierNetworkArrival
  dsimp only
  rw [h]
  dsimp only
  rw [if_neg (ne_true_of_eq_false hnew), if_neg hother, if_neg hnot]
  rfl

/-- A complete generation closes once no arrival of its ended members is under way. -/
theorem generationClose_closes (hcomplete : g.complete = true) (hpending : g.pending = none)
    (hway : ∀ i : Fin 8, g.gone.contains (s.threadNo i) = true → arrivalOnWay s k i = false) :
    ∃ t, exec (.generationClose k) s = .next t ∧ t.net = (putGroup s (closedGroup g)).net := by
  have hnone : (List.finRange 8).any (fun i => g.gone.contains (s.threadNo i) && arrivalOnWay s k i) = false :=
    List.any_eq_false.mpr fun i _ hi => by
      obtain ⟨hgone, hon⟩ := Bool.and_eq_true_iff.mp hi
      rw [hway i hgone] at hon
      cases hon
  have hgo : ¬(!g.complete || (List.finRange 8).any (fun i => g.gone.contains (s.threadNo i) && arrivalOnWay s k i)) = true := by
    rw [hcomplete, hnone]; exact Bool.false_ne_true
  show ∃ t, execGenerationClose k s = .next t ∧ t.net = (putGroup s (closedGroup g)).net
  unfold execGenerationClose
  rw [h]
  dsimp only
  rw [if_neg hgo]
  refine ⟨_, rfl, (deliverWaits_outside _ _ _).net.trans ?_⟩
  split
  · next hmask => exact absurd (hpending.symm.trans hmask) nofun
  refine (writeBarrier_samePlaces (q := true) _ (closedGroup g)).net.trans ?_
  refine (resvRetry_outside ..).net.trans ((foldl_outside (fun s r => refuseLrw_outside s r 1) _ _).net.trans ?_)
  exact (strandAway_outside ..).net.trans rfl

end Groups

-- ## Messages (R325)

section Messages

variable {s : State} {id : Word} {data : Quad} {sender : Nat} {known : List (Nat × Nat)} (hnone : arriving s s.coreId id data = none)
  (hway : underWay s id data = false)

include hnone hway

/-- A message of another core's thread goes to the receive that takes it. -/
theorem messageArrive_received {r : Receive} (hr : s.core.receives.find? (fun r => r.takes id) = some r) :
    exec (.messageArrive s.coreId id { data, sender, known }) s = .next
      (((giveMessage s r.slot r.tag id data (some (foreignRel s id { data, sender, known }))).onCore
        (fun c => { c with receives := c.receives.filter (fun y => y.tag != r.tag) })).onCore
        (fun c => { c with spillTold := c.spillTold.filter (· != (id, data)) })) := by
  show execMessageArrive s.coreId id { data, sender, known } s = _
  unfold execMessageArrive
  dsimp only
  rw [hnone]
  refine (if_pos ⟨rfl, hway⟩).trans ?_
  unfold placeMessage
  dsimp only
  rw [hr]

/-- It goes to its mailbox where no receive takes it and the mailbox has room. -/
theorem messageArrive_kept (hr : s.core.receives.find? (fun r => r.takes id) = none)
    (hroom : (s.core.mail.filter (fun y => idMbox y.id == idMbox id)).length < 4) :
    exec (.messageArrive s.coreId id { data, sender, known }) s = .next (arrivalInterrupt (((s.onCore (fun c =>
      { c with mail := c.mail ++ [{ id, data, num := s.core.arrivals, rel := some (foreignRel s id { data, sender, known }) }] })).onCore
        (fun c => { c with spillTold := c.spillTold.filter (· != (id, data)) })).onCore (fun c => { c with arrivals := c.arrivals + 1#32 }))
        (idMbox id)) := by
  show execMessageArrive s.coreId id { data, sender, known } s = _
  unfold execMessageArrive
  dsimp only
  rw [hnone]
  refine (if_pos ⟨rfl, hway⟩).trans ?_
  unfold placeMessage
  dsimp only
  rw [hr]
  dsimp only
  rw [if_pos hroom]

end Messages

/-- A result owed has the message once it is given. -/
theorem giveMessage_vals (s : State) (slot : Fin 8) (tag : Nat) (id : Word) (data : Quad) (rel : Option Release) :
    ∀ o ∈ (giveMessage s slot tag id data rel).slots[slot].owed, o.tag = tag →
      o.vals = some [{ port := .msgO, val := data, mark := none }, { port := .msgId, val := quad id, mark := none }] := by
  intro o ho htag
  rw [giveMessage, onSlot_same, Thread.fill] at ho
  obtain ⟨w, -, rfl⟩ := List.mem_map.mp ho
  split at htag
  · next hw => rw [if_pos hw]
  · next hw => exact absurd htag hw

-- ## Tasks (R341, R346 to R348)

theorem clean_w (t : Thread) (pc : Word) (ws : List Word) (i : Fin 24) : (t.clean pc ws).w[i] = ws.getD i.val 0#64 := by
  simp [Thread.clean]

/-- A thread at the beginning of the next task of its launch (R341). -/
def begunThread (l : Launch) (t : Thread) : Thread :=
  { t.clean l.words[0] [l.words[3], BitVec.ofNat 64 (t.task + t.stride), BitVec.ofNat 64 l.nt] with task := t.task + t.stride }

theorem begunThread_w (l : Launch) (t : Thread) (i : Fin 24) :
    (begunThread l t).w[i] = [l.words[3], BitVec.ofNat 64 (t.task + t.stride), BitVec.ofNat 64 l.nt].getD i.val 0#64 :=
  clean_w t l.words[0] _ i

theorem taskBegin_begins {slot : Fin 8} {l : Launch} {s : State} (hl : s.launch? = some l) (hmode : s.slots[slot].mode = .taskEnd)
    (hidle : s.slots[slot].idle = true) :
    exec (.taskBegin slot) s = .next (s.setSlot slot (begunThread l s.slots[slot])) := by
  show execTaskBegin slot s = _
  unfold execTaskBegin
  dsimp only
  rw [hl]
  exact if_neg (not_or.mpr ⟨not_not.mpr hmode, by rw [hidle]; exact Bool.true_eq_false.mp⟩)

theorem mem_topEntries_of_dispatchPick {s : State} {slot : Fin 8} {r : Ready × Nat} (h : dispatchPick s slot = some r) :
    r ∈ topEntries s.core.ready := by
  unfold dispatchPick at h
  split at h
  · cases h
  · next x rest htop =>
    rw [htop]
    split at h
    · cases h; exact .head _
    · rcases Option.or_eq_some_iff.mp h with hfound | ⟨-, hfirst⟩
      · exact List.mem_of_mem_take (List.mem_of_find?_eq_some hfound)
      · cases hfirst; exact .head _

theorem topEntries_lt {l : List Ready} {r : Ready} {i : Nat} (h : (r, i) ∈ topEntries l) : i < l.length := by
  obtain ⟨hi, -⟩ := List.mem_zipIdx' (List.mem_of_mem_filter h)
  exact hi

theorem dispatchPick_lt {s : State} {slot : Fin 8} {r : Ready} {i : Nat} (h : dispatchPick s slot = some (r, i)) : i < s.core.ready.length :=
  topEntries_lt (mem_topEntries_of_dispatchPick h)

/-- The ready queue once an entry has been taken: those of its priority before it have been passed over (R347). -/
def passedOver (l : List Ready) (r : Ready) (i : Nat) : List Ready :=
  (l.zipIdx.map (fun y => if y.2 < i ∧ y.1.prio = r.prio then { y.1 with byp := y.1.byp + 1 } else y.1)).eraseIdx i

/-- A thread at the beginning of a task of the ready queue (R348). -/
def givenThread (r : Ready) (t : Thread) : Thread :=
  { t.clean r.entry (r.args.toList ++ [r.tagw, BitVec.ofNat 64 (readyStatus r)]) with dispatched := true }

theorem passedOver_length {l : List Ready} {i : Nat} (r : Ready) (h : i < l.length) : (passedOver l r i).length + 1 = l.length := by
  rw [passedOver, List.length_eraseIdx, List.length_map, List.length_zipIdx, if_pos h]
  omega

theorem givenThread_w (r : Ready) (t : Thread) (i : Fin 24) :
    (givenThread r t).w[i] = (r.args.toList ++ [r.tagw, BitVec.ofNat 64 (readyStatus r)]).getD i.val 0#64 := clean_w t r.entry _ i

theorem givenThread_args (r : Ready) (t : Thread) (j : Fin 4) : (givenThread r t).w[j.val] = r.args[j] := by
  refine (givenThread_w r t ⟨j.val, by omega⟩).trans ?_
  rw [List.getD_append _ _ _ _ (by simp), List.getD_eq_getElem _ _ (by simp)]
  simp

theorem givenThread_status (r : Ready) (t : Thread) :
    (givenThread r t).w[(4 : Fin 24)] = r.tagw ∧ (givenThread r t).w[(5 : Fin 24)] = BitVec.ofNat 64 (readyStatus r) := by
  simp only [givenThread_w]
  constructor <;> rw [List.getD_append_right _ _ _ _ (by simp)] <;> simp

theorem taskDispatch_gives {s : State} {slot : Fin 8} {r : Ready} {i : Nat} (hslot : dispatchSlot s = some slot) (hpick : dispatchPick s slot = some (r, i)) :
    exec .taskDispatch s = .next ((s.onCore (fun c => { c with ready := passedOver s.core.ready r i })).onSlot slot (givenThread r)) := by
  show execTaskDispatch s = _
  unfold execTaskDispatch
  rw [hslot]
  dsimp only
  rw [hpick]
  rfl

theorem cardTaskPush_pushes {s : State} {id : Fin 32} {c : Card} (hc : s.core.cards.find? (fun y => y.id == id) = some c)
    (hready : cardReady s = some id) (hroom : s.core.ready.length < 64) :
    exec (.cardTaskPush id) s = .next (s.onCore (fun k =>
      { k with ready := k.ready ++ [c.task], cards := k.cards.filter (fun y => y.id != id) })) := by
  show execCardTaskPush id s = _
  unfold execCardTaskPush
  rw [hc]
  exact if_neg (not_or.mpr ⟨not_not.mpr hready, Nat.not_le.mpr hroom⟩)

-- ## The end of a thread (R341)

/-- Every slot's program stands in its place, with its counted and its queued requests. -/
def SameSlots (s t : State) : Prop := ∀ i : Fin 8, SamePlace true s.slots[i] t.slots[i]

theorem SameSlots.trans {s t u : State} (h1 : SameSlots s t) (h2 : SameSlots t u) : SameSlots s u := fun i => (h1 i).trans (h2 i)

theorem SameSlots.of_eq {s t : State} (h : t.slots = s.slots) : SameSlots s t := fun i => by rw [h]; exact .refl _

theorem discardFaults_sameSlots (s : State) (slot : Fin 8) : SameSlots s (discardFaults s slot) := by
  have hlog (ev : McEvent) (l : List (Nat × Word)) : (l.foldl (fun s _ => s.mcLog ev) s).slots = s.slots :=
    foldl_keeps (fun s _ => s.mcLog ev) State.slots (fun _ _ => rfl) l s
  refine .of_eq ?_
  unfold discardFaults
  dsimp only
  split
  all_goals exact hlog _ _

theorem arriveAll_sameSlots (s : State) (slot : Fin 8) : SameSlots s (arriveAll s slot) := by
  unfold arriveAll
  dsimp only
  generalize List.filter _ s.net.groups = l
  suffices h : ∀ u : State, SameSlots s u → SameSlots s (l.foldl (fun u g => writeBarrier
      (putGroup u { g with arrived := g.arrived ++ [(s.threadNo slot, { scope := g.rect.setWidth 42, core := some u.home, src := u.src slot, rel := relOf u slot })] })
      { g with arrived := g.arrived ++ [(s.threadNo slot, { scope := g.rect.setWidth 42, core := some u.home, src := u.src slot, rel := relOf u slot })] }) u) from
    h s (.of_eq rfl)
  intro u hu
  induction l generalizing u with
  | nil => exact hu
  | cons g l ih => exact ih _ ((hu.trans (.of_eq (t := putGroup u _) rfl)).trans (writeBarrier_samePlaces (q := true) _ _).slots)

/-- What an ending thread's slot holds of requests, and every slot's program, until its requests are discarded. -/
theorem endedAway_sameSlots (s : State) (slot : Fin 8) : SameSlots s (leaveAll (arriveAll (discardFaults s slot) slot) slot) :=
  ((discardFaults_sameSlots s slot).trans (arriveAll_sameSlots _ slot)).trans (.of_eq rfl)

/-- The tags that a queue holds up, once more of it has been seen: the list grows, and has every request that waits for one of its tags. -/
theorem blocked_grows (l : List Req) (b : List Nat) :
    (∀ n ∈ b, n ∈ l.foldl (fun b r => if r.waits.any (fun g => b.contains g) then b ++ [r.tag] else b) b) ∧
    ∀ r ∈ l, ∀ n ∈ b, n ∈ r.waits → r.tag ∈ l.foldl (fun b r => if r.waits.any (fun g => b.contains g) then b ++ [r.tag] else b) b := by
  induction l generalizing b with
  | nil => exact ⟨fun _ hn => hn, nofun⟩
  | cons r l ih =>
    have hstep : ∀ n ∈ b, n ∈ (if r.waits.any (fun g => b.contains g) then b ++ [r.tag] else b) := fun n hn => by
      split
      · exact List.mem_append_left _ hn
      · exact hn
    obtain ⟨hgrow, hrest⟩ := ih (if r.waits.any (fun g => b.contains g) then b ++ [r.tag] else b)
    refine ⟨fun n hn => hgrow n (hstep n hn), fun x hx n hn hw => ?_⟩
    rcases List.mem_cons.mp hx with rfl | hx
    · refine hgrow _ ?_
      rw [if_pos (List.any_eq_true.mpr ⟨n, hw, List.contains_iff_mem.mpr hn⟩)]
      exact List.mem_append_right _ (.head _)
    · exact hrest x hx n (hstep n hn) hw

theorem mem_blockedTags_of_refused {t : Thread} {c : Counted} (hc : c ∈ t.counted) (hr : c.refused = true) : c.tag ∈ blockedTags t :=
  (blocked_grows _ _).1 _ (List.mem_map.mpr ⟨c, List.mem_filter.mpr ⟨hc, hr⟩, rfl⟩)

theorem mem_blockedTags_of_waits {t : Thread} {c : Counted} (hc : c ∈ t.counted) (hr : c.refused = true) {r : Req} (hq : r ∈ t.psq) (hw : c.tag ∈ r.waits) :
    r.tag ∈ blockedTags t :=
  (blocked_grows _ _).2 r hq _ (List.mem_map.mpr ⟨c, List.mem_filter.mpr ⟨hc, hr⟩, rfl⟩) hw

/-- A thread that has ended, without the requests of these tags. -/
def endedThread (b : List Nat) (t : Thread) : Thread :=
  { t with
    mode := .ended, faults := [], sysint := none, msgint := none, expiry := none, held := none
    counted := t.counted.filter (fun c => !b.contains c.tag), psq := t.psq.filter (fun r => !b.contains r.tag) }

theorem threadEnd_ends {s : State} {slot : Fin 8} (hmode : s.slots[slot].mode = .ending) (hready : endReady s slot = true) :
    exec (.threadEnd slot) s = .next ((leaveAll (arriveAll (discardFaults s slot) slot) slot).onSlot slot (endedThread (blockedTags s.slots[slot]))) := by
  have hlate : (s.slots[slot].mode == .ended && !s.slots[slot].faults.isEmpty) = false := by rw [hmode]; rfl
  show execThreadEnd slot s = _
  unfold execThreadEnd
  dsimp only
  rw [hlate]
  refine (if_neg (not_or.mpr ⟨fun h => h.1 hmode, by rw [hready]; exact Bool.true_eq_false.mp⟩)).trans ?_
  rfl

/-- Settles O50, clause by clause. -/
theorem groupsMailboxesTasksProceed : Obligations.GroupsMailboxesTasksProceed := by
  unfold Obligations.GroupsMailboxesTasksProceed
  intro s
  refine ⟨fun k g h => ⟨fun n known hother hnew hmember => ?_, fun hcomplete hpending hway => ?_⟩, fun id data sender known hnone hway => ⟨fun r hr => ?_, fun hr hroom => ?_⟩,
    fun slot l hl hmode hidle => ?_, fun slot hmode hready => ?_, fun slot r i hslot hpick => ?_, fun id c hc hready hroom => ?_⟩
  case refine_1 =>
    have hwrite := writeBarrier_samePlaces (q := true) (putGroup s (arrivedGroup s k g n known)) (arrivedGroup s k g n known)
    refine ⟨_, barrierArrival_counts h known hother hnew hmember, ⟨awayArrival s k g n known, rfl, ?_⟩, fun i => ⟨(hwrite.slots i).w, (hwrite.slots i).pc⟩⟩
    rw [groupOf_congr hwrite.net]
    exact groupOf_putGroup h rfl
  case refine_2 =>
    obtain ⟨t, hrun, hnet⟩ := generationClose_closes h hcomplete hpending hway
    refine ⟨t, hrun, closedGroup g, ?_, rfl, rfl, rfl, rfl, rfl⟩
    rw [groupOf_congr hnet]
    exact groupOf_putGroup h rfl
  case refine_3 => exact ⟨_, messageArrive_received hnone hway hr, rfl, rfl, rfl, giveMessage_vals s r.slot r.tag id data _⟩
  case refine_4 =>
    exact ⟨_, messageArrive_kept hnone hway hr hroom, rfl, rfl, _, rfl, rfl, rfl, rfl⟩
  case refine_5 =>
    refine ⟨_, taskBegin_begins hl hmode hidle, ?_⟩
    show _ ∧ _
    rw [setSlot_same]
    refine ⟨rfl, rfl, begunThread_w .., begunThread_w .., begunThread_w .., fun i hi => (begunThread_w ..).trans ?_, fun i => ?_, rfl, rfl, rfl⟩
    · exact List.getD_eq_default _ _ hi
    · exact Vector.getElem_replicate ..
  case refine_6 =>
    have hkept := endedAway_sameSlots s slot
    obtain ⟨hcounted, hpsq⟩ := (hkept slot).requests rfl
    refine ⟨_, threadEnd_ends hmode hready, ?_, fun c hc => ?_, fun r hr c hc href hw => ?_, fun i hi => ?_⟩
    · rw [onSlot_same]; rfl
    · rw [onSlot_same, endedThread, hcounted] at hc
      obtain ⟨hc, hout⟩ := List.mem_filter.mp hc
      refine Bool.eq_false_iff.mpr fun href => ?_
      rw [List.contains_iff_mem.mpr (mem_blockedTags_of_refused hc href)] at hout
      cases hout
    · rw [onSlot_same, endedThread, hpsq] at hr
      obtain ⟨hr, hout⟩ := List.mem_filter.mp hr
      rw [List.contains_iff_mem.mpr (mem_blockedTags_of_waits hc href hr hw)] at hout
      cases hout
    · rw [onSlot_other _ _ hi]; exact ⟨(hkept i).pc, (hkept i).w⟩
  case refine_7 =>
    refine ⟨_, taskDispatch_gives hslot hpick, ?_⟩
    show _ ∧ _
    rw [onSlot_same]
    exact ⟨rfl, rfl, fun j => givenThread_args .., (givenThread_status ..).1, (givenThread_status ..).2, rfl, passedOver_length r (dispatchPick_lt hpick)⟩
  case refine_8 => exact ⟨_, cardTaskPush_pushes hc hready hroom, rfl, rfl, rfl⟩

end Sys2Proof.Proofs.Units
end

section
/-! PROOF. Gleaning, cross-triggers, the watchpoint filter, trace and the islands' clocks (R386 to R392, R403, R404). -/

namespace Sys2Proof.Proofs.Debugging

open Sys2Proof Sys2Proof.Machine Sys2Proof.Safety Sys2Proof.Slice0 Sys2Proof.Proofs.Results Sys2Proof.Proofs.Words Sys2Proof.Proofs.Canonical Sys2Proof.Proofs.Engines Sys2Proof.Proofs.Tasks
  Sys2Proof.Proofs.Filter

-- ## Gleaning (R386)

/-- Bytes of the cells that a filter keeps stay. -/
theorem get_filter (m : List Host.Cell) (keep : Nat → Bool) {b : Nat} (h : keep b = true) : Mem.get (m.filter (fun c => keep c.1)) b = Mem.get m b := by
  induction m with
  | nil => rfl
  | cons c r ih =>
    obtain ⟨x, v⟩ := c
    rw [List.filter_cons]
    split
    · rw [Mem.get, Mem.get, ih]
    · next hx =>
      have hne : x ≠ b := fun e => hx (e ▸ h)
      rw [ih, Mem.get, if_neg hne]

theorem gleanWords_get (n : Nat) {st : Store} (hm : Mem.wf st.mem = true) (loc k : Nat) {b : Nat} (h : b < loc ∨ loc + 8 * n ≤ b) :
    Mem.get (gleanWords st loc k n).mem b = Mem.get st.mem b := by
  induction n generalizing st loc k with
  | zero => rfl
  | succ n ih =>
    rw [gleanWords]
    refine (ih ?_ _ _ (by omega)).trans ?_
    · exact Mem.wf_write _ _ hm
    · exact get_write_word hm loc _ (by omega)

theorem clusterOf_clusterCore {k b : Nat} (hb : b < 8) : clusterOf (clusterCore k b) = k := by
  unfold clusterOf clusterCore coreNum coreX coreY
  omega

theorem gleanBank_get {st : Store} (hm : Mem.wf st.mem = true) {k n : Nat} (hn : n < 8) (ctr : Nat) {b : Nat} (h : (isBank b && clusterOf (bankCore b) == k) = false) :
    Mem.get (gleanBank k ctr st n).mem b = Mem.get st.mem b := by
  refine gleanWords_get 2048 hm _ _ ?_
  by_contra hin
  have hcore : bankCore b = clusterCore k n := by
    unfold bankCore
    unfold bankLoc at hin
    omega
  have hbank : isBank b = true := by
    refine decide_eq_true ?_
    unfold bankLoc at hin
    omega
  rw [hbank, hcore, clusterOf_clusterCore hn, beq_self_eq_true] at h
  cases h

theorem gleanBanks_get {st : Store} (hm : Mem.wf st.mem = true) (k ctr : Nat) {b : Nat} (h : (isBank b && clusterOf (bankCore b) == k) = false) :
    Mem.get (gleanBanks st k ctr).mem b = Mem.get st.mem b := by
  have hbanks (l : List Nat) : (∀ n ∈ l, n < 8) → ∀ st : Store, Mem.wf st.mem = true → Mem.get (l.foldl (gleanBank k ctr) st).mem b = Mem.get st.mem b := by
    induction l with
    | nil => intros; rfl
    | cons n l ih =>
      intro hl st hm
      rw [List.foldl_cons, ih (fun n hn => hl n (.tail _ hn)) _ (gleanBank_wf k ctr st n hm), gleanBank_get hm (hl n (.head _)) ctr h]
  rw [gleanBanks_eq, hbanks _ (fun n hn => List.mem_range.mp hn) _ (clearBanks_wf st _ hm)]
  exact get_filter st.mem (fun a => !(isBank a && clusterOf (bankCore a) == k)) (by rw [h]; rfl)

theorem gleanCluster_st (s : State) (k : Nat) : (gleanCluster s k).st = gleanBanks s.st k s.freeCtr := by
  rw [gleanCluster]

theorem gleanFail_st (s : State) (k : Nat) (part : Fin 4) (core : Fin 8) (ad : Word) : (gleanFail s k part core ad).st = s.st := rfl

theorem gleaning_gleans {s : State} {k : Nat} (hidle : idleCluster s k = true) (hk : k < 131072) (failed : Option (Fin 4 × Fin 8 × Word)) :
    Completes (exec (.gleaning k failed) s) (fun t => t.slots = s.slots ∧ t.st = gleanBanks s.st k s.freeCtr ∧ (failed = none → t.fw = s.fw) ∧
      (failed ≠ none → k ∈ t.fw.retired)) := by
  have hgo : ¬(idleCluster s k = false ∨ 131072 ≤ k) := not_or.mpr ⟨by rw [hidle]; exact Bool.true_eq_false.mp, Nat.not_le.mpr hk⟩
  show Completes (execGleaning k failed s) _
  unfold execGleaning
  rw [if_neg hgo]
  cases failed with
  | none => exact ⟨_, rfl, rfl, gleanCluster_st s k, fun _ => rfl, fun h => absurd rfl h⟩
  | some f => exact ⟨_, rfl, rfl, (gleanFail_st _ k f.1 f.2.1 f.2.2).trans (gleanCluster_st s k), nofun, fun _ => mem_setIns _ _⟩

-- ## What the debug module writes (R391, R392)

/-- Words that the debug module writes stand in memory one after the other. -/
theorem debugWords_mem (s : State) (loc : Nat) (ws : List Nat) :
    (debugWords s loc ws).st.mem = Mem.write s.st.mem loc (wordBytes (ws.map (fun w => (w, 0#2)))) := by
  induction ws generalizing s loc with
  | nil => rfl
  | cons w ws ih =>
    have hword : (engineWrite s srcNet loc w false [] none).st.mem = Mem.write s.st.mem loc (bytesLE 8 w) := by
      refine ((performFree_st { s.bump with wrote := true } (engineStore s srcNet loc w false [] none) _).1.trans ?_)
      exact perform_mem _ _
    have hcons : wordBytes ((w :: ws).map (fun w => (w, 0#2))) = bytesLE 8 w ++ wordBytes (ws.map (fun w => (w, 0#2))) := rfl
    rw [debugWords, ih, hword, hcons, write_append, bytesLE_length]

theorem lostWords_length (s : State) : (lostWords s).length = 42 := by
  have hslot (l : List Thread) : (l.flatMap (fun t => t.lost.toList.map (·.toNat))).length = 4 * l.length := by
    induction l with
    | nil => rfl
    | cons t l ih => rw [List.flatMap_cons, List.length_append, ih]; simp; omega
  rw [lostWords, List.length_append, List.length_append, hslot]
  simp

theorem lostWords_lt {s : State} {v : Nat} (h : v ∈ lostWords s) : v < 2 ^ 64 := by
  have hlt (x : BitVec 48) : x.toNat < 2 ^ 64 := Nat.lt_of_lt_of_le x.isLt (by decide)
  rcases List.mem_append.mp h with h | h
  · rcases List.mem_append.mp h with h | h
    · obtain ⟨t, -, h⟩ := List.mem_flatMap.mp h
      obtain ⟨x, -, rfl⟩ := List.mem_map.mp h
      exact hlt x
    · obtain ⟨x, -, rfl⟩ := List.mem_map.mp h
      exact hlt x
  · rw [List.mem_singleton.mp h]
    exact hlt _

/-- The account of lost time stands in the block, and no other byte has changed. -/
theorem snapshot_writes {s : State} (hm : MemoryOk s) (block : Nat) :
    (∀ j < 42, read64 (debugWords s block (lostWords s)).st (block + 8 * j) = (lostWords s).getD j 0) ∧
    ∀ b : Nat, b < block ∨ block + 336 ≤ b → Mem.get (debugWords s block (lostWords s)).st.mem b = Mem.get s.st.mem b := by
  have hmem := debugWords_mem s block (lostWords s)
  have hlen := lostWords_length s
  refine ⟨fun j hj => ?_, fun b hb => ?_⟩
  · have hj : j < (lostWords s).length := hlen ▸ hj
    have hval : (lostWords s)[j] % 2 ^ 64 = (lostWords s)[j] := Nat.mod_eq_of_lt (lostWords_lt (List.getElem_mem hj))
    rw [read64_words hm hmem j (by rw [List.length_map]; exact hj), List.getElem_map, hval, List.getD_eq_getElem _ _ hj]
  · rw [hmem]
    refine Mem.get_write_other _ _ _ hm ?_
    rw [wordBytes_length, List.length_map, hlen]
    exact hb

/-- A cluster's buffer is what was put back for it. -/
theorem buf_setBuf (d : Debug) (b : TraceBuf) {k : Nat} (h : b.cluster = k) : (d.setBuf b).buf k = b := by
  rw [Debug.setBuf, Debug.buf, List.find?_cons_of_pos (by rw [h]; exact beq_self_eq_true k)]
  rfl

theorem buf_cluster (d : Debug) (k : Nat) : (d.buf k).cluster = k := by
  unfold Debug.buf
  cases h : d.bufs.find? (fun b => b.cluster == k) with
  | none => rfl
  | some b => exact beq_iff_eq.mp (List.find?_some (p := fun b : TraceBuf => b.cluster == k) h)

/-- With no place for its records, or all of them written, a buffer has nothing to write. -/
theorem traceStep_idle {s : State} {k : Nat} (h : (s.dbg.buf k).place = none) : traceStep s k = s := by
  unfold traceStep
  dsimp only
  rw [h]

theorem traceSteps_idle {s : State} {k : Nat} (h : (s.dbg.buf k).place = none ∨ (s.dbg.buf k).records.length ≤ (s.dbg.buf k).out) :
    (List.range ((s.dbg.buf k).records.length - (s.dbg.buf k).out)).foldl (fun s _ => traceStep s k) s = s := by
  rcases h with h | h
  · generalize List.range _ = l
    induction l with
    | nil => rfl
    | cons _ _ ih => rw [List.foldl_cons, traceStep_idle h, ih]
  · rw [Nat.sub_eq_zero_of_le h]
    rfl

/-- A cluster's buffer once firmware has set it (R392). -/
def placedBuffer (s : State) (k base size : Nat) : TraceBuf :=
  let b := s.dbg.buf k
  let old := b.place.isNone && !b.records.isEmpty
  { b with
    records := if old then b.records else [epochRec (traceRatio s k) 0 s.dbg.now], last := if old then b.last else s.dbg.now, place := some (base, size)
    out := if old then b.out else 0 }

theorem traceBuffer_buf (s : State) (k base size : Nat) : (traceBuffer s k base size).dbg.buf k = placedBuffer s k base size :=
  buf_setBuf _ _ (buf_cluster s.dbg k)

/-- A buffer that is new, or moves, begins with an epoch record. -/
theorem placedBuffer_first {s : State} {k : Nat} (base size : Nat) (h : (s.dbg.buf k).place ≠ none ∨ (s.dbg.buf k).records = []) :
    (placedBuffer s k base size).records = [epochRec (traceRatio s k) 0 s.dbg.now] ∧ (placedBuffer s k base size).out = 0 := by
  have hold : ((s.dbg.buf k).place.isNone && !(s.dbg.buf k).records.isEmpty) = false := by
    rcases h with h | h
    · rw [Option.isNone_eq_false_iff.mpr (Option.isSome_iff_ne_none.mpr h)]; rfl
    · rw [h]; exact Bool.and_false _
  unfold placedBuffer
  dsimp only
  rw [hold]
  exact ⟨rfl, rfl⟩

theorem traceBuffer_idle {s : State} {k : Nat} (base size : Nat) (h : (s.dbg.buf k).place = none ∨ (s.dbg.buf k).records.length ≤ (s.dbg.buf k).out) :
    (traceBuffer s k base size).slots = s.slots ∧ (traceBuffer s k base size).st = s.st ∧ (traceBuffer s k base size).core = s.core := by
  rw [traceBuffer]
  dsimp only
  rw [traceSteps_idle h]
  exact ⟨rfl, rfl, rfl⟩

theorem traceAll_rest (s : State) (type low : Nat) (hi : Word) :
    (s.traceAll type low hi).core = s.core ∧ (s.traceAll type low hi).slots = s.slots ∧ (s.traceAll type low hi).st = s.st := by
  have hkeep {α : Type} (part : State → α) (h : ∀ (u : State) (b : TraceBuf), part (u.traceAt b.cluster type low hi) = part u) :
      part (s.traceAll type low hi) = part (s.trace type low hi) :=
    foldl_keeps (fun (u : State) (b : TraceBuf) => u.traceAt b.cluster type low hi) part h _ _
  exact ⟨hkeep State.core fun _ _ => rfl, hkeep State.slots fun _ _ => rfl, hkeep State.st fun _ _ => rfl⟩

-- ## Islands (R403, R404)

theorem islandAt_islandSet (s : State) (i j : Nat) (x : Island) : islandAt (islandSet s i x) j = if j = i then x else islandAt s j := by
  have hother : j ≠ i → (s.host.islands.filter (fun e => e.1 != i)).find? (fun e => e.1 == j) = s.host.islands.find? (fun e => e.1 == j) := fun hj => by
    rw [List.find?_filter]
    congr 1
    funext e
    by_cases he : e.1 = j
    · simp [he, hj]
    · simp [he]
  have hsame : (s.host.islands.filter (fun e => e.1 != i)).find? (fun e => e.1 == i) = none := by
    rw [List.find?_eq_none]
    intro e he
    simpa using (List.mem_filter.mp he).2
  unfold islandAt islandSet
  dsimp only
  by_cases hx : x = Island.reset <;> by_cases hj : j = i
  · subst hj; rw [if_pos hx, if_pos rfl, hsame]; exact hx.symm
  · rw [if_pos hx, if_neg hj, hother hj]
  · subst hj; rw [if_neg hx, if_pos rfl, List.find?_cons_of_pos (by simp)]
  · rw [if_neg hx, if_neg hj, List.find?_cons_of_neg (by simpa using fun e => hj e.symm), hother hj]

-- ### An island at a boundary

section Boundary

theorem step_ne_zero {c : BitVec 2} (h : 0 < c) : c ≠ 0 := by bv_omega

theorem step_not_neg (c : BitVec 2) : ¬c < 0 := by bv_omega

variable (x : Island) (boost : Bool)

/-- An island that stays above step 0 or at it keeps its step through the accounting. -/
theorem spend_rests (h : x.cur = 0 ∨ 1 < x.perm) : x.spend.2 = false ∧ x.spend.1.cur = x.cur ∧ x.spend.1.tgt = x.tgt ∧ x.spend.1.trip = x.trip := by
  unfold Island.spend
  by_cases hcur : x.cur = 0
  · rw [if_neg (not_not.mpr hcur)]
    split <;> exact ⟨rfl, rfl, rfl, rfl⟩
  · have hperm : ¬x.perm - 1 = 0 := by have := h.resolve_left hcur; omega
    rw [if_pos hcur]
    dsimp only
    rw [if_neg hperm]
    exact ⟨rfl, rfl, rfl, rfl⟩

/-- Its last permit spent, it falls by a step. -/
theorem spend_falls (hcur : x.cur ≠ 0) (hperm : x.perm ≤ 1) : x.spend = ({ x with idle := 0, perm := x.perm - 1, cur := x.cur - 1 }, true) := by
  have hnone : x.perm - 1 = 0 := by omega
  unfold Island.spend
  rw [if_pos hcur]
  dsimp only
  rw [if_pos hnone]

theorem spend_above (hcur : x.cur ≠ 0) : x.spend.1.idle = 0 ∧ x.spend.1.perm = x.perm - 1 := by
  unfold Island.spend
  rw [if_pos hcur]
  dsimp only
  split <;> exact ⟨rfl, rfl⟩

theorem spend_fourth (hcur : x.cur = 0) (hidle : x.idle + 1 = 4) : x.spend.1.idle = 0 ∧ x.spend.1.perm = min 64 (x.perm + 1) := by
  unfold Island.spend
  rw [if_neg (not_not.mpr hcur), if_pos hidle]
  exact ⟨rfl, rfl⟩

theorem spend_counts (hcur : x.cur = 0) (hidle : x.idle + 1 ≠ 4) : x.spend.1.idle = x.idle + 1 ∧ x.spend.1.perm = x.perm := by
  unfold Island.spend
  rw [if_neg (not_not.mpr hcur), if_neg hidle]
  exact ⟨rfl, rfl⟩

/-- What a boundary leaves of the accounting. -/
theorem next_account : (x.next boost).1.idle = x.spend.1.idle ∧ (x.next boost).1.perm = x.spend.1.perm := by
  unfold Island.next
  repeat' split
  all_goals simp_all

/-- An island over its limit goes to step 0. -/
theorem next_limited (h : x.cur = 0 ∨ 1 < x.perm) (htrip : x.trip = true) : x.next boost = ({ x.spend.1 with cur := 0 }, none) := by
  obtain ⟨hstop, -, -, ht⟩ := spend_rests x h
  unfold Island.next
  generalize x.spend = y at hstop ht ⊢
  obtain ⟨y, stop⟩ := y
  obtain rfl : stop = false := hstop
  exact if_pos (ht.trans htrip)

/-- One above the step asked for goes down to it. -/
theorem next_lowered (h : x.cur = 0 ∨ 1 < x.perm) (htrip : x.trip = false) (hdown : x.want boost < x.cur) :
    x.next boost = ({ x.spend.1 with cur := x.want boost }, none) := by
  obtain ⟨hstop, hcur, htgt, ht⟩ := spend_rests x h
  unfold Island.next
  have hwant : x.spend.1.want boost = x.want boost := by unfold Island.want; rw [htgt]
  generalize x.spend = y at hstop hcur hwant ht ⊢
  obtain ⟨y, stop⟩ := y
  obtain rfl : stop = false := hstop
  dsimp only at hcur hwant ht ⊢
  rw [if_neg (by rw [ht, htrip]; exact Bool.false_ne_true), if_pos (by rw [hcur, hwant]; exact hdown), hwant]

/-- One below it asks to rise where it has permits, and otherwise stays. -/
theorem next_rising (h : x.cur = 0 ∨ 1 < x.perm) (htrip : x.trip = false) (hup : ¬x.want boost < x.cur) :
    x.next boost = (x.spend.1, if 0 < x.spend.1.perm ∧ x.cur < x.want boost then some (x.want boost) else none) := by
  obtain ⟨hstop, hcur, htgt, ht⟩ := spend_rests x h
  unfold Island.next
  have hwant : x.spend.1.want boost = x.want boost := by unfold Island.want; rw [htgt]
  generalize x.spend = y at hstop hcur hwant ht ⊢
  obtain ⟨y, stop⟩ := y
  obtain rfl : stop = false := hstop
  dsimp only at hcur hwant ht ⊢
  rw [if_neg (by rw [ht, htrip]; exact Bool.false_ne_true), if_neg (by rw [hcur, hwant]; exact hup), hcur, hwant]
  split <;> rfl

theorem next_fallen (hcur : x.cur ≠ 0) (hperm : x.perm ≤ 1) : x.next boost = ({ x with idle := 0, perm := x.perm - 1, cur := x.cur - 1 }, none) := by
  unfold Island.next
  rw [spend_falls x hcur hperm]

/-- Every island falls, rests or is lowered, or asks to rise from the step at which it stands. -/
theorem next_cases : (x.next boost).2 = none ∧ ((x.next boost).1.cur ≠ 0 → x.cur ≠ 0) ∨
    (x.next boost).1.cur = x.cur ∧ x.cur < x.want boost ∧ (x.next boost).2 = some (x.want boost) := by
  by_cases h : x.cur = 0 ∨ 1 < x.perm
  · cases htrip : x.trip with
    | true => rw [next_limited x boost h htrip]; exact .inl ⟨rfl, fun hne => absurd rfl hne⟩
    | false =>
      by_cases hdown : x.want boost < x.cur
      · rw [next_lowered x boost h htrip hdown]
        refine .inl ⟨rfl, fun _ hcur => ?_⟩
        rw [hcur] at hdown
        exact absurd hdown (step_not_neg _)
      · obtain ⟨-, hcur, -⟩ := spend_rests x h
        rw [next_rising x boost h htrip hdown]
        split
        · next hup => exact .inr ⟨hcur, hup.2, rfl⟩
        · exact .inl ⟨rfl, fun hne => hcur ▸ hne⟩
  · obtain ⟨hcur, hperm⟩ := not_or.mp h
    rw [next_fallen x boost hcur (Nat.not_lt.mp hperm)]
    exact .inl ⟨rfl, fun _ => hcur⟩

end Boundary

-- ### The rises of a die

/-- An island with its rise, if it has one and `n` islands of its die stand above step 0. -/
def risenIsland (ceil n : Nat) (x : Island) : Option (BitVec 2) → Island
  | none => x
  | some c => if x.cur ≠ 0 ∨ n < ceil then { x with cur := c } else x

/-- Islands above step 0 once one of them has had its rise. -/
def risenCount (ceil n : Nat) (x : Island) : Option (BitVec 2) → Nat
  | none => n
  | some _ => if x.cur = 0 ∧ n < ceil then n + 1 else n

/-- Islands above step 0 once those of a list have had their rises. -/
def risesTaken (ceil : Nat) (n : Nat) (l : List (Nat × Island × Option (BitVec 2))) : Nat := l.foldl (fun n e => risenCount ceil n e.2.1 e.2.2) n

theorem grantRises_cons (ceil n i : Nat) (x : Island) (o : Option (BitVec 2)) (l : List (Nat × Island × Option (BitVec 2))) :
    grantRises ceil n ((i, x, o) :: l) = (i, risenIsland ceil n x o) :: grantRises ceil (risenCount ceil n x o) l := by
  cases o with
  | none => rfl
  | some c =>
    unfold risenIsland risenCount
    rw [grantRises]
    by_cases hcur : x.cur = 0
    · by_cases hn : n < ceil <;> simp [hcur, hn]
    · exact (if_pos hcur).trans (by simp only [hcur, ne_eq, not_false_eq_true, true_or, if_true, false_and, if_false])

theorem grantRises_append (ceil n : Nat) (l m : List (Nat × Island × Option (BitVec 2))) :
    grantRises ceil n (l ++ m) = grantRises ceil n l ++ grantRises ceil (risesTaken ceil n l) m := by
  induction l generalizing n with
  | nil => rfl
  | cons e l ih =>
    obtain ⟨i, x, o⟩ := e
    rw [List.cons_append, grantRises_cons, grantRises_cons, ih]
    rfl

/-- What a boundary leaves of the islands of a die before its rises. -/
def dieEntry (s : State) (d k : Nat) : Nat × Island × Option (BitVec 2) :=
  (128 * d + k, ((islandAt s (128 * d + k)).next (s.host.featEn.getLsbD 4)).1, ((islandAt s (128 * d + k)).next (s.host.featEn.getLsbD 4)).2)

/-- Islands of a die above step 0 before its rises. -/
def dieAbove (s : State) (d : Nat) : Nat := (((List.range 128).map (dieEntry s d)).filter (fun e => e.2.1.cur != 0)).length

/-- Islands of a die above step 0 once its first `k` have had their rises. -/
def dieTaken (s : State) (d k : Nat) : Nat := risesTaken (Config.ceil d) (dieAbove s d) ((List.range k).map (dieEntry s d))

/-- An island after a boundary. -/
def islandAfter (s : State) (d k : Nat) : Island := risenIsland (Config.ceil d) (dieTaken s d k) (dieEntry s d k).2.1 (dieEntry s d k).2.2

theorem dieTaken_succ (s : State) (d k : Nat) :
    dieTaken s d (k + 1) = risenCount (Config.ceil d) (dieTaken s d k) (dieEntry s d k).2.1 (dieEntry s d k).2.2 := by
  unfold dieTaken risesTaken
  rw [List.range_succ, List.map_append, List.foldl_append]
  rfl

theorem grantRises_range (s : State) (d m : Nat) :
    grantRises (Config.ceil d) (dieAbove s d) ((List.range m).map (dieEntry s d)) = (List.range m).map (fun k => (128 * d + k, islandAfter s d k)) := by
  induction m with
  | zero => rfl
  | succ m ih =>
    rw [List.range_succ, List.map_append, List.map_append, grantRises_append, ih]
    congr 1
    exact grantRises_cons ..

theorem dieInterval_eq (s : State) (d : Nat) : dieInterval s d = (List.range 128).map (fun k => (128 * d + k, islandAfter s d k)) := grantRises_range s d 128

/-- What stands for an island among all of them after a boundary. -/
theorem mem_intervals {s : State} {d k : Nat} (hk : k < 128) {x : Island} (h : (128 * d + k, x) ∈ (List.range 16).flatMap (dieInterval s)) :
    x = islandAfter s d k := by
  obtain ⟨d', -, h⟩ := List.mem_flatMap.mp h
  rw [dieInterval_eq] at h
  obtain ⟨k', hk', h⟩ := List.mem_map.mp h
  have hk' := List.mem_range.mp hk'
  obtain ⟨hi, rfl⟩ := Prod.mk.inj h
  obtain ⟨rfl, rfl⟩ : d' = d ∧ k' = k := by omega
  rfl

theorem islandAt_after {s t : State} (h : t.host.islands = ((List.range 16).flatMap (dieInterval s)).filter (fun e => e.2 != Island.reset)) {d k : Nat} (hd : d < 16)
    (hk : k < 128) : islandAt t (128 * d + k) = islandAfter s d k := by
  have hin : (128 * d + k, islandAfter s d k) ∈ (List.range 16).flatMap (dieInterval s) := by
    refine List.mem_flatMap.mpr ⟨d, List.mem_range.mpr hd, ?_⟩
    rw [dieInterval_eq]
    exact List.mem_map.mpr ⟨k, List.mem_range.mpr hk, rfl⟩
  unfold islandAt
  rw [h]
  cases hfind : (((List.range 16).flatMap (dieInterval s)).filter (fun e => e.2 != Island.reset)).find? (fun e => e.1 == 128 * d + k) with
  | some e =>
    obtain ⟨i, x⟩ := e
    obtain rfl : i = 128 * d + k := beq_iff_eq.mp (List.find?_some (p := fun e : Nat × Island => e.1 == 128 * d + k) hfind)
    exact mem_intervals hk (List.mem_of_mem_filter (List.mem_of_find?_eq_some hfind))
  | none =>
    by_contra hreset
    have hne : (islandAfter s d k != Island.reset) = true := bne_iff_ne.mpr (Ne.symm hreset)
    exact List.find?_eq_none.mp hfind _ (List.mem_filter.mpr ⟨hin, hne⟩) (beq_self_eq_true _)

/-- The islands of a die's first `k` that stand above step 0. -/
def upBefore (s : State) (d : Nat) (l : List Nat) : Nat := (l.filter (fun j => (islandAt s (128 * d + j)).cur != 0)).length

theorem dieAbove_le (s : State) (d : Nat) : dieAbove s d ≤ upBefore s d (List.range 128) := by
  unfold dieAbove upBefore
  rw [List.filter_map, List.length_map]
  refine List.Sublist.length_le (List.monotone_filter_right _ fun k hk => ?_)
  have hk : (dieEntry s d k).2.1.cur ≠ 0 := bne_iff_ne.mp hk
  refine bne_iff_ne.mpr ?_
  rcases next_cases (islandAt s (128 * d + k)) (s.host.featEn.getLsbD 4) with ⟨-, h⟩ | ⟨h, -⟩
  · exact h hk
  · exact h ▸ hk

theorem filter_range_succ_length (p : Nat → Bool) (k : Nat) :
    ((List.range (k + 1)).filter p).length = ((List.range k).filter p).length + (if p k then 1 else 0) := by
  rw [List.range_succ, List.filter_append, List.length_append]
  by_cases h : p k <;> simp [h]

/-- A rise takes a place of the ceiling from an island that stood at step 0 alone. -/
theorem dieTaken_le_waiting (s : State) (d k : Nat) :
    dieTaken s d k ≤ upBefore s d (List.range 128) + ((List.range k).filter (fun j => (islandAt s (128 * d + j)).cur == 0)).length := by
  induction k with
  | zero => exact dieAbove_le s d
  | succ k ih =>
    rw [dieTaken_succ, filter_range_succ_length]
    rcases next_cases (islandAt s (128 * d + k)) (s.host.featEn.getLsbD 4) with ⟨hnone, -⟩ | ⟨hcur, -, hsome⟩
    · have hcount : risenCount (Config.ceil d) (dieTaken s d k) (dieEntry s d k).2.1 (dieEntry s d k).2.2 = dieTaken s d k := by
        unfold dieEntry; rw [hnone]; rfl
      rw [hcount]
      omega
    · have hcount : risenCount (Config.ceil d) (dieTaken s d k) (dieEntry s d k).2.1 (dieEntry s d k).2.2 =
          if (islandAt s (128 * d + k)).cur = 0 ∧ dieTaken s d k < Config.ceil d then dieTaken s d k + 1 else dieTaken s d k := by
        unfold dieEntry; rw [hsome, ← hcur]; rfl
      rw [hcount]
      by_cases hzero : (islandAt s (128 * d + k)).cur = 0 <;> simp only [hzero, beq_self_eq_true, if_true, true_and, false_and, if_false]
      · split <;> omega
      · omega

/-- And each such island then stands above it. -/
theorem dieTaken_le_risen (s : State) (d k : Nat) :
    dieTaken s d k ≤ upBefore s d (List.range 128) + ((List.range k).filter (fun j => (islandAfter s d j).cur != 0)).length := by
  induction k with
  | zero => exact dieAbove_le s d
  | succ k ih =>
    rw [dieTaken_succ, filter_range_succ_length]
    rcases next_cases (islandAt s (128 * d + k)) (s.host.featEn.getLsbD 4) with ⟨hnone, -⟩ | ⟨hcur, hup, hsome⟩
    · have hcount : risenCount (Config.ceil d) (dieTaken s d k) (dieEntry s d k).2.1 (dieEntry s d k).2.2 = dieTaken s d k := by
        unfold dieEntry; rw [hnone]; rfl
      rw [hcount]
      omega
    · have hsome : (dieEntry s d k).2.2 = some ((islandAt s (128 * d + k)).want (s.host.featEn.getLsbD 4)) := hsome
      by_cases htaken : (dieEntry s d k).2.1.cur = 0 ∧ dieTaken s d k < Config.ceil d
      · have hrisen : (islandAfter s d k).cur = (islandAt s (128 * d + k)).want (s.host.featEn.getLsbD 4) := by
          unfold islandAfter
          rw [hsome]
          exact congrArg Island.cur (if_pos (.inr htaken.2))
        have hne : ((islandAfter s d k).cur != 0) = true := bne_iff_ne.mpr fun h0 => by
          rw [← hrisen, h0] at hup
          exact step_not_neg _ hup
        rw [hne]
        have hcount : risenCount (Config.ceil d) (dieTaken s d k) (dieEntry s d k).2.1 (dieEntry s d k).2.2 = dieTaken s d k + 1 := by
          rw [hsome]; exact if_pos htaken
        rw [hcount, if_pos rfl]
        omega
      · have hcount : risenCount (Config.ceil d) (dieTaken s d k) (dieEntry s d k).2.1 (dieEntry s d k).2.2 = dieTaken s d k := by
          rw [hsome]; exact if_neg htaken
        rw [hcount]
        omega

-- ### An island after a boundary (R404)

theorem islandAfter_account (s : State) (d k : Nat) :
    (islandAfter s d k).idle = (islandAt s (128 * d + k)).spend.1.idle ∧ (islandAfter s d k).perm = (islandAt s (128 * d + k)).spend.1.perm := by
  obtain ⟨hidle, hperm⟩ := next_account (islandAt s (128 * d + k)) (s.host.featEn.getLsbD 4)
  have hrisen (ceil n : Nat) (x : Island) (o : Option (BitVec 2)) : (risenIsland ceil n x o).idle = x.idle ∧ (risenIsland ceil n x o).perm = x.perm := by
    unfold risenIsland
    repeat' split
    all_goals exact ⟨rfl, rfl⟩
  obtain ⟨hi, hp⟩ := hrisen (Config.ceil d) (dieTaken s d k) (dieEntry s d k).2.1 (dieEntry s d k).2.2
  exact ⟨hi.trans hidle, hp.trans hperm⟩

section After

variable {s : State} {d k : Nat} {y : Island}

/-- An island that asks for no rise is as the boundary left it. -/
theorem islandAfter_still (h : (islandAt s (128 * d + k)).next (s.host.featEn.getLsbD 4) = (y, none)) : islandAfter s d k = y := by
  unfold islandAfter dieEntry
  rw [h]
  rfl

theorem islandAfter_asking {c : BitVec 2} (h : (islandAt s (128 * d + k)).next (s.host.featEn.getLsbD 4) = (y, some c)) :
    islandAfter s d k = if y.cur ≠ 0 ∨ dieTaken s d k < Config.ceil d then { y with cur := c } else y := by
  unfold islandAfter dieEntry
  rw [h]
  rfl

variable (s d k)

theorem islandAfter_fallen (hcur : 0 < (islandAt s (128 * d + k)).cur) (hperm : (islandAt s (128 * d + k)).perm ≤ 1) :
    (islandAfter s d k).cur = (islandAt s (128 * d + k)).cur - 1 := by
  rw [islandAfter_still (next_fallen _ _ (step_ne_zero hcur) hperm)]

theorem islandAfter_limited (h : (islandAt s (128 * d + k)).cur = 0 ∨ 1 < (islandAt s (128 * d + k)).perm) (htrip : (islandAt s (128 * d + k)).trip = true) :
    (islandAfter s d k).cur = 0 := by
  rw [islandAfter_still (next_limited _ _ h htrip)]

theorem islandAfter_lowered (h : (islandAt s (128 * d + k)).cur = 0 ∨ 1 < (islandAt s (128 * d + k)).perm) (htrip : (islandAt s (128 * d + k)).trip = false)
    (hdown : (islandAt s (128 * d + k)).want (s.host.featEn.getLsbD 4) < (islandAt s (128 * d + k)).cur) :
    (islandAfter s d k).cur = (islandAt s (128 * d + k)).want (s.host.featEn.getLsbD 4) := by
  rw [islandAfter_still (next_lowered _ _ h htrip hdown)]

/-- One that asks to rise has its rise where it stood above step 0 or the ceiling leaves it a place. -/
theorem islandAfter_rising (h : (islandAt s (128 * d + k)).cur = 0 ∨ 1 < (islandAt s (128 * d + k)).perm) (htrip : (islandAt s (128 * d + k)).trip = false)
    (hperm : 0 < (islandAt s (128 * d + k)).spend.1.perm) (hup : (islandAt s (128 * d + k)).cur < (islandAt s (128 * d + k)).want (s.host.featEn.getLsbD 4)) :
    (islandAfter s d k).cur = if (islandAt s (128 * d + k)).cur ≠ 0 ∨ dieTaken s d k < Config.ceil d then (islandAt s (128 * d + k)).want (s.host.featEn.getLsbD 4)
      else (islandAt s (128 * d + k)).cur := by
  obtain ⟨-, hcur, -⟩ := spend_rests _ h
  have hnext := next_rising _ (s.host.featEn.getLsbD 4) h htrip (by bv_omega)
  rw [if_pos ⟨hperm, hup⟩] at hnext
  rw [islandAfter_asking hnext, hcur]
  split
  · rfl
  · exact hcur

/-- At step 0 an island stays there under a limit, and without the boost feature. -/
theorem islandAfter_held (hcur : (islandAt s (128 * d + k)).cur = 0) (h : (islandAt s (128 * d + k)).trip = true ∨ s.host.featEn.getLsbD 4 = false) :
    (islandAfter s d k).cur = 0 := by
  cases htrip : (islandAt s (128 * d + k)).trip with
  | true => exact islandAfter_limited s d k (.inl hcur) htrip
  | false =>
    have hboost := h.resolve_left (by rw [htrip]; exact Bool.false_ne_true)
    have hwant : (islandAt s (128 * d + k)).want (s.host.featEn.getLsbD 4) = 0 := by rw [hboost]; rfl
    have hnext := next_rising _ (s.host.featEn.getLsbD 4) (.inl hcur) htrip (by rw [hwant, hcur]; exact step_not_neg _)
    rw [if_neg fun h => by rw [hwant] at h; exact step_not_neg _ h.2] at hnext
    rw [islandAfter_still hnext]
    exact (spend_rests _ (.inl hcur)).2.1.trans hcur

end After

theorem want_eq (x : Island) (boost : Bool) : (if boost = false ∨ x.tgt = 3 then 0 else x.tgt) = x.want boost := by
  unfold Island.want
  cases boost <;> simp

/-- The clauses of R404 on island `k` of die `d`, of the islands before a boundary and after it. -/
theorem islandInterval_island {s t : State} (h : t.host.islands = ((List.range 16).flatMap (dieInterval s)).filter (fun e => e.2 != Island.reset)) {d k : Nat}
    (hd : d < 16) (hk : k < 128) :
    let i := 128 * d + k
    let x := islandAt s i
    let y := islandAt t i
    let want : BitVec 2 := if s.host.featEn.getLsbD 4 = false ∨ x.tgt = 3 then 0 else x.tgt
    let up (u : State) (l : List Nat) : Nat := (l.filter (fun j => (islandAt u (128 * d + j)).cur != 0)).length
    (0 < x.cur → y.idle = 0 ∧ y.perm = x.perm - 1) ∧
    (x.cur = 0 → x.idle + 1 = 4 → y.idle = 0 ∧ y.perm = min 64 (x.perm + 1)) ∧
    (x.cur = 0 → x.idle + 1 ≠ 4 → y.idle = x.idle + 1 ∧ y.perm = x.perm) ∧
    (0 < x.cur → x.perm ≤ 1 → y.cur = x.cur - 1) ∧
    ((x.cur = 0 ∨ 1 < x.perm) → x.trip = true → y.cur = 0) ∧
    ((x.cur = 0 ∨ 1 < x.perm) → x.trip = false → want < x.cur → y.cur = want) ∧
    (1 < x.perm → x.trip = false → 0 < x.cur → x.cur < want → y.cur = want) ∧
    (x.trip = false → x.cur = 0 → 0 < y.perm → 0 < want →
      (up s (List.range 128) + ((List.range k).filter (fun j => (islandAt s (128 * d + j)).cur == 0)).length < Config.ceil d → y.cur = want) ∧
      (y.cur = want ∨ y.cur = 0 ∧ Config.ceil d ≤ up s (List.range 128) + up t (List.range k))) := by
  intro i x y want up
  have hy : y = islandAfter s d k := islandAt_after h hd hk
  have hwant : want = x.want (s.host.featEn.getLsbD 4) := want_eq x _
  have hup : up t (List.range k) = ((List.range k).filter (fun j => (islandAfter s d j).cur != 0)).length := by
    refine congrArg List.length (List.filter_congr fun j hj => ?_)
    rw [islandAt_after h hd (Nat.lt_trans (List.mem_range.mp hj) hk)]
  obtain ⟨hidle, hperm⟩ := islandAfter_account s d k
  rw [hup, hy, hwant, hidle, hperm]
  refine ⟨fun hcur => spend_above x (step_ne_zero hcur), spend_fourth x, spend_counts x, islandAfter_fallen s d k, islandAfter_limited s d k,
    islandAfter_lowered s d k, fun hp htrip hcur hrise => ?_, fun htrip hcur hp hrise => ?_⟩
  · have hspent : 0 < x.spend.1.perm := by
      have := (spend_above x (step_ne_zero hcur)).2
      omega
    exact (islandAfter_rising s d k (.inr hp) htrip hspent hrise).trans (if_pos (.inl (step_ne_zero hcur)))
  · have hrisen := islandAfter_rising s d k (.inl hcur) htrip hp (hcur ▸ hrise)
    have hwaiting := dieTaken_le_waiting s d k
    have habove := dieTaken_le_risen s d k
    refine ⟨fun hroom => hrisen.trans (if_pos (.inr (Nat.lt_of_le_of_lt hwaiting hroom))), ?_⟩
    by_cases hroom : dieTaken s d k < Config.ceil d
    · exact .inl (hrisen.trans (if_pos (.inr hroom)))
    · refine .inr ⟨hrisen.trans ((if_neg (not_or.mpr ⟨not_not.mpr hcur, hroom⟩)).trans hcur), ?_⟩
      exact (Nat.not_lt.mp hroom).trans habove

theorem islandInterval_next (s : State) : ∃ t, exec .islandInterval s = .next t ∧ t.dbg.interval = s.dbg.interval + 1 ∧ t.slots = s.slots ∧ t.st = s.st ∧
    t.host.islands = ((List.range 16).flatMap (dieInterval s)).filter (fun e => e.2 != Island.reset) := by
  show ∃ t, execIslandInterval s = .next t ∧ _
  exact ⟨_, rfl, rfl, rfl, rfl, rfl⟩

-- ## The obligation

/-- Settles O53, clause by clause. -/
theorem debugAndPowerAct : Obligations.DebugAndPowerAct := by
  unfold Obligations.DebugAndPowerAct
  intro s
  refine ⟨fun k failed hm hidle hk => ?_, fun wide => ?_, ?_, fun g => ⟨_, rfl, ?_⟩, ⟨_, rfl, rfl, rfl, rfl⟩, fun n => ⟨_, rfl, rfl, rfl, rfl, rfl⟩,
    fun k base size halign hsize hbase hend => ?_, fun k => ⟨⟨_, rfl, .head _, rfl, rfl, rfl⟩, ⟨_, rfl, ?_, rfl, rfl, rfl⟩⟩, fun block hm halign hbase hend => ?_,
    fun i hi => ⟨fun on => ?_, fun v => ?_⟩, ?_⟩
  case refine_1 =>
    obtain ⟨t, hrun, hslots, hst, hrest⟩ := gleaning_gleans hidle hk failed
    exact ⟨t, hrun, hslots, fun b hb => by rw [hst]; exact gleanBanks_get hm k _ hb, hrest⟩
  case refine_2 =>
    obtain ⟨-, hslots, hst⟩ := traceAll_rest s 6 1 0
    cases wide
    · exact ⟨_, rfl, rfl, rfl, rfl, rfl⟩
    · exact ⟨_, rfl, rfl, rfl, hslots, hst⟩
  case refine_3 =>
    obtain ⟨-, hslots, hst⟩ := traceAll_rest s 6 0 0
    refine ⟨_, rfl, rfl, rfl, ?_, ?_⟩ <;> dsimp only <;> split
    · exact hslots
    · rfl
    · exact hst
    · rfl
  case refine_4 =>
    obtain ⟨hfound, hkept⟩ := watchpointFilterHolds s.core.filter g.toNat 0
    exact ⟨hfound, fun h hh => (watchpointFilterHolds s.core.filter g.toNat h).2 hh, rfl, rfl⟩
  case refine_5 =>
    refine ⟨_, if_neg ?_, by rw [traceBuffer_buf]; rfl, fun hnew => by rw [traceBuffer_buf]; exact placedBuffer_first base size hnew,
      traceBuffer_idle base size⟩
    rintro (h | h | h)
    · exact h halign
    · omega
    · rw [hbase, hend] at h; cases h
  case refine_6 => exact fun hin => absurd rfl (bne_iff_ne.mp (List.mem_filter.mp hin).2)
  case refine_7 =>
    obtain ⟨hwords, hframe⟩ := snapshot_writes hm block
    refine ⟨_, if_neg ?_, lostWords_length s, hwords, hframe⟩
    rintro (h | h)
    · exact h halign
    · rw [hbase, hend] at h; cases h
  case refine_8 =>
    refine ⟨_, if_neg (Nat.not_le.mpr hi), ?_, ?_, fun j hj => ?_⟩
    · rw [islandAt_islandSet, if_pos rfl]
    · rw [islandAt_islandSet, if_pos rfl]
    · rw [islandAt_islandSet, if_neg hj]
  case refine_9 =>
    refine ⟨_, if_neg (Nat.not_le.mpr hi), ?_, ?_, fun j hj => ?_⟩
    · rw [islandAt_islandSet, if_pos rfl]
    · rw [islandAt_islandSet, if_pos rfl]
    · rw [islandAt_islandSet, if_neg hj]
  case refine_10 =>
    obtain ⟨t, hrun, hinterval, hslots, hst, hislands⟩ := islandInterval_next s
    refine ⟨t, hrun, hinterval, hslots, hst, fun i hi hcur h => ?_, fun d k hd hk => islandInterval_island hislands hd hk⟩
    have hsplit : 128 * (i / 128) + i % 128 = i := Nat.div_add_mod i 128
    have hafter := islandAt_after hislands (d := i / 128) (k := i % 128) (by omega) (by omega)
    have hheld := islandAfter_held s (i / 128) (i % 128)
    rw [hsplit] at hafter hheld
    rw [hafter]
    exact hheld hcur h

end Sys2Proof.Proofs.Debugging
end

section
/-! PROOF. CTXCMD where firmware's own read of a context's entry finds an error that no read had found before (R84, R400). -/

namespace Sys2Proof.Proofs.Registers

open Sys2Proof Sys2Proof.Machine Sys2Proof.Safety Sys2Proof.Slice0

/-- The running module at reset with context 0's entry, 0 and 1, at the granary's first words, and an error of two bits, which nothing has read
yet, in the first of them. -/
def latentError : State :=
  { State.reset with
    host := { State.reset.host with devStat := 4, done := true }
    st := { State.reset.st with mem := Mem.write [] 8 (bytesLE 8 1), ecc := [(0, true)] } }

/-- The contexts that an outcome serves. -/
def servedAfter : Out → List (Fin 64 × Word)
  | .next t => t.fw.contexts
  | _ => []

/-- Firmware's read of the entry poisons its first word, so that it is no word of a table any more, and no context is served. -/
theorem ctxcmd_latentError : servedAfter (exec (.ctxcmd 0) latentError) = [] := by decide +kernel

/-- Refutes O55, at CTXCMD: in `latentError` the entry of context 0 carries no mark and its second word is 1, but the read that CTXCMD makes finds
the error in its first word (R84), and the context is not served. -/
theorem not_hostRegistersAct : ¬ Obligations.HostRegistersAct := by
  unfold Obligations.HostRegistersAct
  intro h
  obtain ⟨-, -, -, -, -, -, -, hregs⟩ := h latentError
  obtain ⟨-, -, -, hcmd, -⟩ := hregs (by decide)
  obtain ⟨t, hrun, hserved, -⟩ := hcmd 0 0 1 (by decide) (by decide +kernel) (by decide +kernel)
  have hnone := ctxcmd_latentError
  rw [hrun] at hnone
  have hin : ((0 : Fin 64), (0 : Word)) ∈ t.fw.contexts := hserved (by decide)
  rw [show t.fw.contexts = [] from hnone] at hin
  cases hin

end Sys2Proof.Proofs.Registers
end

section
/-! PROOF. CXL.mem (R84, R394, R395, R397): a host read changes no byte, and a host write stores the bytes that it enables. -/

namespace Sys2Proof.Proofs.HostMemory

open Sys2Proof Sys2Proof.Machine Sys2Proof.Safety Sys2Proof.Slice0 Sys2Proof.Proofs.Results Sys2Proof.Proofs.Words Sys2Proof.Proofs.Canonical Sys2Proof.Proofs.Engines

-- ## HERR (R397)

section Herr

variable (s : State) (kind addr : Nat)

/-- What HERR holds of a first violation. -/
def herrWord : Word := BitVec.ofNat 64 (2 ^ 63 + kind * 2 ^ 58 + addr % 2 ^ 52)

/-- A violation after the first. -/
def herrAgain (s : State) : State := { s with host := { s.host with herr := s.host.herr ||| 1#64 <<< 62 } }

/-- The first violation. -/
def herrNew (s : State) (w : Word) : State := ({ s with host := { s.host with herr := w } }).onOut (fun o => { o with msix1 := o.msix1 + 1 })

theorem herrLog_eq : herrLog s kind addr = if s.host.herr.getLsbD 63 then herrAgain s else herrNew s (herrWord kind addr) := rfl

theorem herrAgain_rest : (herrAgain s).st = s.st ∧ (herrAgain s).slots = s.slots ∧ (herrAgain s).host.out.asks = s.host.out.asks := ⟨rfl, rfl, rfl⟩

theorem herrNew_rest (w : Word) : (herrNew s w).st = s.st ∧ (herrNew s w).slots = s.slots ∧ (herrNew s w).host.out.asks = s.host.out.asks := ⟨rfl, rfl, rfl⟩

theorem herrLog_rest : (herrLog s kind addr).st = s.st ∧ (herrLog s kind addr).slots = s.slots ∧ (herrLog s kind addr).host.out.asks = s.host.out.asks := by
  rw [herrLog_eq]
  split
  · exact herrAgain_rest s
  · exact herrNew_rest s _

/-- A number of HERR's form, with its parts. -/
theorem herrParts {k a : Nat} (hk : k < 8) (ha : a < 2 ^ 52) : (2 ^ 63 + k * 2 ^ 58 + a) % 2 ^ 64 = (32 + k) * 2 ^ 58 + a ∧
    ((32 + k) * 2 ^ 58 + a) / 2 ^ 63 % 2 ^ 1 = 1 ∧ ((32 + k) * 2 ^ 58 + a) / 2 ^ 58 % 2 ^ 3 = k ∧ ((32 + k) * 2 ^ 58 + a) / 2 ^ 0 % 2 ^ 52 = a := by
  refine ⟨?_, ?_, ?_, ?_⟩ <;> omega

theorem herrWord_fields (hk : kind < 8) : field (herrWord kind addr) 63 63 = 1 ∧ field (herrWord kind addr) 60 58 = kind ∧
    field (herrWord kind addr) 51 0 = addr % 2 ^ 52 := by
  obtain ⟨hword, hval, hkind, haddr⟩ := herrParts hk (Nat.mod_lt addr (Nat.two_pow_pos 52))
  simp only [field, herrWord, BitVec.toNat_ofNat, hword, Nat.shiftRight_eq_div_pow]
  exact ⟨hval, hkind, haddr⟩

theorem getLsbD_of_field {n : Nat} {v : BitVec n} {i : Nat} (h : field v i i = 1) : v.getLsbD i = true := by
  rw [BitVec.getLsbD, Nat.testBit_eq_decide_div_mod_eq, ← Nat.shiftRight_eq_div_pow]
  exact decide_eq_true (by simpa [field] using h)

/-- After a violation VAL is set. -/
theorem herrLog_val (hk : kind < 8) : (herrLog s kind addr).host.herr.getLsbD 63 = true := by
  obtain ⟨hval, -⟩ := herrWord_fields kind addr hk
  rw [herrLog_eq]
  split
  · next h => exact (BitVec.getLsbD_or ..).trans (by rw [h, Bool.true_or])
  · exact getLsbD_of_field hval

variable {s} in
/-- The first violation's kind and address are recorded. -/
theorem herrLog_first (h : s.host.herr.getLsbD 63 = false) (hk : kind < 8) :
    field (herrLog s kind addr).host.herr 60 58 = kind ∧ field (herrLog s kind addr).host.herr 51 0 = addr % 2 ^ 52 := by
  obtain ⟨-, hkind, haddr⟩ := herrWord_fields kind addr hk
  rw [herrLog_eq, if_neg (ne_true_of_eq_false h)]
  exact ⟨hkind, haddr⟩

end Herr

-- ## A host write's bytes (R395)

theorem get_write {m : List Host.Cell} (hm : Mem.wf m = true) (a : Nat) (bs : List Byte) (c : Nat) :
    Mem.get (Mem.write m a bs) c = if h : a ≤ c ∧ c < a + bs.length then bs[c - a] else Mem.get m c := by
  induction bs generalizing m a with
  | nil => rw [dif_neg (by simp)]; rfl
  | cons b bs ih =>
    rw [Mem.write, ih (Mem.wf_put a b hm), Mem.get_put a c b hm]
    by_cases hc : a = c
    · subst hc
      rw [dif_neg (by omega), if_pos rfl, dif_pos (by simp)]
      simp
    · by_cases hin : a + 1 ≤ c ∧ c < a + 1 + bs.length
      · have hsub : c - a = (c - (a + 1)) + 1 := by omega
        rw [dif_pos hin, dif_pos (by rw [List.length_cons]; omega)]
        simp only [hsub, List.getElem_cons_succ]
      · rw [dif_neg hin, if_neg hc, dif_neg (by rw [List.length_cons]; omega)]

/-- Byte `i` of a host write's line. -/
def lineByte (data : BitVec 512) (i : Nat) : Byte := BitVec.ofNat 8 (field data (8 * i + 7) (8 * i))

/-- A piece of a host write holds the line's bytes from its offset on. -/
def FromLine (data : BitVec 512) (p : Nat × List Byte) : Prop := ∀ j, (h : j < p.2.length) → p.2[j] = lineByte data (p.1 + j)

/-- A piece has a byte of the line. -/
def Covers (p : Nat × List Byte) (i : Nat) : Prop := p.1 ≤ i ∧ i < p.1 + p.2.length

theorem hostPieces_fromLine {data : BitVec 512} {en : BitVec 64} {k : Nat} {p : Nat × List Byte} (h : p ∈ hostPieces data en k) : FromLine data p := by
  unfold hostPieces at h
  dsimp only at h
  intro j hj
  split at h
  · rw [List.mem_singleton] at h
    subst h
    simp [lineByte]
  · obtain ⟨i, -, rfl⟩ := List.mem_map.mp h
    obtain rfl : j = 0 := by simpa using hj
    simp [lineByte]

/-- A word's pieces have the bytes of it that the write enables. -/
theorem hostPieces_covers (data : BitVec 512) (en : BitVec 64) {k i : Nat} : (∃ p ∈ hostPieces data en k, Covers p i) ↔ i / 8 = k ∧ en.getLsbD i = true := by
  unfold hostPieces
  dsimp only
  split
  · next h =>
    simp only [List.mem_singleton, exists_eq_left, Covers, List.length_map, List.length_range]
    rw [List.all_eq_true] at h
    constructor
    · intro hi
      refine ⟨by omega, ?_⟩
      have hbit := h (i - 8 * k) (List.mem_range.mpr (by omega))
      rwa [show 8 * k + (i - 8 * k) = i by omega] at hbit
    · rintro ⟨rfl, -⟩
      omega
  · simp only [List.mem_map, List.mem_filter, List.mem_range, Covers]
    constructor
    · rintro ⟨p, ⟨j, ⟨hj, hbit⟩, rfl⟩, hi⟩
      obtain rfl : i = 8 * k + j := by simp at hi; omega
      exact ⟨by omega, hbit⟩
    · rintro ⟨rfl, hbit⟩
      exact ⟨_, ⟨i % 8, ⟨by omega, by rwa [Nat.div_add_mod]⟩, rfl⟩, by simp; omega⟩

/-- The pieces of a host write none of whose words is refused. -/
def linePieces (data : BitVec 512) (en : BitVec 64) : List (Nat × List Byte) := (List.range 8).flatMap (hostPieces data en)

theorem linePieces_covers (data : BitVec 512) (en : BitVec 64) (i : Nat) : (∃ p ∈ linePieces data en, Covers p i) ↔ i < 64 ∧ en.getLsbD i = true := by
  have hk : (∃ p ∈ linePieces data en, Covers p i) ↔ ∃ k < 8, ∃ p ∈ hostPieces data en k, Covers p i := by
    simp only [linePieces, List.mem_flatMap, List.mem_range]
    constructor
    · rintro ⟨p, ⟨k, hk, hp⟩, hi⟩; exact ⟨k, hk, p, hp, hi⟩
    · rintro ⟨k, hk, p, hp, hi⟩; exact ⟨p, ⟨k, hk, hp⟩, hi⟩
  simp only [hk, hostPieces_covers]
  constructor
  · rintro ⟨k, hk, rfl, hbit⟩; exact ⟨by omega, hbit⟩
  · rintro ⟨hi, hbit⟩; exact ⟨i / 8, by omega, rfl, hbit⟩

theorem linePieces_fromLine {data : BitVec 512} {en : BitVec 64} {p : Nat × List Byte} (h : p ∈ linePieces data en) : FromLine data p := by
  obtain ⟨k, -, hp⟩ := List.mem_flatMap.mp h
  exact hostPieces_fromLine hp

/-- A piece as it is written to memory. -/
def hostPut (id loc : Nat) (full : Bool) (rel : Option Release) (p : Nat × List Byte) : PWrite :=
  { id, src := srcHost, loc := loc + p.1, data := p.2, fe := if full ∧ p.2.length = 8 then some true else none, rmw := false, known := [], rel }

/-- Memory after the pieces of a line have been written. -/
theorem putPieces_get (id loc : Nat) (full : Bool) (rel : Option Release) {data : BitVec 512} {ps : List (Nat × List Byte)} (hps : ∀ p ∈ ps, FromLine data p)
    {st : Store} (hm : Mem.wf st.mem = true) (b : Nat) :
    ((∃ p ∈ ps, loc ≤ b ∧ Covers p (b - loc)) → Mem.get (ps.foldl (fun st p => st.put (hostPut id loc full rel p)) st).mem b = lineByte data (b - loc)) ∧
    ((¬∃ p ∈ ps, loc ≤ b ∧ Covers p (b - loc)) → Mem.get (ps.foldl (fun st p => st.put (hostPut id loc full rel p)) st).mem b = Mem.get st.mem b) := by
  induction ps generalizing st with
  | nil => exact ⟨fun ⟨_, h, _⟩ => absurd h nofun, fun _ => rfl⟩
  | cons p ps ih =>
    obtain ⟨hin, hout⟩ := ih (fun q hq => hps q (.tail _ hq)) (put_wf st (hostPut id loc full rel p) hm)
    have hget : Mem.get (st.put (hostPut id loc full rel p)).mem b = _ := get_write hm (loc + p.1) p.2 b
    constructor
    · rintro ⟨q, hq, hb⟩
      by_cases hlater : ∃ q ∈ ps, loc ≤ b ∧ Covers q (b - loc)
      · exact hin hlater
      · obtain rfl : q = p := (List.mem_cons.mp hq).resolve_right fun hq => hlater ⟨q, hq, hb⟩
        obtain ⟨hlo, hhi⟩ := hb.2
        refine (hout hlater).trans (hget.trans ?_)
        rw [dif_pos ⟨by omega, by omega⟩, hps q (.head _)]
        congr 1
        omega
    · intro hnone
      refine (hout fun ⟨q, hq, hb⟩ => hnone ⟨q, .tail _ hq, hb⟩).trans (hget.trans (dif_neg fun hb => hnone ⟨p, .head _, ?_⟩))
      unfold Covers
      omega

-- ## Full bits (R395)

theorem mem_setIns_of_mem {l : List Nat} {w : Nat} (x : Nat) (h : w ∈ l) : w ∈ setIns l x := by
  induction l with
  | nil => cases h
  | cons y l ih =>
    unfold setIns
    split
    · rcases List.mem_cons.mp h with rfl | h
      · exact .head _
      · exact .tail _ (ih h)
    · split
      · exact h
      · exact .tail _ h

theorem mem_foldl_setIns {l ws : List Nat} {w : Nat} (h : w ∈ l) : w ∈ ws.foldl setIns l := by
  induction ws generalizing l with
  | nil => exact h
  | cons x ws ih => exact ih (mem_setIns_of_mem x h)

/-- A write that comes through the full alias clears no full bit. -/
theorem mem_full_hostPut {st : Store} {w : Nat} (h : w ∈ st.full) (id loc : Nat) (full : Bool) (rel : Option Release) (p : Nat × List Byte) :
    w ∈ (st.put (hostPut id loc full rel p)).full := by
  have hfull : (st.put (hostPut id loc full rel p)).full =
      if full ∧ p.2.length = 8 then (touchedWords (loc + p.1) p.2.length).foldl setIns st.full else st.full := by
    unfold Store.put hostPut
    dsimp only
    by_cases hf : full = true ∧ p.2.length = 8
    · rw [if_pos hf, if_pos hf]
    · rw [if_neg hf, if_neg hf]
  rw [hfull]
  split
  · exact mem_foldl_setIns h
  · exact h

/-- The words of the pieces that are whole are full. -/
theorem putPieces_full (id loc : Nat) (rel : Option Release) {ps : List (Nat × List Byte)} {p : Nat × List Byte} (hp : p ∈ ps) (hlen : p.2.length = 8)
    (halign : (loc + p.1) % 8 = 0) (st : Store) : (loc + p.1) / 8 ∈ (ps.foldl (fun st p => st.put (hostPut id loc true rel p)) st).full := by
  have hkept (ps : List (Nat × List Byte)) : ∀ st : Store, ∀ w ∈ st.full, w ∈ (ps.foldl (fun st p => st.put (hostPut id loc true rel p)) st).full := by
    induction ps with
    | nil => exact fun _ _ h => h
    | cons q ps ih => exact fun st w h => ih _ w (mem_full_hostPut h id loc true rel q)
  induction ps generalizing st with
  | nil => cases hp
  | cons q ps ih =>
    rcases List.mem_cons.mp hp with rfl | hp
    · refine hkept ps _ _ ?_
      have hput := isFull_put (s := { State.reset with st }) (p := hostPut id loc true rel p) (if_pos ⟨rfl, hlen⟩) hlen halign
      exact List.contains_iff_mem.mp hput
    · exact ih hp _

theorem putPieces_keepFull (id loc : Nat) (rel : Option Release) (ps : List (Nat × List Byte)) (st : Store) :
    (ps.foldl (fun st p => st.put (hostPut id loc false rel p)) st).full = st.full :=
  foldl_keeps (fun (st : Store) p => st.put (hostPut id loc false rel p)) Store.full (fun _ _ => rfl) ps st

theorem putPieces_waiting (id loc : Nat) (full : Bool) (rel : Option Release) (ps : List (Nat × List Byte)) (st : Store) :
    (ps.foldl (fun st p => st.put (hostPut id loc full rel p)) st).waiting = st.waiting :=
  foldl_keeps (fun (st : Store) p => st.put (hostPut id loc full rel p)) Store.waiting (fun _ _ => rfl) ps st

theorem wakeLine_full (s : State) (line : Nat) : (wakeLine s line).st.full = s.st.full :=
  (foldl_keeps (fun (s : State) m => wakeEntry s m 1) (fun s => s.st.full) (fun s m => by
    unfold wakeEntry
    split
    · rw [wakeSlot_st]
    · rfl) _ _).trans rfl

theorem touchLine_full (s : State) (loc : Nat) : (touchLine s loc).1.st.full = s.st.full := by
  obtain ⟨_, _, _, _, _, _, _, h⟩ := ownedHome_change s (lineOf loc)
  unfold touchLine
  dsimp only
  rw [wakeLine_full, h]
  rfl

theorem services_idle {α : Type} {s : State} (h : s.st.waiting = []) (f : α → Nat) (l : List α) : l.foldl (fun s a => service s (f a)) s = s := by
  induction l with
  | nil => rfl
  | cons a l ih => rw [List.foldl_cons, service_idle h, ih]

-- ## The host's write (R395)

/-- What a host write releases (R307). -/
def hostRelease (s : State) (en : HostEnables) (full : Bool) : Option Release :=
  if full then some { scope := BitVec.ofNat 42 (2 ^ 40), core := none, src := srcHost, rel := hostRel s en.known } else none

/-- The pieces of a line are in memory. -/
def hostStored (s : State) (loc : Nat) (en : HostEnables) (full : Bool) (ps : List (Nat × List Byte)) : State :=
  s.bump.onSt (fun st => ps.foldl (fun st p => st.put (hostPut s.nextId loc full (hostRelease s en full) p)) st)

/-- The line has been written at its home slice, and its Shared copies have still to go. -/
def hostTouched (s : State) (loc id : Nat) : State :=
  if (touchLine s loc).2.2 = 0 then (touchLine s loc).1
  else (touchLine s loc).1.onSt (fun st => { st with
    acks := st.acks ++ [{ slot := none, tag := id, loc, amo := false, va := 0, seqTag := (touchLine s loc).2.1, await := (touchLine s loc).2.2 }] })

theorem hostTouched_st (s : State) (loc id : Nat) : (hostTouched s loc id).st.mem = s.st.mem ∧ (hostTouched s loc id).st.full = s.st.full ∧
    (hostTouched s loc id).st.waiting = s.st.waiting := by
  have h := And.intro (touchLine_mem s loc) (And.intro (touchLine_full s loc) (touchLine_waiting s loc))
  unfold hostTouched
  split
  · exact h
  · exact h

theorem hostWrite_eq {s : State} {loc : Nat} {data : BitVec 512} {en : HostEnables} (full : Bool) {ps : List (Nat × List Byte)}
    (h : ((List.range 8).filter (fun k => !hostRefused s loc en.bytes k)).flatMap (hostPieces data en.bytes) = ps) :
    hostWrite s loc data en full = if ps = [] then s
      else if full then (ps.filter (fun p => p.2.length == 8)).foldl (fun s p => service s (loc + p.1)) (hostTouched (hostStored s loc en full ps) loc s.nextId)
        else hostTouched (hostStored s loc en full ps) loc s.nextId := by
  subst h
  rfl

/-- With no word refused, a host write stores its pieces; what follows it changes neither bytes nor full bits. -/
theorem hostWrite_stores {s : State} {loc : Nat} (data : BitVec 512) {en : HostEnables} {full : Bool} (hok : (List.range 8).any (hostRefused s loc en.bytes) = false)
    (hwait : full = true → s.st.waiting = []) :
    (hostWrite s loc data en full).st.mem = (hostStored s loc en full (linePieces data en.bytes)).st.mem ∧
    (hostWrite s loc data en full).st.full = (hostStored s loc en full (linePieces data en.bytes)).st.full := by
  have hall : (List.range 8).filter (fun k => !hostRefused s loc en.bytes k) = List.range 8 :=
    List.filter_eq_self.mpr fun k hk => by rw [Bool.eq_false_iff.mpr (List.any_eq_false.mp hok k hk)]; rfl
  have hps : ((List.range 8).filter (fun k => !hostRefused s loc en.bytes k)).flatMap (hostPieces data en.bytes) = linePieces data en.bytes := by rw [hall]; rfl
  rw [hostWrite_eq full hps]
  generalize linePieces data en.bytes = ps
  split
  · next h => subst h; exact ⟨rfl, rfl⟩
  · obtain ⟨hmem, hfull, hw⟩ := hostTouched_st (hostStored s loc en full ps) loc s.nextId
    split
    · next hf =>
      rw [services_idle (hw.trans ((putPieces_waiting ..).trans (hwait hf))) (fun p : Nat × List Byte => loc + p.1)]
      exact ⟨hmem, hfull⟩
    · exact ⟨hmem, hfull⟩

/-- The bytes that a host write enables are the line's, and all others stay; the full alias sets the whole words full. -/
theorem hostWrite_writes {s : State} {loc : Nat} (data : BitVec 512) {en : HostEnables} {full : Bool} (hm : MemoryOk s) (halign : loc % 64 = 0)
    (hok : (List.range 8).any (hostRefused s loc en.bytes) = false) (hwait : full = true → s.st.waiting = []) :
    (∀ b : Nat, Mem.get (hostWrite s loc data en full).st.mem b = if loc ≤ b ∧ b < loc + 64 ∧ en.bytes.getLsbD (b - loc) = true then lineByte data (b - loc)
      else Mem.get s.st.mem b) ∧
    (full = false → (hostWrite s loc data en full).st.full = s.st.full) ∧
    (full = true → ∀ k < 8, (∀ j < 8, en.bytes.getLsbD (8 * k + j) = true) → isFull (hostWrite s loc data en full) (loc + 8 * k) = true) := by
  obtain ⟨hmem, hfull⟩ := hostWrite_stores data hok hwait
  refine ⟨fun b => ?_, fun hf => ?_, fun hf k hk hall => ?_⟩
  · obtain ⟨hin, hout⟩ := putPieces_get s.nextId loc full (hostRelease s en full) (fun p hp => linePieces_fromLine hp) hm (data := data) (ps := linePieces data en.bytes) b
    have hiff : (∃ p ∈ linePieces data en.bytes, loc ≤ b ∧ Covers p (b - loc)) ↔ loc ≤ b ∧ b < loc + 64 ∧ en.bytes.getLsbD (b - loc) = true := by
      have hcov := linePieces_covers data en.bytes (b - loc)
      constructor
      · rintro ⟨p, hp, hlo, hc⟩
        obtain ⟨hlt, hbit⟩ := hcov.mp ⟨p, hp, hc⟩
        exact ⟨hlo, by omega, hbit⟩
      · rintro ⟨hlo, hlt, hbit⟩
        obtain ⟨p, hp, hc⟩ := hcov.mpr ⟨by omega, hbit⟩
        exact ⟨p, hp, hlo, hc⟩
    rw [hmem]
    split
    · next h => exact hin (hiff.mpr h)
    · next h => exact hout fun hp => h (hiff.mp hp)
  · subst hf
    rw [hfull]
    exact putPieces_keepFull ..
  · subst hf
    have hwhole : (List.range 8).all (fun i => en.bytes.getLsbD (8 * k + i)) = true := List.all_eq_true.mpr fun j hj => hall j (List.mem_range.mp hj)
    have hpiece : (8 * k, (List.range 8).map (fun i => lineByte data (8 * k + i))) ∈ linePieces data en.bytes := by
      refine List.mem_flatMap.mpr ⟨k, List.mem_range.mpr hk, ?_⟩
      unfold hostPieces
      dsimp only
      rw [if_pos hwhole]
      exact .head _
    have hput := putPieces_full s.nextId loc (hostRelease s en true) hpiece (by simp) (by dsimp only; omega) s.bump.st
    rw [isFull, hfull]
    exact List.contains_iff_mem.mpr hput

-- ## The home slices and the host's registers (R81, R84, R396)

/-- Of the host's registers only what the host sees changes. -/
def SameRegs (s t : State) : Prop := ∃ out, t.host = { s.host with out }

theorem SameRegs.refl (s : State) : SameRegs s s := ⟨_, rfl⟩

theorem SameRegs.trans {s t u : State} (h1 : SameRegs s t) (h2 : SameRegs t u) : SameRegs s u := by
  obtain ⟨_, h1⟩ := h1
  obtain ⟨o, h2⟩ := h2
  exact ⟨o, by rw [h2, h1]⟩

theorem SameRegs.of_eq {s t : State} (h : t.host = s.host) : SameRegs s t := ⟨s.host.out, by rw [h]⟩

theorem SameRegs.featEn {s t : State} (h : SameRegs s t) : t.host.featEn = s.host.featEn := by
  obtain ⟨_, h⟩ := h
  rw [h]

theorem SameRegs.herr {s t : State} (h : SameRegs s t) : t.host.herr = s.host.herr := by
  obtain ⟨_, h⟩ := h
  rw [h]

/-- A check of words' codes leaves the slices' lines and what is asked of the host. -/
structure CodeStep (s t : State) : Prop where
  lines : t.st.lines = s.st.lines
  asks : t.host.out.asks = s.host.out.asks
  regs : SameRegs s t

theorem CodeStep.refl (s : State) : CodeStep s s := ⟨rfl, rfl, .refl s⟩

theorem CodeStep.trans {s t u : State} (h1 : CodeStep s t) (h2 : CodeStep t u) : CodeStep s u :=
  ⟨h2.lines.trans h1.lines, h2.asks.trans h1.asks, h1.regs.trans h2.regs⟩

theorem CodeStep.foldl {α : Type} {f : State → α → State} (h : ∀ s a, CodeStep s (f s a)) (l : List α) (s : State) : CodeStep s (l.foldl f s) := by
  induction l generalizing s with
  | nil => exact .refl s
  | cons a l ih => exact (h s a).trans (ih _)

theorem mcLog_codes (s : State) (e : McEvent) : CodeStep s (s.mcLog e) := ⟨rfl, rfl, ⟨_, rfl⟩⟩

theorem poisonWord_codes (s : State) (w : Nat) : CodeStep s (poisonWord s w) := ⟨rfl, rfl, .of_eq rfl⟩

theorem scrubWord_codes (s : State) (w : Nat) : CodeStep s (scrubWord s w) := by
  unfold scrubWord
  dsimp only
  repeat' split
  all_goals exact ⟨rfl, rfl, ⟨_, rfl⟩⟩

theorem scrub_codes (s : State) (loc n : Nat) : CodeStep s (scrub s loc n) := .foldl scrubWord_codes _ s

theorem lineCarried_codes (s : State) (pa : Nat) : CodeStep s (lineCarried s pa) :=
  CodeStep.trans (t := s.onSt (fun st => { st with ecc := st.ecc.filter (fun e => !(lineOf (8 * e.1) == pa)) })) ⟨rfl, rfl, .of_eq rfl⟩ (.foldl (fun _ _ => (mcLog_codes _ _).trans (poisonWord_codes _ _)) _ _)

theorem hostAsk_regs (s : State) (op : CacheOp) (pa : Nat) : SameRegs s (hostAsk s op pa) := by
  unfold hostAsk
  split
  · exact ⟨_, rfl⟩
  · exact .refl s

theorem lineEvict_regs (s : State) (d pa : Nat) : SameRegs s (lineEvict s d pa) := by
  unfold lineEvict
  dsimp only
  have hscrub (c : Prop) [Decidable c] : SameRegs s (if c then scrub s pa 128 else s) := by
    split
    · exact (scrub_codes s pa 128).regs
    · exact .refl s
  have hask (c : Prop) [Decidable c] (u : State) (op : CacheOp) : SameRegs u (if c then hostAsk u op pa else u) := by
    split
    · exact hostAsk_regs u op pa
    · exact .refl u
  exact ((hscrub _).trans (hask _ _ _)).trans (.of_eq rfl)

theorem lineRoom_regs (s : State) (d pa : Nat) : SameRegs s (lineRoom s d pa) := by
  unfold lineRoom
  dsimp only
  repeat' split
  · exact lineEvict_regs ..
  · exact .refl s
  · exact .refl s

theorem lineEnter_regs (s : State) (pa : Nat) : SameRegs s (lineEnter s pa) := by
  unfold lineEnter
  dsimp only
  split
  · exact .refl s
  · have hasked := (lineRoom_regs s (homeDie pa) pa).trans (hostAsk_regs _ .rdShared pa)
    have hcarried := (hasked.trans (.of_eq (by exact rfl))).trans (lineCarried_codes ((hostAsk (lineRoom s (homeDie pa) pa) .rdShared pa).onSt (fun st => { st with
      lines := linePut st.lines { lineFind s.st.lines pa with home := true, dirty := false, tag := 0, sharers := 0, shared := 0, flaws := 0, own := false } })) pa).regs
    split
    · exact hcarried.trans (.of_eq rfl)
    · exact hcarried

theorem lineHome_regs (s : State) (pa : Nat) : SameRegs s (lineHome s pa) := by
  unfold lineHome
  dsimp only
  repeat' split
  · exact ⟨_, rfl⟩
  · exact .refl s
  · exact lineEnter_regs s pa

theorem pointScrub_regs (s : State) (loc n : Nat) : SameRegs s (pointScrub s loc n) := by
  unfold pointScrub
  split
  · exact (scrub_codes ..).regs
  · exact (lineHome_regs ..).trans (scrub_codes ..).regs

theorem pointScrub_change (s : State) (loc n : Nat) : SliceChange s (pointScrub s loc n) := by
  unfold pointScrub
  split
  · exact scrub_change ..
  · exact (lineHome_change ..).trans (scrub_change ..)

theorem hostScrub_change (s : State) (loc : Nat) (en : BitVec 64) : SliceChange s (hostScrub s loc en) := by
  refine .foldl (fun s k => ?_) _ s
  dsimp only
  split
  · exact pointScrub_change ..
  · exact .refl s

theorem hostScrub_featEn (s : State) (loc : Nat) (en : BitVec 64) : (hostScrub s loc en).host.featEn = s.host.featEn := by
  refine foldl_keeps _ (fun s : State => s.host.featEn) (fun s k => ?_) _ s
  dsimp only
  split
  · exact (pointScrub_regs ..).featEn
  · rfl

-- ## CXL.mem (R393 to R395, R397)

theorem onOut_out (s : State) (f : HostOut → HostOut) : (s.onOut f).host.out = f s.host.out := rfl

theorem onOut_st (s : State) (f : HostOut → HostOut) : (s.onOut f).st = s.st := rfl

theorem onOut_slots (s : State) (f : HostOut → HostOut) : (s.onOut f).slots = s.slots := rfl

theorem onOut_herr (s : State) (f : HostOut → HostOut) : (s.onOut f).host.herr = s.host.herr := rfl

section Access

variable {s : State} {hpa : BitVec 52} {dpa : BitVec 41} (hrec : recovery s = false)

include hrec

/-- A granted read gives the line as it stands, and poison where a word of it is, once its codes have been checked. -/
theorem cxlMemRead_reads (h : dpaOf s hpa = some dpa) (hgrant : granted s dpa = true) : Completes (exec (.cxlMemRead hpa) s) (fun t =>
    t.host.out.data = BitVec.ofNat 512 (natLE (Mem.read s.st.mem (dpaLoc dpa) 64)) ∧
    t.host.out.poison = (List.range 8).any (fun k => markOf (pointScrub s (dpaLoc dpa) 64).st.marks (dpaLoc dpa / 8 + k) == 1#2) ∧
    t.st.mem = s.st.mem ∧ t.st.full = s.st.full ∧ t.slots = s.slots) := by
  obtain ⟨hmem, hfull⟩ := Prod.mk.inj (pointScrub_bytes s (dpaLoc dpa) 64)
  obtain ⟨-, -, hslots, -, -⟩ := (pointScrub_change s (dpaLoc dpa) 64).rest
  show Completes (execCxlMemRead hpa s) _
  unfold execCxlMemRead
  rw [h]
  dsimp only
  rw [if_neg (ne_true_of_eq_false hrec), hgrant, if_neg (by decide)]
  refine ⟨_, rfl, ?_, ?_, hmem, hfull, (onOut_slots _ _).trans hslots⟩
  · rw [onOut_out, hmem]
  · rw [onOut_out]

theorem cxlMemRead_refused (h : dpaOf s hpa = some dpa) (hgrant : granted s dpa = false) : Completes (exec (.cxlMemRead hpa) s) (fun t =>
    t.host.out.data = BitVec.allOnes 512 ∧ t.host.out.poison = true ∧ t.host.herr.getLsbD 63 = true ∧ t.st = s.st) := by
  show Completes (execCxlMemRead hpa s) _
  unfold execCxlMemRead
  rw [h]
  dsimp only
  rw [if_neg (ne_true_of_eq_false hrec), hgrant, if_pos (by decide)]
  obtain ⟨hst, -, -⟩ := herrLog_rest s 1 dpa.toNat
  have hval := herrLog_val s 1 dpa.toNat (by decide)
  generalize herrLog s 1 dpa.toNat = u at hst hval
  refine ⟨_, rfl, ?_, ?_, ?_, (onOut_st _ _).trans hst⟩
  · rw [onOut_out]
  · rw [onOut_out]
  · rw [onOut_herr, hval]

variable (data : BitVec 512) (en : HostEnables)

theorem cxlWrite_refused (h : dpaOf s hpa = some dpa) (hgrant : granted s dpa = false) :
    cxlWrite s hpa data en = (herrLog s 2 dpa.toNat).onOut (fun o => { o with ur := false }) := by
  unfold cxlWrite
  rw [h]
  dsimp only
  rw [if_neg (ne_true_of_eq_false hrec), hgrant, if_pos (by decide)]

/-- A granted write with no word refused is the host's write, with the words that it enables in part read first. -/
theorem cxlWrite_performed (h : dpaOf s hpa = some dpa) (hgrant : granted s dpa = true)
    (hok : (List.range 8).any (hostRefused (hostScrub s (dpaLoc dpa) en.bytes) (dpaLoc dpa) en.bytes) = false) :
    cxlWrite s hpa data en = (hostWrite (hostScrub s (dpaLoc dpa) en.bytes) (dpaLoc dpa) data en (dpa.getLsbD 40 && s.host.featEn.getLsbD 1)).onOut
      (fun o => { o with ur := false }) := by
  unfold cxlWrite
  rw [h]
  dsimp only
  rw [if_neg (ne_true_of_eq_false hrec), hgrant, if_neg (by decide), hok, if_neg Bool.false_ne_true, hostScrub_featEn]

end Access

/-- The bytes and full bits of a granted write. -/
theorem cxlWrite_writes {s : State} {hpa : BitVec 52} {dpa : BitVec 41} (hrec : recovery s = false) (data : BitVec 512) (en : HostEnables)
    (h : dpaOf s hpa = some dpa) (hm : MemoryOk s) (hgrant : granted s dpa = true)
    (hok : (List.range 8).any (hostRefused (hostScrub s (dpaLoc dpa) en.bytes) (dpaLoc dpa) en.bytes) = false)
    (hwait : (dpa.getLsbD 40 && s.host.featEn.getLsbD 1) = true → s.st.waiting = []) :
    let loc := dpaLoc dpa
    let alias_ := dpa.getLsbD 40 && s.host.featEn.getLsbD 1
    let t := cxlWrite s hpa data en
    (∀ b : Nat, Mem.get t.st.mem b = if loc ≤ b ∧ b < loc + 64 ∧ en.bytes.getLsbD (b - loc) = true then BitVec.ofNat 8 (field data (8 * (b - loc) + 7) (8 * (b - loc)))
      else Mem.get s.st.mem b) ∧
    (alias_ = false → t.st.full = s.st.full) ∧
    (alias_ = true → ∀ k < 8, (∀ j < 8, en.bytes.getLsbD (8 * k + j) = true) → isFull t (loc + 8 * k) = true) := by
  intro loc alias_ t
  obtain ⟨_, _, _, _, _, _, _, hscrub⟩ := hostScrub_change s loc en.bytes
  have hmem : (hostScrub s loc en.bytes).st.mem = s.st.mem := by rw [hscrub]
  have hfull : (hostScrub s loc en.bytes).st.full = s.st.full := by rw [hscrub]
  have hwaiting : (hostScrub s loc en.bytes).st.waiting = s.st.waiting := by rw [hscrub]; rfl
  have ht : t = (hostWrite (hostScrub s loc en.bytes) loc data en alias_).onOut (fun o => { o with ur := false }) := cxlWrite_performed hrec data en h hgrant hok
  have halign : loc % 64 = 0 := Nat.mul_mod_left _ _
  obtain ⟨hbytes, hplain, hwhole⟩ := hostWrite_writes (full := alias_) data (show MemoryOk (hostScrub s loc en.bytes) by unfold MemoryOk; rw [hmem]; exact hm) halign hok
    (fun ha => hwaiting.trans (hwait ha))
  rw [ht]
  rw [hmem] at hbytes
  rw [hfull] at hplain
  exact ⟨hbytes, hplain, hwhole⟩

end Sys2Proof.Proofs.HostMemory
end

section
/-! PROOF. CXL.cache and the Psipor links (R81, R84, R396, R397, R401, R402): snoops, the host's answers, and a link's notices. -/

namespace Sys2Proof.Proofs.HostLines

open Sys2Proof Sys2Proof.Machine Sys2Proof.Safety Sys2Proof.Slice0 Sys2Proof.Proofs.Results Sys2Proof.Proofs.Words Sys2Proof.Proofs.Canonical Sys2Proof.Proofs.Engines
  Sys2Proof.Proofs.Fetch Sys2Proof.Proofs.Kill Sys2Proof.Proofs.Units Sys2Proof.Proofs.HostMemory

-- ## Lines (R80)

theorem lineFind_linePut (l : List Line) (x : Line) : lineFind (linePut l x) x.pa = x := by
  rw [linePut, lineFind, List.find?_cons_of_pos (p := fun y : Line => y.pa == x.pa) (beq_self_eq_true _)]

theorem lineFind_pa (l : List Line) (pa : Nat) : (lineFind l pa).pa = pa := by
  unfold lineFind
  cases h : l.find? (fun x => x.pa == pa) with
  | none => rfl
  | some x => exact beq_iff_eq.mp (List.find?_some (p := fun x : Line => x.pa == pa) h)

theorem lineFlawed_dirty (s : State) (d pa : Nat) : (lineFind (lineFlawed s d pa).st.lines pa).dirty = (lineFind s.st.lines pa).dirty := by
  have hput := lineFind_linePut s.st.lines { lineFind s.st.lines pa with flaws := (lineFind s.st.lines pa).flaws &&& ~~~(dieBit d) }
  dsimp only at hput
  rw [lineFind_pa] at hput
  show (lineFind (linePut s.st.lines _) pa).dirty = _
  rw [lineFind_pa, hput]

theorem lineOf_hostLine (line : BitVec 52) : lineOf (hostLine line) = hostLine line := by
  unfold hostLine lineOf
  omega

theorem isBank_of_inHost {pa : Nat} (h : inHost pa = true) : isBank pa = false := by
  obtain ⟨-, h⟩ := Bool.and_eq_true_iff.mp h
  exact decide_eq_false (Nat.not_le.mpr (of_decide_eq_true h))

-- ## Snoops (R396)

theorem lineBytes_length (data : BitVec 1024) : (lineBytes data).length = 128 := by
  unfold lineBytes
  exact bytesLE_length 128 data.toNat

theorem put_mem (st : Store) (p : PWrite) : (st.put p).mem = Mem.write st.mem p.loc p.data := rfl

theorem put_lines (st : Store) (p : PWrite) : (st.put p).lines = st.lines := rfl

theorem hostLineWrite_lines (s : State) (pa : Nat) (data : BitVec 1024) : (hostLineWrite s pa data).st.lines = s.st.lines := by
  rw [hostLineWrite, State.onSt_st, put_lines]
  rfl

theorem onSt_host (s : State) (f : Store → Store) : (s.onSt f).host = s.host := rfl

theorem hostLineWrite_host (s : State) (pa : Nat) (data : BitVec 1024) : (hostLineWrite s pa data).host = s.host := by
  rw [hostLineWrite, onSt_host]
  rfl

theorem hostLineWrite_mem (s : State) (pa : Nat) (data : BitVec 1024) : (hostLineWrite s pa data).st.mem = Mem.write s.st.mem pa (lineBytes data) := by
  rw [hostLineWrite, State.onSt_st, put_mem]
  rfl

section Snoops

variable {s : State} {pa : Nat} (hline : lineOf pa = pa) (hin : inHost pa = true) (hquiet : s.st.queue = [])

include hquiet in
theorem snoopLine_quiet : snoopLine s pa = if (lineFind s.st.lines pa).home then pointScrub s pa 128 else s := by
  unfold snoopLine
  rw [hquiet]
  rfl

include hline hin hquiet

/-- With no request ahead of it, a snoop finds the line as memory has it, and as Dirty as it was. -/
theorem snoopLine_finds : (snoopLine s pa).st.mem = s.st.mem ∧ (lineFind (snoopLine s pa).st.lines pa).dirty = (lineFind s.st.lines pa).dirty := by
  rw [snoopLine_quiet hquiet]
  split
  · next hhome =>
    refine ⟨congrArg Prod.fst (pointScrub_bytes s pa 128), ?_⟩
    unfold pointScrub
    rw [if_neg (ne_true_of_eq_false (isBank_of_inHost hin)), (scrub_codes _ pa 128).lines, hline]
    unfold lineHome
    dsimp only
    rw [if_pos hhome]
    split
    · exact lineFlawed_dirty s (homeDie pa) pa
    · rfl
  · exact ⟨rfl, rfl⟩

theorem snpdata_returns (hrec : recovery s = false) {line : BitVec 52} (hpa : hostLine line = pa) : Completes (exec (.snpdata line) s) (fun t => t.st.mem = s.st.mem ∧
    t.host.out.snoop = BitVec.ofNat 1024 (natLE (Mem.read s.st.mem pa 128)) ∧ ∀ l ∈ t.st.lines, l.pa = pa → l.dirty = false ∧ l.own = false) := by
  obtain ⟨hmem, -⟩ := snoopLine_finds hline hin hquiet
  subst hpa
  show Completes (execSnpdata line s) _
  unfold execSnpdata
  dsimp only
  rw [if_neg (by rw [hrec, hin]; decide)]
  refine ⟨_, rfl, hmem, ?_, fun l hl hlpa => ?_⟩
  · rw [snoopAnswer, onOut_out]
    dsimp only [lineData, State.onSt_st]
    rw [hmem]
  · obtain ⟨x, -, rfl⟩ := List.mem_map.mp hl
    split at hlpa <;> rename_i hx
    · rw [if_pos hx]; exact ⟨rfl, rfl⟩
    · exact absurd hlpa hx

omit hline hin hquiet in
/-- A line that the host writes is memory's; who waits for it wakes. -/
theorem hostLineWrite_writes {s : State} (hm : MemoryOk s) (pa : Nat) (data : BitVec 1024) : Mem.read (hostLineWrite s pa data).st.mem pa 128 = lineBytes data ∧
    (hostLineWrite s pa data).st.lines = s.st.lines ∧ (hostLineWrite s pa data).host = s.host := by
  refine ⟨?_, hostLineWrite_lines s pa data, hostLineWrite_host s pa data⟩
  have hread := Mem.read_write (lineBytes data) pa hm
  rw [lineBytes_length] at hread
  rw [hostLineWrite_mem, hread]

omit hline hin hquiet in
theorem wakeLine_lines (s : State) (line : Nat) : (wakeLine s line).st.lines = s.st.lines ∧ (wakeLine s line).host = s.host := by
  have hentry (s : State) (m : Monitor) : (wakeEntry s m 1).st.lines = s.st.lines ∧ (wakeEntry s m 1).host = s.host := by
    unfold wakeEntry
    split
    · refine ⟨by rw [wakeSlot_st], ?_⟩
      unfold wakeSlot
      dsimp only
      split <;> rfl
    · exact ⟨rfl, rfl⟩
  exact ⟨foldl_keeps (fun (s : State) m => wakeEntry s m 1) (fun s => s.st.lines) (fun s m => (hentry s m).1) _ _,
    foldl_keeps (fun (s : State) m => wakeEntry s m 1) State.host (fun s m => (hentry s m).2) _ _⟩

/-- An invalidating snoop: the line is the host's, and a Dirty one has gone back to it. -/
theorem snpinv_drops (hm : MemoryOk s) (hrec : recovery s = false) {line : BitVec 52} (hpa : hostLine line = pa) (data : BitVec 1024) :
    Completes (exec (.snpinv line data) s) (fun t => Mem.read t.st.mem pa 128 = lineBytes data ∧
      ((lineFind s.st.lines pa).dirty = true → t.host.out.snoop = BitVec.ofNat 1024 (natLE (Mem.read s.st.mem pa 128))) ∧
      ∀ l ∈ t.st.lines, l.pa = pa → l.home = false ∧ l.dirty = false) := by
  obtain ⟨hmem, hdirty⟩ := snoopLine_finds hline hin hquiet
  subst hpa
  show Completes (execSnpinv line data s) _
  unfold execSnpinv
  dsimp only
  rw [if_neg (by rw [hrec, hin]; decide)]
  have hback : (if (lineFind (snoopLine s (hostLine line)).st.lines (hostLine line)).dirty then snoopAnswer (snoopLine s (hostLine line)) (hostLine line)
      else snoopLine s (hostLine line)).st = (snoopLine s (hostLine line)).st := by
    split
    · exact onOut_st _ _
    · rfl
  have hsnoop : (lineFind s.st.lines (hostLine line)).dirty = true →
      (if (lineFind (snoopLine s (hostLine line)).st.lines (hostLine line)).dirty then snoopAnswer (snoopLine s (hostLine line)) (hostLine line)
        else snoopLine s (hostLine line)).host.out.snoop = BitVec.ofNat 1024 (natLE (Mem.read s.st.mem (hostLine line) 128)) := fun hd => by
    rw [hdirty, hd, if_pos rfl, snoopAnswer, onOut_out]
    dsimp only [lineData]
    rw [hmem]
  generalize (if (lineFind (snoopLine s (hostLine line)).st.lines (hostLine line)).dirty then snoopAnswer (snoopLine s (hostLine line)) (hostLine line)
    else snoopLine s (hostLine line)) = u at hback hsnoop
  have hum : MemoryOk (u.onSt (fun st => { st with
      lines := st.lines.map (fun l => if l.pa = hostLine line then { l.replace (homeDie (hostLine line)) with shared := 0 } else l) })) := by
    show Mem.wf u.st.mem = true
    rw [hback, hmem]
    exact hm
  obtain ⟨hread, hlines, hhost⟩ := hostLineWrite_writes hum (hostLine line) data
  obtain ⟨hwlines, hwhost⟩ := wakeLine_lines (hostLineWrite (u.onSt (fun st => { st with
      lines := st.lines.map (fun l => if l.pa = hostLine line then { l.replace (homeDie (hostLine line)) with shared := 0 } else l) })) (hostLine line) data) (hostLine line)
  refine ⟨_, rfl, ?_, fun hd => ?_, fun l hl hlpa => ?_⟩
  · rw [wakeLine_mem, hread]
  · rw [hwhost, hhost]; exact hsnoop hd
  · rw [hwlines, hlines] at hl
    obtain ⟨x, -, rfl⟩ := List.mem_map.mp hl
    split at hlpa <;> rename_i hx
    · rw [if_pos hx]
      unfold Line.replace
      rw [if_pos (by rw [hx])]
      exact ⟨rfl, rfl⟩
    · exact absurd hlpa hx

end Snoops

-- ## A line comes from the host (R81, R396)

/-- A request that only hands a line back. -/
def HandsBack (k : HostAsk) : Prop := k.op ≠ .rdShared ∧ k.op ≠ .rdOwn

/-- The request that `hostAsk` makes. -/
def askFor (s : State) (op : CacheOp) (pa : Nat) : HostAsk :=
  { op, pa, data := if op = .dirtyEvict then some (lineData s pa) else none
    before := match op with | .rdShared | .rdOwn => (List.range 128).map (fun i => newestId s.st.hist (pa + i)) | _ => [] }

theorem hostAsk_eq (s : State) (op : CacheOp) (pa : Nat) :
    hostAsk s op pa = if inHost pa then s.onOut (fun o => { o with asks := o.asks ++ [askFor s op pa] }) else s := rfl

theorem hostAsk_asks (s : State) (op : CacheOp) (pa : Nat) :
    (hostAsk s op pa).host.out.asks = s.host.out.asks ++ if inHost pa then [askFor s op pa] else [] := by
  rw [hostAsk_eq]
  generalize askFor s op pa = k
  split
  · rw [onOut_out]
  · rw [List.append_nil]

theorem hostAsk_handsBack (s : State) {op : CacheOp} (hop : op ≠ .rdShared ∧ op ≠ .rdOwn) (pa : Nat) :
    ∃ l, (hostAsk s op pa).host.out.asks = s.host.out.asks ++ l ∧ ∀ k ∈ l, HandsBack k := by
  refine ⟨_, hostAsk_asks s op pa, fun k hk => ?_⟩
  split at hk
  · rw [List.mem_singleton.mp hk]; exact hop
  · exact absurd hk List.not_mem_nil

theorem lineEvict_asks (s : State) (d pa : Nat) : ∃ l, (lineEvict s d pa).host.out.asks = s.host.out.asks ++ l ∧ ∀ k ∈ l, HandsBack k := by
  have hscrub : (if homeDie pa = d ∧ (lineFind s.st.lines pa).dirty = true ∧ inGranary pa = false then scrub s pa 128 else s).host.out.asks = s.host.out.asks := by
    split
    · exact (scrub_codes s pa 128).asks
    · rfl
  unfold lineEvict
  dsimp only
  rw [← hscrub]
  generalize (if homeDie pa = d ∧ (lineFind s.st.lines pa).dirty = true ∧ inGranary pa = false then scrub s pa 128 else s) = u
  by_cases hhome : homeDie pa = d ∧ (lineFind s.st.lines pa).home = true
  · rw [if_pos hhome]
    refine hostAsk_handsBack u ?_ pa
    split <;> exact ⟨nofun, nofun⟩
  · rw [if_neg hhome]
    exact ⟨[], (List.append_nil _).symm, fun _ hk => absurd hk List.not_mem_nil⟩

/-- Room for a line asks nothing of the host but to take lines back. -/
theorem lineRoom_asks (s : State) (d pa : Nat) : ∃ l, (lineRoom s d pa).host.out.asks = s.host.out.asks ++ l ∧ ∀ k ∈ l, HandsBack k := by
  have hnone : ∃ l, s.host.out.asks = s.host.out.asks ++ l ∧ ∀ k ∈ l, HandsBack k :=
    ⟨[], (List.append_nil _).symm, fun _ hk => absurd hk List.not_mem_nil⟩
  unfold lineRoom
  dsimp only
  split
  · split
    · exact lineEvict_asks ..
    · exact hnone
  · exact hnone

theorem lineRoom_hist (s : State) (d pa : Nat) : (lineRoom s d pa).st.hist = s.st.hist := by
  obtain ⟨_, _, _, _, _, _, _, h⟩ := lineRoom_change s d pa
  rw [h]

/-- The request that a home slice makes for a line's data. -/
def sharedAsk (s : State) (pa : Nat) : HostAsk :=
  { op := .rdShared, pa, data := none, before := (List.range 128).map (fun i => newestId s.st.hist (pa + i)) }

/-- A line as it enters its home slice. -/
def enteredLine (s : State) (pa : Nat) : Line :=
  { lineFind s.st.lines pa with home := true, dirty := false, tag := 0, sharers := 0, shared := 0, flaws := 0, own := false }

/-- A host line that enters its home slice is there, Clean, and has been asked for. -/
structure Entered (s t : State) (pa : Nat) : Prop where
  line : lineFind t.st.lines pa = enteredLine s pa
  asks : ∃ l, t.host.out.asks = s.host.out.asks ++ l ++ [sharedAsk s pa] ∧ ∀ k ∈ l, HandsBack k
  mem : t.st.mem = s.st.mem
  hist : t.st.hist = s.st.hist
  regs : SameRegs s t

theorem lineEnter_enters {s : State} {pa : Nat} (hin : inHost pa = true) (hhome : (lineFind s.st.lines pa).home = false) : Entered s (lineEnter s pa) pa := by
  obtain ⟨l, hasks, hback⟩ := lineRoom_asks s (homeDie pa) pa
  have hhist := lineRoom_hist s (homeDie pa) pa
  obtain ⟨_, _, _, _, _, _, _, hchange⟩ := lineEnter_change s pa
  have hask : (hostAsk (lineRoom s (homeDie pa) pa) .rdShared pa).host.out.asks = s.host.out.asks ++ l ++ [sharedAsk s pa] := by
    have hk : askFor (lineRoom s (homeDie pa) pa) .rdShared pa = sharedAsk s pa := by
      unfold askFor sharedAsk
      rw [hhist, if_neg nofun]
    rw [hostAsk_asks, if_pos hin, hasks, hk]
  have hcodes := lineCarried_codes ((hostAsk (lineRoom s (homeDie pa) pa) .rdShared pa).onSt (fun st => { st with lines := linePut st.lines (enteredLine s pa) })) pa
  have hline : lineFind (linePut (hostAsk (lineRoom s (homeDie pa) pa) .rdShared pa).st.lines (enteredLine s pa)) pa = enteredLine s pa := by
    have hput := lineFind_linePut (hostAsk (lineRoom s (homeDie pa) pa) .rdShared pa).st.lines (enteredLine s pa)
    rwa [show (enteredLine s pa).pa = pa from lineFind_pa _ _] at hput
  have hlines : (lineEnter s pa).st.lines = linePut (hostAsk (lineRoom s (homeDie pa) pa) .rdShared pa).st.lines (enteredLine s pa) := by
    unfold lineEnter
    dsimp only
    rw [hhome, if_neg Bool.false_ne_true]
    split <;> exact hcodes.lines
  have hallasks : (lineEnter s pa).host.out.asks = (hostAsk (lineRoom s (homeDie pa) pa) .rdShared pa).host.out.asks := by
    unfold lineEnter
    dsimp only
    rw [hhome, if_neg Bool.false_ne_true]
    split <;> exact hcodes.asks
  refine ⟨by rw [hlines, hline], ⟨l, hallasks.trans hask, hback⟩, by rw [hchange], by rw [hchange], lineEnter_regs s pa⟩

/-- A request for a line's data or ownership. -/
def asksFor (pa : Nat) (k : HostAsk) : Bool := k.pa == pa && (match k.op with | .rdShared | .rdOwn => true | _ => false)

theorem hostAwaited_eq (s : State) (pa : Nat) : hostAwaited s pa = s.host.out.asks.find? (asksFor pa) := rfl

/-- And the host's next answer for it is to that request. -/
theorem hostAwaited_entered {s t : State} {pa : Nat} (h : Entered s t pa) (hnone : hostAwaited s pa = none) : hostAwaited t pa = some (sharedAsk s pa) := by
  obtain ⟨l, hasks, hback⟩ := h.asks
  rw [hostAwaited_eq] at hnone ⊢
  have hl : l.find? (asksFor pa) = none := by
    refine List.find?_eq_none.mpr fun k hk => ?_
    obtain ⟨h1, h2⟩ := hback k hk
    unfold asksFor
    cases hop : k.op with
    | rdShared => exact absurd hop h1
    | rdOwn => exact absurd hop h2
    | _ => simp
  rw [hasks, List.find?_append, List.find?_append, hnone, hl]
  exact List.find?_cons_of_pos (p := asksFor pa) (by simp [asksFor, sharedAsk])

-- ## The host's answer (R84, R396, R397)

/-- A poisoned word's mark. -/
theorem markOf_poisonWord (s : State) (w w' : Nat) (h : w' = w ∨ markOf s.st.marks w' = 1#2) : markOf (poisonWord s w).st.marks w' = 1#2 := by
  have hmarks : (poisonWord s w).st.marks = markSet s.st.marks w 1#2 := rfl
  rw [hmarks]
  by_cases hw : w = w'
  · subst hw
    unfold markSet markOf
    dsimp only
    rw [if_neg (by decide), List.find?_cons_of_pos (p := fun p : Nat × BitVec 2 => p.1 == w) (beq_self_eq_true w)]
  · rw [markOf_markSet_other _ _ hw]
    exact h.resolve_left fun e => hw e.symm

theorem markOf_poisonWords (ws : List Nat) (s : State) {w : Nat} (h : w ∈ ws ∨ markOf s.st.marks w = 1#2) : markOf (ws.foldl poisonWord s).st.marks w = 1#2 := by
  induction ws generalizing s with
  | nil => exact h.resolve_left nofun
  | cons v ws ih =>
    refine ih _ ?_
    rcases h with h | h
    · rcases List.mem_cons.mp h with rfl | h
      · exact .inr (markOf_poisonWord s w w (.inl rfl))
      · exact .inl h
    · exact .inr (markOf_poisonWord s v w (.inr h))

section Answers

variable (s : State) (k : HostAsk) (data : BitVec 1024)

/-- An answer in error poisons the words that it brings and is logged as kind 4. -/
theorem hostAnswer_error : (hostAnswer s k data true).host.out.asks = s.host.out.asks.erase k ∧ (hostAnswer s k data true).st.mem = s.st.mem ∧
    (∀ w ∈ hostUntouched s k, markOf (hostAnswer s k data true).st.marks w = 1#2) ∧ (hostAnswer s k data true).host.herr.getLsbD 63 = true ∧
    (s.host.herr.getLsbD 63 = false → field (hostAnswer s k data true).host.herr 60 58 = 4) := by
  have hcodes := (CodeStep.foldl poisonWord_codes (hostUntouched s k) (s.onOut (fun o => { o with asks := o.asks.erase k }))).trans (mcLog_codes _ (poisonEvent k.pa 0x34))
  have hmarks := fun w hw => markOf_poisonWords (hostUntouched s k) (s.onOut (fun o => { o with asks := o.asks.erase k })) (w := w) (.inl hw)
  have hmem : ((hostUntouched s k).foldl poisonWord (s.onOut (fun o => { o with asks := o.asks.erase k }))).st.mem = s.st.mem :=
    foldl_keeps poisonWord (fun u : State => u.st.mem) poisonWord_mem _ _
  have heq : hostAnswer s k data true = herrLog (((hostUntouched s k).foldl poisonWord (s.onOut (fun o => { o with asks := o.asks.erase k }))).mcLog
      (poisonEvent k.pa 0x34)) 4 k.pa := rfl
  rw [heq]
  generalize (hostUntouched s k).foldl poisonWord (s.onOut (fun o => { o with asks := o.asks.erase k })) = u at hcodes hmarks hmem
  obtain ⟨hst, -, hasks⟩ := herrLog_rest (u.mcLog (poisonEvent k.pa 0x34)) 4 k.pa
  have hherr : (u.mcLog (poisonEvent k.pa 0x34)).host.herr = s.host.herr := hcodes.regs.herr
  refine ⟨hasks.trans (hcodes.asks.trans ?_), ?_, ?_, herrLog_val _ 4 k.pa (by decide), fun h => (herrLog_first 4 k.pa (hherr ▸ h) (by decide)).1⟩
  · rw [onOut_out]
  · rw [hst, mcLog_mem, hmem]
  · rw [hst]; exact hmarks

/-- Any other answer leaves the line's place in its slice; the data of RdShared comes to memory where no write of the module stands in the line. -/
theorem hostAnswer_data (hm : MemoryOk s) : (hostAnswer s k data false).host.out.asks = s.host.out.asks.erase k ∧ (hostAnswer s k data false).st.lines = s.st.lines ∧
    (k.op = .rdOwn ∨ (lineFind s.st.lines k.pa).dirty = true → (hostAnswer s k data false).st.mem = s.st.mem) ∧
    (k.op = .rdShared → (lineFind s.st.lines k.pa).dirty = false → Mem.read (hostAnswer s k data false).st.mem k.pa 128 = lineBytes data) := by
  have heq : hostAnswer s k data false = if k.op = .rdOwn ∨ (lineFind s.st.lines k.pa).dirty = true ∨ Mem.read s.st.mem k.pa 128 = lineBytes data
      then s.onOut (fun o => { o with asks := o.asks.erase k }) else hostLineWrite (s.onOut (fun o => { o with asks := o.asks.erase k })) k.pa data := rfl
  have hasks : (s.onOut (fun o => { o with asks := o.asks.erase k })).host.out.asks = s.host.out.asks.erase k := by rw [onOut_out]
  have hst : (s.onOut (fun o => { o with asks := o.asks.erase k })).st = s.st := onOut_st _ _
  rw [heq]
  generalize s.onOut (fun o => { o with asks := o.asks.erase k }) = u at hasks hst
  obtain ⟨hread, hlines, hhost⟩ := hostLineWrite_writes (s := u) (by unfold MemoryOk; rw [hst]; exact hm) k.pa data
  split
  · next hsame =>
    refine ⟨hasks, by rw [hst], fun _ => by rw [hst], fun hop hclean => ?_⟩
    rw [hst]
    rcases hsame with h | h | h
    · rw [hop] at h; cases h
    · rw [hclean] at h; cases h
    · exact h
  · next hnew =>
    refine ⟨by rw [hhost, hasks], by rw [hlines, hst], fun h => absurd ?_ hnew, fun _ _ => hread⟩
    exact h.imp_right .inl

end Answers

-- ## The host's answer to a home slice (R81, R396, R397)

/-- No write has covered a line's words since it was asked for as it entered. -/
theorem hostUntouched_entered {s t : State} {pa : Nat} (h : t.st.hist = s.st.hist) {w : Nat} (hw : w < 16) : pa / 8 + w ∈ hostUntouched t (sharedAsk s pa) := by
  refine List.mem_map.mpr ⟨w, List.mem_filter.mpr ⟨List.mem_range.mpr hw, List.any_eq_true.mpr ⟨0, List.mem_range.mpr (by decide), ?_⟩⟩, rfl⟩
  have hbefore : (sharedAsk s pa).before[8 * w + 0]? = some (newestId s.st.hist (pa + (8 * w + 0))) := by
    rw [sharedAsk, List.getElem?_map, List.getElem?_range (by omega)]
    rfl
  rw [hbefore, h]
  exact beq_iff_eq.mpr (by rw [sharedAsk, Nat.add_assoc])

section Responses

variable {s : State} {line : BitVec 52} (hrec : recovery s = false) (hin : inHost (hostLine line) = true) (data : BitVec 1024) (error : Bool)

include hrec hin

theorem cxlCacheResponse_answers {k : HostAsk} (hk : hostAwaited s (hostLine line) = some k) :
    exec (.cxlCacheResponse line data error) s = .next (hostAnswer s k data error) := by
  show execCxlCacheResponse line data error s = _
  unfold execCxlCacheResponse
  dsimp only
  rw [if_neg (by rw [hrec, hin]; decide), hk]

/-- Where the slice holds the line and has asked for nothing, there is nothing to answer. -/
theorem cxlCacheResponse_held (hk : hostAwaited s (hostLine line) = none) (hhome : (lineFind s.st.lines (hostLine line)).home = true) :
    exec (.cxlCacheResponse line data error) s = .next s := by
  have henter : lineEnter s (hostLine line) = s := by
    unfold lineEnter
    dsimp only
    rw [if_pos hhome]
  show execCxlCacheResponse line data error s = _
  unfold execCxlCacheResponse
  dsimp only
  rw [if_neg (by rw [hrec, hin]; decide), hk]
  dsimp only
  rw [henter, hk]

/-- Where it does not hold the line, it asks for it and is answered. -/
theorem cxlCacheResponse_enters (hk : hostAwaited s (hostLine line) = none) (hhome : (lineFind s.st.lines (hostLine line)).home = false) :
    exec (.cxlCacheResponse line data error) s =
      .next (hostAnswer (lineEnter s (hostLine line)) (sharedAsk s (hostLine line)) data error) := by
  have hasked := hostAwaited_entered (lineEnter_enters hin hhome) hk
  show execCxlCacheResponse line data error s = _
  unfold execCxlCacheResponse
  dsimp only
  rw [if_neg (by rw [hrec, hin]; decide), hk]
  dsimp only
  rw [hasked]

end Responses

theorem hostAwaited_pa {s : State} {pa : Nat} {k : HostAsk} (h : hostAwaited s pa = some k) : k.pa = pa := by
  have hk := List.find?_some h
  exact beq_iff_eq.mp (Bool.and_eq_true_iff.mp hk).1

-- ## Links (R401, R402)

variable {q : Bool}

theorem engineWrite_samePlaces (s : State) (src loc word : Nat) (full : Bool) (known : List (Nat × Nat)) (rel : Option Release) (mark : BitVec 2) :
    SamePlaces q s (engineWrite s src loc word full known rel mark) := by
  have hfree (p : PWrite) : SamePlaces q s (performFree { s.bump with wrote := true } p (src - srcCmd 0)) :=
    (SamePlaces.of_eq (by exact ⟨rfl, rfl, rfl, rfl⟩)).trans (performFree_samePlaces _ _ _)
  have hmarked (p : PWrite) : SamePlaces q s (if mark = 0#2 then performFree { s.bump with wrote := true } p (src - srcCmd 0)
      else (performFree { s.bump with wrote := true } p (src - srcCmd 0)).onSt (fun st => { st with marks := markSet st.marks (loc / 8) mark })) := by
    split
    · exact hfree p
    · exact (hfree p).trans (onSt_samePlaces _ _)
  unfold engineWrite
  dsimp only
  split
  · exact (hmarked _).trans (service_samePlaces _ loc)
  · exact hmarked _

theorem writeWords_samePlaces (l : List (Nat × BitVec 2)) (s : State) (src core off : Nat) (known : List (Nat × Nat)) (rel : Release) :
    SamePlaces q s (writeWords s src core off known rel l) := by
  induction l generalizing s off with
  | nil => exact .refl s
  | cons w l ih => exact (engineWrite_samePlaces ..).trans (ih _ _)

theorem settled_samePlaces (s : State) (i : Interest) : SamePlaces q s (settled s i) := by
  unfold settled
  dsimp only
  split
  · exact .of_eq ⟨rfl, rfl, rfl, rfl⟩
  · refine SamePlaces.trans (.of_eq (by exact ⟨rfl, rfl, rfl, rfl⟩)) (onSlot_samePlaces _ i.slot fun _ => ?_)
    exact ⟨rfl, rfl, rfl, rfl, rfl, fun _ => rfl, fun _ _ => rfl, fun _ => ⟨rfl, rfl⟩⟩

theorem deliver_samePlaces (s : State) (nm : TileName) (core dest num : Nat) (r : Tile ⊕ Bool) : SamePlaces q s (deliver s nm core dest num r) := by
  have hwords (src : Nat) (known : List (Nat × Nat)) (rel : Release) (l : List (Nat × BitVec 2)) : SamePlaces q s (writeWords s.bump src core dest known rel l) :=
    SamePlaces.trans (.of_eq (by exact ⟨rfl, rfl, rfl, rfl⟩)) (writeWords_samePlaces l s.bump src core dest known rel)
  unfold deliver
  dsimp only
  by_cases hcore : core = s.coreId
  · rw [if_pos hcore]
    cases s.core.interests.find? (fun i => i.num == num) with
    | none => exact .refl s
    | some i => cases r <;> exact (hwords ..).trans (settled_samePlaces ..)
  · rw [if_neg hcore]
    cases r <;> exact hwords ..

theorem answerFace_withdrawn (s : State) (k : Nat) (nm : TileName) (r : Tile ⊕ Bool) (f : Face) : (answerFace s k nm r f).net.withdrawn = s.net.withdrawn := by
  cases f with
  | waiter core dest num => exact congrArg Net.withdrawn (deliver_samePlaces (q := true) ..).net
  | _ => rfl

theorem settleEntry_withdrawn (s : State) (k : Nat) (nm : TileName) (r : Tile ⊕ Bool) (keep : Face → Bool) :
    (settleEntry s k nm r keep).net.withdrawn = s.net.withdrawn := by
  unfold settleEntry
  dsimp only
  split
  · rfl
  · exact (foldl_keeps _ (fun s : State => s.net.withdrawn) (fun s f => answerFace_withdrawn s k nm r f) _ _).trans rfl

theorem settleWhere_withdrawn (s : State) (sel : Nat → TileName → Bool) (keep : Face → Bool) (w : Bool) :
    (settleWhere s sel keep w).net.withdrawn = s.net.withdrawn :=
  foldl_keeps (fun (s : State) (e : Nat × TileName) => settleEntry s e.1 e.2 (.inr w) keep) (fun s : State => s.net.withdrawn)
    (fun s e => settleEntry_withdrawn s e.1 e.2 _ keep) _ _

/-- A notice counts, and so do those before it. -/
theorem peerWithdrawn_withdrawn (s : State) (port : Fin 16) (cid : Fin 64) :
    (peerWithdrawn s port cid).net.withdrawn = (port, cid.val) :: s.net.withdrawn.filter (· != (port, cid.val)) := settleWhere_withdrawn ..

theorem mem_peerWithdrawn {s : State} {x : Fin 16 × Nat} (port : Fin 16) (cid : Fin 64) (h : x = (port, cid.val) ∨ x ∈ s.net.withdrawn) :
    x ∈ (peerWithdrawn s port cid).net.withdrawn := by
  rw [peerWithdrawn_withdrawn]
  by_cases hx : x = (port, cid.val)
  · rw [hx]; exact .head _
  · exact .tail _ (List.mem_filter.mpr ⟨h.resolve_left hx, bne_iff_ne.mpr hx⟩)

/-- The notices of a list of contexts. -/
theorem mem_peersWithdrawn (port : Fin 16) (l : List (Nat × Word)) (s : State) {x : Fin 16 × Nat}
    (h : x ∈ s.net.withdrawn ∨ ∃ e ∈ l, x = (port, pmPcid e.2 % 64)) :
    x ∈ (l.foldl (fun s e => peerWithdrawn s port (Fin.ofNat 64 (pmPcid e.2))) s).net.withdrawn := by
  induction l generalizing s with
  | nil => exact h.resolve_right fun ⟨_, he, _⟩ => absurd he List.not_mem_nil
  | cons e l ih =>
    refine ih _ ?_
    rcases h with h | ⟨e', he, hx⟩
    · exact .inl (mem_peerWithdrawn port _ (.inr h))
    · rcases List.mem_cons.mp he with rfl | he
      · exact .inl (mem_peerWithdrawn port _ (.inl hx))
      · exact .inr ⟨e', he, hx⟩

-- ## The obligation

/-- Settles O54, clause by clause. -/
theorem hostMemoryAndLinksAct : Obligations.HostMemoryAndLinksAct := by
  unfold Obligations.HostMemoryAndLinksAct
  intro s hrec
  refine ⟨fun hpa data en h => ?_, fun hpa dpa h => ?_, fun line data hm hin => ?_, fun port => ?_⟩
  case refine_1 =>
    have hwrite : cxlWrite s hpa data en = s := by rw [cxlWrite, h]
    refine ⟨?_, congrArg Host.Outcome.next hwrite, congrArg Host.Outcome.next hwrite⟩
    show execCxlMemRead hpa s = _
    rw [execCxlMemRead, h]
  case refine_2 =>
    refine ⟨cxlMemRead_reads hrec h, cxlMemRead_refused hrec h, fun data en i hi => ?_⟩
    have hexec : exec i s = .next (cxlWrite s hpa data en) := by
      rcases List.mem_cons.mp hi with rfl | hi
      · rfl
      · rw [List.mem_singleton.mp hi]; rfl
    refine ⟨fun hgrant => ?_, fun hm hgrant hok hwait => ⟨_, hexec, cxlWrite_writes hrec data en h hm hgrant hok hwait⟩⟩
    obtain ⟨hst, hslots, -⟩ := herrLog_rest s 2 dpa.toNat
    refine ⟨_, hexec, ?_⟩
    rw [cxlWrite_refused hrec data en h hgrant]
    exact ⟨hst, hslots, herrLog_val s 2 dpa.toNat (by decide)⟩
  case refine_3 =>
    have hline := lineOf_hostLine line
    refine ⟨fun hq => snpdata_returns hline hin hq hrec rfl, fun hq => snpinv_drops hline hin hq hm hrec rfl data, fun k hk => ⟨?_, ?_⟩,
      cxlCacheResponse_held hrec hin data false, fun hnone hhome => ?_⟩
    · obtain ⟨hasks, -, hkept, hread⟩ := hostAnswer_data s k data hm
      rw [hostAwaited_pa hk] at hkept hread
      exact ⟨_, cxlCacheResponse_answers hrec hin data false hk, hasks, hkept, hread⟩
    · obtain ⟨hasks, hmem, hmarks, hval, hkind⟩ := hostAnswer_error s k data
      exact ⟨_, cxlCacheResponse_answers hrec hin data true hk, hasks, hmem, hmarks, hval, hkind⟩
    · have henter := lineEnter_enters hin hhome
      have hem : MemoryOk (lineEnter s (hostLine line)) := by unfold MemoryOk; rw [henter.mem]; exact hm
      have hclean : (lineFind (lineEnter s (hostLine line)).st.lines (hostLine line)).dirty = false := by rw [henter.line]; rfl
      obtain ⟨-, hlines, -, hread⟩ := hostAnswer_data (lineEnter s (hostLine line)) (sharedAsk s (hostLine line)) data hem
      obtain ⟨-, hmem, hmarks, hval, hkind⟩ := hostAnswer_error (lineEnter s (hostLine line)) (sharedAsk s (hostLine line)) data
      rw [henter.regs.herr] at hkind
      refine ⟨⟨_, cxlCacheResponse_enters hrec hin data false hnone hhome, hread rfl hclean, by rw [hlines, henter.line]; rfl⟩,
        ⟨_, cxlCacheResponse_enters hrec hin data true hnone hhome, hmem.trans henter.mem, fun w hw => hmarks _ (hostUntouched_entered henter.hist hw), hval, hkind⟩⟩
  case refine_4 =>
    refine ⟨fun k p hup hfeat henter => ⟨pushPacket s k (packetFrom p port), ?_, rfl⟩, ⟨_, rfl, .head _, rfl⟩, ⟨_, rfl, ?_, rfl⟩, fun hdown => ⟨_, if_pos hdown, fun e he hne hvalid hport => ?_⟩⟩
    · show execPsiporFlitReceive port true k p s = _
      unfold execPsiporFlitReceive
      rw [hup, hfeat, if_neg (by decide), if_pos henter]
    · exact fun hin => absurd rfl (bne_iff_ne.mp (List.mem_filter.mp hin).2)
    · refine mem_peersWithdrawn port _ s (.inr ⟨e, List.mem_filter.mpr ⟨he, ?_⟩, rfl⟩)
      rw [hvalid, hport, beq_self_eq_true]
      simp [hne]

end Sys2Proof.Proofs.HostLines
end

section
/-! PROOF. Firmware's reads and records, and the launches that wait for placement, are placed and complete (R72, R332 to R341, R349). -/

namespace Sys2Proof.Proofs.Launches

open Sys2Proof Sys2Proof.Machine Sys2Proof.Safety Sys2Proof.Slice0 Sys2Proof.Proofs.Words Sys2Proof.Proofs.Results Sys2Proof.Proofs.Kill
  Sys2Proof.Proofs.Areas Sys2Proof.Proofs.Events Sys2Proof.Proofs.Units Sys2Proof.Proofs.HostLines

variable {q : Bool}

-- ## Firmware's reads (R61, R72, R382)

theorem mcLog_samePlaces (s : State) (e : McEvent) : SamePlaces q s (s.mcLog e) := .of_eq ⟨rfl, rfl, rfl, rfl⟩

theorem fwWalk_outside (s : State) (w : Walker) (va n : Nat) : Outside s (fwWalk s w va n) := by
  unfold fwWalk
  split
  · exact .refl s
  · refine foldl_outside (fun s k => ?_) _ s
    have ht := translate_outside s w { user := false, fetch := false, write := false, sync := false } (BitVec.ofNat 64 ((va / 65536 + k) * 65536))
    split
    · next h => rw [h] at ht; exact ht
    · next h => rw [h] at ht; exact ht
    · exact .refl s

theorem fwTouch_outside (s : State) (w : Walker) (va n : Nat) : Outside s (fwTouch s w va n) := by
  unfold fwTouch
  refine foldl_outside (fun s k => ?_) _ s
  have ht := translate_outside s w { user := false, fetch := false, write := false, sync := false } (BitVec.ofNat 64 (8 * k))
  split
  · next h => rw [h] at ht; exact Outside.trans ht (outside_of (pointScrub_samePlaces (q := true) _ _ _))
  · next h => rw [h] at ht; exact ht
  · exact .refl s

theorem fwTouchAll_outside (s : State) (w : Walker) (l : List (Nat × Nat)) : Outside s (fwTouchAll s w l) :=
  foldl_outside (f := fun s (p : Nat × Nat) => fwTouch s w p.1 p.2) (fun s p => fwTouch_outside s w p.1 p.2) l s

theorem fwWalks_outside {α : Type} (s : State) (w : Walker) (va n : α → Nat) (l : List α) :
    Outside s (l.foldl (fun s x => fwWalk s w (va x) (n x)) s) :=
  foldl_outside (f := fun s x => fwWalk s w (va x) (n x)) (fun s x => fwWalk_outside s w (va x) (n x)) l s

theorem slotReads_outside (s : State) (w : Walker) (qu : Queue) : Outside s (slotReads s w qu) :=
  (fwWalk_outside ..).trans (fwTouch_outside ..)

theorem launchReads_outside (s : State) (cid : Fin 64) (ctx : Word) (r : Vector Word 16) : Outside s (launchReads s cid ctx r) := by
  unfold launchReads
  dsimp only
  generalize hs1 : (if r[8] = 0#64 then s else fwWalk s (fwWalker cid ctx) r[8].toNat 40) = s1
  have h1 : Outside s s1 := by
    rw [← hs1]
    split
    · exact .refl s
    · exact fwWalk_outside ..
  have htensors (l : List (Tensor × Word × Word)) := h1.trans ((fwTouch_outside s1 (fwWalker cid ctx) (field r[4] 47 6 * 64) (64 * field r[4] 60 48)).trans
    (fwWalks_outside _ (fwWalker cid ctx) (fun x : Tensor × Word × Word => x.1.back) (fun x => x.1.backBytes) l))
  split
  · exact h1
  · split
    · exact htensors _
    · split
      · exact (htensors _).trans (fwTouchAll_outside ..)
      · exact (((htensors _).trans (fwTouchAll_outside ..)).trans (fwTouch_outside ..)).trans (fwWalks_outside ..)

-- ## Records (R336)

theorem recordWord_outside (s : State) (loc v : Nat) (rel : List (Nat × Nat)) : Outside s (recordWord s loc v rel) :=
  outside_of (engineWrite_samePlaces (q := true) ..)

theorem writeRecord_outside (s : State) (cid : Fin 64) (ctx done : Word) (digest : Option Nat) (status : Nat)
    (rel : State → List Nat → List (Nat × Nat)) : Outside s (writeRecord s cid ctx done digest status rel) := by
  unfold writeRecord
  dsimp only
  split
  · exact .refl s
  · refine (fwWalk_outside s (fwWalker cid ctx) done.toNat 40).trans ?_
    split
    · refine Outside.trans ?_ (recordWord_outside ..)
      cases digest with
      | none => exact .refl _
      | some g => exact foldl_outside (f := fun s (p : (Nat × BitVec 5) × Nat) => recordWord s p.1.1 (g / 2 ^ (64 * p.2) % 2 ^ 64) []) (fun _ _ => recordWord_outside ..) _ _
    · exact outside_of (mcLog_samePlaces (q := true) _ _)

-- ## Taking a slot (R332, R333, R335)

theorem answerFace_fw (s : State) (k : Nat) (nm : TileName) (r : Tile ⊕ Bool) (f : Face) : (answerFace s k nm r f).fw = s.fw := by
  cases f with
  | waiter core dest num => exact (deliver_samePlaces (q := true) ..).fw
  | _ => rfl

theorem settleWhere_fw (s : State) (sel : Nat → TileName → Bool) (keep : Face → Bool) (w : Bool) : (settleWhere s sel keep w).fw = s.fw := by
  refine foldl_keeps (fun (s : State) (e : Nat × TileName) => settleEntry s e.1 e.2 (.inr w) keep) State.fw (fun s e => ?_) _ s
  unfold settleEntry
  dsimp only
  split
  · rfl
  · exact (foldl_keeps _ State.fw (fun s f => answerFace_fw s e.1 e.2 _ f) _ _).trans rfl

theorem clearTensors_fw (s : State) (cid : Fin 64) : (clearTensors s cid).fw = s.fw := by
  unfold clearTensors
  split
  · rfl
  · exact settleWhere_fw ..

/-- The queues with a slot of one taken. -/
def takenQueues (l : List Queue) (cid q : Fin 64) (taken : Nat) : List Queue := l.map (fun x => if x.cid = cid ∧ x.q = q then { x with taken } else x)

theorem mem_takenQueues {l : List Queue} {cid q : Fin 64} {qu : Queue} (h : l.find? (fun y => y.cid == cid && y.q == q) = some qu) (taken : Nat) :
    ∃ y ∈ takenQueues l cid q taken, y.cid = cid ∧ y.q = q ∧ y.taken = taken := by
  obtain ⟨hcid, hq⟩ := Bool.and_eq_true_iff.mp (List.find?_some (p := fun y : Queue => y.cid == cid && y.q == q) h)
  have hboth : qu.cid = cid ∧ qu.q = q := ⟨beq_iff_eq.mp hcid, beq_iff_eq.mp hq⟩
  exact ⟨{ qu with taken }, List.mem_map.mpr ⟨qu, List.mem_of_find?_eq_some h, if_pos hboth⟩, hboth.1, hboth.2, rfl⟩

/-- The launch that a slot's words ask for waits for placement. -/
def Awaits (l : Launch) (cid q : Fin 64) (ctx : Word) (ws : List Word) : Prop :=
  l.cid = cid ∧ l.q = q ∧ l.ctx = ctx ∧ l.words = Vector.ofFn (fun i => ws.getD i.val 0) ∧ l.placed = [] ∧ l.st = 0

/-- That launch, with its image block and its digest regions. -/
def waitingLaunch (cid q : Fin 64) (qu : Queue) (ctx : Word) (ws : List Word) (b : Block) (regions : List (Nat × Nat)) : Launch :=
  { cid, q, words := Vector.ofFn (fun i => ws.getD i.val 0), kvec := qu.kvec, ctx, shape := b.shape, tables := b.tables, items := b.items
    cells := b.cells, regions, placed := [], flt := false, st := 0 }

section SlotTake

variable {s : State} {cid q : Fin 64} {qu : Queue} {c : Fin 64} {ctx : Word} {loc head : Nat} {a1 a2 : BitVec 5} {ws : List Word}
  (hqu : s.fw.queues.find? (fun y => y.cid == cid && y.q == q) = some qu) (hctx : s.fw.contexts.find? (fun y => y.1 == cid) = some (c, ctx))
  (hloc : fwPlace s (fwWalker cid ctx) false true (qu.base.toNat + 128 * (qu.taken % 2 ^ qu.n)) = some (loc, a1))
  (hhead : fwPlace (slotReads s (fwWalker cid ctx) qu) (fwWalker cid ctx) true false qu.head.toNat = some (head, a2))
  (hws : fwWords (slotReads s (fwWalker cid ctx) qu) (fwWalker cid ctx) (qu.base.toNat + 128 * (qu.taken % 2 ^ qu.n)) 16 = some ws)
  (hserving : serving s = true) (hfull : isFull s loc = true) (hfree : s.fw.launches.any (fun l => l.cid == cid && l.q == q && l.st == 0#8) = false)

include hqu hctx hloc hhead hws hserving hfull hfree

theorem launchSlotTake_takes : ∃ t, exec (.launchSlotTake cid q) s = .next t ∧
    t.fw.queues = takenQueues s.fw.queues cid q ((qu.taken + 1) % 2 ^ 32) ∧
    (t.fw.launches = s.fw.launches ∨ ∃ l, t.fw.launches = s.fw.launches ++ [l] ∧ Awaits l cid q ctx ws) := by
  have hgo : ¬(!serving s || s.fw.launches.any (fun l => l.cid == cid && l.q == q && l.st == 0#8)) = true := by
    rw [hserving, hfree]; exact Bool.false_ne_true
  show ∃ t, execLaunchSlotTake cid q s = .next t ∧ _
  unfold execLaunchSlotTake
  rw [hqu, hctx]
  dsimp only
  rw [hloc, Option.filter_some, if_pos hfull]
  dsimp only
  rw [if_neg hgo, hhead, hws]
  dsimp only
  generalize hs2 : engineWrite _ srcFirm head _ false [] none = s2
  have h2 : s2.fw = s.fw := by
    rw [← hs2]
    refine (engineWrite_samePlaces (q := true) ..).fw.trans ((service_samePlaces (q := true) ..).fw.trans ?_)
    exact (performFree_samePlaces (q := true) ..).fw.trans (slotReads_outside s (fwWalker cid ctx) qu).fw
  generalize hs3 : launchReads _ cid ctx _ = s3
  have h3 : s3.fw = { s.fw with queues := takenQueues s.fw.queues cid q ((qu.taken + 1) % 2 ^ 32) } := by
    rw [← hs3, (launchReads_outside ..).fw, h2]
    rfl
  split
  · exact ⟨_, rfl, by rw [(writeRecord_outside ..).fw, h3], .inl (by rw [(writeRecord_outside ..).fw, h3])⟩
  · split
    · next b regions _ _ =>
      have hqueues : (clearTensors s3 cid).fw.queues = takenQueues s.fw.queues cid q ((qu.taken + 1) % 2 ^ 32) := by rw [clearTensors_fw, h3]
      have hlaunches : (clearTensors s3 cid).fw.launches = s.fw.launches := by rw [clearTensors_fw, h3]
      exact ⟨_, rfl, hqueues, .inr ⟨waitingLaunch cid q qu ctx ws b regions, congrArg (· ++ [waitingLaunch cid q qu ctx ws b regions]) hlaunches,
        rfl, rfl, rfl, rfl, rfl, rfl⟩⟩
    · exact ⟨_, rfl, by rw [h3], .inl (by rw [h3])⟩

end SlotTake

-- ## The end of a launch (R336, R349)

/-- A thread that leaves changes the network alone. -/
theorem leaveThreads_rest (l : List Nat) (s : State) :
    (l.foldl leaveThread s).slots = s.slots ∧ (l.foldl leaveThread s).core = s.core ∧ (l.foldl leaveThread s).fw = s.fw :=
  ⟨foldl_keeps leaveThread State.slots (fun _ _ => rfl) l s, foldl_keeps leaveThread State.core (fun _ _ => rfl) l s,
    foldl_keeps leaveThread State.fw (fun _ _ => rfl) l s⟩

theorem trackEvent_samePlaces (s : State) (n : Fin 32) (pos cls src : Nat) : SamePlaces q s (trackEvent s n pos cls src) := mcLog_samePlaces _ _

theorem setTrack_samePlaces (s : State) (n : Fin 32) (k : Track) : SamePlaces q s (s.setTrack n k) := .of_eq ⟨rfl, rfl, rfl, rfl⟩

theorem trackClear_samePlaces (n : Fin 32) (found : Bool) (s : State) : SamePlaces q s (trackClear n found s) := by
  unfold trackClear
  dsimp only
  split
  · exact setTrack_samePlaces ..
  · refine SamePlaces.trans ?_ (setTrack_samePlaces ..)
    split
    · exact .refl s
    · exact trackEvent_samePlaces ..

/-- What a team's leaving leaves of the machine: every slot is empty, and no team stands on the core. -/
structure Vacated (s t : State) : Prop where
  mode : ∀ i : Fin 8, t.slots[i].mode = .absent
  resident : t.fw.resident = none
  launches : t.fw.launches = s.fw.launches
  away : t.images.map (·.launch) = s.images.map (·.launch)

/-- Requests that are served once the slots are empty change none of it. -/
theorem Vacated.of_samePlaces {s u t : State} (h : SamePlaces true u t) (hu : Vacated s u) : Vacated s t where
  mode i := ((h.slots i).mode (by rw [hu.mode i]; exact nofun)).trans (hu.mode i)
  resident := by rw [h.fw]; exact hu.resident
  launches := by rw [h.fw]; exact hu.launches
  away := h.away.trans hu.away

theorem vacate_vacated (s : State) : Vacated s (vacate s) := by
  unfold vacate
  dsimp only
  generalize hs1 : (List.finRange 32).foldl (fun s n => if (s.track n).clearing then trackClear n true s else s) s = s1
  have h1 : SamePlaces true s s1 := by
    rw [← hs1]
    refine foldl_samePlaces (fun s n => ?_) _ s
    split
    · exact trackClear_samePlaces ..
    · exact .refl s
  have hlaunches : s1.fw.launches = s.fw.launches := by rw [h1.fw]
  refine .of_samePlaces (dropWaiting_samePlaces _ _) ?_
  exact ⟨fun i => by simp [Thread.reset], rfl, hlaunches, h1.away⟩

/-- A team of launch `n` stands on the observed core. -/
def standsHere (s : State) (n : Nat) : Bool := match s.fw.resident with | some r => r.1 == n | none => false

theorem standsHere_iff (s : State) (n : Nat) : standsHere s n = true ↔ ∃ r, s.fw.resident = some r ∧ r.1 = n := by
  unfold standsHere
  split <;> simp [*]

/-- The state in which an ended launch's team has left the observed core, where it stood there. -/
def teamLeft (s : State) (n : Nat) : State := if standsHere s n then vacate s else s

theorem teamLeft_launches (s : State) (n : Nat) : (teamLeft s n).fw.launches = s.fw.launches := by
  unfold teamLeft
  split
  · exact (vacate_vacated s).launches
  · rfl

theorem teamLeft_resident {s : State} {n : Nat} {r : Nat × Nat × Nat × Nat} (h : s.fw.resident = some r) (hn : r.1 = n) :
    (teamLeft s n).fw.resident = none := by
  rw [teamLeft, if_pos ((standsHere_iff s n).mpr ⟨r, h, hn⟩)]
  exact (vacate_vacated s).resident

theorem endLaunch_fw {s : State} {n : Nat} {l : Launch} (st : Byte) (h : s.fw.launches[n]? = some l) :
    (endLaunch s n st).fw = { (teamLeft s n).fw with launches := s.fw.launches.set n { l with placed := [], st } } := by
  have hleft (u : State) (gone : Req → Bool) (f : Store → Store) (k : Nat) : (resvRetry ((dropWaiting u gone).bump.onSt f) k).fw = u.fw :=
    (resvRetry_outside _ _).fw.trans (dropWaiting_samePlaces (q := true) u gone).fw
  unfold endLaunch
  rw [h]
  dsimp only [mapRels]
  rw [hleft, ← teamLeft_launches s n]
  rfl

/-- The threads that still wait in tsk.park retire every iteration. -/
def parkedLeft (s : State) (n : Nat) : State :=
  if standsHere s n then (List.finRange 8).foldl (fun s i => if s.slots[i].mode = .dispatch then leaveAll s i else s) s else s

theorem parkedLeft_fw (s : State) (n : Nat) : (parkedLeft s n).fw = s.fw := by
  unfold parkedLeft
  split
  · refine foldl_keeps (fun (s : State) (i : Fin 8) => if s.slots[i].mode = .dispatch then leaveAll s i else s) State.fw (fun s i => ?_) _ s
    split <;> rfl
  · rfl

theorem launchCompletion_completes {s : State} {n : Nat} {l : Launch} (h : s.fw.launches[n]? = some l) (hst : l.st = 0) (hdone : teamsDone s n l = true)
    (hquiet : ∀ r, s.fw.resident = some r → r.1 = n → coreFinished s = true ∧ coreSettled s = true) :
    ∃ u, exec (.launchCompletion n) s = .next (endLaunch u n 1) ∧ u.fw = s.fw := by
  have hgo : ¬(l.st ≠ 0#8 ∨ teamsDone s n l = false ∨ (standsHere s n = true ∧ (coreFinished s && coreSettled s) = false)) := by
    rw [hdone]
    rintro (hne | hno | ⟨hhere, hbusy⟩)
    · exact hne hst
    · cases hno
    · obtain ⟨r, hr, hn⟩ := (standsHere_iff s n).mp hhere
      obtain ⟨hfinished, hsettled⟩ := hquiet r hr hn
      rw [hfinished, hsettled] at hbusy
      cases hbusy
  show ∃ u, execLaunchCompletion n s = .next (endLaunch u n 1) ∧ u.fw = s.fw
  unfold execLaunchCompletion
  rw [h]
  refine ⟨_, if_neg hgo, ?_⟩
  exact (writeRecord_outside ..).fw.trans ((fwTouchAll_outside ..).fw.trans (parkedLeft_fw s n))

theorem completed_launch {s u : State} {n : Nat} {l : Launch} (h : s.fw.launches[n]? = some l) (hu : u.fw = s.fw) :
    ((endLaunch u n 1).fw.launches[n]?).map (fun m => (m.st, m.placed)) = some (1, []) := by
  have hn : n < s.fw.launches.length := (List.getElem?_eq_some_iff.mp h).1
  rw [endLaunch_fw 1 (by rw [hu]; exact h), hu]
  dsimp only
  rw [List.getElem?_set_self hn]
  rfl

theorem completed_resident {s u : State} {n : Nat} {l : Launch} {r : Nat × Nat × Nat × Nat} (h : s.fw.launches[n]? = some l) (hu : u.fw = s.fw)
    (hr : s.fw.resident = some r) (hn : r.1 = n) : (endLaunch u n 1).fw.resident = none := by
  rw [endLaunch_fw 1 (by rw [hu]; exact h)]
  exact teamLeft_resident (by rw [hu]; exact hr) hn

-- ## Placement (R339, R340)

theorem setCrs_other {i : Fin 25} (l : List (Fin 25 × Word)) (t : Thread) (h : i ∉ l.map Prod.fst) :
    (l.foldl (fun (t : Thread) p => t.setCr p.1 p.2) t).cr[i] = t.cr[i] := by
  induction l generalizing t with
  | nil => rfl
  | cons p l ih =>
    obtain ⟨hp, hl⟩ := not_or.mp fun hin => h (List.mem_cons.mpr hin)
    exact (ih _ hl).trans (setCr_other _ _ hp)

/-- A thread at placement stands at user level. -/
theorem launchCr_status (s : State) (n team c : Nat) (l : Launch) (i : Fin 8) :
    (launchCr s n team c l i)[crStatus] = BitVec.ofNat 64 (6 + s.core.x.toNat * 2 ^ 20 + s.core.y.toNat * 2 ^ 30) := by
  unfold launchCr
  dsimp only
  rw [List.foldl_cons]
  refine (setCrs_other _ _ ?_).trans (setCr_same ..)
  show crStatus ∉ [crTid, crFeat, crTens, crShape, crCtx, crKvec, crQuant, crQleft, crFmt, crScale, crPsave]
  decide

section Threads

variable (s : State) (n team c : Nat) {l : Launch} {i : Fin 8} (hi : i.val < l.s)

include hi

theorem launchThread_runs (hk : c * l.s + i.val < l.nt) :
    let u := launchThread s n team c l i
    u.mode = .run ∧ u.pc = l.words[0] ∧ u.w[(0 : Fin 24)] = l.words[3] ∧ u.w[(1 : Fin 24)] = BitVec.ofNat 64 (c * l.s + i.val) ∧ u.sup = false := by
  unfold launchThread
  dsimp only
  rw [if_neg (Nat.not_le.mpr hi), if_neg (Nat.not_le.mpr hk)]
  refine ⟨rfl, rfl, by simp [Thread.clean], by simp [Thread.clean], ?_⟩
  show (launchCr s n team c l i)[crStatus].getLsbD 0 = false
  rw [launchCr_status, BitVec.getLsbD_ofNat]
  simp [Nat.testBit_zero]
  omega

theorem launchThread_ends (hk : l.nt ≤ c * l.s + i.val) : (launchThread s n team c l i).mode = .ended := by
  unfold launchThread
  dsimp only
  rw [if_neg (Nat.not_le.mpr hi), if_pos hk]

end Threads

/-- The place in its rectangle of the observed core. -/
def placeIn (s : State) (x y : Nat) (l : Launch) : Nat := (s.core.y.toNat - y) * l.w + (s.core.x.toNat - x)

theorem placeHere_slots (s : State) (n team x y : Nat) (l : Launch) (i : Fin 8) :
    SamePlace true (launchThread s n team (placeIn s x y l) l i) (placeHere s n team x y l).slots[i] := by
  have hdrop (u : State) (hu : u.slots = Vector.ofFn (launchThread s n team (placeIn s x y l) l)) (gone : Req → Bool) :
      SamePlace true (launchThread s n team (placeIn s x y l) l i) (dropWaiting u gone).slots[i] := by
    have h := (dropWaiting_samePlaces (q := true) u gone).slots i
    rw [hu] at h
    simpa using h
  exact hdrop _ rfl _

theorem placeHere_fw (s : State) (n team x y : Nat) (l : Launch) :
    (placeHere s n team x y l).fw = { s.fw with resident := some (n, team, x, y), chosen := false } :=
  (dropWaiting_samePlaces (q := true) _ _).fw

theorem initBarriers_samePlaces (s : State) (n team : Nat) (l : Launch) (gs : List Machine.Group) : SamePlaces q s (initBarriers s n team l gs) := by
  unfold initBarriers
  refine foldl_samePlaces (fun s g => foldl_samePlaces (fun s c => ?_) _ s) gs s
  split
  · exact onSt_samePlaces _ _
  · exact .refl s

/-- A launch with a team placed. -/
def withTeam (l : Launch) (team x y : Nat) : Launch := { l with placed := l.placed ++ [(team, coreNum x y)] }

theorem placement_places {s : State} {n team x y : Nat} {l : Launch} (hl : s.fw.launches[n]? = some l) (hst : l.st = 0) (hteam : team < l.teams)
    (hnew : (s.corners n).any (fun p => p.1 == team) = false) (hplace : placeable s n l l.words[5] x y = true) (hfree : s.fw.resident = none)
    (hserving : serving s = true) :
    ∃ u gs, exec (.placement n team x y) s =
        .next (initBarriers (if inRect s x y l.w l.h then placeHere u n team x y (withTeam l team x y) else u) n team (withTeam l team x y) gs) ∧
      u.core = s.core ∧ u.fw = { s.fw with launches := s.fw.launches.set n (withTeam l team x y) } := by
  have hgo : ¬(serving s = false ∨ l.st ≠ 0#8 ∨ l.teams ≤ team ∨ (s.corners n).any (fun p => p.1 == team) = true ∨ placeable s n l l.words[5] x y = false ∨
      (inRect s x y l.w l.h = true ∧ s.fw.resident.isSome = true)) := by
    rw [hserving, hnew, hplace, hfree, hst]
    simp [Nat.not_le.mpr hteam]
  show ∃ u gs, execPlacement n team x y s = _ ∧ _
  unfold execPlacement
  rw [hl]
  dsimp only
  obtain ⟨-, hcore, hfw⟩ := leaveThreads_rest (idleThreads n team l) _
  exact ⟨_, _, if_neg hgo, hcore, hfw⟩

end Sys2Proof.Proofs.Launches
end

section
/-! PROOF. The swap of the observed core's team and the restore of one that is out (R344), and the launches' obligation. -/

namespace Sys2Proof.Proofs.Swap

open Sys2Proof Sys2Proof.Machine Sys2Proof.Safety Sys2Proof.Slice0 Sys2Proof.Proofs.Words Sys2Proof.Proofs.Results Sys2Proof.Proofs.Engines Sys2Proof.Proofs.Tiles
  Sys2Proof.Proofs.Kill Sys2Proof.Proofs.Areas Sys2Proof.Proofs.Events Sys2Proof.Proofs.Units Sys2Proof.Proofs.Launches

variable {q : Bool}

-- ## The tracks and the banks are saved (R114, R129, R130, R139)

theorem countRealigned_samePlaces (s : State) (d : Nat) : SamePlaces q s (countRealigned s d) := .of_eq ⟨rfl, rfl, rfl, rfl⟩

theorem bump_samePlaces (s : State) : SamePlaces q s s.bump := .of_eq ⟨rfl, rfl, rfl, rfl⟩

theorem lostResult_samePlaces (s : State) (n : Fin 32) (slot : Fin 8) (tag : Nat) (port : RPort) : SamePlaces q s (lostResult s n slot tag port) := by
  unfold lostResult
  exact onSlot_samePlaces s slot fun _ => ⟨rfl, rfl, rfl, rfl, rfl, fun _ => rfl, fun _ _ => rfl, fun _ => ⟨rfl, rfl⟩⟩

theorem discardTrk_samePlaces (s : State) (n : Fin 32) (c : TrkCmd) : SamePlaces q s (discardTrk s n c) := by
  cases c with
  | read => exact lostResult_samePlaces ..
  | head => exact lostResult_samePlaces ..
  | copy => exact .of_eq ⟨rfl, rfl, rfl, rfl⟩
  | _ => exact .refl s

theorem poisonTrack_samePlaces (s : State) (n : Fin 32) (pos : Nat) : SamePlaces q s (poisonTrack s n pos) :=
  ((trackEvent_samePlaces s n pos 2 0x12).trans (foldl_samePlaces (fun s c => discardTrk_samePlaces s n c) _ _)).trans (setTrack_samePlaces ..)

theorem portAccess_samePlaces (s : State) (n : Fin 32) (h : Nat) {k : State → Track → State} (hk : ∀ s t, SamePlaces q s (k s t)) :
    SamePlaces q s (portAccess s n h k) := by
  unfold portAccess
  dsimp only
  have haligned := (countRealigned_samePlaces (q := q) s ((s.track n).align h).2.1).trans (setTrack_samePlaces _ n ((s.track n).align h).1)
  split
  · refine SamePlaces.trans ?_ (hk _ _)
    split
    · exact haligned.trans (trackEvent_samePlaces ..)
    · exact haligned
  · exact haligned.trans (poisonTrack_samePlaces ..)

theorem readCell_samePlaces (s : State) (n : Fin 32) (k : Track) (h : Nat) : SamePlaces q s (readCell s n k h).2.2 := by
  unfold readCell
  dsimp only
  split
  · exact .refl s
  · split
    · exact (trackEvent_samePlaces ..).trans (setTrack_samePlaces ..)
    · exact .refl s

theorem saveFrom_samePlaces (n : Fin 32) (m : Nat) (s : State) (h : Nat) (got : List (Nat × Quad)) (bad : List (Nat × Bool)) :
    SamePlaces q s (saveFrom s n h got bad m) := by
  induction m generalizing s h got bad with
  | zero => exact setTrack_samePlaces ..
  | succ m ih =>
    have hread := portAccess_samePlaces (q := q) s n h (fun s t => readCell_samePlaces s n t h)
    unfold saveFrom
    dsimp only
    split
    · exact hread.trans (setTrack_samePlaces ..)
    · exact hread.trans (ih ..)

theorem saveTrack_samePlaces (s : State) (n : Fin 32) : SamePlaces q s (saveTrack s n) := by
  unfold saveTrack
  dsimp only
  split
  · exact countRealigned_samePlaces ..
  · exact (countRealigned_samePlaces ..).trans (saveFrom_samePlaces ..)

theorem saveBanks_samePlaces (gone : Nat → Bool) (s : State) : SamePlaces q s (saveBanks gone s) :=
  foldl_samePlaces (fun s w => samePlaces_of_change (scrubWord_change s w)) _ s

/-- Every wait in sys.mwait ends, and what the team leaves is read. -/
def teamSaved (s : State) (gone : Nat → Bool) : State :=
  saveBanks gone ((List.finRange 32).foldl saveTrack ((List.finRange 8).foldl (fun s i => wakeSlot s i 3) s)).bump

theorem teamSaved_samePlaces (s : State) (gone : Nat → Bool) : SamePlaces q s (teamSaved s gone) := by
  have hwoken : SamePlaces q s ((List.finRange 8).foldl (fun s i => wakeSlot s i 3) s) := foldl_samePlaces (fun s i => wakeSlot_samePlaces s i 3) _ s
  refine SamePlaces.trans ?_ (saveBanks_samePlaces gone _)
  exact (hwoken.trans (foldl_samePlaces saveTrack_samePlaces _ _)).trans (bump_samePlaces _)

-- ## The swap

theorem dropInterests_fw (l : List Interest) (s : State) :
    (l.foldl dropInterest s).fw = s.fw ∧ (l.foldl dropInterest s).images = s.images := by
  have hone (s : State) (i : Interest) : (dropInterest s i).fw = s.fw ∧ (dropInterest s i).images = s.images := by
    obtain ⟨n, hn⟩ := dropInterest_eq s i
    rw [hn]
    exact ⟨rfl, rfl⟩
  exact ⟨foldl_keeps dropInterest State.fw (fun s i => (hone s i).1) l s, foldl_keeps dropInterest State.images (fun s i => (hone s i).2) l s⟩

theorem takeImage_parts (s : State) (r : Nat × Nat × Nat × Nat) (l : Launch) (exile : Nat) :
    (takeImage s r l exile).launch = r ∧ ∀ i : Fin 8, (takeImage s r l exile).slots[i].w = s.slots[i].w ∧ (takeImage s r l exile).slots[i].pc = s.slots[i].pc := by
  refine ⟨rfl, fun i => ?_⟩
  simp [takeImage]

theorem mapRels_images (f : Nat → Nat) (g : Release → Release) (s : State) : (mapRels f g s).images.map (·.launch) = s.images.map (·.launch) := by
  simp [mapRels, Image.mapRel]

theorem mapRels_slots (f : Nat → Nat) (g : Release → Release) (s : State) (i : Fin 8) : (mapRels f g s).slots[i] = s.slots[i].mapRel g := by
  simp [mapRels]

/-- What the swap leaves: the team's image behind the others, and the core empty. -/
def SwappedOut (s : State) (r : Nat × Nat × Nat × Nat) (t : State) : Prop :=
  t.images.map (·.launch) = s.images.map (·.launch) ++ [r] ∧
  (∀ img, t.images.getLast? = some img → ∀ i : Fin 8, img.slots[i].w = s.slots[i].w ∧ img.slots[i].pc = s.slots[i].pc) ∧ t.fw.resident = none ∧
  ∀ i : Fin 8, t.slots[i].mode = .absent

theorem vacated_of {s u : State} (hfw : u.fw = s.fw) (haway : u.images.map (·.launch) = s.images.map (·.launch)) : Vacated s (vacate u) := by
  obtain ⟨hmode, hresident, hlaunches, himages⟩ := vacate_vacated u
  exact ⟨hmode, hresident, by rw [hlaunches, hfw], himages.trans haway⟩

theorem swappedOut_of {s v : State} {r : Nat × Nat × Nat × Nat} {img : Image} (hlaunch : img.launch = r)
    (hslots : ∀ i : Fin 8, img.slots[i].w = s.slots[i].w ∧ img.slots[i].pc = s.slots[i].pc) (hv : Vacated s v) (f : Nat → Nat) (g : Release → Release)
    (net : Net) (launches : List Launch) : SwappedOut s r (mapRels f g { v with images := v.images ++ [img], net, fw := { v.fw with launches } }) := by
  refine ⟨?_, fun img' h i => ?_, hv.resident, fun i => ?_⟩
  · rw [mapRels_images, List.map_append, hv.away, List.map_singleton, hlaunch]
  · have himg : img' = img.mapRel f g := by simpa [mapRels] using h.symm
    rw [himg]
    simpa [Image.mapRel, Thread.mapRel] using hslots i
  · rw [mapRels_slots]
    exact hv.mode i

section SwapOut

variable {s : State} {r : Nat × Nat × Nat × Nat} {l : Launch} (hr : s.fw.resident = some r) (hl : s.fw.launches[r.1]? = some l)

include hr hl

theorem teamSwapOut_chooses (h : s.fw.chosen = false) : exec .teamSwapOut s = .next { s with fw := { s.fw with chosen := true } } := by
  show execTeamSwapOut s = _
  unfold execTeamSwapOut
  rw [hr]
  dsimp only
  rw [hl]
  exact if_pos h

theorem teamSwapOut_leaves (hchosen : s.fw.chosen = true) (hfreezing : s.core.freezing = false)
    (hstopped : s.slots.all (fun t => t.stop == .yes && t.flight.isEmpty) = true) (hsettled : swapSettled s = true) :
    ∃ t, exec .teamSwapOut s = .next t ∧ SwappedOut s r t := by
  have hgo : ¬(s.core.freezing = true ∨ s.slots.all (fun t => t.stop == .yes && t.flight.isEmpty) = false ∨ swapSettled s = false) := by
    rw [hfreezing, hstopped, hsettled]; decide
  show ∃ t, execTeamSwapOut s = .next t ∧ SwappedOut s r t
  unfold execTeamSwapOut
  rw [hr]
  dsimp only
  rw [hl]
  dsimp only
  rw [if_neg (by rw [hchosen]; decide), if_neg hgo]
  generalize hu : saveBanks _ _ = u
  have hsaved : SamePlaces true s u := by rw [← hu]; exact teamSaved_samePlaces s _
  obtain ⟨hlaunch, himage⟩ := takeImage_parts u r l (exileUnit * (s.nextId + 1))
  have hslots (i : Fin 8) := (himage i).imp (·.trans (hsaved.slots i).w) (·.trans (hsaved.slots i).pc)
  obtain ⟨hfw, himages⟩ := dropInterests_fw u.core.interests u
  have hdropped (gone : Req → Bool) := dropWaiting_samePlaces (q := true) (u.core.interests.foldl dropInterest u) gone
  refine ⟨_, rfl, swappedOut_of hlaunch hslots (vacated_of ?_ ?_) ..⟩
  · exact (hdropped _).fw.trans (hfw.trans hsaved.fw)
  · exact (hdropped _).away.trans ((congrArg (List.map Image.launch) himages).trans hsaved.away)

end SwapOut

-- ## Barrier writes leave the waiting reservations (R98, R100, R359)

theorem wakeLine_resvWait (s : State) (line : Nat) : (wakeLine s line).st.resvWait = s.st.resvWait :=
  (foldl_keeps (fun (s : State) m => wakeEntry s m 1) (fun s => s.st.resvWait) (fun s m => by
    unfold wakeEntry
    split
    · rw [wakeSlot_st]
    · rfl) _ _).trans rfl

theorem touchLine_resvWait (s : State) (loc : Nat) : (touchLine s loc).1.st.resvWait = s.st.resvWait := by
  obtain ⟨_, _, _, _, _, _, _, h⟩ := ownedHome_change s (lineOf loc)
  unfold touchLine
  dsimp only
  rw [wakeLine_resvWait, h]
  rfl

theorem perform_resvWait (s : State) (p : PWrite) : (perform s p).1.st.resvWait = s.st.resvWait := by
  unfold perform
  split
  · rfl
  · obtain ⟨_, _, _, _, _, _, _, h⟩ := ownedHome_change s (lineOf p.loc)
    rw [touchLine_resvWait, h]
    rfl

/-- No request waits at an ordering point, and none for a reservation. -/
structure NoneWait (s : State) : Prop where
  waiting : s.st.waiting = []
  resvWait : s.st.resvWait = []

theorem performFree_noneWait {s : State} (h : NoneWait s) (p : PWrite) (tag : Nat) : NoneWait (performFree s p tag) := by
  have hp : NoneWait (perform s p).1 := ⟨(perform_waiting s p).trans h.waiting, (perform_resvWait s p).trans h.resvWait⟩
  unfold performFree
  dsimp only
  split
  · exact ⟨hp.waiting, hp.resvWait⟩
  · exact hp

theorem netWrite_noneWait {s : State} (h : NoneWait s) (loc v : Nat) : NoneWait (netWrite s loc v) := by
  have hfree (p : PWrite) (tag : Nat) : NoneWait (performFree { s.bump with wrote := true } p tag) :=
    performFree_noneWait (s := { s.bump with wrote := true }) ⟨h.waiting, h.resvWait⟩ p tag
  unfold netWrite
  dsimp only
  rw [service_idle (hfree _ _).waiting]
  exact hfree _ _

theorem rewriteBarriers_rest {s : State} (img : Image) (l : Launch) (x y : Nat) (h : NoneWait s) :
    SamePlaces q s (rewriteBarriers s img l x y) ∧ NoneWait (rewriteBarriers s img l x y) := by
  unfold rewriteBarriers
  generalize img.barriers = bs
  induction bs generalizing s with
  | nil => exact ⟨.refl s, h⟩
  | cons b bs ih =>
    rw [List.foldl_cons]
    split
    · obtain ⟨hsame, hnone⟩ := ih (netWrite_noneWait h _ _)
      exact ⟨(netWrite_samePlaces ..).trans hsame, hnone⟩
    · exact ih h

-- ## The restore (R344)

theorem reinterests_rest (l : List Interest) (s : State) :
    (l.foldl reinterest s).slots = s.slots ∧ (l.foldl reinterest s).fw = s.fw ∧ (l.foldl reinterest s).images = s.images :=
  ⟨foldl_keeps reinterest State.slots (fun _ _ => rfl) l s, foldl_keeps reinterest State.fw (fun _ _ => rfl) l s,
    foldl_keeps reinterest State.images (fun _ _ => rfl) l s⟩

/-- A thread's registers and its pc are the same. -/
structure SameRegisters (t u : Thread) : Prop where
  w : u.w = t.w
  q : u.q = t.q
  pc : u.pc = t.pc

theorem SameRegisters.trans {t u v : Thread} (h1 : SameRegisters t u) (h2 : SameRegisters u v) : SameRegisters t v :=
  ⟨h2.w.trans h1.w, h2.q.trans h1.q, h2.pc.trans h1.pc⟩

theorem unpark_sameRegisters (t : Thread) : SameRegisters t t.unpark := by
  unfold Thread.unpark Thread.enterMarker
  repeat' split
  all_goals exact ⟨rfl, rfl, rfl⟩

theorem setCr_sameRegisters (t : Thread) (i : Fin 25) (v : Word) : SameRegisters t (t.setCr i v) := ⟨rfl, rfl, rfl⟩

theorem moveThread_sameRegisters (m : Move) (core : Nat) (t : Thread) : SameRegisters t (m.thread core t) := by
  unfold Move.thread
  dsimp only
  split <;> exact ⟨rfl, rfl, rfl⟩

/-- A thread of an image on its new core; one that asked for migration goes on, with the features that it asked for where a die holds them (R380). -/
def restoredThread (s : State) (m : Move) (core : Nat) (union : Word) (t : Thread) : Thread :=
  let t1 := m.thread core t
  match t1.mode with
  | .migrate w => (t1.setCr crFeat (if (dieFor s union).isSome then w else t1.cr[crFeat])).unpark
  | _ => t1

theorem restoredThread_sameRegisters (s : State) (m : Move) (core : Nat) (union : Word) (t : Thread) : SameRegisters t (restoredThread s m core union t) := by
  have hmoved := moveThread_sameRegisters m core t
  unfold restoredThread
  dsimp only
  split
  · exact (hmoved.trans (setCr_sameRegisters ..)).trans (unpark_sameRegisters _)
  · exact hmoved

/-- What the restore leaves: the image's threads with their registers, on the corner. -/
def Restored (img : Image) (others : List Image) (x y : Nat) (t : State) : Prop :=
  t.images.map (·.launch) = others.map (·.launch) ∧ t.fw.resident = some (img.launch.1, img.launch.2.1, x, y) ∧
  ∀ i : Fin 8, t.slots[i].w = img.slots[i].w ∧ t.slots[i].q = img.slots[i].q ∧ t.slots[i].pc = img.slots[i].pc

theorem restoreTeam_restores {s : State} {img : Image} {others : List Image} (x y : Nat) (l : Launch) (m : Move) (himages : s.images = img :: others)
    (hreqs : img.reqs = []) (hwaits : img.waits = []) (hsettled : img.settled = []) (hresv : img.resvWait = []) (hnone : NoneWait s) :
    ∃ t, restoreTeam x y l m s = .next t ∧ Restored img others x y t := by
  unfold restoreTeam
  rw [himages]
  dsimp only
  rw [hreqs, hwaits, hsettled]
  generalize hs1 : State.reclock _ s = s1
  generalize hcore : m.core (coreNum img.core.x.toNat img.core.y.toNat) = core at hs1
  generalize hunion : restoreUnion img l = union at hs1
  have hslots : s1.slots = img.slots.map (restoredThread s m core union) := by rw [← hs1]; rfl
  have hresident : s1.fw.resident = some (img.launch.1, img.launch.2.1, x, y) := by rw [← hs1]; rfl
  have hothers : s1.images = others := by rw [← hs1]; rfl
  have hnone1 : NoneWait s1 := by
    refine ⟨?_, ?_⟩ <;> rw [← hs1]
    · exact hnone.waiting
    · simp [State.reclock, restoreStore, hnone.resvWait, hresv]
  obtain ⟨hsame, hnone2⟩ := rewriteBarriers_rest (q := true) img l x y hnone1
  obtain ⟨hkept, hfw, himgs⟩ := reinterests_rest img.core.interests (rewriteBarriers s1 img l x y)
  refine ⟨img.core.interests.foldl reinterest (rewriteBarriers s1 img l x y), ?_, ?_, ?_, fun i => ?_⟩
  · simp only [List.map_nil, List.foldl_nil, hnone2.resvWait, List.length_nil, resvRetry]
  · rw [himgs, hsame.away, hothers]
  · rw [hfw, hsame.fw, hresident]
  · have hthread : s1.slots[i] = restoredThread s m core union img.slots[i] := by rw [hslots]; simp
    have hregs := restoredThread_sameRegisters s m core union img.slots[i]
    rw [← hthread] at hregs
    rw [hkept]
    exact ⟨(hsame.slots i).w.trans hregs.w, (hsame.slots i).q.trans hregs.q, (hsame.slots i).pc.trans hregs.pc⟩

theorem mapRels_noneWait (f : Nat → Nat) (g : Release → Release) {s : State} (h : NoneWait s) : NoneWait (mapRels f g s) := by
  obtain ⟨hwaiters, hwaitq⟩ := List.append_eq_nil_iff.mp h.waiting
  refine ⟨?_, h.resvWait⟩
  simp [mapRels, Store.waiting, List.map_eq_nil_iff.mp hwaiters, hwaitq]

theorem teamRestore_restores {s : State} {x y : Nat} {img : Image} {others : List Image} {l : Launch} (himages : s.images = img :: others)
    (hl : s.fw.launches[img.launch.1]? = some l) (hplace : restorable s img l x y = true) (hfreezing : s.core.freezing = false) (hreqs : img.reqs = [])
    (hwaits : img.waits = []) (hsettled : img.settled = []) (hresv : img.resvWait = []) (hnone : NoneWait s) :
    ∃ t, exec (.teamRestore x y) s = .next t ∧ Restored img others x y t := by
  have hgo : ¬(s.core.freezing = true ∨ restorable s img l x y = false) := by rw [hfreezing, hplace]; decide
  show ∃ t, execTeamRestore x y s = .next t ∧ _
  unfold execTeamRestore
  rw [himages]
  dsimp only
  rw [hl]
  dsimp only
  rw [if_neg hgo]
  generalize Move.mk _ _ _ _ _ _ = m
  generalize m.back img.exile = back
  have hmapped : (mapRels back (Release.mapSrc back) s).images =
      img.mapRel back (Release.mapSrc back) :: others.map (Image.mapRel back (Release.mapSrc back)) := by simp [mapRels, himages]
  obtain ⟨t, ht, himgs, hresident, hslots⟩ := restoreTeam_restores x y l m hmapped (by simp [Image.mapRel, hreqs]) hwaits hsettled hresv
    (mapRels_noneWait back (Release.mapSrc back) hnone)
  refine ⟨t, ht, ?_, hresident, fun i => ?_⟩
  · rw [himgs, List.map_map]
    rfl
  · simpa [Image.mapRel, Thread.mapRel] using hslots i

-- ## The obligation

theorem samePlace_sup {t u : Thread} (h : SamePlace q t u) : u.sup = t.sup := congrArg (BitVec.getLsbD · 0) (h.cr crStatus (by decide))

/-- Settles O52, clause by clause. -/
theorem launchesProceed : Obligations.LaunchesProceed := by
  unfold Obligations.LaunchesProceed
  intro s
  refine ⟨fun cid q qu c ctx loc head a1 a2 ws hqu hctx hloc hhead hws hserving hfull hfree => ?take,
    fun n team x y l hl hst hteam hnew hplace hfree hserving => ?place, fun n l hl hst hdone hquiet => ?complete,
    fun r l hr hl => ⟨teamSwapOut_chooses hr hl, teamSwapOut_leaves hr hl⟩,
    fun x y img others l himages hl hplace hfreezing hreqs hwaits hsettled hresv hnoresv hnowait =>
      teamRestore_restores himages hl hplace hfreezing hreqs hwaits hsettled hresv ⟨hnowait, hnoresv⟩⟩
  case take =>
    obtain ⟨t, ht, hqueues, hlaunches⟩ := launchSlotTake_takes hqu hctx hloc hhead hws hserving hfull hfree
    refine ⟨t, ht, ?_, hlaunches⟩
    rw [hqueues]
    exact mem_takenQueues hqu _
  case place =>
    obtain ⟨u, gs, ht, hcore, hfw⟩ := placement_places hl hst hteam hnew hplace hfree hserving
    have hn : n < s.fw.launches.length := (List.getElem?_eq_some_iff.mp hl).1
    have hsame (v : State) := initBarriers_samePlaces (q := true) v n team (withTeam l team x y) gs
    refine ⟨_, ht, ?_, fun hin => ?_⟩
    · have hplaced : (if inRect s x y l.w l.h then placeHere u n team x y (withTeam l team x y) else u).fw.launches = u.fw.launches := by
        split
        · rw [placeHere_fw]
        · rfl
      rw [(hsame _).fw, hplaced, hfw]
      dsimp only
      rw [List.getElem?_set_self hn]
      rfl
    · rw [if_pos hin, (hsame _).fw, placeHere_fw]
      refine ⟨rfl, fun i hi => ?_⟩
      have hthread := (placeHere_slots u n team x y (withTeam l team x y) i).trans ((hsame _).slots i)
      have hplaceIn : placeIn u x y (withTeam l team x y) = (s.core.y.toNat - y) * l.w + (s.core.x.toNat - x) := by rw [placeIn, hcore]; rfl
      rw [hplaceIn] at hthread
      refine ⟨fun hk => ?_, fun hk => ?_⟩
      · obtain ⟨hmode, hpc, h0, h1, hsup⟩ := launchThread_runs u n team _ (l := withTeam l team x y) hi hk
        refine ⟨(hthread.mode (by rw [hmode]; exact nofun)).trans hmode, hthread.pc.trans hpc, ?_, ?_, (samePlace_sup hthread).trans hsup⟩
        · rw [hthread.w]; exact h0
        · rw [hthread.w]; exact h1
      · have hmode := launchThread_ends u n team _ (l := withTeam l team x y) hi hk
        exact (hthread.mode (by rw [hmode]; exact nofun)).trans hmode
  case complete =>
    obtain ⟨u, ht, hu⟩ := launchCompletion_completes hl hst hdone hquiet
    exact ⟨_, ht, completed_launch hl hu, fun r hr hn => completed_resident hl hu hr hn⟩

end Sys2Proof.Proofs.Swap
end
